-- ==== Sys2Proof/Word.lean ====
section
/-! DEFINITION. The word types of the machine. -/

namespace Sys2Proof

/-- One byte of a buffer or of memory. -/
abbrev W8 := BitVec 8
/-- A 16-bit field. -/
abbrev W16 := BitVec 16
/-- An instruction word (R72) or one container of a tile row (R108). -/
abbrev W32 := BitVec 32
/-- A scalar register (R107), an address before it is used as a key, a CSR. -/
abbrev W64 := BitVec 64

end Sys2Proof
end

