-- ==== Sys2Proof/Syntax.lean ====
section
/-! DEFINITION. The syntax of the machine: one constructor of `Instr` for every row of spec/opcode_table.json. The first
180 are the instruction words; each carries its header (SYNC and IDLE, R72) and its operand fields, raw, as the word holds
them. The other 93 are the steps that are not words: each names the agent or the item in flight it is about. -/

namespace Sys2Proof

/-- The header every word bears (R72): the SYNC bits [31:28] and the IDLE field [27:25]. -/
structure Hdr where
  y : BitVec 4
  i : BitVec 3
  deriving DecidableEq, Repr

/-- WP: wait on the token from the previous sequencer. -/
def Hdr.wp (h : Hdr) : Bool := h.y.getLsbD 3
/-- WN: wait on the token from the next sequencer. -/
def Hdr.wn (h : Hdr) : Bool := h.y.getLsbD 2
/-- SP: signal the previous sequencer. -/
def Hdr.sp (h : Hdr) : Bool := h.y.getLsbD 1
/-- SN: signal the next sequencer. -/
def Hdr.sn (h : Hdr) : Bool := h.y.getLsbD 0

/-- The header of a word without SYNC bits and idle cycles (R73). -/
def Hdr.none : Hdr := { y := 0, i := 0 }

/-- The four sequencers of a core, in the order of the token ring and of R124. -/
inductive SeqId where
  | ld | cm | st | ct
  deriving DecidableEq, Repr

/-- The engines whose queued commands start by themselves (R159, R199). -/
inductive EngineUnit where
  | matrix | lookup | epilogue | scatter
  deriving DecidableEq, Repr

/-- Where a parity or ECC error was found (R280, R281): `value` in something the region writes before it reads (repairable),
`liveInput` in one of the places R281 lists, `bufferSingle` and `bufferDouble` a single-bit and a double-bit error of the W or A space. -/
inductive SoftSite where
  | value | liveInput | bufferSingle | bufferDouble
  deriving DecidableEq, Repr

/-- How an HBM4E transfer went (R315, R316): clean, clean after some replays, corrected by the array ECC, failed after eight
replays, or returned poisoned. -/
inductive LinkResult where
  | clean | replayed (times : Nat) | corrected | failed | poisoned
  deriving DecidableEq, Repr

/-- The PCIe function an access of the host arrives at (R320). -/
inductive HostFn where
  | pf | vf (k : Nat)
  deriving DecidableEq, Repr

/-- An access of the host to device memory or hinge SRAM, or a read of `n` bytes of a function's BAR0, the address being the offset there (R222, R320, R321). -/
inductive HostOp where
  | read (n : Nat)
  | write (bytes : List W8)
  | fetchAdd (n : Nat) (v : W64)
  | swap (n : Nat) (v : W64)
  | cas (n : Nat) (expect v : W64)
  | bar (n : Nat)
  deriving DecidableEq, Repr

/-- The quota fields of a casement's register block (R296). -/
inductive QuotaField where
  | mina | capa | minr | capr | minb | capb | minhr | minha | minhb | caph | minw | capw | mine | cape | minl | capl
  deriving DecidableEq, Repr

/-- What firmware can retire (R27, R308). -/
inductive RetireUnit where
  | cluster (c : Nat) | die (d : Nat) | stack (j : Nat) | channel (c : Nat)
  deriving DecidableEq, Repr

/-- What an SES operation carries beside its payload: the sender, the job id, and whether it is a send (R327, R329). -/
structure SesHead where
  sender : BitVec 128
  jobid : BitVec 24
  send : Bool
  deriving DecidableEq, Repr

/-- One step of the part. Words first, then events, in the order of spec/opcode_table.json, but for INSTRUCTION_FETCH_COMPLETE, which stands before
the events that come from outside. -/
inductive Instr where
  /-- NOP (R399) -/
  | nop (h : Hdr)
  /-- TRAP (R425) -/
  | trap (h : Hdr) (a : BitVec 5)
  /-- ERET (R375) -/
  | eret (h : Hdr)
  /-- ERET_SA (R375) -/
  | eretSa (h : Hdr) (a : BitVec 5)
  /-- BRK (R358) -/
  | brk (h : Hdr)
  /-- FENCE_FULL (R376) -/
  | fenceFull (h : Hdr) (s : BitVec 3)
  /-- FENCE_ACQ (R376) -/
  | fenceAcq (h : Hdr) (s : BitVec 3)
  /-- FENCE_REL (R376) -/
  | fenceRel (h : Hdr) (s : BitVec 3)
  /-- XFENCE (R445) -/
  | xfence (h : Hdr)
  /-- STEP (R420) -/
  | step (h : Hdr) (l : BitVec 5)
  /-- REALIGN (R410) -/
  | realign (h : Hdr) (a : BitVec 5)
  /-- RCMT (R409) -/
  | rcmt (h : Hdr) (a b : BitVec 5)
  /-- TAIL (R422) -/
  | tail (h : Hdr)
  /-- MSEL (R397) -/
  | msel (h : Hdr) (m : BitVec 5)
  /-- IDLE (R379) -/
  | idle (h : Hdr) (n : BitVec 14)
  /-- RGN_T (R412) -/
  | rgnT (h : Hdr) (b s m : BitVec 5)
  /-- RGN (R412) -/
  | rgn (h : Hdr) (b s m : BitVec 5)
  /-- CSRR (R364) -/
  | csrr (h : Hdr) (d : BitVec 5) (c : BitVec 9)
  /-- CSRW (R364) -/
  | csrw (h : Hdr) (a : BitVec 5) (c : BitVec 9)
  /-- ADD (R348) -/
  | add (h : Hdr) (d a b : BitVec 5)
  /-- SUB (R421) -/
  | sub (h : Hdr) (d a b : BitVec 5)
  /-- AND (R348) -/
  | and (h : Hdr) (d a b : BitVec 5)
  /-- OR (R400) -/
  | or (h : Hdr) (d a b : BitVec 5)
  /-- XOR (R448) -/
  | xor (h : Hdr) (d a b : BitVec 5)
  /-- SHL (R414) -/
  | shl (h : Hdr) (d a b : BitVec 5)
  /-- SHR (R414) -/
  | shr (h : Hdr) (d a b : BitVec 5)
  /-- SRA (R414) -/
  | sra (h : Hdr) (d a b : BitVec 5)
  /-- SLT (R416) -/
  | slt (h : Hdr) (d a b : BitVec 5)
  /-- SLTU (R416) -/
  | sltu (h : Hdr) (d a b : BitVec 5)
  /-- MIN (R393) -/
  | min (h : Hdr) (d a b : BitVec 5)
  /-- MAX (R393) -/
  | max (h : Hdr) (d a b : BitVec 5)
  /-- MINU (R393) -/
  | minu (h : Hdr) (d a b : BitVec 5)
  /-- MAXU (R393) -/
  | maxu (h : Hdr) (d a b : BitVec 5)
  /-- MUL (R398) -/
  | mul (h : Hdr) (d a b : BitVec 5)
  /-- MULH (R398) -/
  | mulh (h : Hdr) (d a b : BitVec 5)
  /-- MULHU (R398) -/
  | mulhu (h : Hdr) (d a b : BitVec 5)
  /-- DIV (R368) -/
  | div (h : Hdr) (d a b : BitVec 5)
  /-- DIVU (R368) -/
  | divu (h : Hdr) (d a b : BitVec 5)
  /-- REM (R411) -/
  | rem (h : Hdr) (d a b : BitVec 5)
  /-- REMU (R411) -/
  | remu (h : Hdr) (d a b : BitVec 5)
  /-- CLZ (R361) -/
  | clz (h : Hdr) (d a : BitVec 5) (w : BitVec 2)
  /-- FFS (R378) -/
  | ffs (h : Hdr) (d a : BitVec 5) (w : BitVec 2)
  /-- POPC (R407) -/
  | popc (h : Hdr) (d a : BitVec 5) (w : BitVec 2)
  /-- ADDI (R349) -/
  | addi (h : Hdr) (d a : BitVec 5) (k : BitVec 9)
  /-- ANDI (R349) -/
  | andi (h : Hdr) (d a : BitVec 5) (k : BitVec 9)
  /-- ORI (R400) -/
  | ori (h : Hdr) (d a : BitVec 5) (k : BitVec 9)
  /-- XORI (R448) -/
  | xori (h : Hdr) (d a : BitVec 5) (k : BitVec 9)
  /-- SLTI (R416) -/
  | slti (h : Hdr) (d a : BitVec 5) (k : BitVec 9)
  /-- SHLI (R414) -/
  | shli (h : Hdr) (d a : BitVec 5) (n : BitVec 6)
  /-- SHRI (R414) -/
  | shri (h : Hdr) (d a : BitVec 5) (n : BitVec 6)
  /-- SRAI (R414) -/
  | srai (h : Hdr) (d a : BitVec 5) (n : BitVec 6)
  /-- LI (R386) -/
  | li (h : Hdr) (d : BitVec 5) (k : BitVec 14)
  /-- LIT (R387) -/
  | lit (h : Hdr) (d : BitVec 5) (k : W32)
  /-- LITH (R387) -/
  | lith (h : Hdr) (d : BitVec 5) (k : W32)
  /-- LD_B (R385) -/
  | ldB (h : Hdr) (d a : BitVec 5) (n : BitVec 6)
  /-- LD_BU (R385) -/
  | ldBu (h : Hdr) (d a : BitVec 5) (n : BitVec 6)
  /-- LD_H (R385) -/
  | ldH (h : Hdr) (d a : BitVec 5) (n : BitVec 6)
  /-- LD_HU (R385) -/
  | ldHu (h : Hdr) (d a : BitVec 5) (n : BitVec 6)
  /-- LD_W (R385) -/
  | ldW (h : Hdr) (d a : BitVec 5) (n : BitVec 6)
  /-- LD_WU (R385) -/
  | ldWu (h : Hdr) (d a : BitVec 5) (n : BitVec 6)
  /-- LD_D (R385) -/
  | ldD (h : Hdr) (d a : BitVec 5) (n : BitVec 6)
  /-- LD_D_AQ (R385) -/
  | ldDAq (h : Hdr) (d a : BitVec 5) (n : BitVec 6)
  /-- ST_B (R419) -/
  | stB (h : Hdr) (v a : BitVec 5) (n : BitVec 6)
  /-- ST_H (R419) -/
  | stH (h : Hdr) (v a : BitVec 5) (n : BitVec 6)
  /-- ST_W (R419) -/
  | stW (h : Hdr) (v a : BitVec 5) (n : BitVec 6)
  /-- ST_D (R419) -/
  | stD (h : Hdr) (v a : BitVec 5) (n : BitVec 6)
  /-- ST_W_RL (R419) -/
  | stWRl (h : Hdr) (v a : BitVec 5) (n : BitVec 6)
  /-- ST_D_RL (R419) -/
  | stDRl (h : Hdr) (v a : BitVec 5) (n : BitVec 6)
  /-- AMOC_ADD (R350) -/
  | amocAdd (h : Hdr) (a b d : BitVec 5) (z : Bool)
  /-- AMOC_AND (R350) -/
  | amocAnd (h : Hdr) (a b d : BitVec 5) (z : Bool)
  /-- AMOC_OR (R350) -/
  | amocOr (h : Hdr) (a b d : BitVec 5) (z : Bool)
  /-- AMOC_XOR (R350) -/
  | amocXor (h : Hdr) (a b d : BitVec 5) (z : Bool)
  /-- AMOC_XCHG (R350) -/
  | amocXchg (h : Hdr) (a b d : BitVec 5) (z : Bool)
  /-- AMOC_MAX (R350) -/
  | amocMax (h : Hdr) (a b d : BitVec 5) (z : Bool)
  /-- AMOC_MIN (R350) -/
  | amocMin (h : Hdr) (a b d : BitVec 5) (z : Bool)
  /-- AMOC_CAS (R350) -/
  | amocCas (h : Hdr) (a b d : BitVec 5) (z : Bool)
  /-- BEQ (R356) -/
  | beq (h : Hdr) (a b : BitVec 5) (k : BitVec 9)
  /-- BNE (R356) -/
  | bne (h : Hdr) (a b : BitVec 5) (k : BitVec 9)
  /-- BLT (R356) -/
  | blt (h : Hdr) (a b : BitVec 5) (k : BitVec 9)
  /-- BGE (R356) -/
  | bge (h : Hdr) (a b : BitVec 5) (k : BitVec 9)
  /-- BLTU (R356) -/
  | bltu (h : Hdr) (a b : BitVec 5) (k : BitVec 9)
  /-- BGEU (R356) -/
  | bgeu (h : Hdr) (a b : BitVec 5) (k : BitVec 9)
  /-- BEQZ (R356) -/
  | beqz (h : Hdr) (a : BitVec 5) (k : BitVec 14)
  /-- BNEZ (R356) -/
  | bnez (h : Hdr) (a : BitVec 5) (k : BitVec 14)
  /-- LOOP (R391) -/
  | loop (h : Hdr) (a : BitVec 5) (k : BitVec 14)
  /-- JMP (R380) -/
  | jmp (h : Hdr) (k : BitVec 19)
  /-- JAL (R380) -/
  | jal (h : Hdr) (k : BitVec 19)
  /-- JR (R381) -/
  | jr (h : Hdr) (a : BitVec 5)
  /-- BSTAT (R359) -/
  | bstat (h : Hdr) (a b : BitVec 5) (k : BitVec 9)
  /-- VADD (R430) -/
  | vadd (h : Hdr) (d a b : BitVec 5) (m : Bool)
  /-- VSUB (R430) -/
  | vsub (h : Hdr) (d a b : BitVec 5) (m : Bool)
  /-- VMUL (R430) -/
  | vmul (h : Hdr) (d a b : BitVec 5) (m : Bool)
  /-- VMIN (R430) -/
  | vmin (h : Hdr) (d a b : BitVec 5) (m : Bool)
  /-- VMAX (R430) -/
  | vmax (h : Hdr) (d a b : BitVec 5) (m : Bool)
  /-- VABSD (R430) -/
  | vabsd (h : Hdr) (d a b : BitVec 5) (m : Bool)
  /-- VMOV (R431) -/
  | vmov (h : Hdr) (d a : BitVec 5) (m : Bool)
  /-- VSEL (R431) -/
  | vsel (h : Hdr) (d a b : BitVec 5)
  /-- VFMA (R440) -/
  | vfma (h : Hdr) (d a b : BitVec 5) (m : Bool)
  /-- VFMS (R440) -/
  | vfms (h : Hdr) (d a b : BitVec 5) (m : Bool)
  /-- VFNMA (R440) -/
  | vfnma (h : Hdr) (d a b : BitVec 5) (m : Bool)
  /-- VIADD (R432) -/
  | viadd (h : Hdr) (d a b : BitVec 5) (m : Bool)
  /-- VISUB (R432) -/
  | visub (h : Hdr) (d a b : BitVec 5) (m : Bool)
  /-- VIMUL (R432) -/
  | vimul (h : Hdr) (d a b : BitVec 5) (m : Bool)
  /-- VIMIN (R432) -/
  | vimin (h : Hdr) (d a b : BitVec 5) (m : Bool)
  /-- VIMAX (R432) -/
  | vimax (h : Hdr) (d a b : BitVec 5) (m : Bool)
  /-- VAND (R432) -/
  | vand (h : Hdr) (d a b : BitVec 5) (m : Bool)
  /-- VOR (R432) -/
  | vor (h : Hdr) (d a b : BitVec 5) (m : Bool)
  /-- VXOR (R432) -/
  | vxor (h : Hdr) (d a b : BitVec 5) (m : Bool)
  /-- VSHL (R444) -/
  | vshl (h : Hdr) (d a b : BitVec 5) (m : Bool)
  /-- VSHR (R444) -/
  | vshr (h : Hdr) (d a b : BitVec 5) (m : Bool)
  /-- VSRA (R444) -/
  | vsra (h : Hdr) (d a b : BitVec 5) (m : Bool)
  /-- VCLZ (R436) -/
  | vclz (h : Hdr) (d a w : BitVec 5) (m : Bool)
  /-- VFFS (R436) -/
  | vffs (h : Hdr) (d a w : BitVec 5) (m : Bool)
  /-- VPOPC (R436) -/
  | vpopc (h : Hdr) (d a w : BitVec 5) (m : Bool)
  /-- VCMP_FEQ (R437) -/
  | vcmpFeq (h : Hdr) (d a b : BitVec 5) (m : Bool)
  /-- VCMP_FLT (R437) -/
  | vcmpFlt (h : Hdr) (d a b : BitVec 5) (m : Bool)
  /-- VCMP_FLE (R437) -/
  | vcmpFle (h : Hdr) (d a b : BitVec 5) (m : Bool)
  /-- VCMP_FUN (R437) -/
  | vcmpFun (h : Hdr) (d a b : BitVec 5) (m : Bool)
  /-- VCMP_IEQ (R437) -/
  | vcmpIeq (h : Hdr) (d a b : BitVec 5) (m : Bool)
  /-- VCMP_ILT (R437) -/
  | vcmpIlt (h : Hdr) (d a b : BitVec 5) (m : Bool)
  /-- VCMP_ILTU (R437) -/
  | vcmpIltu (h : Hdr) (d a b : BitVec 5) (m : Bool)
  /-- VCVT_NAR (R438) -/
  | vcvtNar (h : Hdr) (d a : BitVec 5) (t : BitVec 4) (m s : Bool) (r : BitVec 2)
  /-- VCVT_WID (R438) -/
  | vcvtWid (h : Hdr) (d a : BitVec 5) (t : BitVec 4) (m : Bool)
  /-- VSFN_EXP2 (R443) -/
  | vsfnExp2 (h : Hdr) (d a : BitVec 5) (m : Bool)
  /-- VSFN_LOG2 (R443) -/
  | vsfnLog2 (h : Hdr) (d a : BitVec 5) (m : Bool)
  /-- VSFN_RCP (R443) -/
  | vsfnRcp (h : Hdr) (d a : BitVec 5) (m : Bool)
  /-- VSFN_RSQRT (R443) -/
  | vsfnRsqrt (h : Hdr) (d a : BitVec 5) (m : Bool)
  /-- VSFN_SQRT (R443) -/
  | vsfnSqrt (h : Hdr) (d a : BitVec 5) (m : Bool)
  /-- VSFN_TANH (R443) -/
  | vsfnTanh (h : Hdr) (d a : BitVec 5) (m : Bool)
  /-- VSFN_SIGM (R443) -/
  | vsfnSigm (h : Hdr) (d a : BitVec 5) (m : Bool)
  /-- VSFN_SILU (R443) -/
  | vsfnSilu (h : Hdr) (d a : BitVec 5) (m : Bool)
  /-- VROTR (R433) -/
  | vrotr (h : Hdr) (d a n : BitVec 5) (m : Bool)
  /-- VROTR_HI (R433) -/
  | vrotrHi (h : Hdr) (d a n : BitVec 5) (m : Bool)
  /-- VROTC (R433) -/
  | vrotc (h : Hdr) (d a n : BitVec 5) (m : Bool)
  /-- VBCR (R433) -/
  | vbcr (h : Hdr) (d a c : BitVec 5) (m : Bool)
  /-- VBCR_HI (R433) -/
  | vbcrHi (h : Hdr) (d a c : BitVec 5) (m : Bool)
  /-- VBCC (R433) -/
  | vbcc (h : Hdr) (d a r : BitVec 5) (m : Bool)
  /-- VREDR_ADD (R442) -/
  | vredrAdd (h : Hdr) (d a : BitVec 5) (m : Bool)
  /-- VREDR_MAX (R442) -/
  | vredrMax (h : Hdr) (d a : BitVec 5) (m : Bool)
  /-- VREDR_MIN (R442) -/
  | vredrMin (h : Hdr) (d a : BitVec 5) (m : Bool)
  /-- VREDR_IADD (R442) -/
  | vredrIadd (h : Hdr) (d a : BitVec 5) (m : Bool)
  /-- VREDC_ADD (R442) -/
  | vredcAdd (h : Hdr) (d a : BitVec 5) (m : Bool)
  /-- VREDC_MAX (R442) -/
  | vredcMax (h : Hdr) (d a : BitVec 5) (m : Bool)
  /-- VREDC_MIN (R442) -/
  | vredcMin (h : Hdr) (d a : BitVec 5) (m : Bool)
  /-- VREDC_IADD (R442) -/
  | vredcIadd (h : Hdr) (d a : BitVec 5) (m : Bool)
  /-- VBCS (R435) -/
  | vbcs (h : Hdr) (d a : BitVec 5) (m : Bool)
  /-- VEXT (R435) -/
  | vext (h : Hdr) (d a c : BitVec 5)
  /-- VEXT_HI (R435) -/
  | vextHi (h : Hdr) (d a c : BitVec 5)
  /-- VRAND (R441) -/
  | vrand (h : Hdr) (d a : BitVec 5) (m : Bool)
  /-- OSMX (R402) -/
  | osmx (h : Hdr) (e a b : BitVec 5)
  /-- OSMF (R403) -/
  | osmf (h : Hdr) (d e : BitVec 5)
  /-- PCFG (R405) -/
  | pcfg (h : Hdr) (g a : BitVec 5)
  /-- PRWD (R405) -/
  | prwd (h : Hdr) (g : BitVec 5)
  /-- SHLD (R415) -/
  | shld (h : Hdr) (x a : BitVec 5)
  /-- MMA (R395) -/
  | mma (h : Hdr) (c a b : BitVec 5) (z f r : Bool)
  /-- LMMA (R389) -/
  | lmma (h : Hdr) (c q w : BitVec 5) (z f : Bool)
  /-- TBUILD_Z (R423) -/
  | tbuildZ (h : Hdr) (q a : BitVec 5)
  /-- TBUILD_C (R423) -/
  | tbuildC (h : Hdr) (q a : BitVec 5)
  /-- TBUILD_C2 (R423) -/
  | tbuildC2 (h : Hdr) (q a : BitVec 5)
  /-- TINV (R424) -/
  | tinv (h : Hdr) (q : BitVec 5)
  /-- TSPILL (R424) -/
  | tspill (h : Hdr) (q a : BitVec 5)
  /-- TFILL (R424) -/
  | tfill (h : Hdr) (q a : BitVec 5)
  /-- CBLD (R360) -/
  | cbld (h : Hdr) (a : BitVec 5)
  /-- EPI (R372) -/
  | epi (h : Hdr) (a : BitVec 5)
  /-- CPY (R362) -/
  | cpy (h : Hdr) (a : BitVec 5)
  /-- SACC_FADD (R413) -/
  | saccFadd (h : Hdr) (d x v : BitVec 5)
  /-- SACC_FMAX (R413) -/
  | saccFmax (h : Hdr) (d x v : BitVec 5)
  /-- SACC_FMIN (R413) -/
  | saccFmin (h : Hdr) (d x v : BitVec 5)
  /-- SACC_IADD (R413) -/
  | saccIadd (h : Hdr) (d x v : BitVec 5)
  /-- ARM (R354) -/
  | arm (h : Hdr) (a b : BitVec 5)
  /-- AWAIT (R354) -/
  | await (h : Hdr) (a b : BitVec 5)
  /-- ARRV (R354) -/
  | arrv (h : Hdr) (a b : BitVec 5)
  /-- AWAIT_X (R354) -/
  | awaitX (h : Hdr) (a b : BitVec 5)
  /-- XGRANT (R446) -/
  | xgrant (h : Hdr) (a b : BitVec 5) (k : BitVec 2)
  /-- XSEND (R447) -/
  | xsend (h : Hdr) (a b : BitVec 5) (k : BitVec 2)
  /-- XSTAT (R449) -/
  | xstat (h : Hdr) (a d : BitVec 5)
  /-- EMIT (R370) -/
  | emit (h : Hdr) (a b : BitVec 5)
  /-- MIRR (R394) -/
  | mirr (h : Hdr) (a b : BitVec 5)
  /-- TSUB (R426) -/
  | tsub (h : Hdr) (a b : BitVec 5)
  /-- QCTL (R408) -/
  | qctl (h : Hdr) (a b : BitVec 5)
  /-- TLBI_CASEMENT (R289) -/
  | tlbiCasement (core : Nat)
  /-- TLBI_PAGE (R289) -/
  | tlbiPage (core : Nat)
  /-- RESULT_LANDS (R122) -/
  | resultLands (core id : Nat)
  /-- LOAD_VALUE_LANDS (R367) -/
  | loadValueLands (id : Nat)
  /-- AMOC_OLD_VALUE_LANDS (R352) -/
  | amocOldValueLands (id : Nat)
  /-- REGION_ALIGNMENT (R43) -/
  | regionAlignment (core : Nat)
  /-- CLOSING_ALIGNMENT (R52) -/
  | closingAlignment (core : Nat)
  /-- REALIGN_VISIBLE (R231) -/
  | realignVisible (casement die : Nat)
  /-- BUDGET_EXCEEDED (R53) -/
  | budgetExceeded (core : Nat)
  /-- TASK_BUDGET_EXPIRY (R53) -/
  | taskBudgetExpiry (task : Nat)
  /-- SOFT_ERROR_REEXEC (R280) -/
  | softErrorReexec (core : Nat) (site : SoftSite)
  /-- DISPATCH_DECISION (R260) -/
  | dispatchDecision
  /-- QUEUE_RECORD_READ (R249) -/
  | queueRecordRead (queue : Nat)
  /-- WAIT_RECHECK (R250) -/
  | waitRecheck (queue : Nat)
  /-- MARK_RECORD (R250) -/
  | markRecord (queue : Nat)
  /-- WAIT_FAULT_TIMEOUT (R250) -/
  | waitFaultTimeout (queue : Nat)
  /-- PREEMPT_REQUEST (R262) -/
  | preemptRequest (core : Nat)
  /-- SAVE_COMPLETE (R263) -/
  | saveComplete (core : Nat)
  /-- SAVE_FAULT (R264) -/
  | saveFault (core : Nat)
  /-- COMPLETION_ENTRY_WRITE (R270) -/
  | completionEntryWrite (cq : Nat)
  /-- CQ_INTERRUPT (R271) -/
  | cqInterrupt (cq : Nat)
  /-- TRACKER_ENTRY_FREE (R67) -/
  | trackerEntryFree (core task : Nat)
  /-- HELD_EFFECT_DRAIN (R216) -/
  | heldEffectDrain (core id : Nat)
  /-- COPY_BEAT (R193) -/
  | copyBeat (core id : Nat)
  /-- PORT_DRAIN (R206) -/
  | portDrain (core port : Nat)
  /-- ENGINE_COMMAND_START (R159) -/
  | engineCommandStart (core : Nat) (unit : EngineUnit)
  /-- MMA_STEP (R165) -/
  | mmaStep (core : Nat)
  /-- MMA_COMPLETE (R165) -/
  | mmaComplete (core : Nat)
  /-- LMMA_LOOKUP (R181) -/
  | lmmaLookup (core : Nat)
  /-- LMMA_COMPLETE (R181) -/
  | lmmaComplete (core : Nat)
  /-- TBUILD_COMPLETE (R177) -/
  | tbuildComplete (core : Nat)
  /-- EPI_COMPLETE (R373) -/
  | epiComplete (core : Nat)
  /-- SACC_UPDATE (R199) -/
  | saccUpdate (core : Nat)
  /-- TINV_COMPLETE (R185) -/
  | tinvComplete (core : Nat)
  /-- TSPILL_COMPLETE (R185) -/
  | tspillComplete (core : Nat)
  /-- TFILL_COMPLETE (R185) -/
  | tfillComplete (core : Nat)
  /-- GRANT_ARRIVAL (R236) -/
  | grantArrival (id : Nat)
  /-- TRANSOM_GROUP_LANDS (R239) -/
  | transomGroupLands (id : Nat)
  /-- MIRROR_AREA_COMPLETE (R244) -/
  | mirrorAreaComplete (core area : Nat)
  /-- CHUNK_AT_ENDPOINT (R330) -/
  | chunkAtEndpoint (id : Nat)
  /-- INSTRUCTION_FETCH_COMPLETE (R357) -/
  | instructionFetchComplete (core : Nat) (seq : SeqId) (address : Nat)
  /-- TRANSLATION_WALK (R284) -/
  | translationWalk (id : Nat)
  /-- REMOTE_STORE_APPLY (R211) -/
  | remoteStoreApply (die id : Nat)
  /-- MIGRATION_SWITCH (R223) -/
  | migrationSwitch
  /-- FLEET_ANCHOR_REWRITE (R326) -/
  | fleetAnchorRewrite (casement : Nat)
  /-- PTP_SYNC (R325) -/
  | ptpSync (grandmaster : Nat)
  /-- HOLDOVER (R325) -/
  | holdover
  /-- PTP_PORT_REBIND (R323) -/
  | ptpPortRebind
  /-- SESSION_INGRESS (R329) -/
  | sessionIngress (session : Nat) (head : SesHead) (payload : List W8)
  /-- DIE_HEARTBEAT (R335) -/
  | dieHeartbeat (die : Nat)
  /-- DIE_LOSS_DECLARED (R335) -/
  | dieLossDeclared (die : Nat)
  /-- CLOCK_LOCK_LOSS (R21) -/
  | clockLockLoss (die : Nat)
  /-- HINGE_CLOCK_LOSS (R459) -/
  | hingeClockLoss
  /-- POWER_OFFER_TICK (R346) -/
  | powerOfferTick
  /-- POWER_REBALANCE (R346) -/
  | powerRebalance
  /-- THERMAL_HOLD_ENTER (R318) -/
  | thermalHoldEnter (stack : Nat)
  /-- THERMAL_HOLD_EXIT (R318) -/
  | thermalHoldExit (stack : Nat)
  /-- HBM_SLOT_SERVICE (R313) -/
  | hbmSlotService (channel : Nat) (link : LinkResult)
  /-- USAGE_WINDOW_CLOSE (R304) -/
  | usageWindowClose (casement : Nat)
  /-- USAGE_RECORD_COMPLETE (R306) -/
  | usageRecordComplete (casement : Nat)
  /-- SCRUB_UNIT_DONE (R310) -/
  | scrubUnitDone (casement : Nat)
  /-- BOOT_STAGE (R342) -/
  | bootStage
  /-- VF_FLR (R322) -/
  | vfFlr (vf : Nat)
  /-- FAULT_ENTRY_WRITE (R291) -/
  | faultEntryWrite (ring : Nat)
  /-- HOST_ACCESS (R222) -/
  | hostAccess (fn : HostFn) (secure : Bool) (pa : Nat) (access : HostOp)
  /-- SUBLINK_RETIRE (R333) -/
  | sublinkRetire (port lane : Nat)
  /-- START (R251) -/
  | start (queue : Nat)
  /-- STOP (R251) -/
  | stop (queue : Nat)
  /-- SETRD (R251) -/
  | setrd (queue : Nat) (index : W32)
  /-- QWR_WRITE (R248) -/
  | qwrWrite (fn : HostFn) (queue : Nat) (value : W32)
  /-- CREATE (R297) -/
  | create (casement : Nat)
  /-- TEARDOWN (R297) -/
  | teardown (casement : Nat)
  /-- DRAIN (R297) -/
  | drain (casement : Nat)
  /-- RESUME (R297) -/
  | resume (casement : Nat)
  /-- CLRSAVE (R297) -/
  | clrsave (casement : Nat)
  /-- QUOTA_WRITE (R298) -/
  | quotaWrite (casement : Nat) (field : QuotaField) (value : Nat)
  /-- WARM_RESET (R343) -/
  | warmReset
  /-- COLD_RESET (R343) -/
  | coldReset
  /-- RETRY (R292) -/
  | retry (ring index : Nat)
  /-- ABORT (R292) -/
  | abort (ring index : Nat)
  /-- HTLBI_CASEMENT (R287) -/
  | htlbiCasement (casement : Nat)
  /-- HTLBI_PAGE (R287) -/
  | htlbiPage (casement va : Nat)
  /-- S2INV_ALL (R287) -/
  | s2invAll (casement : Nat)
  /-- S2INV_IPA (R287) -/
  | s2invIpa (casement ipa : Nat)
  /-- SESSION_OPEN (R328) -/
  | sessionOpen (session : Nat)
  /-- SESSION_CLOSE (R328) -/
  | sessionClose (session : Nat)
  /-- SUBLINK_TABLE_WRITE (R333) -/
  | sublinkTableWrite (port : Nat) (value : W64)
  /-- MIGRATION_START (R295) -/
  | migrationStart (oldPa newPa size : Nat)
  /-- MIGRATION_RELEASE (R295) -/
  | migrationRelease
  /-- FUSE_ADVANCE (R341) -/
  | fuseAdvance (svn : Nat)
  /-- REGISTER_WRITE (R321) -/
  | registerWrite (fn : HostFn) (secure : Bool) (offset : Nat) (value : W64)
  /-- ETHERNET_PORT_STATE_CHANGE (R324) -/
  | ethernetPortStateChange (port : Nat) (up : Bool)
  /-- FIRMWARE_RETIREMENT (R27) -/
  | firmwareRetirement (unit : RetireUnit)
  deriving DecidableEq, Repr

/-- The row is an instruction word; the others are events. -/
def Instr.isWord : Instr → Bool
  | .tlbiCasement _ => false
  | .tlbiPage _ => false
  | .resultLands _ _ => false
  | .loadValueLands _ => false
  | .amocOldValueLands _ => false
  | .regionAlignment _ => false
  | .closingAlignment _ => false
  | .realignVisible _ _ => false
  | .budgetExceeded _ => false
  | .taskBudgetExpiry _ => false
  | .softErrorReexec _ _ => false
  | .dispatchDecision => false
  | .queueRecordRead _ => false
  | .waitRecheck _ => false
  | .markRecord _ => false
  | .waitFaultTimeout _ => false
  | .preemptRequest _ => false
  | .saveComplete _ => false
  | .saveFault _ => false
  | .completionEntryWrite _ => false
  | .cqInterrupt _ => false
  | .trackerEntryFree _ _ => false
  | .heldEffectDrain _ _ => false
  | .copyBeat _ _ => false
  | .portDrain _ _ => false
  | .engineCommandStart _ _ => false
  | .mmaStep _ => false
  | .mmaComplete _ => false
  | .lmmaLookup _ => false
  | .lmmaComplete _ => false
  | .tbuildComplete _ => false
  | .epiComplete _ => false
  | .saccUpdate _ => false
  | .tinvComplete _ => false
  | .tspillComplete _ => false
  | .tfillComplete _ => false
  | .grantArrival _ => false
  | .transomGroupLands _ => false
  | .mirrorAreaComplete _ _ => false
  | .chunkAtEndpoint _ => false
  | .translationWalk _ => false
  | .remoteStoreApply _ _ => false
  | .migrationSwitch => false
  | .fleetAnchorRewrite _ => false
  | .ptpSync _ => false
  | .holdover => false
  | .ptpPortRebind => false
  | .sessionIngress _ _ _ => false
  | .dieHeartbeat _ => false
  | .dieLossDeclared _ => false
  | .clockLockLoss _ => false
  | .hingeClockLoss => false
  | .powerOfferTick => false
  | .powerRebalance => false
  | .thermalHoldEnter _ => false
  | .thermalHoldExit _ => false
  | .hbmSlotService _ _ => false
  | .usageWindowClose _ => false
  | .usageRecordComplete _ => false
  | .scrubUnitDone _ => false
  | .bootStage => false
  | .vfFlr _ => false
  | .faultEntryWrite _ => false
  | .hostAccess _ _ _ _ => false
  | .sublinkRetire _ _ => false
  | .start _ => false
  | .stop _ => false
  | .setrd _ _ => false
  | .qwrWrite _ _ _ => false
  | .create _ => false
  | .teardown _ => false
  | .drain _ => false
  | .resume _ => false
  | .clrsave _ => false
  | .quotaWrite _ _ _ => false
  | .warmReset => false
  | .coldReset => false
  | .retry _ _ => false
  | .abort _ _ => false
  | .htlbiCasement _ => false
  | .htlbiPage _ _ => false
  | .s2invAll _ => false
  | .s2invIpa _ _ => false
  | .sessionOpen _ => false
  | .sessionClose _ => false
  | .sublinkTableWrite _ _ => false
  | .migrationStart _ _ _ => false
  | .migrationRelease => false
  | .fuseAdvance _ => false
  | .registerWrite _ _ _ _ => false
  | .instructionFetchComplete _ _ _ => false
  | .ethernetPortStateChange _ _ => false
  | .firmwareRetirement _ => false
  | _ => true

end Sys2Proof
end

