-- ==== Sys2Proof/WellFormed.lean ====
section
/-! DEFINITION. Which terms of `Instr` are instructions the spec allows: every operand field within the range that R77 to
R79, R81 to R83 and R90 to R94 give it, and every number of an event within the part's counts. A word that decodes but is
not well-formed raises ILLEGAL_OP or ILLEGAL_OPERAND at issue (R95). -/

namespace Sys2Proof

/-- A source designator (R78): a tile, a read port or z. -/
def srcOk (v : BitVec 5) : Bool := v.toNat ≤ 19 || v.toNat == 24

/-- A destination designator (R78): a tile or a write port. -/
def dstOk (v : BitVec 5) : Bool := v.toNat ≤ 15 || (20 ≤ v.toNat && v.toNat ≤ 23)

/-- A designator that must name a tile (R78). -/
def tileOk (v : BitVec 5) : Bool := v.toNat ≤ 15

/-- The even tile of a pair (R79). -/
def evenTileOk (v : BitVec 5) : Bool := v.toNat ≤ 15 && v.toNat % 2 == 0

/-- A designator that must name one of g0 to g3 (R93). -/
def readPortOk (v : BitVec 5) : Bool := 16 ≤ v.toNat && v.toNat ≤ 19

/-- Two source fields of one word do not name the same read port (R78). -/
def portsApart (a b : BitVec 5) : Bool := !(readPortOk a && a == b)

/-- The CSR numbers the CSR map assigns (R126). -/
def csrAssigned (c : BitVec 9) : Bool :=
  let n := c.toNat
  n ≤ 0x008 || (0x010 ≤ n && n ≤ 0x018) || (0x020 ≤ n && n ≤ 0x027) || (0x030 ≤ n && n ≤ 0x032) || n == 0x040

/-- The operand fields of an instruction are in range. -/
def Instr.wf : Instr → Bool
  | .nop _ => true
  | .trap _ _ => true
  | .eret _ => true
  | .eretSa _ a => a.toNat ≠ 0
  | .brk _ => true
  | .fenceFull _ s => s.toNat ≤ 4
  | .fenceAcq _ s => s.toNat ≤ 4
  | .fenceRel _ s => s.toNat ≤ 4
  | .xfence _ => true
  | .step _ l => l.toNat ≤ 5
  | .realign _ _ => true
  | .rcmt _ _ _ => true
  | .tail _ => true
  | .msel _ m => m.toNat ≤ 8
  | .idle _ _ => true
  | .rgnT _ _ _ _ => true
  | .rgn _ _ _ _ => true
  | .csrr _ _ c => csrAssigned c
  | .csrw _ _ c => csrAssigned c
  | .add _ _ _ _ => true
  | .sub _ _ _ _ => true
  | .and _ _ _ _ => true
  | .or _ _ _ _ => true
  | .xor _ _ _ _ => true
  | .shl _ _ _ _ => true
  | .shr _ _ _ _ => true
  | .sra _ _ _ _ => true
  | .slt _ _ _ _ => true
  | .sltu _ _ _ _ => true
  | .min _ _ _ _ => true
  | .max _ _ _ _ => true
  | .minu _ _ _ _ => true
  | .maxu _ _ _ _ => true
  | .mul _ _ _ _ => true
  | .mulh _ _ _ _ => true
  | .mulhu _ _ _ _ => true
  | .div _ _ _ _ => true
  | .divu _ _ _ _ => true
  | .rem _ _ _ _ => true
  | .remu _ _ _ _ => true
  | .clz _ _ _ _ => true
  | .ffs _ _ _ _ => true
  | .popc _ _ _ _ => true
  | .addi _ _ _ _ => true
  | .andi _ _ _ _ => true
  | .ori _ _ _ _ => true
  | .xori _ _ _ _ => true
  | .slti _ _ _ _ => true
  | .shli _ _ _ _ => true
  | .shri _ _ _ _ => true
  | .srai _ _ _ _ => true
  | .li _ _ _ => true
  | .lit _ _ _ => true
  | .lith _ _ _ => true
  | .ldB _ _ _ _ => true
  | .ldBu _ _ _ _ => true
  | .ldH _ _ _ _ => true
  | .ldHu _ _ _ _ => true
  | .ldW _ _ _ _ => true
  | .ldWu _ _ _ _ => true
  | .ldD _ _ _ _ => true
  | .ldDAq _ _ _ _ => true
  | .stB _ _ _ _ => true
  | .stH _ _ _ _ => true
  | .stW _ _ _ _ => true
  | .stD _ _ _ _ => true
  | .stWRl _ _ _ _ => true
  | .stDRl _ _ _ _ => true
  | .amocAdd _ _ _ _ _ => true
  | .amocAnd _ _ _ _ _ => true
  | .amocOr _ _ _ _ _ => true
  | .amocXor _ _ _ _ _ => true
  | .amocXchg _ _ _ _ _ => true
  | .amocMax _ _ _ _ _ => true
  | .amocMin _ _ _ _ _ => true
  | .amocCas _ _ _ _ _ => true
  | .beq _ _ _ _ => true
  | .bne _ _ _ _ => true
  | .blt _ _ _ _ => true
  | .bge _ _ _ _ => true
  | .bltu _ _ _ _ => true
  | .bgeu _ _ _ _ => true
  | .beqz _ _ _ => true
  | .bnez _ _ _ => true
  | .loop _ a _ => a.toNat ≠ 0
  | .jmp _ _ => true
  | .jal _ _ => true
  | .jr _ _ => true
  | .bstat _ _ _ _ => true
  | .vadd _ d a b _ => dstOk d && srcOk a && srcOk b && portsApart a b
  | .vsub _ d a b _ => dstOk d && srcOk a && srcOk b && portsApart a b
  | .vmul _ d a b _ => dstOk d && srcOk a && srcOk b && portsApart a b
  | .vmin _ d a b _ => dstOk d && srcOk a && srcOk b && portsApart a b
  | .vmax _ d a b _ => dstOk d && srcOk a && srcOk b && portsApart a b
  | .vabsd _ d a b _ => dstOk d && srcOk a && srcOk b && portsApart a b
  | .vmov _ d a _ => dstOk d && srcOk a
  | .vsel _ d a b => dstOk d && srcOk a && srcOk b && portsApart a b
  | .vfma _ d a b _ => tileOk d && srcOk a && srcOk b && portsApart a b
  | .vfms _ d a b _ => tileOk d && srcOk a && srcOk b && portsApart a b
  | .vfnma _ d a b _ => tileOk d && srcOk a && srcOk b && portsApart a b
  | .viadd _ d a b _ => dstOk d && srcOk a && srcOk b && portsApart a b
  | .visub _ d a b _ => dstOk d && srcOk a && srcOk b && portsApart a b
  | .vimul _ d a b _ => dstOk d && srcOk a && srcOk b && portsApart a b
  | .vimin _ d a b _ => dstOk d && srcOk a && srcOk b && portsApart a b
  | .vimax _ d a b _ => dstOk d && srcOk a && srcOk b && portsApart a b
  | .vand _ d a b _ => dstOk d && srcOk a && srcOk b && portsApart a b
  | .vor _ d a b _ => dstOk d && srcOk a && srcOk b && portsApart a b
  | .vxor _ d a b _ => dstOk d && srcOk a && srcOk b && portsApart a b
  | .vshl _ d a b _ => dstOk d && srcOk a && srcOk b && portsApart a b
  | .vshr _ d a b _ => dstOk d && srcOk a && srcOk b && portsApart a b
  | .vsra _ d a b _ => dstOk d && srcOk a && srcOk b && portsApart a b
  | .vclz _ d a w _ => dstOk d && srcOk a && w.toNat ≤ 2
  | .vffs _ d a w _ => dstOk d && srcOk a && w.toNat ≤ 2
  | .vpopc _ d a w _ => dstOk d && srcOk a && w.toNat ≤ 2
  | .vcmpFeq _ d a b _ => d.toNat ≤ 7 && srcOk a && srcOk b && portsApart a b
  | .vcmpFlt _ d a b _ => d.toNat ≤ 7 && srcOk a && srcOk b && portsApart a b
  | .vcmpFle _ d a b _ => d.toNat ≤ 7 && srcOk a && srcOk b && portsApart a b
  | .vcmpFun _ d a b _ => d.toNat ≤ 7 && srcOk a && srcOk b && portsApart a b
  | .vcmpIeq _ d a b _ => d.toNat ≤ 7 && srcOk a && srcOk b && portsApart a b
  | .vcmpIlt _ d a b _ => d.toNat ≤ 7 && srcOk a && srcOk b && portsApart a b
  | .vcmpIltu _ d a b _ => d.toNat ≤ 7 && srcOk a && srcOk b && portsApart a b
  | .vcvtNar _ d a t _ _ _ => dstOk d && srcOk a && t.toNat ≤ 11
  | .vcvtWid _ d a t _ => dstOk d && srcOk a && t.toNat ≤ 11
  | .vsfnExp2 _ d a _ => dstOk d && srcOk a
  | .vsfnLog2 _ d a _ => dstOk d && srcOk a
  | .vsfnRcp _ d a _ => dstOk d && srcOk a
  | .vsfnRsqrt _ d a _ => dstOk d && srcOk a
  | .vsfnSqrt _ d a _ => dstOk d && srcOk a
  | .vsfnTanh _ d a _ => dstOk d && srcOk a
  | .vsfnSigm _ d a _ => dstOk d && srcOk a
  | .vsfnSilu _ d a _ => dstOk d && srcOk a
  | .vrotr _ d a _ _ => dstOk d && srcOk a
  | .vrotrHi _ d a _ _ => dstOk d && srcOk a
  | .vrotc _ d a n _ => dstOk d && srcOk a && n.toNat ≤ 15
  | .vbcr _ d a _ _ => dstOk d && srcOk a
  | .vbcrHi _ d a _ _ => dstOk d && srcOk a
  | .vbcc _ d a r _ => dstOk d && srcOk a && r.toNat ≤ 15
  | .vredrAdd _ d a _ => dstOk d && srcOk a
  | .vredrMax _ d a _ => dstOk d && srcOk a
  | .vredrMin _ d a _ => dstOk d && srcOk a
  | .vredrIadd _ d a _ => dstOk d && srcOk a
  | .vredcAdd _ d a _ => dstOk d && srcOk a
  | .vredcMax _ d a _ => dstOk d && srcOk a
  | .vredcMin _ d a _ => dstOk d && srcOk a
  | .vredcIadd _ d a _ => dstOk d && srcOk a
  | .vbcs _ d _ _ => dstOk d
  | .vext _ _ a _ => srcOk a
  | .vextHi _ _ a _ => srcOk a
  | .vrand _ d a _ => tileOk d && srcOk a
  | .osmx _ e a b => evenTileOk e && srcOk a && dstOk b
  | .osmf _ d e => dstOk d && evenTileOk e
  | .pcfg _ g _ => g.toNat ≤ 7
  | .prwd _ g => g.toNat ≤ 7
  | .shld _ x _ => x.toNat ≤ 15
  | .mma _ c a b z _ rs => c.toNat ≤ 15 && a.toNat ≤ 15 && b.toNat ≤ 15 && !(z && rs)
  | .lmma _ c q w _ _ => c.toNat ≤ 15 && q.toNat ≤ 3 && w.toNat ≤ 15
  | .tbuildZ _ q a => q.toNat ≤ 3 && a.toNat ≤ 15
  | .tbuildC _ q a => q.toNat ≤ 3 && a.toNat ≤ 15
  | .tbuildC2 _ q a => q.toNat ≤ 3 && a.toNat ≤ 15
  | .tinv _ q => q.toNat ≤ 3
  | .tspill _ q _ => q.toNat ≤ 3
  | .tfill _ q _ => q.toNat ≤ 3
  | .cbld _ _ => true
  | .epi _ _ => true
  | .cpy _ _ => true
  | .saccFadd _ d x v => d.toNat ≤ 15 && readPortOk x && readPortOk v && x != v
  | .saccFmax _ d x v => d.toNat ≤ 15 && readPortOk x && readPortOk v && x != v
  | .saccFmin _ d x v => d.toNat ≤ 15 && readPortOk x && readPortOk v && x != v
  | .saccIadd _ d x v => d.toNat ≤ 15 && readPortOk x && readPortOk v && x != v
  | .arm _ _ _ => true
  | .await _ _ _ => true
  | .arrv _ _ _ => true
  | .awaitX _ _ _ => true
  | .xgrant _ _ _ _ => true
  | .xsend _ _ _ _ => true
  | .xstat _ _ _ => true
  | .emit _ _ _ => true
  | .mirr _ _ _ => true
  | .tsub _ _ _ => true
  | .qctl _ _ _ => true
  | .tlbiCasement core => decide (core < 2304)
  | .tlbiPage core => decide (core < 2304)
  | .resultLands core _ => decide (core < 2304)
  | .loadValueLands _ => true
  | .amocOldValueLands _ => true
  | .regionAlignment core => decide (core < 2304)
  | .closingAlignment core => decide (core < 2304)
  | .realignVisible casement die => decide (casement < 16) && decide (die < 9)
  | .budgetExceeded core => decide (core < 2304)
  | .taskBudgetExpiry _ => true
  | .softErrorReexec core _ => decide (core < 2304)
  | .dispatchDecision => true
  | .queueRecordRead queue => decide (queue < 256)
  | .waitRecheck queue => decide (queue < 256)
  | .markRecord queue => decide (queue < 256)
  | .waitFaultTimeout queue => decide (queue < 256)
  | .preemptRequest core => decide (core < 2304)
  | .saveComplete core => decide (core < 2304)
  | .saveFault core => decide (core < 2304)
  | .completionEntryWrite cq => decide (cq < 256)
  | .cqInterrupt cq => decide (cq < 256)
  | .trackerEntryFree core _ => decide (core < 2304)
  | .heldEffectDrain core _ => decide (core < 2304)
  | .copyBeat core _ => decide (core < 2304)
  | .portDrain core _ => decide (core < 2304)
  | .engineCommandStart core _ => decide (core < 2304)
  | .mmaStep core => decide (core < 2304)
  | .mmaComplete core => decide (core < 2304)
  | .lmmaLookup core => decide (core < 2304)
  | .lmmaComplete core => decide (core < 2304)
  | .tbuildComplete core => decide (core < 2304)
  | .epiComplete core => decide (core < 2304)
  | .saccUpdate core => decide (core < 2304)
  | .tinvComplete core => decide (core < 2304)
  | .tspillComplete core => decide (core < 2304)
  | .tfillComplete core => decide (core < 2304)
  | .grantArrival _ => true
  | .transomGroupLands _ => true
  | .mirrorAreaComplete core _ => decide (core < 2304)
  | .chunkAtEndpoint _ => true
  | .translationWalk _ => true
  | .remoteStoreApply die _ => decide (die < 9)
  | .migrationSwitch => true
  | .fleetAnchorRewrite casement => decide (casement < 16)
  | .ptpSync _ => true
  | .holdover => true
  | .ptpPortRebind => true
  | .sessionIngress _ _ _ => true
  | .dieHeartbeat die => decide (die < 9)
  | .dieLossDeclared die => decide (die < 9)
  | .clockLockLoss die => decide (die < 9)
  | .hingeClockLoss => true
  | .powerOfferTick => true
  | .powerRebalance => true
  | .thermalHoldEnter stack => decide (stack < 16)
  | .thermalHoldExit stack => decide (stack < 16)
  | .hbmSlotService channel _ => decide (channel < 512)
  | .usageWindowClose casement => decide (casement < 16)
  | .usageRecordComplete casement => decide (casement < 16)
  | .scrubUnitDone casement => decide (casement < 16)
  | .bootStage => true
  | .vfFlr vf => decide (vf < 16)
  | .faultEntryWrite _ => true
  | .hostAccess _ _ _ _ => true
  | .sublinkRetire port lane => decide (port < 16) && decide (lane < 8)
  | .start queue => decide (queue < 256)
  | .stop queue => decide (queue < 256)
  | .setrd queue _ => decide (queue < 256)
  | .qwrWrite _ queue _ => decide (queue < 256)
  | .create casement => decide (casement < 16)
  | .teardown casement => decide (casement < 16)
  | .drain casement => decide (casement < 16)
  | .resume casement => decide (casement < 16)
  | .clrsave casement => decide (casement < 16)
  | .quotaWrite casement _ _ => decide (casement < 16)
  | .warmReset => true
  | .coldReset => true
  | .retry _ _ => true
  | .abort _ _ => true
  | .htlbiCasement casement => decide (casement < 16)
  | .htlbiPage casement _ => decide (casement < 16)
  | .s2invAll casement => decide (casement < 16)
  | .s2invIpa casement _ => decide (casement < 16)
  | .sessionOpen _ => true
  | .sessionClose _ => true
  | .sublinkTableWrite port _ => decide (port < 16)
  | .migrationStart _ _ _ => true
  | .migrationRelease => true
  | .fuseAdvance _ => true
  | .registerWrite _ _ _ _ => true
  | .instructionFetchComplete core _ _ => decide (core < 2304)
  | .ethernetPortStateChange _ _ => true
  | .firmwareRetirement _ => true

end Sys2Proof
end

