-- ==== Sys2Proof/Decode.lean ====
section
/-! DEFINITION. Decoding instruction words (R72 to R97): total on any bytes, refusing by name every word to which the opcode
map assigns nothing or that has a reserved field that is not zero (step 1 of R95). What depends on where a word runs, or on
the value of an operand field (steps 2 to 4 of R95), is checked at issue, not here. After the decoder, the encoder, from the
same tables. -/

namespace Sys2Proof

/-- Why a word is no instruction; every one of them raises ILLEGAL_OP (R95). -/
inductive Reject where
  /-- The OP is one of those that R80 leaves reserved. -/
  | reservedOp (op : BitVec 6)
  /-- The fn, sub, mode or kind is unassigned in the group's table. -/
  | reservedFn (op : BitVec 6)
  /-- A field or bit the group's table reserves is not zero (R96). -/
  | reservedField
  /-- The second word of LIT or LITH has bits [31:28] that are not zero (R74). -/
  | secondWord
  /-- Fewer bytes than the instruction has. -/
  | short
  deriving DecidableEq, Repr

/-- A word cut where the formats cut it (R72, R75): its header, its OP, and bits [18:14], [13:9], [8:4] and [3:0], under the
names format R gives them. -/
structure Fields where
  h : Hdr
  op : BitVec 6
  rd : BitVec 5
  ra : BitVec 5
  rb : BitVec 5
  fn : BitVec 4
  deriving DecidableEq, Repr

/-- Cutting a word (R72, R75). -/
def Fields.ofWord (w : W32) : Fields :=
  { h := { y := w.extractLsb' 28 4, i := w.extractLsb' 25 3 }
    op := w.extractLsb' 19 6, rd := w.extractLsb' 14 5, ra := w.extractLsb' 9 5
    rb := w.extractLsb' 4 5, fn := w.extractLsb' 0 4 }

/-- The word with these fields (R72, R75). -/
def Fields.toWord (f : Fields) : W32 :=
  f.h.y ++ f.h.i ++ f.op ++ f.rd ++ f.ra ++ f.rb ++ f.fn

/-- imm9 of format I, off9 of format B and sub of format E: bits [8:0] (R75). -/
def Fields.imm9 (f : Fields) : BitVec 9 := f.rb ++ f.fn

/-- imm14 of format W and off14 of format Z: bits [13:0] (R75). -/
def Fields.imm14 (f : Fields) : BitVec 14 := f.ra ++ f.rb ++ f.fn

/-- off19 of format J: bits [18:0] (R75). -/
def Fields.off19 (f : Fields) : BitVec 19 := f.rd ++ f.ra ++ f.rb ++ f.fn

/-- An instruction whose reserved fields must be as the group's table has them (R96). -/
def reserved (ok : Prop) [Decidable ok] (i : Instr) : Except Reject Instr :=
  if ok then .ok i else .error .reservedField

/-- The kinds of FENCE and its scopes 000 to 100 (R82). -/
def decodeFence (f : Fields) : Except Reject Instr :=
  let scope := f.rd.extractLsb' 0 3
  match (f.rd.extractLsb' 3 2).toNat with
  | 0 => reserved (scope.toNat ≤ 4 ∧ f.ra = 0 ∧ f.rb = 0) (.fenceFull f.h scope)
  | 1 => reserved (scope.toNat ≤ 4 ∧ f.ra = 0 ∧ f.rb = 0) (.fenceAcq f.h scope)
  | 2 => reserved (scope.toNat ≤ 4 ∧ f.ra = 0 ∧ f.rb = 0) (.fenceRel f.h scope)
  | _ => .error (.reservedFn f.op)

/-- OP 0x00, SYS (R80). -/
def decodeSys (f : Fields) : Except Reject Instr :=
  match f.fn.toNat with
  | 0 => reserved (f.rd = 0 ∧ f.ra = 0 ∧ f.rb = 0) (.nop f.h)
  | 1 => reserved (f.rd = 0 ∧ f.rb = 0) (.trap f.h f.ra)
  | 2 => if f.ra = 0 then reserved (f.rd = 0 ∧ f.rb = 0) (.eret f.h) else reserved (f.rd = 0 ∧ f.rb = 0) (.eretSa f.h f.ra)
  | 3 => reserved (f.rd = 0 ∧ f.ra = 0 ∧ f.rb = 0) (.brk f.h)
  | 4 => decodeFence f
  | 5 => reserved (f.rd = 0 ∧ f.ra = 0 ∧ f.rb = 0) (.xfence f.h)
  | 6 => reserved (f.rd = 0 ∧ f.rb = 0) (.step f.h f.ra)
  | 7 => reserved (f.rd = 0 ∧ f.rb = 0) (.realign f.h f.ra)
  | 8 => reserved (f.rd = 0) (.rcmt f.h f.ra f.rb)
  | 9 => reserved (f.rd = 0 ∧ f.ra = 0 ∧ f.rb = 0) (.tail f.h)
  | 10 => reserved (f.rd = 0 ∧ f.rb = 0) (.msel f.h f.ra)
  | _ => .error (.reservedFn f.op)

/-- OP 0x02, RGN (R80). -/
def decodeRgn (f : Fields) : Except Reject Instr :=
  match f.fn.toNat with
  | 0 => .ok (.rgn f.h f.rd f.ra f.rb)
  | 1 => .ok (.rgnT f.h f.rd f.ra f.rb)
  | _ => .error (.reservedFn f.op)

/-- OP 0x05, ALU (R80). -/
def decodeAlu (f : Fields) : Except Reject Instr :=
  match f.fn.toNat with
  | 0 => .ok (.add f.h f.rd f.ra f.rb)
  | 1 => .ok (.sub f.h f.rd f.ra f.rb)
  | 2 => .ok (.and f.h f.rd f.ra f.rb)
  | 3 => .ok (.or f.h f.rd f.ra f.rb)
  | 4 => .ok (.xor f.h f.rd f.ra f.rb)
  | 5 => .ok (.shl f.h f.rd f.ra f.rb)
  | 6 => .ok (.shr f.h f.rd f.ra f.rb)
  | 7 => .ok (.sra f.h f.rd f.ra f.rb)
  | 8 => .ok (.slt f.h f.rd f.ra f.rb)
  | 9 => .ok (.sltu f.h f.rd f.ra f.rb)
  | 10 => .ok (.min f.h f.rd f.ra f.rb)
  | 11 => .ok (.max f.h f.rd f.ra f.rb)
  | 12 => .ok (.minu f.h f.rd f.ra f.rb)
  | 13 => .ok (.maxu f.h f.rd f.ra f.rb)
  | _ => .error (.reservedFn f.op)

/-- OP 0x06, MULDIV (R80). -/
def decodeMulDiv (f : Fields) : Except Reject Instr :=
  match f.fn.toNat with
  | 0 => .ok (.mul f.h f.rd f.ra f.rb)
  | 1 => .ok (.mulh f.h f.rd f.ra f.rb)
  | 2 => .ok (.mulhu f.h f.rd f.ra f.rb)
  | 3 => .ok (.div f.h f.rd f.ra f.rb)
  | 4 => .ok (.divu f.h f.rd f.ra f.rb)
  | 5 => .ok (.rem f.h f.rd f.ra f.rb)
  | 6 => .ok (.remu f.h f.rd f.ra f.rb)
  | _ => .error (.reservedFn f.op)

/-- OP 0x07, BITS (R80). -/
def decodeBits (f : Fields) : Except Reject Instr :=
  match (f.fn.extractLsb' 2 2).toNat with
  | 0 => reserved (f.rb = 0) (.clz f.h f.rd f.ra (f.fn.extractLsb' 0 2))
  | 1 => reserved (f.rb = 0) (.ffs f.h f.rd f.ra (f.fn.extractLsb' 0 2))
  | 2 => reserved (f.rb = 0) (.popc f.h f.rd f.ra (f.fn.extractLsb' 0 2))
  | _ => .error (.reservedFn f.op)

/-- OP 0x0D, SHIFTI (R80). -/
def decodeShiftI (f : Fields) : Except Reject Instr :=
  match (f.rb.extractLsb' 2 3).toNat with
  | 0 => .ok (.shli f.h f.rd f.ra (f.rb.extractLsb' 0 2 ++ f.fn))
  | 2 => .ok (.shri f.h f.rd f.ra (f.rb.extractLsb' 0 2 ++ f.fn))
  | 4 => .ok (.srai f.h f.rd f.ra (f.rb.extractLsb' 0 2 ++ f.fn))
  | _ => .error (.reservedFn f.op)

/-- OP 0x11, LD (R80). -/
def decodeLd (f : Fields) : Except Reject Instr :=
  match (f.rb.extractLsb' 2 3).toNat with
  | 0 => .ok (.ldB f.h f.rd f.ra (f.rb.extractLsb' 0 2 ++ f.fn))
  | 1 => .ok (.ldBu f.h f.rd f.ra (f.rb.extractLsb' 0 2 ++ f.fn))
  | 2 => .ok (.ldH f.h f.rd f.ra (f.rb.extractLsb' 0 2 ++ f.fn))
  | 3 => .ok (.ldHu f.h f.rd f.ra (f.rb.extractLsb' 0 2 ++ f.fn))
  | 4 => .ok (.ldW f.h f.rd f.ra (f.rb.extractLsb' 0 2 ++ f.fn))
  | 5 => .ok (.ldWu f.h f.rd f.ra (f.rb.extractLsb' 0 2 ++ f.fn))
  | 6 => .ok (.ldD f.h f.rd f.ra (f.rb.extractLsb' 0 2 ++ f.fn))
  | 7 => .ok (.ldDAq f.h f.rd f.ra (f.rb.extractLsb' 0 2 ++ f.fn))
  | _ => .error (.reservedFn f.op)

/-- OP 0x12, ST (R80). -/
def decodeSt (f : Fields) : Except Reject Instr :=
  match (f.rb.extractLsb' 2 3).toNat with
  | 0 => .ok (.stB f.h f.rd f.ra (f.rb.extractLsb' 0 2 ++ f.fn))
  | 1 => .ok (.stH f.h f.rd f.ra (f.rb.extractLsb' 0 2 ++ f.fn))
  | 2 => .ok (.stW f.h f.rd f.ra (f.rb.extractLsb' 0 2 ++ f.fn))
  | 3 => .ok (.stD f.h f.rd f.ra (f.rb.extractLsb' 0 2 ++ f.fn))
  | 4 => .ok (.stWRl f.h f.rd f.ra (f.rb.extractLsb' 0 2 ++ f.fn))
  | 5 => .ok (.stDRl f.h f.rd f.ra (f.rb.extractLsb' 0 2 ++ f.fn))
  | _ => .error (.reservedFn f.op)

/-- OP 0x13, AMOC (R80). -/
def decodeAmoc (f : Fields) : Except Reject Instr :=
  match (f.fn.extractLsb' 0 3).toNat with
  | 0 => .ok (.amocAdd f.h f.rd f.ra f.rb (f.fn.getLsbD 3))
  | 1 => .ok (.amocAnd f.h f.rd f.ra f.rb (f.fn.getLsbD 3))
  | 2 => .ok (.amocOr f.h f.rd f.ra f.rb (f.fn.getLsbD 3))
  | 3 => .ok (.amocXor f.h f.rd f.ra f.rb (f.fn.getLsbD 3))
  | 4 => .ok (.amocXchg f.h f.rd f.ra f.rb (f.fn.getLsbD 3))
  | 5 => .ok (.amocMax f.h f.rd f.ra f.rb (f.fn.getLsbD 3))
  | 6 => .ok (.amocMin f.h f.rd f.ra f.rb (f.fn.getLsbD 3))
  | 7 => .ok (.amocCas f.h f.rd f.ra f.rb (f.fn.getLsbD 3))
  | _ => .error (.reservedFn f.op)

/-- OP 0x1F, JR (R80). -/
def decodeJr (f : Fields) : Except Reject Instr :=
  match f.fn.toNat with
  | 0 => reserved (f.rd = 0 ∧ f.rb = 0) (.jr f.h f.ra)
  | _ => .error (.reservedFn f.op)

/-- OP 0x21, VFA (R80). -/
def decodeVfa (f : Fields) : Except Reject Instr :=
  match (f.fn.extractLsb' 0 3).toNat with
  | 0 => .ok (.vadd f.h f.rd f.ra f.rb (f.fn.getLsbD 3))
  | 1 => .ok (.vsub f.h f.rd f.ra f.rb (f.fn.getLsbD 3))
  | 2 => .ok (.vmul f.h f.rd f.ra f.rb (f.fn.getLsbD 3))
  | 3 => .ok (.vmin f.h f.rd f.ra f.rb (f.fn.getLsbD 3))
  | 4 => .ok (.vmax f.h f.rd f.ra f.rb (f.fn.getLsbD 3))
  | 5 => .ok (.vabsd f.h f.rd f.ra f.rb (f.fn.getLsbD 3))
  | 6 => reserved (f.rb = 0) (.vmov f.h f.rd f.ra (f.fn.getLsbD 3))
  | 7 => reserved (f.fn.getLsbD 3 = false) (.vsel f.h f.rd f.ra f.rb)
  | _ => .error (.reservedFn f.op)

/-- OP 0x22, VFMA (R80). -/
def decodeVfma (f : Fields) : Except Reject Instr :=
  match (f.fn.extractLsb' 0 3).toNat with
  | 0 => .ok (.vfma f.h f.rd f.ra f.rb (f.fn.getLsbD 3))
  | 1 => .ok (.vfms f.h f.rd f.ra f.rb (f.fn.getLsbD 3))
  | 2 => .ok (.vfnma f.h f.rd f.ra f.rb (f.fn.getLsbD 3))
  | _ => .error (.reservedFn f.op)

/-- OP 0x23, VIA (R80). -/
def decodeVia (f : Fields) : Except Reject Instr :=
  match (f.fn.extractLsb' 0 3).toNat with
  | 0 => .ok (.viadd f.h f.rd f.ra f.rb (f.fn.getLsbD 3))
  | 1 => .ok (.visub f.h f.rd f.ra f.rb (f.fn.getLsbD 3))
  | 2 => .ok (.vimul f.h f.rd f.ra f.rb (f.fn.getLsbD 3))
  | 3 => .ok (.vimin f.h f.rd f.ra f.rb (f.fn.getLsbD 3))
  | 4 => .ok (.vimax f.h f.rd f.ra f.rb (f.fn.getLsbD 3))
  | 5 => .ok (.vand f.h f.rd f.ra f.rb (f.fn.getLsbD 3))
  | 6 => .ok (.vor f.h f.rd f.ra f.rb (f.fn.getLsbD 3))
  | 7 => .ok (.vxor f.h f.rd f.ra f.rb (f.fn.getLsbD 3))
  | _ => .error (.reservedFn f.op)

/-- OP 0x24, VSH (R80). -/
def decodeVsh (f : Fields) : Except Reject Instr :=
  match (f.fn.extractLsb' 0 3).toNat with
  | 0 => .ok (.vshl f.h f.rd f.ra f.rb (f.fn.getLsbD 3))
  | 1 => .ok (.vshr f.h f.rd f.ra f.rb (f.fn.getLsbD 3))
  | 2 => .ok (.vsra f.h f.rd f.ra f.rb (f.fn.getLsbD 3))
  | _ => .error (.reservedFn f.op)

/-- OP 0x25, VBIT (R80). -/
def decodeVbit (f : Fields) : Except Reject Instr :=
  match (f.fn.extractLsb' 0 3).toNat with
  | 0 => .ok (.vclz f.h f.rd f.ra f.rb (f.fn.getLsbD 3))
  | 1 => .ok (.vffs f.h f.rd f.ra f.rb (f.fn.getLsbD 3))
  | 2 => .ok (.vpopc f.h f.rd f.ra f.rb (f.fn.getLsbD 3))
  | _ => .error (.reservedFn f.op)

/-- OP 0x26, VCMP (R80). -/
def decodeVcmp (f : Fields) : Except Reject Instr :=
  match (f.fn.extractLsb' 0 3).toNat with
  | 0 => .ok (.vcmpFeq f.h f.rd f.ra f.rb (f.fn.getLsbD 3))
  | 1 => .ok (.vcmpFlt f.h f.rd f.ra f.rb (f.fn.getLsbD 3))
  | 2 => .ok (.vcmpFle f.h f.rd f.ra f.rb (f.fn.getLsbD 3))
  | 3 => .ok (.vcmpFun f.h f.rd f.ra f.rb (f.fn.getLsbD 3))
  | 4 => .ok (.vcmpIeq f.h f.rd f.ra f.rb (f.fn.getLsbD 3))
  | 5 => .ok (.vcmpIlt f.h f.rd f.ra f.rb (f.fn.getLsbD 3))
  | 6 => .ok (.vcmpIltu f.h f.rd f.ra f.rb (f.fn.getLsbD 3))
  | _ => .error (.reservedFn f.op)

/-- OP 0x27, VCVT (R80). -/
def decodeVcvt (f : Fields) : Except Reject Instr :=
  match (f.rb.extractLsb' 4 1).toNat with
  | 0 => .ok (.vcvtNar f.h f.rd f.ra (f.rb.extractLsb' 0 4) (f.fn.getLsbD 3) (f.fn.getLsbD 2) (f.fn.extractLsb' 0 2))
  | 1 => reserved (f.fn.extractLsb' 0 3 = 0) (.vcvtWid f.h f.rd f.ra (f.rb.extractLsb' 0 4) (f.fn.getLsbD 3))
  | _ => .error (.reservedFn f.op)

/-- OP 0x28, VSFN (R80). -/
def decodeVsfn (f : Fields) : Except Reject Instr :=
  match (f.fn.extractLsb' 0 3).toNat with
  | 0 => reserved (f.rb = 0) (.vsfnExp2 f.h f.rd f.ra (f.fn.getLsbD 3))
  | 1 => reserved (f.rb = 0) (.vsfnLog2 f.h f.rd f.ra (f.fn.getLsbD 3))
  | 2 => reserved (f.rb = 0) (.vsfnRcp f.h f.rd f.ra (f.fn.getLsbD 3))
  | 3 => reserved (f.rb = 0) (.vsfnRsqrt f.h f.rd f.ra (f.fn.getLsbD 3))
  | 4 => reserved (f.rb = 0) (.vsfnSqrt f.h f.rd f.ra (f.fn.getLsbD 3))
  | 5 => reserved (f.rb = 0) (.vsfnTanh f.h f.rd f.ra (f.fn.getLsbD 3))
  | 6 => reserved (f.rb = 0) (.vsfnSigm f.h f.rd f.ra (f.fn.getLsbD 3))
  | 7 => reserved (f.rb = 0) (.vsfnSilu f.h f.rd f.ra (f.fn.getLsbD 3))
  | _ => .error (.reservedFn f.op)

/-- OP 0x29, VAXIS (R80). -/
def decodeVaxis (f : Fields) : Except Reject Instr :=
  match (f.fn.extractLsb' 0 3).toNat with
  | 0 => .ok (.vrotr f.h f.rd f.ra f.rb (f.fn.getLsbD 3))
  | 1 => .ok (.vrotrHi f.h f.rd f.ra f.rb (f.fn.getLsbD 3))
  | 2 => .ok (.vrotc f.h f.rd f.ra f.rb (f.fn.getLsbD 3))
  | 4 => .ok (.vbcr f.h f.rd f.ra f.rb (f.fn.getLsbD 3))
  | 5 => .ok (.vbcrHi f.h f.rd f.ra f.rb (f.fn.getLsbD 3))
  | 6 => .ok (.vbcc f.h f.rd f.ra f.rb (f.fn.getLsbD 3))
  | _ => .error (.reservedFn f.op)

/-- OP 0x2A, VRED (R80). -/
def decodeVred (f : Fields) : Except Reject Instr :=
  match (f.fn.extractLsb' 0 3).toNat with
  | 0 => reserved (f.rb = 0) (.vredrAdd f.h f.rd f.ra (f.fn.getLsbD 3))
  | 1 => reserved (f.rb = 0) (.vredrMax f.h f.rd f.ra (f.fn.getLsbD 3))
  | 2 => reserved (f.rb = 0) (.vredrMin f.h f.rd f.ra (f.fn.getLsbD 3))
  | 3 => reserved (f.rb = 0) (.vredrIadd f.h f.rd f.ra (f.fn.getLsbD 3))
  | 4 => reserved (f.rb = 0) (.vredcAdd f.h f.rd f.ra (f.fn.getLsbD 3))
  | 5 => reserved (f.rb = 0) (.vredcMax f.h f.rd f.ra (f.fn.getLsbD 3))
  | 6 => reserved (f.rb = 0) (.vredcMin f.h f.rd f.ra (f.fn.getLsbD 3))
  | 7 => reserved (f.rb = 0) (.vredcIadd f.h f.rd f.ra (f.fn.getLsbD 3))
  | _ => .error (.reservedFn f.op)

/-- OP 0x2B, VSCL (R80). -/
def decodeVscl (f : Fields) : Except Reject Instr :=
  match (f.fn.extractLsb' 0 3).toNat with
  | 0 => reserved (f.rb = 0) (.vbcs f.h f.rd f.ra (f.fn.getLsbD 3))
  | 1 => reserved (f.fn.getLsbD 3 = false) (.vext f.h f.rd f.ra f.rb)
  | 2 => reserved (f.fn.getLsbD 3 = false) (.vextHi f.h f.rd f.ra f.rb)
  | _ => .error (.reservedFn f.op)

/-- OP 0x2C, VRAND (R80). -/
def decodeVrand (f : Fields) : Except Reject Instr :=
  match (f.fn.extractLsb' 0 3).toNat with
  | 0 => reserved (f.rb = 0) (.vrand f.h f.rd f.ra (f.fn.getLsbD 3))
  | _ => .error (.reservedFn f.op)

/-- OP 0x2D, OSM (R80). -/
def decodeOsm (f : Fields) : Except Reject Instr :=
  match f.fn.toNat with
  | 0 => .ok (.osmx f.h f.rd f.ra f.rb)
  | 1 => reserved (f.rb = 0) (.osmf f.h f.rd f.ra)
  | _ => .error (.reservedFn f.op)

/-- OP 0x2E, PORT (R80). -/
def decodePort (f : Fields) : Except Reject Instr :=
  match f.fn.toNat with
  | 0 => reserved (f.rb = 0) (.pcfg f.h f.rd f.ra)
  | 1 => reserved (f.ra = 0 ∧ f.rb = 0) (.prwd f.h f.rd)
  | _ => .error (.reservedFn f.op)

/-- OP 0x2F, SHLD (R80). -/
def decodeShld (f : Fields) : Except Reject Instr :=
  match f.fn.toNat with
  | 0 => reserved (f.rb = 0) (.shld f.h f.rd f.ra)
  | _ => .error (.reservedFn f.op)

/-- OP 0x30, MMA (R80). -/
def decodeMma (f : Fields) : Except Reject Instr :=
  match (f.fn.extractLsb' 0 1).toNat with
  | 0 => reserved (¬ (f.fn.getLsbD 3 = true ∧ f.fn.getLsbD 1 = true)) (.mma f.h f.rd f.ra f.rb (f.fn.getLsbD 3) (f.fn.getLsbD 2) (f.fn.getLsbD 1))
  | _ => .error (.reservedFn f.op)

/-- OP 0x31, LMMA (R80). -/
def decodeLmma (f : Fields) : Except Reject Instr :=
  match (f.fn.extractLsb' 0 2).toNat with
  | 0 => .ok (.lmma f.h f.rd f.ra f.rb (f.fn.getLsbD 3) (f.fn.getLsbD 2))
  | _ => .error (.reservedFn f.op)

/-- OP 0x32, TBUILD (R80). -/
def decodeTbuild (f : Fields) : Except Reject Instr :=
  match f.fn.toNat with
  | 0 => reserved (f.rb = 0) (.tbuildZ f.h f.rd f.ra)
  | 1 => reserved (f.rb = 0) (.tbuildC f.h f.rd f.ra)
  | 2 => reserved (f.rb = 0) (.tbuildC2 f.h f.rd f.ra)
  | _ => .error (.reservedFn f.op)

/-- OP 0x33, TCTL (R80). -/
def decodeTctl (f : Fields) : Except Reject Instr :=
  match f.fn.toNat with
  | 0 => reserved (f.ra = 0 ∧ f.rb = 0) (.tinv f.h f.rd)
  | 1 => reserved (f.rb = 0) (.tspill f.h f.rd f.ra)
  | 2 => reserved (f.rb = 0) (.tfill f.h f.rd f.ra)
  | 3 => reserved (f.rd = 0 ∧ f.rb = 0) (.cbld f.h f.ra)
  | _ => .error (.reservedFn f.op)

/-- OP 0x34, EPI (R80). -/
def decodeEpi (f : Fields) : Except Reject Instr :=
  match f.fn.toNat with
  | 0 => reserved (f.rd = 0 ∧ f.rb = 0) (.epi f.h f.ra)
  | _ => .error (.reservedFn f.op)

/-- OP 0x35, CPY (R80). -/
def decodeCpy (f : Fields) : Except Reject Instr :=
  match f.fn.toNat with
  | 0 => reserved (f.rd = 0 ∧ f.rb = 0) (.cpy f.h f.ra)
  | _ => .error (.reservedFn f.op)

/-- OP 0x36, SACC (R80). -/
def decodeSacc (f : Fields) : Except Reject Instr :=
  match f.fn.toNat with
  | 0 => .ok (.saccFadd f.h f.rd f.ra f.rb)
  | 1 => .ok (.saccFmax f.h f.rd f.ra f.rb)
  | 2 => .ok (.saccFmin f.h f.rd f.ra f.rb)
  | 3 => .ok (.saccIadd f.h f.rd f.ra f.rb)
  | _ => .error (.reservedFn f.op)

/-- OP 0x37, ARV (R80). -/
def decodeArv (f : Fields) : Except Reject Instr :=
  match f.fn.toNat with
  | 0 => reserved (f.rb = 0) (.arm f.h f.rd f.ra)
  | 1 => reserved (f.rb = 0) (.await f.h f.rd f.ra)
  | 2 => reserved (f.rb = 0) (.arrv f.h f.rd f.ra)
  | 5 => reserved (f.rb = 0) (.awaitX f.h f.rd f.ra)
  | _ => .error (.reservedFn f.op)

/-- OP 0x38, XCH (R80). -/
def decodeXch (f : Fields) : Except Reject Instr :=
  match (f.fn.extractLsb' 0 2).toNat with
  | 0 => reserved (f.rb = 0) (.xgrant f.h f.rd f.ra (f.fn.extractLsb' 2 2))
  | 1 => reserved (f.rb = 0) (.xsend f.h f.rd f.ra (f.fn.extractLsb' 2 2))
  | 2 => reserved (f.ra = 0 ∧ f.fn.extractLsb' 2 2 = 0) (.xstat f.h f.rd f.rb)
  | _ => .error (.reservedFn f.op)

/-- OP 0x39, EMIT (R80). -/
def decodeEmit (f : Fields) : Except Reject Instr :=
  match f.fn.toNat with
  | 0 => reserved (f.rb = 0) (.emit f.h f.rd f.ra)
  | 1 => reserved (f.rb = 0) (.mirr f.h f.rd f.ra)
  | _ => .error (.reservedFn f.op)

/-- OP 0x3A, QUEUE (R80). -/
def decodeQueue (f : Fields) : Except Reject Instr :=
  match f.fn.toNat with
  | 0 => reserved (f.rb = 0) (.tsub f.h f.rd f.ra)
  | 1 => reserved (f.rb = 0) (.qctl f.h f.rd f.ra)
  | _ => .error (.reservedFn f.op)

/-- LIT and LITH (R74, R85): the first word's imm14 holds k[31:28] in its low four bits and zeros above, the second word
holds k[27:0]. -/
def decodeLit (mk : Hdr → BitVec 5 → W32 → Instr) (f : Fields) (second : W32) : Except Reject Instr :=
  if f.ra = 0 ∧ f.rb = 0 then
    if second.extractLsb' 28 4 = 0 then .ok (mk f.h f.rd (f.fn ++ second.extractLsb' 0 28))
    else .error .secondWord
  else .error .reservedField

/-- The opcode map (R80); `second` is the word after this one, which only LIT and LITH have. -/
def decodeFields (f : Fields) (second : W32) : Except Reject Instr :=
  match f.op.toNat with
  | 0x0f => decodeLit .lit f second
  | 0x10 => decodeLit .lith f second
  | 0x00 => decodeSys f
  | 0x01 => reserved (f.rd = 0) (.idle f.h f.imm14)
  | 0x02 => decodeRgn f
  | 0x03 => reserved (f.ra = 0) (.csrr f.h f.rd f.imm9)
  | 0x04 => reserved (f.rd = 0) (.csrw f.h f.ra f.imm9)
  | 0x05 => decodeAlu f
  | 0x06 => decodeMulDiv f
  | 0x07 => decodeBits f
  | 0x08 => .ok (.addi f.h f.rd f.ra f.imm9)
  | 0x09 => .ok (.andi f.h f.rd f.ra f.imm9)
  | 0x0a => .ok (.ori f.h f.rd f.ra f.imm9)
  | 0x0b => .ok (.xori f.h f.rd f.ra f.imm9)
  | 0x0c => .ok (.slti f.h f.rd f.ra f.imm9)
  | 0x0d => decodeShiftI f
  | 0x0e => .ok (.li f.h f.rd f.imm14)
  | 0x11 => decodeLd f
  | 0x12 => decodeSt f
  | 0x13 => decodeAmoc f
  | 0x14 => .ok (.beq f.h f.rd f.ra f.imm9)
  | 0x15 => .ok (.bne f.h f.rd f.ra f.imm9)
  | 0x16 => .ok (.blt f.h f.rd f.ra f.imm9)
  | 0x17 => .ok (.bge f.h f.rd f.ra f.imm9)
  | 0x18 => .ok (.bltu f.h f.rd f.ra f.imm9)
  | 0x19 => .ok (.bgeu f.h f.rd f.ra f.imm9)
  | 0x1a => .ok (.beqz f.h f.rd f.imm14)
  | 0x1b => .ok (.bnez f.h f.rd f.imm14)
  | 0x1c => .ok (.loop f.h f.rd f.imm14)
  | 0x1d => .ok (.jmp f.h f.off19)
  | 0x1e => .ok (.jal f.h f.off19)
  | 0x1f => decodeJr f
  | 0x20 => .ok (.bstat f.h f.rd f.ra f.imm9)
  | 0x21 => decodeVfa f
  | 0x22 => decodeVfma f
  | 0x23 => decodeVia f
  | 0x24 => decodeVsh f
  | 0x25 => decodeVbit f
  | 0x26 => decodeVcmp f
  | 0x27 => decodeVcvt f
  | 0x28 => decodeVsfn f
  | 0x29 => decodeVaxis f
  | 0x2a => decodeVred f
  | 0x2b => decodeVscl f
  | 0x2c => decodeVrand f
  | 0x2d => decodeOsm f
  | 0x2e => decodePort f
  | 0x2f => decodeShld f
  | 0x30 => decodeMma f
  | 0x31 => decodeLmma f
  | 0x32 => decodeTbuild f
  | 0x33 => decodeTctl f
  | 0x34 => decodeEpi f
  | 0x35 => decodeCpy f
  | 0x36 => decodeSacc f
  | 0x37 => decodeArv f
  | 0x38 => decodeXch f
  | 0x39 => decodeEmit f
  | 0x3a => decodeQueue f
  | _ => .error (.reservedOp f.op)

/-- Whether the OP is that of a two-word instruction (R74). -/
def isPair (w : W32) : Bool :=
  let op := (w.extractLsb' 19 6).toNat
  op == 0x0f || op == 0x10

/-- The instruction of a word; `second` is the word at the next address. -/
def decodeWords (first second : W32) : Except Reject Instr := decodeFields (Fields.ofWord first) second

/-- A word from its four bytes, the least significant first (R72). -/
def wordOfBytes (b0 b1 b2 b3 : W8) : W32 := b3 ++ b2 ++ b1 ++ b0

/-- The first instruction of a list of bytes, and the bytes after it. -/
def decode (bytes : List W8) : Except Reject (Instr × List W8) :=
  match bytes with
  | b0 :: b1 :: b2 :: b3 :: rest =>
    let w := wordOfBytes b0 b1 b2 b3
    if isPair w then
      match rest with
      | c0 :: c1 :: c2 :: c3 :: rest' => (decodeWords w (wordOfBytes c0 c1 c2 c3)).map fun i => (i, rest')
      | _ => .error .short
    else (decodeWords w 0).map fun i => (i, rest)
  | _ => .error .short

/-- The fields of an instruction's first word (R81 to R94); none for a step that is not a word. -/
def encodeFields : Instr → Option Fields
  | .nop h => some { h := h, op := 0x00, rd := 0, ra := 0, rb := 0, fn := 0 }
  | .trap h a => some { h := h, op := 0x00, rd := 0, ra := a, rb := 0, fn := 1 }
  | .eret h => some { h := h, op := 0x00, rd := 0, ra := 0, rb := 0, fn := 2 }
  | .eretSa h a => some { h := h, op := 0x00, rd := 0, ra := a, rb := 0, fn := 2 }
  | .brk h => some { h := h, op := 0x00, rd := 0, ra := 0, rb := 0, fn := 3 }
  | .fenceFull h s => some { h := h, op := 0x00, rd := 0#2 ++ s, ra := 0, rb := 0, fn := 4 }
  | .fenceAcq h s => some { h := h, op := 0x00, rd := 1#2 ++ s, ra := 0, rb := 0, fn := 4 }
  | .fenceRel h s => some { h := h, op := 0x00, rd := 2#2 ++ s, ra := 0, rb := 0, fn := 4 }
  | .xfence h => some { h := h, op := 0x00, rd := 0, ra := 0, rb := 0, fn := 5 }
  | .step h l => some { h := h, op := 0x00, rd := 0, ra := l, rb := 0, fn := 6 }
  | .realign h a => some { h := h, op := 0x00, rd := 0, ra := a, rb := 0, fn := 7 }
  | .rcmt h a b => some { h := h, op := 0x00, rd := 0, ra := a, rb := b, fn := 8 }
  | .tail h => some { h := h, op := 0x00, rd := 0, ra := 0, rb := 0, fn := 9 }
  | .msel h m => some { h := h, op := 0x00, rd := 0, ra := m, rb := 0, fn := 10 }
  | .idle h n => some { h := h, op := 0x01, rd := 0, ra := n.extractLsb' 9 5, rb := n.extractLsb' 4 5, fn := n.extractLsb' 0 4 }
  | .rgnT h b s m => some { h := h, op := 0x02, rd := b, ra := s, rb := m, fn := 1 }
  | .rgn h b s m => some { h := h, op := 0x02, rd := b, ra := s, rb := m, fn := 0 }
  | .csrr h d c => some { h := h, op := 0x03, rd := d, ra := 0, rb := c.extractLsb' 4 5, fn := c.extractLsb' 0 4 }
  | .csrw h a c => some { h := h, op := 0x04, rd := 0, ra := a, rb := c.extractLsb' 4 5, fn := c.extractLsb' 0 4 }
  | .add h d a b => some { h := h, op := 0x05, rd := d, ra := a, rb := b, fn := 0 }
  | .sub h d a b => some { h := h, op := 0x05, rd := d, ra := a, rb := b, fn := 1 }
  | .and h d a b => some { h := h, op := 0x05, rd := d, ra := a, rb := b, fn := 2 }
  | .or h d a b => some { h := h, op := 0x05, rd := d, ra := a, rb := b, fn := 3 }
  | .xor h d a b => some { h := h, op := 0x05, rd := d, ra := a, rb := b, fn := 4 }
  | .shl h d a b => some { h := h, op := 0x05, rd := d, ra := a, rb := b, fn := 5 }
  | .shr h d a b => some { h := h, op := 0x05, rd := d, ra := a, rb := b, fn := 6 }
  | .sra h d a b => some { h := h, op := 0x05, rd := d, ra := a, rb := b, fn := 7 }
  | .slt h d a b => some { h := h, op := 0x05, rd := d, ra := a, rb := b, fn := 8 }
  | .sltu h d a b => some { h := h, op := 0x05, rd := d, ra := a, rb := b, fn := 9 }
  | .min h d a b => some { h := h, op := 0x05, rd := d, ra := a, rb := b, fn := 10 }
  | .max h d a b => some { h := h, op := 0x05, rd := d, ra := a, rb := b, fn := 11 }
  | .minu h d a b => some { h := h, op := 0x05, rd := d, ra := a, rb := b, fn := 12 }
  | .maxu h d a b => some { h := h, op := 0x05, rd := d, ra := a, rb := b, fn := 13 }
  | .mul h d a b => some { h := h, op := 0x06, rd := d, ra := a, rb := b, fn := 0 }
  | .mulh h d a b => some { h := h, op := 0x06, rd := d, ra := a, rb := b, fn := 1 }
  | .mulhu h d a b => some { h := h, op := 0x06, rd := d, ra := a, rb := b, fn := 2 }
  | .div h d a b => some { h := h, op := 0x06, rd := d, ra := a, rb := b, fn := 3 }
  | .divu h d a b => some { h := h, op := 0x06, rd := d, ra := a, rb := b, fn := 4 }
  | .rem h d a b => some { h := h, op := 0x06, rd := d, ra := a, rb := b, fn := 5 }
  | .remu h d a b => some { h := h, op := 0x06, rd := d, ra := a, rb := b, fn := 6 }
  | .clz h d a w => some { h := h, op := 0x07, rd := d, ra := a, rb := 0, fn := 0#2 ++ w }
  | .ffs h d a w => some { h := h, op := 0x07, rd := d, ra := a, rb := 0, fn := 1#2 ++ w }
  | .popc h d a w => some { h := h, op := 0x07, rd := d, ra := a, rb := 0, fn := 2#2 ++ w }
  | .addi h d a k => some { h := h, op := 0x08, rd := d, ra := a, rb := k.extractLsb' 4 5, fn := k.extractLsb' 0 4 }
  | .andi h d a k => some { h := h, op := 0x09, rd := d, ra := a, rb := k.extractLsb' 4 5, fn := k.extractLsb' 0 4 }
  | .ori h d a k => some { h := h, op := 0x0a, rd := d, ra := a, rb := k.extractLsb' 4 5, fn := k.extractLsb' 0 4 }
  | .xori h d a k => some { h := h, op := 0x0b, rd := d, ra := a, rb := k.extractLsb' 4 5, fn := k.extractLsb' 0 4 }
  | .slti h d a k => some { h := h, op := 0x0c, rd := d, ra := a, rb := k.extractLsb' 4 5, fn := k.extractLsb' 0 4 }
  | .shli h d a n => some { h := h, op := 0x0d, rd := d, ra := a, rb := 0#3 ++ (n.extractLsb' 4 2), fn := n.extractLsb' 0 4 }
  | .shri h d a n => some { h := h, op := 0x0d, rd := d, ra := a, rb := 2#3 ++ (n.extractLsb' 4 2), fn := n.extractLsb' 0 4 }
  | .srai h d a n => some { h := h, op := 0x0d, rd := d, ra := a, rb := 4#3 ++ (n.extractLsb' 4 2), fn := n.extractLsb' 0 4 }
  | .li h d k => some { h := h, op := 0x0e, rd := d, ra := k.extractLsb' 9 5, rb := k.extractLsb' 4 5, fn := k.extractLsb' 0 4 }
  | .lit h d k => some { h := h, op := 0x0f, rd := d, ra := 0, rb := 0, fn := k.extractLsb' 28 4 }
  | .lith h d k => some { h := h, op := 0x10, rd := d, ra := 0, rb := 0, fn := k.extractLsb' 28 4 }
  | .ldB h d a n => some { h := h, op := 0x11, rd := d, ra := a, rb := 0#3 ++ (n.extractLsb' 4 2), fn := n.extractLsb' 0 4 }
  | .ldBu h d a n => some { h := h, op := 0x11, rd := d, ra := a, rb := 1#3 ++ (n.extractLsb' 4 2), fn := n.extractLsb' 0 4 }
  | .ldH h d a n => some { h := h, op := 0x11, rd := d, ra := a, rb := 2#3 ++ (n.extractLsb' 4 2), fn := n.extractLsb' 0 4 }
  | .ldHu h d a n => some { h := h, op := 0x11, rd := d, ra := a, rb := 3#3 ++ (n.extractLsb' 4 2), fn := n.extractLsb' 0 4 }
  | .ldW h d a n => some { h := h, op := 0x11, rd := d, ra := a, rb := 4#3 ++ (n.extractLsb' 4 2), fn := n.extractLsb' 0 4 }
  | .ldWu h d a n => some { h := h, op := 0x11, rd := d, ra := a, rb := 5#3 ++ (n.extractLsb' 4 2), fn := n.extractLsb' 0 4 }
  | .ldD h d a n => some { h := h, op := 0x11, rd := d, ra := a, rb := 6#3 ++ (n.extractLsb' 4 2), fn := n.extractLsb' 0 4 }
  | .ldDAq h d a n => some { h := h, op := 0x11, rd := d, ra := a, rb := 7#3 ++ (n.extractLsb' 4 2), fn := n.extractLsb' 0 4 }
  | .stB h v a n => some { h := h, op := 0x12, rd := v, ra := a, rb := 0#3 ++ (n.extractLsb' 4 2), fn := n.extractLsb' 0 4 }
  | .stH h v a n => some { h := h, op := 0x12, rd := v, ra := a, rb := 1#3 ++ (n.extractLsb' 4 2), fn := n.extractLsb' 0 4 }
  | .stW h v a n => some { h := h, op := 0x12, rd := v, ra := a, rb := 2#3 ++ (n.extractLsb' 4 2), fn := n.extractLsb' 0 4 }
  | .stD h v a n => some { h := h, op := 0x12, rd := v, ra := a, rb := 3#3 ++ (n.extractLsb' 4 2), fn := n.extractLsb' 0 4 }
  | .stWRl h v a n => some { h := h, op := 0x12, rd := v, ra := a, rb := 4#3 ++ (n.extractLsb' 4 2), fn := n.extractLsb' 0 4 }
  | .stDRl h v a n => some { h := h, op := 0x12, rd := v, ra := a, rb := 5#3 ++ (n.extractLsb' 4 2), fn := n.extractLsb' 0 4 }
  | .amocAdd h a b d z => some { h := h, op := 0x13, rd := a, ra := b, rb := d, fn := (BitVec.ofBool z) ++ 0#3 }
  | .amocAnd h a b d z => some { h := h, op := 0x13, rd := a, ra := b, rb := d, fn := (BitVec.ofBool z) ++ 1#3 }
  | .amocOr h a b d z => some { h := h, op := 0x13, rd := a, ra := b, rb := d, fn := (BitVec.ofBool z) ++ 2#3 }
  | .amocXor h a b d z => some { h := h, op := 0x13, rd := a, ra := b, rb := d, fn := (BitVec.ofBool z) ++ 3#3 }
  | .amocXchg h a b d z => some { h := h, op := 0x13, rd := a, ra := b, rb := d, fn := (BitVec.ofBool z) ++ 4#3 }
  | .amocMax h a b d z => some { h := h, op := 0x13, rd := a, ra := b, rb := d, fn := (BitVec.ofBool z) ++ 5#3 }
  | .amocMin h a b d z => some { h := h, op := 0x13, rd := a, ra := b, rb := d, fn := (BitVec.ofBool z) ++ 6#3 }
  | .amocCas h a b d z => some { h := h, op := 0x13, rd := a, ra := b, rb := d, fn := (BitVec.ofBool z) ++ 7#3 }
  | .beq h a b k => some { h := h, op := 0x14, rd := a, ra := b, rb := k.extractLsb' 4 5, fn := k.extractLsb' 0 4 }
  | .bne h a b k => some { h := h, op := 0x15, rd := a, ra := b, rb := k.extractLsb' 4 5, fn := k.extractLsb' 0 4 }
  | .blt h a b k => some { h := h, op := 0x16, rd := a, ra := b, rb := k.extractLsb' 4 5, fn := k.extractLsb' 0 4 }
  | .bge h a b k => some { h := h, op := 0x17, rd := a, ra := b, rb := k.extractLsb' 4 5, fn := k.extractLsb' 0 4 }
  | .bltu h a b k => some { h := h, op := 0x18, rd := a, ra := b, rb := k.extractLsb' 4 5, fn := k.extractLsb' 0 4 }
  | .bgeu h a b k => some { h := h, op := 0x19, rd := a, ra := b, rb := k.extractLsb' 4 5, fn := k.extractLsb' 0 4 }
  | .beqz h a k => some { h := h, op := 0x1a, rd := a, ra := k.extractLsb' 9 5, rb := k.extractLsb' 4 5, fn := k.extractLsb' 0 4 }
  | .bnez h a k => some { h := h, op := 0x1b, rd := a, ra := k.extractLsb' 9 5, rb := k.extractLsb' 4 5, fn := k.extractLsb' 0 4 }
  | .loop h a k => some { h := h, op := 0x1c, rd := a, ra := k.extractLsb' 9 5, rb := k.extractLsb' 4 5, fn := k.extractLsb' 0 4 }
  | .jmp h k => some { h := h, op := 0x1d, rd := k.extractLsb' 14 5, ra := k.extractLsb' 9 5, rb := k.extractLsb' 4 5, fn := k.extractLsb' 0 4 }
  | .jal h k => some { h := h, op := 0x1e, rd := k.extractLsb' 14 5, ra := k.extractLsb' 9 5, rb := k.extractLsb' 4 5, fn := k.extractLsb' 0 4 }
  | .jr h a => some { h := h, op := 0x1f, rd := 0, ra := a, rb := 0, fn := 0 }
  | .bstat h a b k => some { h := h, op := 0x20, rd := a, ra := b, rb := k.extractLsb' 4 5, fn := k.extractLsb' 0 4 }
  | .vadd h d a b m => some { h := h, op := 0x21, rd := d, ra := a, rb := b, fn := (BitVec.ofBool m) ++ 0#3 }
  | .vsub h d a b m => some { h := h, op := 0x21, rd := d, ra := a, rb := b, fn := (BitVec.ofBool m) ++ 1#3 }
  | .vmul h d a b m => some { h := h, op := 0x21, rd := d, ra := a, rb := b, fn := (BitVec.ofBool m) ++ 2#3 }
  | .vmin h d a b m => some { h := h, op := 0x21, rd := d, ra := a, rb := b, fn := (BitVec.ofBool m) ++ 3#3 }
  | .vmax h d a b m => some { h := h, op := 0x21, rd := d, ra := a, rb := b, fn := (BitVec.ofBool m) ++ 4#3 }
  | .vabsd h d a b m => some { h := h, op := 0x21, rd := d, ra := a, rb := b, fn := (BitVec.ofBool m) ++ 5#3 }
  | .vmov h d a m => some { h := h, op := 0x21, rd := d, ra := a, rb := 0, fn := (BitVec.ofBool m) ++ 6#3 }
  | .vsel h d a b => some { h := h, op := 0x21, rd := d, ra := a, rb := b, fn := 7 }
  | .vfma h d a b m => some { h := h, op := 0x22, rd := d, ra := a, rb := b, fn := (BitVec.ofBool m) ++ 0#3 }
  | .vfms h d a b m => some { h := h, op := 0x22, rd := d, ra := a, rb := b, fn := (BitVec.ofBool m) ++ 1#3 }
  | .vfnma h d a b m => some { h := h, op := 0x22, rd := d, ra := a, rb := b, fn := (BitVec.ofBool m) ++ 2#3 }
  | .viadd h d a b m => some { h := h, op := 0x23, rd := d, ra := a, rb := b, fn := (BitVec.ofBool m) ++ 0#3 }
  | .visub h d a b m => some { h := h, op := 0x23, rd := d, ra := a, rb := b, fn := (BitVec.ofBool m) ++ 1#3 }
  | .vimul h d a b m => some { h := h, op := 0x23, rd := d, ra := a, rb := b, fn := (BitVec.ofBool m) ++ 2#3 }
  | .vimin h d a b m => some { h := h, op := 0x23, rd := d, ra := a, rb := b, fn := (BitVec.ofBool m) ++ 3#3 }
  | .vimax h d a b m => some { h := h, op := 0x23, rd := d, ra := a, rb := b, fn := (BitVec.ofBool m) ++ 4#3 }
  | .vand h d a b m => some { h := h, op := 0x23, rd := d, ra := a, rb := b, fn := (BitVec.ofBool m) ++ 5#3 }
  | .vor h d a b m => some { h := h, op := 0x23, rd := d, ra := a, rb := b, fn := (BitVec.ofBool m) ++ 6#3 }
  | .vxor h d a b m => some { h := h, op := 0x23, rd := d, ra := a, rb := b, fn := (BitVec.ofBool m) ++ 7#3 }
  | .vshl h d a b m => some { h := h, op := 0x24, rd := d, ra := a, rb := b, fn := (BitVec.ofBool m) ++ 0#3 }
  | .vshr h d a b m => some { h := h, op := 0x24, rd := d, ra := a, rb := b, fn := (BitVec.ofBool m) ++ 1#3 }
  | .vsra h d a b m => some { h := h, op := 0x24, rd := d, ra := a, rb := b, fn := (BitVec.ofBool m) ++ 2#3 }
  | .vclz h d a w m => some { h := h, op := 0x25, rd := d, ra := a, rb := w, fn := (BitVec.ofBool m) ++ 0#3 }
  | .vffs h d a w m => some { h := h, op := 0x25, rd := d, ra := a, rb := w, fn := (BitVec.ofBool m) ++ 1#3 }
  | .vpopc h d a w m => some { h := h, op := 0x25, rd := d, ra := a, rb := w, fn := (BitVec.ofBool m) ++ 2#3 }
  | .vcmpFeq h d a b m => some { h := h, op := 0x26, rd := d, ra := a, rb := b, fn := (BitVec.ofBool m) ++ 0#3 }
  | .vcmpFlt h d a b m => some { h := h, op := 0x26, rd := d, ra := a, rb := b, fn := (BitVec.ofBool m) ++ 1#3 }
  | .vcmpFle h d a b m => some { h := h, op := 0x26, rd := d, ra := a, rb := b, fn := (BitVec.ofBool m) ++ 2#3 }
  | .vcmpFun h d a b m => some { h := h, op := 0x26, rd := d, ra := a, rb := b, fn := (BitVec.ofBool m) ++ 3#3 }
  | .vcmpIeq h d a b m => some { h := h, op := 0x26, rd := d, ra := a, rb := b, fn := (BitVec.ofBool m) ++ 4#3 }
  | .vcmpIlt h d a b m => some { h := h, op := 0x26, rd := d, ra := a, rb := b, fn := (BitVec.ofBool m) ++ 5#3 }
  | .vcmpIltu h d a b m => some { h := h, op := 0x26, rd := d, ra := a, rb := b, fn := (BitVec.ofBool m) ++ 6#3 }
  | .vcvtNar h d a t m s r => some { h := h, op := 0x27, rd := d, ra := a, rb := 0#1 ++ t, fn := (BitVec.ofBool m) ++ (BitVec.ofBool s) ++ r }
  | .vcvtWid h d a t m => some { h := h, op := 0x27, rd := d, ra := a, rb := 1#1 ++ t, fn := (BitVec.ofBool m) ++ 0#3 }
  | .vsfnExp2 h d a m => some { h := h, op := 0x28, rd := d, ra := a, rb := 0, fn := (BitVec.ofBool m) ++ 0#3 }
  | .vsfnLog2 h d a m => some { h := h, op := 0x28, rd := d, ra := a, rb := 0, fn := (BitVec.ofBool m) ++ 1#3 }
  | .vsfnRcp h d a m => some { h := h, op := 0x28, rd := d, ra := a, rb := 0, fn := (BitVec.ofBool m) ++ 2#3 }
  | .vsfnRsqrt h d a m => some { h := h, op := 0x28, rd := d, ra := a, rb := 0, fn := (BitVec.ofBool m) ++ 3#3 }
  | .vsfnSqrt h d a m => some { h := h, op := 0x28, rd := d, ra := a, rb := 0, fn := (BitVec.ofBool m) ++ 4#3 }
  | .vsfnTanh h d a m => some { h := h, op := 0x28, rd := d, ra := a, rb := 0, fn := (BitVec.ofBool m) ++ 5#3 }
  | .vsfnSigm h d a m => some { h := h, op := 0x28, rd := d, ra := a, rb := 0, fn := (BitVec.ofBool m) ++ 6#3 }
  | .vsfnSilu h d a m => some { h := h, op := 0x28, rd := d, ra := a, rb := 0, fn := (BitVec.ofBool m) ++ 7#3 }
  | .vrotr h d a n m => some { h := h, op := 0x29, rd := d, ra := a, rb := n, fn := (BitVec.ofBool m) ++ 0#3 }
  | .vrotrHi h d a n m => some { h := h, op := 0x29, rd := d, ra := a, rb := n, fn := (BitVec.ofBool m) ++ 1#3 }
  | .vrotc h d a n m => some { h := h, op := 0x29, rd := d, ra := a, rb := n, fn := (BitVec.ofBool m) ++ 2#3 }
  | .vbcr h d a c m => some { h := h, op := 0x29, rd := d, ra := a, rb := c, fn := (BitVec.ofBool m) ++ 4#3 }
  | .vbcrHi h d a c m => some { h := h, op := 0x29, rd := d, ra := a, rb := c, fn := (BitVec.ofBool m) ++ 5#3 }
  | .vbcc h d a r m => some { h := h, op := 0x29, rd := d, ra := a, rb := r, fn := (BitVec.ofBool m) ++ 6#3 }
  | .vredrAdd h d a m => some { h := h, op := 0x2a, rd := d, ra := a, rb := 0, fn := (BitVec.ofBool m) ++ 0#3 }
  | .vredrMax h d a m => some { h := h, op := 0x2a, rd := d, ra := a, rb := 0, fn := (BitVec.ofBool m) ++ 1#3 }
  | .vredrMin h d a m => some { h := h, op := 0x2a, rd := d, ra := a, rb := 0, fn := (BitVec.ofBool m) ++ 2#3 }
  | .vredrIadd h d a m => some { h := h, op := 0x2a, rd := d, ra := a, rb := 0, fn := (BitVec.ofBool m) ++ 3#3 }
  | .vredcAdd h d a m => some { h := h, op := 0x2a, rd := d, ra := a, rb := 0, fn := (BitVec.ofBool m) ++ 4#3 }
  | .vredcMax h d a m => some { h := h, op := 0x2a, rd := d, ra := a, rb := 0, fn := (BitVec.ofBool m) ++ 5#3 }
  | .vredcMin h d a m => some { h := h, op := 0x2a, rd := d, ra := a, rb := 0, fn := (BitVec.ofBool m) ++ 6#3 }
  | .vredcIadd h d a m => some { h := h, op := 0x2a, rd := d, ra := a, rb := 0, fn := (BitVec.ofBool m) ++ 7#3 }
  | .vbcs h d a m => some { h := h, op := 0x2b, rd := d, ra := a, rb := 0, fn := (BitVec.ofBool m) ++ 0#3 }
  | .vext h d a c => some { h := h, op := 0x2b, rd := d, ra := a, rb := c, fn := 1 }
  | .vextHi h d a c => some { h := h, op := 0x2b, rd := d, ra := a, rb := c, fn := 2 }
  | .vrand h d a m => some { h := h, op := 0x2c, rd := d, ra := a, rb := 0, fn := (BitVec.ofBool m) ++ 0#3 }
  | .osmx h e a b => some { h := h, op := 0x2d, rd := e, ra := a, rb := b, fn := 0 }
  | .osmf h d e => some { h := h, op := 0x2d, rd := d, ra := e, rb := 0, fn := 1 }
  | .pcfg h g a => some { h := h, op := 0x2e, rd := g, ra := a, rb := 0, fn := 0 }
  | .prwd h g => some { h := h, op := 0x2e, rd := g, ra := 0, rb := 0, fn := 1 }
  | .shld h x a => some { h := h, op := 0x2f, rd := x, ra := a, rb := 0, fn := 0 }
  | .mma h c a b z f r => some { h := h, op := 0x30, rd := c, ra := a, rb := b, fn := (BitVec.ofBool z) ++ (BitVec.ofBool f) ++ (BitVec.ofBool r) ++ 0#1 }
  | .lmma h c q w z f => some { h := h, op := 0x31, rd := c, ra := q, rb := w, fn := (BitVec.ofBool z) ++ (BitVec.ofBool f) ++ 0#2 }
  | .tbuildZ h q a => some { h := h, op := 0x32, rd := q, ra := a, rb := 0, fn := 0 }
  | .tbuildC h q a => some { h := h, op := 0x32, rd := q, ra := a, rb := 0, fn := 1 }
  | .tbuildC2 h q a => some { h := h, op := 0x32, rd := q, ra := a, rb := 0, fn := 2 }
  | .tinv h q => some { h := h, op := 0x33, rd := q, ra := 0, rb := 0, fn := 0 }
  | .tspill h q a => some { h := h, op := 0x33, rd := q, ra := a, rb := 0, fn := 1 }
  | .tfill h q a => some { h := h, op := 0x33, rd := q, ra := a, rb := 0, fn := 2 }
  | .cbld h a => some { h := h, op := 0x33, rd := 0, ra := a, rb := 0, fn := 3 }
  | .epi h a => some { h := h, op := 0x34, rd := 0, ra := a, rb := 0, fn := 0 }
  | .cpy h a => some { h := h, op := 0x35, rd := 0, ra := a, rb := 0, fn := 0 }
  | .saccFadd h d x v => some { h := h, op := 0x36, rd := d, ra := x, rb := v, fn := 0 }
  | .saccFmax h d x v => some { h := h, op := 0x36, rd := d, ra := x, rb := v, fn := 1 }
  | .saccFmin h d x v => some { h := h, op := 0x36, rd := d, ra := x, rb := v, fn := 2 }
  | .saccIadd h d x v => some { h := h, op := 0x36, rd := d, ra := x, rb := v, fn := 3 }
  | .arm h a b => some { h := h, op := 0x37, rd := a, ra := b, rb := 0, fn := 0 }
  | .await h a b => some { h := h, op := 0x37, rd := a, ra := b, rb := 0, fn := 1 }
  | .arrv h a b => some { h := h, op := 0x37, rd := a, ra := b, rb := 0, fn := 2 }
  | .awaitX h a b => some { h := h, op := 0x37, rd := a, ra := b, rb := 0, fn := 5 }
  | .xgrant h a b k => some { h := h, op := 0x38, rd := a, ra := b, rb := 0, fn := k ++ 0#2 }
  | .xsend h a b k => some { h := h, op := 0x38, rd := a, ra := b, rb := 0, fn := k ++ 1#2 }
  | .xstat h a d => some { h := h, op := 0x38, rd := a, ra := 0, rb := d, fn := 2 }
  | .emit h a b => some { h := h, op := 0x39, rd := a, ra := b, rb := 0, fn := 0 }
  | .mirr h a b => some { h := h, op := 0x39, rd := a, ra := b, rb := 0, fn := 1 }
  | .tsub h a b => some { h := h, op := 0x3a, rd := a, ra := b, rb := 0, fn := 0 }
  | .qctl h a b => some { h := h, op := 0x3a, rd := a, ra := b, rb := 0, fn := 1 }
  | .tlbiCasement _ => none
  | .tlbiPage _ => none
  | .resultLands _ _ => none
  | .loadValueLands _ => none
  | .amocOldValueLands _ => none
  | .regionAlignment _ => none
  | .closingAlignment _ => none
  | .realignVisible _ _ => none
  | .budgetExceeded _ => none
  | .taskBudgetExpiry _ => none
  | .softErrorReexec _ _ => none
  | .dispatchDecision => none
  | .queueRecordRead _ => none
  | .waitRecheck _ => none
  | .markRecord _ => none
  | .waitFaultTimeout _ => none
  | .preemptRequest _ => none
  | .saveComplete _ => none
  | .saveFault _ => none
  | .completionEntryWrite _ => none
  | .cqInterrupt _ => none
  | .trackerEntryFree _ _ => none
  | .heldEffectDrain _ _ => none
  | .copyBeat _ _ => none
  | .portDrain _ _ => none
  | .engineCommandStart _ _ => none
  | .mmaStep _ => none
  | .mmaComplete _ => none
  | .lmmaLookup _ => none
  | .lmmaComplete _ => none
  | .tbuildComplete _ => none
  | .epiComplete _ => none
  | .saccUpdate _ => none
  | .tinvComplete _ => none
  | .tspillComplete _ => none
  | .tfillComplete _ => none
  | .grantArrival _ => none
  | .transomGroupLands _ => none
  | .mirrorAreaComplete _ _ => none
  | .chunkAtEndpoint _ => none
  | .translationWalk _ => none
  | .remoteStoreApply _ _ => none
  | .migrationSwitch => none
  | .fleetAnchorRewrite _ => none
  | .ptpSync _ => none
  | .holdover => none
  | .ptpPortRebind => none
  | .sessionIngress _ _ _ => none
  | .dieHeartbeat _ => none
  | .dieLossDeclared _ => none
  | .clockLockLoss _ => none
  | .hingeClockLoss => none
  | .powerOfferTick => none
  | .powerRebalance => none
  | .thermalHoldEnter _ => none
  | .thermalHoldExit _ => none
  | .hbmSlotService _ _ => none
  | .usageWindowClose _ => none
  | .usageRecordComplete _ => none
  | .scrubUnitDone _ => none
  | .bootStage => none
  | .vfFlr _ => none
  | .faultEntryWrite _ => none
  | .hostAccess _ _ _ _ => none
  | .sublinkRetire _ _ => none
  | .start _ => none
  | .stop _ => none
  | .setrd _ _ => none
  | .qwrWrite _ _ _ => none
  | .create _ => none
  | .teardown _ => none
  | .drain _ => none
  | .resume _ => none
  | .clrsave _ => none
  | .quotaWrite _ _ _ => none
  | .warmReset => none
  | .coldReset => none
  | .retry _ _ => none
  | .abort _ _ => none
  | .htlbiCasement _ => none
  | .htlbiPage _ _ => none
  | .s2invAll _ => none
  | .s2invIpa _ _ => none
  | .sessionOpen _ => none
  | .sessionClose _ => none
  | .sublinkTableWrite _ _ => none
  | .migrationStart _ _ _ => none
  | .migrationRelease => none
  | .fuseAdvance _ => none
  | .registerWrite _ _ _ _ => none
  | .instructionFetchComplete _ _ _ => none
  | .ethernetPortStateChange _ _ => none
  | .firmwareRetirement _ => none

/-- The second word of LIT and LITH (R85). -/
def secondWord : Instr → Option W32
  | .lit _ _ k => some (0#4 ++ k.extractLsb' 0 28)
  | .lith _ _ k => some (0#4 ++ k.extractLsb' 0 28)
  | _ => none

/-- The words of an instruction: one, or two for LIT and LITH; none for a step that is not a word. -/
def encode (i : Instr) : List W32 :=
  match encodeFields i with
  | none => []
  | some f => f.toWord :: (secondWord i).toList

/-- The four bytes of a word, the least significant first (R72). -/
def bytesOfWord (w : W32) : List W8 :=
  [w.extractLsb' 0 8, w.extractLsb' 8 8, w.extractLsb' 16 8, w.extractLsb' 24 8]

/-- The bytes an instruction is stored as. -/
def encodeBytes (i : Instr) : List W8 := (encode i).flatMap bytesOfWord

/-- The eight bytes of an instruction whose bits the opcode table numbers from the first word's bit 0: the first word at the
lowest address, every bit above `nbits` zero. -/
def tableBytes (nbits w : Nat) : List W8 :=
  let v : W64 := BitVec.ofNat 64 (w % 2 ^ nbits)
  bytesOfWord (v.extractLsb' 0 32) ++ bytesOfWord (v.extractLsb' 32 32)

/-- What the decoder reads from an instruction whose bits are `w`. -/
def decodeTableWord (nbits w : Nat) : Option Instr :=
  match decode (tableBytes nbits w) with
  | .ok (i, _) => some i
  | .error _ => none

end Sys2Proof
end

