-- ==== Sys2Proof/Config.lean ====
section
/-! DEFINITION. What the spec leaves open: opaque constants without a body. Nothing in Lean can evaluate one or prove a
value of it, so a statement about the model holds whatever their values are. Each is applied to the operands it depends
on, or to the plain counter `State.fresh` for a value of its own each time. -/

namespace Sys2Proof.Config

/-- A fresh natural number: every latency without a fixed length (R39, R193, R206, R216, R225, R263, R288, R357, R367,
R373) and every choice the spec leaves open (R193, R313). DESIGN CHOICE (safe): log entry 4. -/
opaque freeNat : Nat → Nat

/-- Which of the results allowed by the bound of R155 the special function `op` (its fn number in VSFN) returns for an
input container. The same on every core (R156). DESIGN CHOICE (safe): log entry 8. -/
opaque sfnPick : (op : Nat) → W32 → Nat

/-- The cores the dispatch unit proposes for a core group (R261 does not say which of several fitting placements it
takes). DESIGN CHOICE (safe): log entry 6. -/
opaque placement : Nat → List Nat

/-- The encryption of a 64-byte line of HBM4E as one XTS data unit: a permutation of the line's bits for a key and the line's number, its tweak (R303). The
keys are random, so which permutation is not known. A key is a slot and the generation of it. DESIGN CHOICE (safe): log entry 11. -/
opaque lineCipher : Nat × Nat → Nat → Equiv.Perm (BitVec 512)

/-- How far a casement's ingress may run ahead of its CAPE before a message is beyond it, in units of 0.0008 bits (R332). DESIGN CHOICE (safe): log entry 66. -/
opaque ingressBurst : Nat → Nat

/-- A byte read through the scale-up window at a cycle: the peer's memory (R334). DESIGN CHOICE (safe): log entry 31. -/
opaque windowByte : Nat → Nat → W8

/-- The ECDSA P-384 signature (r in the high 384 bits, s in the low ones) of a usage record's bytes 0 to 159 (R304): the
device's key is not given. DESIGN CHOICE (safe): log entry 12. -/
opaque recordSignature : List W8 → BitVec 768

/-- The device identity public key of R307, X in the high 384 bits and Y in the low ones. DESIGN CHOICE (safe): log
entry 12. -/
opaque deviceKey : BitVec 768

end Sys2Proof.Config
end

