-- ==== Sys2Proof/Machine/Flags.lean ====
section
/-! DEFINITION. Values and status bits: the sixteen formats (R128 to R131), exact values, rounding (R135 to R139), flushing
(R140 to R142), NaN and signed zero (R143, R144), the FP32 operations, and the status bits each of them sets (R152). A value
is kept exact, as an integer times a power of two, until the one rounding the spec gives it. -/

namespace Sys2Proof.Machine

/-- The status bits of R152, at their positions in VSTAT and in the EPI status word. -/
abbrev Status := BitVec 10

namespace Status
/-- No status bit. -/
abbrev none : Status := 0
/-- NV, bit 0: an invalid operation. -/
abbrev nv : Status := 1
/-- OF, bit 1: overflow. -/
abbrev of : Status := 2
/-- UF, bit 2: a tiny result inexact or flushed. -/
abbrev uf : Status := 4
/-- IX, bit 3: a rounded result differs from the exact one. -/
abbrev ix : Status := 8
/-- DZ, bit 4: RCP, RSQRT or LOG2 of a zero. -/
abbrev dz : Status := 16
/-- SAT, bit 5: written as a largest finite value or an integer bound. -/
abbrev sat : Status := 32
/-- SUNF, bit 6: an auto-scale exponent clamped up to −126. -/
abbrev sunf : Status := 64
/-- SOVF, bit 7: an auto-scale exponent clamped down to 127. -/
abbrev sovf : Status := 128
/-- NANIN, bit 8: an input is a NaN. -/
abbrev nanin : Status := 256
/-- FLUSH, bit 9: an input or a result is flushed to zero. -/
abbrev flush : Status := 512
end Status

/-- An exact value: a NaN, an infinity, or (−1)^neg × m × 2^e; a zero (m = 0) keeps its sign. -/
inductive Val where
  | nan
  | inf (neg : Bool)
  | fin (neg : Bool) (m : Nat) (e : Int)
  deriving DecidableEq, Repr

/-- A zero of a sign. -/
def Val.zero (neg : Bool) : Val := .fin neg 0 0

/-- An integer as an exact value. -/
def Val.ofInt (i : Int) : Val := .fin (decide (i < 0)) i.natAbs 0

/-- Whether a value is a zero. -/
def Val.isZero : Val → Bool
  | .fin _ m _ => m == 0
  | _ => false

/-- Whether a value is a NaN. -/
def Val.isNan : Val → Bool
  | .nan => true
  | _ => false

/-- The sign of a value; a NaN has none. -/
def Val.neg : Val → Bool
  | .nan => false
  | .inf n => n
  | .fin n _ _ => n

/-- The value with the other sign. -/
def Val.negate : Val → Val
  | .nan => .nan
  | .inf n => .inf (!n)
  | .fin n m e => .fin (!n) m e

/-- The magnitude of a value. -/
def Val.abs : Val → Val
  | .nan => .nan
  | .inf _ => .inf false
  | .fin _ m e => .fin false m e

/-- The value times 2^k, exactly (R134). -/
def Val.scale (v : Val) (k : Int) : Val :=
  match v with
  | .fin n m e => .fin n m (e + k)
  | v => v

/-- m × 2^e as an integer multiple of 2^base, for base ≤ e. -/
def alignTo (m : Nat) (e base : Int) : Nat := m * 2 ^ (e - base).toNat

/-- The signed integer of a finite value in units of 2^base. -/
def signedAt (neg : Bool) (m : Nat) (e base : Int) : Int :=
  if neg then -(alignTo m e base : Int) else (alignTo m e base : Int)

/-- Comparison of two values that are not NaN: negative, zero or positive as `a` is below, equal to or above `b`. Zeros of
either sign are equal. -/
def Val.cmp (a b : Val) : Int :=
  match a, b with
  | .nan, _ => 0
  | _, .nan => 0
  | .inf na, .inf nb => (if na then -1 else 1) - (if nb then -1 else 1)
  | .inf na, .fin _ _ _ => if na then -1 else 1
  | .fin _ _ _, .inf nb => if nb then 1 else -1
  | .fin na ma ea, .fin nb mb eb =>
    let base := Min.min ea eb
    signedAt na ma ea base - signedAt nb mb eb base

/-- The exact sum of two values, and NV when opposite infinities meet (R143). A zero sum of operands of opposite sign is +0
(R144). -/
def Val.add (a b : Val) : Val × Status :=
  match a, b with
  | .nan, _ => (.nan, 0)
  | _, .nan => (.nan, 0)
  | .inf na, .inf nb => if na == nb then (.inf na, 0) else (.nan, Status.nv)
  | .inf na, _ => (.inf na, 0)
  | _, .inf nb => (.inf nb, 0)
  | .fin na ma ea, .fin nb mb eb =>
    let base := Min.min ea eb
    let s := signedAt na ma ea base + signedAt nb mb eb base
    if s = 0 then (.fin (na && nb) 0 0, 0) else (.fin (decide (s < 0)) s.natAbs base, 0)

/-- The exact product of two values, and NV for zero times infinity (R143). -/
def Val.mul (a b : Val) : Val × Status :=
  match a, b with
  | .nan, _ => (.nan, 0)
  | _, .nan => (.nan, 0)
  | .inf na, .inf nb => (.inf (na != nb), 0)
  | .inf na, .fin nb m _ => if m = 0 then (.nan, Status.nv) else (.inf (na != nb), 0)
  | .fin na m _, .inf nb => if m = 0 then (.nan, Status.nv) else (.inf (na != nb), 0)
  | .fin na ma ea, .fin nb mb eb => (.fin (na != nb) (ma * mb) (ea + eb), 0)

/-- The rounding modes of R135, at their codes. -/
inductive Rnd where
  | rne | rz | ru | rd
  deriving DecidableEq, Repr

/-- The mode of a two-bit code (R135). -/
def Rnd.ofCode (c : BitVec 2) : Rnd :=
  if c = 0 then .rne else if c = 1 then .rz else if c = 2 then .ru else .rd

/-- n ÷ 2^k rounded to an integer under a mode, for a value of the given sign (R135). -/
def roundShift (r : Rnd) (neg : Bool) (n k : Nat) : Nat :=
  let q := n / 2 ^ k
  let rem := n % 2 ^ k
  if rem = 0 then q else
  match r with
  | .rz => q
  | .ru => if neg then q else q + 1
  | .rd => if neg then q + 1 else q
  | .rne =>
    let half := 2 ^ (k - 1)
    if rem < half then q else if half < rem then q + 1 else q + q % 2

/-- What a format does at its upper edge (R128, R137, R138). -/
inductive Edge where
  /-- FP32, BF16, FP16, F8B: infinities, and NaN codes with every exponent bit one. -/
  | ieee
  /-- F8A: no infinity; the one NaN magnitude is all ones. -/
  | nanOnly
  /-- F6A, F4A: neither infinity nor NaN. -/
  | finite
  deriving DecidableEq, Repr

/-- A floating-point format (R128). -/
structure FloatFmt where
  width : Nat
  mant : Nat
  bias : Int
  edge : Edge
  deriving DecidableEq, Repr

/-- FP32. -/
def FloatFmt.fp32 : FloatFmt := { width := 32, mant := 23, bias := 127, edge := .ieee }
/-- BF16. -/
def FloatFmt.bf16 : FloatFmt := { width := 16, mant := 7, bias := 127, edge := .ieee }
/-- FP16. -/
def FloatFmt.fp16 : FloatFmt := { width := 16, mant := 10, bias := 15, edge := .ieee }
/-- F8A. -/
def FloatFmt.f8a : FloatFmt := { width := 8, mant := 3, bias := 8, edge := .nanOnly }
/-- F8B. -/
def FloatFmt.f8b : FloatFmt := { width := 8, mant := 2, bias := 15, edge := .ieee }
/-- F6A. -/
def FloatFmt.f6a : FloatFmt := { width := 6, mant := 2, bias := 3, edge := .finite }
/-- F4A. -/
def FloatFmt.f4a : FloatFmt := { width := 4, mant := 1, bias := 1, edge := .finite }

/-- The magnitude code of +∞ in a format that has one: the first code whose exponent field is all ones. -/
def FloatFmt.infCode (f : FloatFmt) : Nat := 2 ^ (f.width - 1) - 2 ^ f.mant

/-- The magnitude code of the largest finite value (R128). -/
def FloatFmt.maxCode (f : FloatFmt) : Nat :=
  match f.edge with
  | .ieee => f.infCode - 1
  | .nanOnly => 2 ^ (f.width - 1) - 2
  | .finite => 2 ^ (f.width - 1) - 1

/-- The canonical NaN (R128); a format without NaN writes its positive largest finite value (R143). -/
def FloatFmt.nanCode (f : FloatFmt) : Nat :=
  match f.edge with
  | .ieee => f.infCode + 2 ^ (f.mant - 1)
  | .nanOnly => 2 ^ (f.width - 1) - 1
  | .finite => f.maxCode

/-- A magnitude code with a sign. -/
def FloatFmt.signed (f : FloatFmt) (neg : Bool) (mag : Nat) : Nat :=
  if neg then mag + 2 ^ (f.width - 1) else mag

/-- The exact value of a magnitude code read as finite, in units of 2^(1 − bias − mant): the smallest subnormal (R129). -/
def FloatFmt.magUnits (f : FloatFmt) (mag : Nat) : Nat :=
  let ex := mag / 2 ^ f.mant
  if ex = 0 then mag else (2 ^ f.mant + mag % 2 ^ f.mant) * 2 ^ (ex - 1)

/-- The exponent of the smallest subnormal's unit. -/
def FloatFmt.unitExp (f : FloatFmt) : Int := 1 - f.bias - f.mant

/-- The exact value of a code (R129). -/
def FloatFmt.value (f : FloatFmt) (code : Nat) : Val :=
  let neg := decide (code / 2 ^ (f.width - 1) % 2 = 1)
  let mag := code % 2 ^ (f.width - 1)
  let ex := mag / 2 ^ f.mant
  let fr := mag % 2 ^ f.mant
  let fin : Val :=
    if ex = 0 then .fin neg fr f.unitExp else .fin neg (2 ^ f.mant + fr) (f.unitExp + ex - 1)
  match f.edge with
  | .ieee => if f.infCode < mag then .nan else if mag = f.infCode then .inf neg else fin
  | .nanOnly => if mag = 2 ^ (f.width - 1) - 1 then .nan else fin
  | .finite => fin

/-- Whether a mode rounds an overflowing value of this sign away from zero (R137). -/
def Rnd.away (r : Rnd) (neg : Bool) : Bool :=
  match r with
  | .rne => true
  | .rz => false
  | .ru => !neg
  | .rd => neg

/-- The code and status of an overflow (R137). -/
def FloatFmt.overflow (f : FloatFmt) (r : Rnd) (satCtl neg : Bool) : Nat × Status :=
  let base := Status.of ||| Status.ix
  let big := (f.signed neg f.maxCode, base ||| Status.sat)
  if satCtl || !(r.away neg) then big else
  match f.edge with
  | .ieee => (f.signed neg f.infCode, base)
  | .nanOnly => (f.nanCode, base ||| Status.nv)
  | .finite => big

/-- A finite value rounded to a format (R136, R137, R142): its code and the status bits. `flushing` is the subnormal mode of
R140; F6A and F4A are never flushed. -/
def FloatFmt.roundFin (f : FloatFmt) (r : Rnd) (satCtl flushing neg : Bool) (m : Nat) (e : Int) : Nat × Status :=
  if m = 0 then (f.signed neg 0, 0) else
  let top : Int := e + Nat.log2 m
  let q : Int := Max.max (top - f.mant) f.unitExp
  let n : Nat := if q ≤ e then m * 2 ^ (e - q).toNat else roundShift r neg m (q - e).toNat
  let exact : Bool := if q ≤ e then true else m % 2 ^ (q - e).toNat == 0
  let mag : Nat := (q - f.unitExp).toNat * 2 ^ f.mant + n
  if f.maxCode < mag then f.overflow r satCtl neg else
  let tiny := mag < 2 ^ f.mant
  if tiny && flushing && f.edge != .finite then
    (f.signed neg 0, Status.flush ||| Status.uf ||| Status.ix)
  else
    (f.signed neg mag, if exact then 0 else if tiny then Status.ix ||| Status.uf else Status.ix)

/-- A value rounded to a format, the result of an arithmetic operation (R136 to R138, R142, R143). The NaN status of the
inputs is the operation's own; a NaN written to F6A or F4A sets NV and SAT here. -/
def FloatFmt.round (f : FloatFmt) (r : Rnd) (satCtl flushing : Bool) (v : Val) : Nat × Status :=
  match v with
  | .nan =>
    match f.edge with
    | .finite => (f.nanCode, Status.nv ||| Status.sat)
    | _ => (f.nanCode, 0)
  | .inf neg =>
    match f.edge with
    | .ieee => (f.signed neg f.infCode, 0)
    | .nanOnly => if satCtl then (f.signed neg f.maxCode, Status.sat) else (f.nanCode, Status.nv)
    | .finite => (f.signed neg f.maxCode, Status.sat)
  | .fin neg m e => f.roundFin r satCtl flushing neg m e

/-- The bounds of an integer format: width and signedness (R130). -/
structure IntFmt where
  width : Nat
  signed : Bool
  deriving DecidableEq, Repr

/-- The least value of an integer format. -/
def IntFmt.lo (f : IntFmt) : Int := if f.signed then -(2 ^ (f.width - 1) : Nat) else 0

/-- The greatest value of an integer format. -/
def IntFmt.hi (f : IntFmt) : Int := if f.signed then (2 ^ (f.width - 1) : Nat) - 1 else (2 ^ f.width : Nat) - 1

/-- The code of an integer in a format: its low bits. -/
def IntFmt.code (f : IntFmt) (i : Int) : Nat := (i % (2 ^ f.width : Nat)).toNat

/-- The value of a code. -/
def IntFmt.value (f : IntFmt) (code : Nat) : Int :=
  let c := code % 2 ^ f.width
  if f.signed && decide (2 ^ (f.width - 1) ≤ c) then (c : Int) - (2 ^ f.width : Nat) else c

/-- A value converted to an integer format (R139). -/
def IntFmt.round (f : IntFmt) (r : Rnd) (v : Val) : Nat × Status :=
  match v with
  | .nan => (0, Status.nv)
  | .inf neg => (f.code (if neg then f.lo else f.hi), Status.sat)
  | .fin neg m e =>
    let k := (-e).toNat
    let n := if 0 ≤ e then m * 2 ^ e.toNat else roundShift r neg m k
    let exact : Bool := if 0 ≤ e then true else m % 2 ^ k == 0
    let i : Int := if neg then -(n : Int) else n
    let ix := if exact then Status.none else Status.ix
    if i < f.lo then (f.code f.lo, ix ||| Status.sat)
    else if f.hi < i then (f.code f.hi, ix ||| Status.sat)
    else (f.code i, ix)

/-- An element format that ports, engines and conversions name by its code (R128, R130). -/
inductive Fmt where
  | float (f : FloatFmt)
  | int (f : IntFmt)
  /-- C4 and C2: an index into the codebook. -/
  | code (width : Nat)
  /-- P1: 1 is +1, 0 is −1. -/
  | p1
  /-- T2: 00 and 11 are 0, 01 is +1, 10 is −1. -/
  | t2
  deriving DecidableEq, Repr

/-- The format of a code (R128, R130). -/
def Fmt.ofCode (c : Nat) : Fmt :=
  match c with
  | 0x0 => .float .fp32
  | 0x1 => .float .bf16
  | 0x2 => .float .fp16
  | 0x3 => .float .f8a
  | 0x4 => .float .f8b
  | 0x5 => .float .f6a
  | 0x6 => .float .f4a
  | 0x7 => .int { width := 16, signed := true }
  | 0x8 => .int { width := 8, signed := true }
  | 0x9 => .int { width := 8, signed := false }
  | 0xA => .int { width := 4, signed := true }
  | 0xB => .int { width := 4, signed := false }
  | 0xC => .code 4
  | 0xD => .code 2
  | 0xE => .p1
  | _ => .t2

/-- The width in bits of a format. -/
def Fmt.width : Fmt → Nat
  | .float f => f.width
  | .int f => f.width
  | .code w => w
  | .p1 => 1
  | .t2 => 2

/-- The width in bits of the format of a code. -/
def fmtWidth (c : Nat) : Nat := (Fmt.ofCode c).width

/-- The exact value of an element (R129, R130, R132); `cb` gives the codebook's BF16 codes. -/
def Fmt.value (f : Fmt) (cb : List (BitVec 16)) (code : Nat) : Val :=
  match f with
  | .float f => f.value code
  | .int f => Val.ofInt (f.value code)
  | .code _ => FloatFmt.bf16.value (cb.getD code 0).toNat
  | .p1 => Val.ofInt (if code % 2 = 1 then 1 else -1)
  | .t2 => Val.ofInt (if code % 4 = 1 then 1 else if code % 4 = 2 then -1 else 0)

/-- Whether a value is non-zero and below the smallest normal FP32 magnitude (R141). -/
def Val.subnormal : Val → Bool
  | .fin _ m e => m != 0 && decide (e + Nat.log2 m < -126)
  | _ => false

/-- Input flushing of an exact value (R141), and NANIN for a NaN input (R143). -/
def Val.input (flushing : Bool) (v : Val) : Val × Status :=
  if v.isNan then (.nan, Status.nanin)
  else if flushing && v.subnormal then (.zero v.neg, Status.flush)
  else (v, 0)

/-- An FP32 container read as an arithmetic input (R141, R143). -/
def fpIn (flushing : Bool) (w : W32) : Val × Status := (FloatFmt.fp32.value w.toNat).input flushing

/-- The one rounding of a tile or accumulator result (Rne32 and Flush, R142, R144). -/
def rne32 (flushing : Bool) (v : Val) : W32 × Status :=
  let (c, st) := FloatFmt.fp32.round .rne false flushing v
  (BitVec.ofNat 32 c, st)

/-- The canonical quiet NaN of FP32 (R128). -/
def qnan : W32 := 0x7FC00000

/-- VADD of two containers (R144). -/
def fpAdd (fl : Bool) (a b : W32) : W32 × Status :=
  let (x, sx) := fpIn fl a
  let (y, sy) := fpIn fl b
  let (z, sz) := x.add y
  let (w, sw) := rne32 fl z
  (w, sx ||| sy ||| sz ||| sw)

/-- The container with its sign bit turned. -/
def fpNeg (a : W32) : W32 := a ^^^ 0x80000000

/-- VSUB of two containers (R144). -/
def fpSub (fl : Bool) (a b : W32) : W32 × Status := fpAdd fl a (fpNeg b)

/-- VMUL of two containers (R144). -/
def fpMul (fl : Bool) (a b : W32) : W32 × Status :=
  let (x, sx) := fpIn fl a
  let (y, sy) := fpIn fl b
  let (z, sz) := x.mul y
  let (w, sw) := rne32 fl z
  (w, sx ||| sy ||| sz ||| sw)

/-- VFMA: a × b + c with one rounding, with the signs of the product and of the addend as asked (R144). 0 × ∞ sets NV, and a NaN
among the three inputs NANIN (R440; log entry 25). -/
def fpFma (fl : Bool) (negProd negAdd : Bool) (a b c : W32) : W32 × Status :=
  let (x, sx) := fpIn fl a
  let (y, sy) := fpIn fl b
  let (u, su) := fpIn fl c
  let (p, sp) := x.mul y
  let p := if negProd then p.negate else p
  let u := if negAdd then u.negate else u
  let (z, sz) := p.add u
  let (w, sw) := rne32 fl z
  (w, sx ||| sy ||| su ||| sp ||| sz ||| sw)

/-- Which of two values VMIN and VMAX take as the smaller: −0 is below +0 (R144). -/
def Val.before (a b : Val) : Bool :=
  let c := a.cmp b
  if c < 0 then true else if 0 < c then false else a.neg && !b.neg

/-- VMIN or VMAX of two containers (R144). -/
def fpMinMax (fl wantMax : Bool) (a b : W32) : W32 × Status :=
  let (x, sx) := fpIn fl a
  let (y, sy) := fpIn fl b
  let st := sx ||| sy
  if x.isNan || y.isNan then (qnan, st) else
  let pick := if (if wantMax then y.before x else x.before y) then x else y
  let (w, _) := rne32 false pick
  (w, st)

/-- VABSD: the magnitude of a − b (R347). -/
def fpAbsDiff (fl : Bool) (a b : W32) : W32 × Status :=
  let (w, st) := fpSub fl a b
  (w &&& 0x7FFFFFFF, st)

/-- Comparison of two containers: equal, less, or unordered (R428). -/
inductive FpOrder where
  | lt | eq | gt | un
  deriving DecidableEq, Repr

/-- The order of two containers after input flushing. -/
def fpOrder (fl : Bool) (a b : W32) : FpOrder × Status :=
  let (x, sx) := fpIn fl a
  let (y, sy) := fpIn fl b
  let st := sx ||| sy
  if x.isNan || y.isNan then (.un, st) else
  let c := x.cmp y
  (if c < 0 then .lt else if 0 < c then .gt else .eq, st)

/-- A container converted to a format (VCVT.NAR, R91, R136 to R143): the code in the format's own width. -/
def narrow (fmt : Nat) (r : Rnd) (satCtl fl : Bool) (w : W32) : Nat × Status :=
  let (x, sx) := fpIn fl w
  match Fmt.ofCode fmt with
  | .float f => let (c, s) := f.round r satCtl fl x; (c, sx ||| s)
  | .int f => let (c, s) := f.round r x; (c, sx ||| s)
  | _ => (0, sx)

/-- A code of a format converted to an FP32 container, exactly (VCVT.WID, R116, R132). -/
def widen (fmt : Nat) (fl : Bool) (code : Nat) : W32 × Status :=
  let (x, sx) := ((Fmt.ofCode fmt).value [] (code % 2 ^ fmtWidth fmt)).input fl
  let (w, s) := rne32 false x
  (w, sx ||| s)

/-- The sum of a list by adjacent pairs, level by level; the last of an odd list passes on unchanged (R149). -/
def pairLevel {α : Type} (f : α → α → α) : List α → List α
  | a :: b :: rest => f a b :: pairLevel f rest
  | rest => rest

/-- The whole tree, `fuel` levels of it; 64 lanes need six, 16 rows four (R149). -/
def pairTree {α : Type} (f : α → α → α) (fuel : Nat) (l : List α) : List α :=
  match fuel with
  | 0 => l
  | k + 1 => pairTree f k (pairLevel f l)

end Sys2Proof.Machine
end

