-- ==== Sys2Proof/Machine/State.lean ====
section
/-! DEFINITION. The state of the part, as plain data: everything the spec gives the machine, and the few fields of the
model's own that its step needs (each says so). Sparse collections are lists of keyed entries; an absent key holds the value
at reset. Cycles and numbers that only count are natural numbers; what software reads as a word is a bit vector. -/

namespace Sys2Proof.Machine

/-- A sparse array of bytes, in the one canonical form of `Cells.wf`: addresses strictly rising, no entry 0. An address not
listed reads as 0 (R33 for the buffers of a core; log entry 2 for memory). -/
abbrev Cells := List Host.Cell

/-- A row of 64 containers (R108). -/
abbrev Row := List W32

/-- Why the machine stops for good. -/
inductive Fault where
  /-- Raised by HOST_ACCESS: an access of the host at a physical address that R460 leaves unmapped, for which the spec states
  no answer. Safe: nothing is claimed of such a run. -/
  | physicalHole
  deriving DecidableEq, Repr

/-- Why a step has no meaning in a state. -/
inductive Refusal where
  /-- Raised by `exec` for an instruction that is not modelled. Safe. -/
  | notModelled (mnemonic : String)
  /-- Raised by the meaning of a step that is not a word when what it is about is not there, or not due in this cycle: the
  step does not take place then (log entry 18). `step` never runs one that is not enabled. Safe. -/
  | eventNotEnabled
  /-- Raised by the meaning of a word when no sequencer stands at its issue: `State.cur` names none that runs (log entry 9).
  `step` never runs a word so. Safe. -/
  | noSequencer
  deriving DecidableEq, Repr

/-- What a sequencer is doing (R32, R43, R52, R64, R66, R214, R276). -/
inductive SeqState where
  /-- No task has it, or its task's TAIL has issued (R66). -/
  | off
  /-- It issues words. -/
  | run
  /-- Arrived at RGN (R43). -/
  | atRgn
  /-- Arrived at RCMT (R52). -/
  | atRcmt
  /-- Arrived at a STEP of a level (R64). -/
  | atStep (level : Nat)
  /-- Waits for its FENCE: scope, kind, and the cycle from which it may complete (R215). -/
  | atFence (scope kind since : Nat) (sp sn : Bool)
  /-- Waits for the value of an acquire load (R213). -/
  | atAcquire (id : Nat)
  /-- Held at its restart point while the handler runs (R276). -/
  | trapHeld
  deriving DecidableEq, Repr

/-- A fetched instruction word, or the fault its fetch met (R225, R356, R458). -/
structure Fetched where
  addr : Nat
  word : W32
  /-- 0, or the code of the fault raised when the word would issue. -/
  fault : Nat
  /-- For XLATE_S1: the CODE a report of it would carry (R291). For MACHINE_CHECK: the failing unit's address (R272). -/
  xcode : Nat
  deriving DecidableEq, Repr

/-- A fetch under way (R225, R288). -/
structure FetchReq where
  addr : Nat
  due : Nat
  /-- Stalled by a stage-2 fault (R292). -/
  stalled : Bool
  /-- Of a word that no FENCE.FULL has just discarded: it is ready when a taken branch needs it, within the ranges of R357 and R382. -/
  sure : Bool
  deriving DecidableEq, Repr

/-- A sequencer: 32 scalar registers, s0 never read from here (R77, R107), and a program counter. -/
structure Seq where
  regs : List W64
  pc : Nat
  st : SeqState
  /-- The first cycle in which the next word may issue if its IDLE field is 0 (R39). -/
  base : Nat
  /-- The cycle a stalled word tries again (R39). -/
  retry : Option Nat
  /-- The gap start (R58). -/
  gapStart : Nat
  /-- Registers whose variable-latency result has not landed (R201, R367). -/
  pend : List Nat
  fetched : List Fetched
  fetching : List FetchReq
  /-- This sequencer's RGN is re-entered, not issued afresh (R44). -/
  reentered : Bool
  /-- Its RGN's mode bit and its word's SYNC signals (R41, R42). -/
  rgnTimed : Bool
  rgnSp : Bool
  rgnSn : Bool
  /-- The stores its loads have read, and what happens before them, as a count for each die (R212). -/
  readStamp : List Nat
  /-- The FENCE.REL and FENCE.FULL words of its region: the widest scope, and whether one is a FULL (R216). -/
  fenced : Option (Nat × Bool)
  /-- Its held store that the next one may merge into (R48). -/
  lastHeld : Option Nat
  /-- The link address of its latest JAL: where its return window lies (R382). -/
  link : Option Nat
  /-- A FENCE.FULL has discarded its words, and they have not been asked for again (R225). -/
  cold : Bool
  /-- Its latest word that went elsewhere than to the next one, and where (R357). -/
  jump : Option (Nat × Nat)
  /-- What it has acquired through tokens: for each sequencer of the core, the cycle before which that sequencer's accesses come before its own (R37, R209). -/
  after : List Nat
  deriving DecidableEq, Repr

/-- The restart snapshot of a sequencer (R45, R58). -/
structure SeqSnap where
  pc : Nat
  regs : List W64
  /-- The restart point is an RGN, not a gap start. -/
  atRgn : Bool
  sp : Bool
  sn : Bool
  timed : Bool
  /-- The sequencer has executed TAIL: it issues nothing more (R66). -/
  off : Bool
  deriving DecidableEq, Repr

/-- A port (R113, R115, R118). -/
structure Port where
  /-- The 64 bytes of the parameter set; none until PCFG. -/
  set : Option (BitVec 512)
  idx : List Nat
  /-- The port is not ready from cycle `stop` to before cycle `ready` (R114, R115, R406). -/
  stop : Nat
  ready : Nat
  /-- One above the last cycle in which it popped or took a row; 0 for none (R118). -/
  used : Nat
  deriving DecidableEq, Repr

/-- The sequencer CSRs and ports of the restart snapshot (R45). -/
structure CoreSnap where
  rwin : W64
  mact : W64
  mrs : W64
  vstat : W64
  sacw : W64
  ports : List Port
  tokens : List Nat
  deriving DecidableEq, Repr

/-- The states of a table register (R183). -/
inductive TableState where
  | invalid | building | stale | valid
  deriving DecidableEq, Repr

/-- A table register (R176): 16 KiB of entries and a descriptor. -/
structure Table where
  st : TableState
  /-- 0 Z, 1 C, 2 C2. -/
  mode : Nat
  koff : Nat
  loBlk : Nat
  nBlk : Nat
  counts : List Nat
  /-- The FP32 entries, by body offset ÷ 4; entries not listed are +0.0. -/
  body : List W32
  /-- VALID as it stood at the start of the current cycle, which is what a lookup tests (R183). -/
  was : Bool
  deriving DecidableEq, Repr

/-- An accumulator bank: 8,192 FP32 positions and its sticky status bits (R147, R167). -/
structure Bank where
  acc : List (Nat × W32)
  sticky : BitVec 10
  deriving DecidableEq, Repr

/-- The reductions of VREDR and VREDC (R442). -/
inductive RedOp where
  | add | max | min | iadd
  deriving DecidableEq, Repr

/-- The conditions of VCMP (R437). -/
inductive CmpOp where
  | feq | flt | fle | fun_ | ieq | ilt | iltu
  deriving DecidableEq, Repr

/-- The functions of VSFN (R443). -/
inductive SfnOp where
  | exp2 | log2 | rcp | rsqrt | sqrt | tanh | sigm | silu
  deriving DecidableEq, Repr

/-- What a tile instruction does, with its literal fields (R427 to R444, R401 to R404). -/
inductive TileFn where
  | add | sub | mul | min | max | absd | mov | sel
  | fma | fms | fnma
  | iadd | isub | imul | imin | imax | and | or | xor
  | shl | shr | sra
  | clz (w : Nat) | ffs (w : Nat) | popc (w : Nat)
  | cmp (c : CmpOp)
  | narrow (fmt : Nat) (sat : Bool) (rnd : BitVec 2) | widen (fmt : Nat)
  | sfn (f : SfnOp)
  | rotr (n : Nat) | rotc (n : Nat) | bcr (c : Nat) | bcc (r : Nat)
  | redr (op : RedOp) | redc (op : RedOp)
  | bcs | ext (col : Nat)
  | rand
  | osmx (te : Nat) | osmf (te : Nat)
  deriving DecidableEq, Repr

/-- A tile instruction under way: what its word named and what its issue sampled (R109, R111, R122). -/
structure TileJob where
  fn : TileFn
  /-- The destination field: a designator, a mask number or a scalar register. -/
  d : Nat
  /-- Source designators; none where the instruction has no such source. -/
  a : Option Nat
  b : Option Nat
  /-- The lanes it writes, and the active mask as VSEL reads it, sampled at issue. -/
  lanes : W64
  active : W64
  first : Nat
  count : Nat
  /-- The subnormal mode of the region of issue (R140). -/
  flushing : Bool
  /-- VBCS's scalar operand; VRAND's keys and counter. -/
  scalar : W64
  key0 : W32
  key1 : W32
  /-- Rows gathered so far by an instruction whose rows land together (R434, R442). -/
  rows : List Row
  /-- Status bits of those rows' pops. -/
  gathered : BitVec 10
  /-- The rows of the current window row already popped, where the other source's pop is delayed (R124). -/
  gotA : Option (Row × List (BitVec 10))
  gotB : Option (Row × List (BitVec 10))
  deriving DecidableEq, Repr

/-- A stage of an element of work's translation (R192, R292). -/
inductive XlState where
  /-- Not translated yet, or to be walked again, at this cycle (R288: no fixed latency). -/
  | pending (due : Nat)
  /-- Stalled on the stage-2 fault of an access at this virtual address (R292). -/
  | stalled (va : Nat)
  /-- Done: the physical address and the key. -/
  | done (pa key : Nat)
  deriving DecidableEq, Repr

/-- One end of a piece of a copy (R189, R190): a virtual address with its translation, or bytes of a core's W or A space. -/
inductive CopyEnd where
  | mem (va : Nat) (xl : XlState)
  | buf (core : Nat) (isA : Bool) (off : Nat)
  deriving DecidableEq, Repr

/-- A destination beat of a copy, written whole (R193): the source pieces with their lengths, in order, and where the bytes go, at every
destination. -/
structure Beat where
  /-- Its place in the walk: its number within its copy. -/
  id : Nat
  srcs : List (CopyEnd × Nat)
  dsts : List CopyEnd
  len : Nat
  /-- The bytes of the pieces read so far, and how many those are; whether a request for the next one, or for the write, is out. -/
  got : List W8
  read : Nat
  asked : Bool
  deriving DecidableEq, Repr

/-- A copy command (R189 to R194). -/
structure Copy where
  id : Nat
  by_ : SeqId
  pc : Nat
  issued : Nat
  task : Nat
  /-- Immediate: every destination is the pushing core's own buffer (R192). -/
  immediate : Bool
  /-- Its region has committed, so an abandonment no longer stops it (R193). -/
  committed : Bool
  arv : Bool
  darv : Nat
  /-- Its destination is an address: arrivals count in the pushing core's word (R196). -/
  toAddr : Bool
  /-- The scope of its release (R218), and what its sequencer had acquired through tokens at its push (R37). -/
  scope : Nat
  after : List Nat
  beats : List Beat
  /-- The source pieces of its finished beats (R206). -/
  past : List (CopyEnd × Nat)
  /-- Beats written to memory and not yet performed at that scope: the store's number and the bytes. -/
  acks : List (Nat × Nat)
  /-- The next beat moves at this cycle. -/
  due : Nat
  deriving DecidableEq, Repr

/-- What a held entry does at its drain (R47). -/
inductive HeldKind where
  /-- A scalar store: the virtual line, and its bytes as (offset, byte). -/
  | store (va : Nat) (bytes : List Host.Cell) (xl : XlState) (release : Bool)
  /-- A store through the remote aperture: core, A or W space, offset, and its bytes as (offset, byte). -/
  | remote (core : Nat) (isA : Bool) (off : Nat) (bytes : List Host.Cell) (release : Bool)
  | copy (c : Copy)
  | send (ch slot off bytes : Nat)
  | emit (session : Nat) (header : List W8) (payload : Nat) (got : List W8)
  /-- MIRR: the area, the sequence, and from the closing alignment on the image that goes there (R244). -/
  | mirror (area seq : Nat) (img : Cells)
  /-- TSUB: the record, and the address of its write if that stands stalled on a stage-2 fault (R268, R292). -/
  | submit (queue : Nat) (record : List W8) (stalled : Option Nat)
  /-- TSPILL to memory: the header and body as they stood, and the translations of its pages (R185). -/
  | spill (va : Nat) (bytes : List W8) (xl : List XlState)
  deriving DecidableEq, Repr

/-- What lands, or is read, at a fixed cycle. -/
inductive Pay where
  /-- A scalar register (R122); `tc` marks a CSRR of TCAUSE (R277). -/
  | reg (q : SeqId) (r : Nat) (v : W64) (tc : Bool)
  /-- The SYNC signals of a word (R36). -/
  | signal (q : SeqId) (sp sn : Bool)
  | csr (num : Nat) (v : W64)
  /-- The bank access of a scalar load from the core's own buffers (R122). -/
  | loadBank (q : SeqId) (r : Nat) (isA : Bool) (off size : Nat) (sext aq : Bool) (sp sn : Bool)
  /-- The value of an acquire load of the core's own buffers has landed (R213). -/
  | acquired (q : SeqId)
  /-- The value of a load of the core's own buffers has landed, which a fence waits for (R214). -/
  | loaded (q : SeqId)
  /-- The bank access of a scalar store to them. -/
  | storeBank (q : SeqId) (isA : Bool) (off : Nat) (bytes : List W8) (sp sn : Bool)
  /-- An effect enters the region store buffer (R48). -/
  | hold (kind : HeldKind)
  /-- A row of a tile instruction is read (R118, R122). -/
  | rowRead (job : TileJob) (i : Nat)
  /-- A row lands in a tile: the lanes enabled and their containers. -/
  | tileRow (tile row : Nat) (lanes : W64) (vals : Row)
  /-- The status bits that a landing raises (R153). -/
  | status (st : BitVec 10)
  /-- A row is pushed to a write port (R117). -/
  | pushRow (port : Nat) (lanes : W64) (vals : Row) (st : BitVec 10)
  /-- A row of compare bits lands in a mask (R437). -/
  | maskRow (m : Nat) (lanes bits : W64) (st : BitVec 10)
  | paramRead (port : Nat) (sa : Nat)
  | portLand (port : Nat) (set : BitVec 512)
  | rewindLand (port : Nat)
  | shapeRead (n : Nat) (sa : Nat)
  | shapeLand (n : Nat) (record : BitVec 512)
  | codebookRead (sa : Nat)
  | codebookLand (cb : List W16)
  | armLand (off : Nat) (target : W32)
  | arriveLand (off : Nat) (count : Nat)
  | grantRead (ch slot : Nat) (sb : Nat)
  | sendRead (ch slot : Nat) (sb : Nat)
  | emitRead (q : SeqId) (session sb : Nat)
  | recordRead (queue sb : Nat)
  /-- The second half of a TSUB's record, for its held entry. -/
  | recordRest (entry sb : Nat)
  | xfenceDone (sp sn : Bool)
  /-- A row pair of SACC is popped (R198), with the one of its rows that has been popped where the other's pop is delayed. -/
  | saccPop (cmd ix vl i : Nat) (gotX gotV : Option (Row × List (BitVec 10)))
  /-- An activation row of TBUILD is read (R169). -/
  | tbuildRow (i : Nat)
  /-- A beat of TSPILL or TFILL: 0 the header, b + 1 body beat b (R169, R185). -/
  | spillBeat (i : Nat)
  | fillBeat (i : Nat)
  /-- A beat of EPI's output is written (R173). -/
  | epiBeat
  /-- A piece of EPI's bias vector: its offset and length (R373). -/
  | biasBeat (off n : Nat)
  /-- A QCTL's command reaches the hinge die (R408). -/
  | command (queue code : Nat) (index : W32)
  deriving DecidableEq, Repr

/-- Something due at a cycle on a core. -/
structure Act where
  id : Nat
  due : Nat
  /-- The cycle the word issued and the sequencer that issued it: the issue order of R124. -/
  issued : Nat
  by_ : SeqId
  /-- The word's address (TPC, R273). -/
  pc : Nat
  pay : Pay
  deriving DecidableEq, Repr

/-- An entry of the region store buffer (R48). -/
structure Held where
  id : Nat
  by_ : SeqId
  pc : Nat
  /-- The task it belongs to, and the rank of its core there: it may outlive the task on the core (R67). -/
  task : Nat
  rank : Nat
  kind : HeldKind
  /-- The strongest fence before it: none, or (scope, full) (R216). -/
  fence : Option (Nat × Bool)
  /-- Released to drain at this cycle; none while its region has not committed (R52). -/
  released : Option Nat
  /-- Pushed, but still reading its source (R237, R330). -/
  pushed : Bool
  /-- An XSEND of a timed region whose push cycle is fixed (R240). -/
  fixed : Bool
  /-- The cycle of its drain, at no fixed distance (R52), and whether its performance waits on it. -/
  due : Nat
  /-- What its sequencer had acquired through tokens when it took the entry (R37). -/
  after : List Nat
  deriving DecidableEq, Repr

/-- A row pushed and not yet drained (R206): the port, and for each byte its offset, the value before the push for other
agents. Other agents read `old` until the drain. -/
structure Push where
  id : Nat
  port : Nat
  /-- The issue cycle of the word that pushed the row (R220), and the task it is of (R67). -/
  issued : Nat
  task : Nat
  /-- The cycle it drains, unless something drains it earlier. -/
  due : Nat
  old : Cells
  /-- The offsets of the row's bytes that no later write has replaced. -/
  offs : List Nat
  deriving DecidableEq, Repr

/-- An MMA command (R162 to R165). -/
structure MmaCmd where
  pc : Nat
  issued : Nat
  z : Bool
  f : Bool
  rs : Bool
  recA : BitVec 512
  recB : BitVec 512
  recC : BitVec 512
  cb : List W16
  alpha : Row
  flushing : Bool
  /-- The start S; none while it waits. -/
  start : Option Nat
  /-- Cycles lost to serialised reads (R169). -/
  delay : Nat
  tile : Nat
  step : Nat
  /-- The beats sampled for the current tile: (space A, beat, its bytes). -/
  sampled : List (Bool × Nat × List W8)
  /-- Ended, waiting for its last landing at this cycle. -/
  done : Option Nat
  units : Nat
  deriving DecidableEq, Repr

/-- What a command of the lookup engine is. -/
inductive LookupKind where
  | lmma (z f : Bool) (q hw : Nat) (recC recW : BitVec 512)
  | tbuild (mode q ha : Nat) (recA : BitVec 512) (cb : List W16)
  | tinv (q : Nat)
  | tspill (q sa : Nat)
  | tfill (q sa : Nat)
  deriving DecidableEq, Repr

/-- A command of the lookup engine (R159, R176 to R185). -/
structure LookupCmd where
  id : Nat
  pc : Nat
  issued : Nat
  kind : LookupKind
  flushing : Bool
  start : Option Nat
  delay : Nat
  /-- Tile, step and plane of the next lookup cycle. -/
  tile : Nat
  step : Nat
  plane : Nat
  sampled : List (Bool × Nat × List W8)
  /-- Entries gathered by TBUILD or TFILL, and the status of their arithmetic. -/
  got : List W32
  st : BitVec 10
  /-- The header TFILL has read. -/
  head : List W8
  /-- The table as it stood at S, for TSPILL. -/
  snap : Option Table
  /-- Translations of TSPILL's or TFILL's pages. -/
  xl : List XlState
  /-- The lines of a TFILL from memory asked for so far (R185). -/
  asked : Nat
  done : Option Nat
  units : Nat
  deriving DecidableEq, Repr

/-- An EPI command (R171 to R174). -/
structure EpiCmd where
  pc : Nat
  issued : Nat
  task : Nat
  record : BitVec 512
  /-- The physical bank committed at issue (R168). -/
  bank : Bool
  /-- Its region has committed. -/
  committed : Bool
  flushing : Bool
  start : Option Nat
  /-- The bias values read so far, by column, and the bank's sticky bits as sampled at the start (R373). -/
  bias : List (Nat × W32)
  sticky : BitVec 10
  /-- The next row to compute, the status gathered, and the beats computed and not yet written. -/
  row : Nat
  st : BitVec 10
  todo : List (Nat × List W8)
  /-- The next write takes place in the first free bank cycle from here on. -/
  due : Nat
  /-- Its bank as it stood until a cycle after which the bank has other contents: what the chunks read by then have read (R373). -/
  kept : Option (Nat × Bank)
  deriving DecidableEq, Repr

/-- A SACC command (R198, R199). -/
structure SaccCmd where
  id : Nat
  pc : Nat
  issued : Nat
  op : RedOp
  hd : Nat
  record : BitVec 512
  window : Nat
  count : Nat
  flushing : Bool
  start : Option Nat
  /-- Pairs popped: index and value row, and the FLUSH of their pops. -/
  pairs : List (W32 × Row)
  popSt : List (BitVec 10)
  /-- Pairs applied so far, and the destination rows of the current window still to update. -/
  applied : Nat
  todo : List W32
  /-- The A-space offsets of the elements that it has itself made a NaN (R143). -/
  made : List Nat
  due : Nat
  deriving DecidableEq, Repr

/-- A fault recorded on a core in the current cycle (R273, R274). -/
structure FaultRec where
  code : Nat
  by_ : SeqId
  issued : Nat
  pc : Nat
  taddr : W64
  /-- For XLATE_S1: the KIND and CODE a report of it would carry (R291, R293). -/
  xkind : Nat
  xcode : Nat
  deriving DecidableEq, Repr

/-- An entry of the retirement tracker (R67). -/
structure Track where
  task : Nat
  /-- The fourth TAIL has issued, or the task was stopped (R282). -/
  closed : Bool
  deriving DecidableEq, Repr

/-- A kept translation (R285, R288). -/
structure TlbEntry where
  casement : Nat
  /-- Page base and size in bytes. -/
  va : Nat
  size : Nat
  pa : Nat
  key : Nat
  w : Bool
  x : Bool
  pin : Bool
  dirty : Bool
  /-- A stage-2 translation: `va` is an IPA (R288). Of a VA translation, the IPA its page starts at, and PIN of its stage-2 leaf (R287, R294). -/
  stage2 : Bool
  ipa : Nat
  pin2 : Bool
  deriving DecidableEq, Repr

/-- The state of a core (R60). CLOSE and ABANDON are passed through within one step. -/
inductive Phase where
  | idle | gap | align | run | saving | saved | trapped
  deriving DecidableEq, Repr

/-- A pre-emption request that waits at a core for its closing alignment (R262). -/
structure Preempt where
  at_ : Nat
  bound : Nat
  /-- The live-in tiles of a region that was abandoned once the request had reached the core: its abandoning save takes them (R57, R262). -/
  mask : Option Nat
  deriving DecidableEq, Repr

/-- A core: its registers, buffers, engines, region and trap state. -/
structure Core where
  /-- The task that holds the core, and this core's rank in it (R31, R62). -/
  task : Option Nat
  rank : Nat
  phase : Phase
  seqs : List Seq
  snaps : List SeqSnap
  snap : CoreSnap
  /-- The eight counters in the order of TOKS, LD>CM first (R34, R38). -/
  tokens : List Nat
  /-- The signals that took a counter over 15 in this cycle: counter, sequencer, and the address of the word that gives it (R36). -/
  overflowed : List (Nat × SeqId × Nat)
  /-- What the signals of each counter release: for each sequencer, the cycle before which its accesses come before what follows a wait on the counter
  (R37, R209). -/
  covers : List (List Nat)
  /-- The region: mode, cycle 0, budget, stamp, live-in mask, and when it may align (R42, R43). -/
  timed : Bool
  cycle0 : Nat
  budget : Nat
  stamp : W64
  liveIn : W64
  rgnAddr : Nat
  powered : Bool
  alignFrom : Nat
  rcmtA : W64
  rcmtB : W64
  /-- A command with F completed in the region (R52). -/
  flip : Bool
  /-- A MIRR of the region (R243). -/
  mirrored : Bool
  /-- Tiles: row 16 × tile + row, absent rows +0.0 (R108). -/
  tiles : List (Nat × Row)
  masks : List W64
  shapes : List (BitVec 512)
  ports : List Port
  tables : List Table
  codebook : List W16
  banks : List Bank
  /-- Which bank is the working one. -/
  work : Bool
  rwin : W64
  mact : W64
  mrs : W64
  vstat : W64
  /-- The bits set in VSTAT in the current cycle, and whether a CSRW of it has landed in it (R123, R359): the model's own. -/
  vnew : BitVec 10
  vcsrw : Bool
  rkey0 : W64
  rkey1 : W64
  rctr : W64
  sacw : W64
  tvec : W64
  tsp : W64
  tcause : W64
  taddr : W64
  tpc : W64
  tcause2 : W64
  tseq : W64
  trgn : W64
  dplidx : W64
  domm : W64
  wspace : Cells
  aspace : Cells
  /-- What happens before the stores that other cores have made in these buffers, as a count for each die (R210, R212). -/
  bufStamp : List Nat
  /-- The cores that the task's member was on before a promotion (R245). -/
  past : List Nat
  /-- The 96 block write counters (R182), and the core's epoch (R185). -/
  blocks : List (Nat × Nat)
  epoch : Nat
  /-- The cycle from which the vector unit is free (R122). -/
  vuFree : Nat
  acts : List Act
  held : List Held
  pushes : List Push
  mma : List MmaCmd
  lookup : List LookupCmd
  epi : List EpiCmd
  sacc : List SaccCmd
  copies : List Copy
  /-- One above the last cycle in which the copy engine moved a beat (R193). -/
  copyAt : Nat
  /-- What the previous RCMT recorded: live-out mask, CKEEP, live map as (space, offset, length) (R52). -/
  liveOut : W64
  ckeep : Bool
  liveMap : List (Nat × Nat × Nat)
  /-- The recorded REALIGN (R231). -/
  realign : Option W64
  /-- The sequence of the last pushed MIRR (R243). -/
  mirrLast : Option Nat
  preempt : Option Preempt
  /-- A save under way: 0 after commit, 1 after abandonment; whether it parks the task (R263, R293). -/
  saveKind : Nat
  savePark : Bool
  /-- The tiles it takes, and the cycle the save ends. -/
  saveTiles : Nat
  saveDue : Nat
  /-- The cause-unread state (R277). -/
  causeUnread : Bool
  /-- The entry into the handler waits for a thermal hold to end, or for power units (R276, R318, R345). -/
  entryHot : Bool
  faults : List FaultRec
  /-- Bank accesses of the current cycle: (isA, bank, cycle issued, sequencer) (R124). -/
  banksUsed : List (Bool × Nat × Nat × SeqId)
  /-- Cycle for which `banksUsed` stands. -/
  banksCycle : Nat
  /-- What A-space bytes written in the current cycle held at its start: the model's own, for what observes a cycle's start (R354). -/
  wlog : List (Nat × W8)
  /-- Consecutive repaired errors of one region, and the core's soft-error count (R280, R281). -/
  softRun : Nat
  softCount : Nat
  tracker : List Track
  tlb : List TlbEntry
  /-- The core's share of its die's array power, in sixteenths (R345). -/
  units : Nat
  /-- Tainted by this casement (R310). -/
  taint : Option Nat
  deriving DecidableEq, Repr

/-- What a memory request does (R200, R367). -/
inductive ReqKind where
  | load (size : Nat) (sext : Bool)
  /-- A store made in handler mode (R276), or a held store that has drained and waits at its channel: its bytes, by their offset from
  the address. -/
  | store (bytes : List Host.Cell)
  /-- op 0 ADD, 1 AND, 2 OR, 3 XOR, 4 XCHG, 5 MAX, 6 MIN, 7 CAS; `b` and `e` of R200. -/
  | amoc (op size : Nat) (b e : W64)
  /-- A source piece of a copy's beat, of so many bytes (R193). -/
  | copyRead (copy beat n : Nat)
  /-- A copy's beat written, its bytes by their offset from the address (R193). -/
  | copyWrite (copy beat : Nat) (bytes : List Host.Cell)
  /-- A line of a TFILL's image: the command, the line's offset in the image, its bytes (R185). -/
  | fillRead (cmd off n : Nat)
  /-- A dirty line that has left the die buffer (R12, R318). -/
  | evict
  deriving DecidableEq, Repr

/-- Where a request stands. -/
inductive ReqState where
  | walking
  | stalled (entry : Nat)
  /-- Queued at its channel, or, for none, on its way to another target. -/
  | queued (pa key : Nat) (channel : Option Nat)
  /-- Performed; the value lands at a cycle. -/
  | served (v : W64) (due : Nat)
  deriving DecidableEq, Repr

/-- A scalar access to memory in flight. -/
structure Req where
  id : Nat
  core : Nat
  by_ : SeqId
  task : Nat
  pc : Nat
  va : Nat
  kind : ReqKind
  /-- The register that takes the value. -/
  rd : Nat
  sp : Bool
  sn : Bool
  release : Bool
  /-- The issue cycle, and the cycle it arrived where it stands. -/
  issued : Nat
  arrived : Nat
  st : ReqState
  /-- Through the remote aperture: core, A-space, offset (R188). -/
  remote : Option (Nat × Bool × Nat)
  /-- It waited in a thermal hold (R319). -/
  heldHot : Bool
  /-- Its region has been abandoned: it lands nowhere (R352). -/
  orphan : Bool
  /-- A held store, drained (R216). -/
  drained : Bool
  /-- What its sequencer had acquired through tokens when it was sent (R37). -/
  after : List Nat
  deriving DecidableEq, Repr

/-- A store performed and not yet applied on every die (R211), in coherence order. -/
structure StoreRec where
  id : Nat
  /-- The die that sent it (8 the hinge die, and the host through it) and its number among that die's stores. -/
  die : Nat
  num : Nat
  stamp : List Nat
  bytes : List Host.Cell
  /-- The key it was written under, by slot and generation; none for memory without keys. -/
  key : Option (Nat × Nat)
  applied : List Nat
  /-- The cycle it arrives at each die. -/
  arrives : List Nat
  core : Nat
  by_ : SeqId
  /-- The task it is of; none is 2⁶⁴. -/
  task : Nat
  /-- Under a page's lock: an AMOC's request that waits in this place, and is performed at the switch (R223). -/
  amoc : Option Nat
  deriving DecidableEq, Repr

/-- A die (R9, R20, R211, R288, R335, R344). -/
structure Die where
  /-- In service (DIEP, R26). -/
  live : Bool
  /-- Retired by firmware (R27): out of service, though what runs on it goes on (log entry 45). -/
  retired : Bool
  clockLost : Bool
  /-- The hinge die's counter when this die's counter read zero (R20). -/
  zero : Nat
  vc : List Nat
  cache : List TlbEntry
  lastBeat : Nat
  nextBeat : Nat
  /-- Array and HBM units held by the die, in sixteenths, and those in use. -/
  units : Nat
  used : Nat
  /-- Sixteenths reserved for admitted action-class tasks (R345). -/
  reserved : Nat
  /-- Borrowed from (die, sixteenths), and on their way here (from, sixteenths, due). -/
  borrowed : List (Nat × Nat)
  incoming : List (Nat × Nat × Nat)
  nextOffer : Nat
  /-- What its HBM4E traffic draws, in sevenths of a sixteenth of a unit, and the cycle for which that stands. -/
  hbmUnits : Nat
  hbmAt : Nat
  /-- Its last sideband exchange has failed (R346). -/
  bandFailed : Bool
  deriving DecidableEq, Repr

/-- An HBM4E channel (R313, R317). -/
structure Channel where
  lfail : W32
  lcrc : W32
  aue : W32
  ace : W32
  uepa : BitVec 52
  retired : Bool
  queue : List Nat
  lastServed : Nat
  /-- Where the rotation over (casement, class) stands. -/
  rotate : Nat
  /-- The frame under way, and the slots each casement has used in it (R299, R313). -/
  frame : Nat
  frameUse : List Nat
  /-- How the next transfer goes that is none of a queued request, and what the array ECC finds: a walk's, a fetch's, the device's own (R315, R316). -/
  nextLink : Option LinkResult
  /-- Transfers outside the queue that are still to be carried in the kept slots, and one more than the cycle of the latest that took one (R313, log entry 86). -/
  kept : Nat
  keptAt : Nat
  /-- The requests that waited when a thermal hold ended: they are served first, in arrival order (R318). -/
  backlog : List Nat
  deriving DecidableEq, Repr

/-- A line of a die buffer: PA / 64, the key it is tagged with, and whether it must be written back (R12, R303). The directory keeps it coherent with
every other copy, so its bytes are those of memory. -/
structure BufLine where
  line : Nat
  key : Nat
  dirty : Bool
  deriving DecidableEq, Repr

/-- A memory stack (R12, R318). -/
structure Stack where
  live : Bool
  hold : Bool
  /-- The cycle its critical-temperature signal was last raised. -/
  since : Nat
  deriving DecidableEq, Repr

/-- A slot of a channel at its send end (R234). -/
structure Slot where
  granted : Bool
  reserved : Bool
  nseq : W16
  off : Nat
  len : Nat
  darv : Nat
  deriving DecidableEq, Repr

/-- A channel end (R226, R234, R238). -/
structure ChanEnd where
  task : Nat
  rank : Nat
  ch : Nat
  receive : Bool
  /-- The channel's slot count less one. -/
  nslot : Nat
  peerRank : Nat
  peerCh : Nat
  slots : List Slot
  gerr : Bool
  /-- At a receive end: the slots offered whose send has not landed, with their grants' GSEQ once read (R238). -/
  offered : List (Nat × Option W16)
  /-- The cycle the channel is free again (R239). -/
  free : Nat
  deriving DecidableEq, Repr

/-- A grant on its way (R236). -/
structure Grant where
  id : Nat
  due : Nat
  /-- The send end it goes to. -/
  task : Nat
  rank : Nat
  ch : Nat
  slot : Nat
  off : Nat
  len : Nat
  darv : Nat
  gseq : W16
  deriving DecidableEq, Repr

/-- A group of a send: read at one cycle, landing at another (R239). -/
structure Group where
  id : Nat
  readAt : Nat
  due : Nat
  task : Nat
  /-- The sender's core, and the offset its bytes are read at. -/
  sender : Nat
  src : Nat
  /-- The receive end, and where the bytes land. -/
  rank : Nat
  ch : Nat
  slot : Nat
  gseq : W16
  off : Nat
  len : Nat
  darv : Nat
  /-- The bytes, once read. -/
  data : Option (List W8)
  /-- It is the last group of its send, and the held entry that frees when it is read. -/
  last : Bool
  entry : Nat
  deriving DecidableEq, Repr

/-- A chunk on its way to the endpoint or waiting there (R330, R332). -/
structure Chunk where
  id : Nat
  due : Nat
  core : Nat
  by_ : SeqId
  session : Nat
  header : List W8
  payload : List W8
  action : Bool
  task : Nat
  deriving DecidableEq, Repr

/-- What is known on a core of the order of accesses, which a save and a mirror take along (R209 to R212). -/
structure Known where
  /-- For each sequencer, what its loads have read of stores (R212). -/
  stamps : List (List Nat)
  /-- For each token counter, what its signals release; for each sequencer, what it has acquired (R37, R209). -/
  covers : List (List Nat)
  afters : List (List Nat)
  /-- The cores that the member has been promoted from (R245). -/
  past : List Nat
  deriving DecidableEq, Repr

/-- A mirror area of a core (R243, R244): the block of R263 as bytes, and the channel ends. -/
structure MirrorArea where
  /-- The core that wrote it, and the task whose area it is (R243, R455). -/
  core : Nat
  task : Nat
  area : Nat
  complete : Bool
  seq : Nat
  img : Cells
  ends : List ChanEnd
  known : Known
  /-- While it is being written: the cycle its last beat lands; else 0. -/
  due : Nat
  deriving DecidableEq, Repr

/-- The states of a queue (R247, R251). -/
inductive QState where
  | idle | active | waitFault | error | stopped
  deriving DecidableEq, Repr

/-- A task queue (R247). -/
structure Queue where
  qbase : W64
  tctl : Bool
  owner : Nat
  cqn : Nat
  qsz : Nat
  qrd : W32
  qwr : W32
  fidx : W32
  cause : Nat
  st : QState
  /-- Holds a fetch slot (R249). -/
  slot : Bool
  /-- Places reserved by TSUB (R268). -/
  reserved : Nat
  /-- Commands for the next decision: code and index (R251, R268). -/
  cmds : List (Nat × W32)
  /-- The cycle of the next evaluation of a wait, and when it entered WAIT_FAULT (R250). -/
  nextWait : Nat
  faultAt : Nat
  /-- The physical line of the wait's signal word, while it waits. -/
  waitLine : Option Nat
  /-- The wait or mark record that the read index stands at, once it has been read (R249, R250). -/
  reached : Option (List W8)
  /-- A mark's signal write waits on a stage-2 fault (R461). -/
  stalled : Bool
  /-- The next record may be read from this cycle. -/
  due : Nat
  deriving DecidableEq, Repr

/-- A completion waiting to be written: the entry, and its signal write as long as that has not been made (R269, R461). -/
structure Report where
  entry : List W8
  casement : Nat
  /-- SIG, 0 once the write has been made or dropped, and SIGVAL. -/
  sig : Nat
  value : W64
  /-- The write waits on a stage-2 fault. -/
  stalled : Bool
  deriving DecidableEq, Repr

/-- A completion queue (R270, R271). -/
structure ComplQueue where
  base : W64
  vec : W16
  timer : W16
  thresh : Nat
  size : Nat
  head : W32
  tail : W32
  waiting : List Report
  /-- Pending entries: their count, and when the oldest and the newest were written. -/
  pending : Nat
  oldest : Nat
  newest : Nat
  deriving DecidableEq, Repr

/-- What a ring entry reports and what waits for its answer (R290 to R293). -/
inductive RingWait where
  | nothing
  | request (id : Nat)
  | heldEntry (core id : Nat)
  | copyOf (core id : Nat)
  | fetch (core : Nat) (q : SeqId) (addr : Nat)
  | queueWait (q : Nat)
  | markWrite (q : Nat)
  | signal (cq : Nat)
  | parked (task : Nat)
  | command (core : Nat)
  /-- A core's entry into its handler (R276, R292). -/
  | handlerEntry (core : Nat)
  deriving DecidableEq, Repr

/-- A fault ring (R290, R291): 0 to 15 of the virtual functions, 16 of the physical one. -/
structure Ring where
  base : W64
  vec : W16
  size : Nat
  head : W32
  tail : W32
  /-- Entries not yet written. -/
  waiting : List (List W8 × RingWait)
  /-- Entries written whose answer has not come: (index, what waits). -/
  open_ : List (Nat × RingWait)
  deriving DecidableEq, Repr

/-- The states of a casement (R296, R297). -/
inductive CaseState where
  | free | active | draining | drained | stopping | erasing
  deriving DecidableEq, Repr

/-- A usage record under way or complete (R304, R306). -/
structure UsageRec where
  bytes : List W8
  due : Nat
  seq : Nat
  /-- The host has read of it since it completed (R304, log entry 36). -/
  read : Bool
  deriving DecidableEq, Repr

/-- The counters of the open usage window (R304, R305). -/
structure Usage where
  closed : Bool
  first : Bool
  thermal : Bool
  capacity : Bool
  softerr : Nat
  thmiss : Nat
  seq : Nat
  cycles : List Nat
  admits : List Nat
  bytes : Nat
  /-- Hits and misses: 8 × class + 2 × level, misses one above. -/
  hm : List Nat
  prev : List W8
  /-- The number of the window on the fleet-time grid of 10 ms that closed last. -/
  window : Nat
  deriving DecidableEq, Repr

/-- A stream below level 0 (R265 to R267): session 0 to 65,535 for action and reasoning, 65,536 + task for batch. -/
structure Stream where
  casement : Nat
  session : Nat
  klass : Nat
  level : Nat
  /-- Since when its restoration would have held. -/
  since : Option Nat
  deriving DecidableEq, Repr

/-- A casement (R287, R296, R302, R304). -/
structure Casement where
  st : CaseState
  fto : Nat
  secure : Bool
  capred : Bool
  saveErr : Bool
  err : Bool
  /-- The quota fields in the order of `QuotaField`. -/
  quota : List Nat
  /-- The quotas as the last decision took them (R298). -/
  inForce : List Nat
  /-- Fields not yet rewritten since a rescaling (R308). -/
  toRewrite : List Nat
  scrubDone : Nat
  scrubTotal : Nat
  scrubPhase : Nat
  /-- The next unit of the scrub ends at this cycle. -/
  scrubDue : Nat
  urseq : Nat
  keyValid : Bool
  /-- How often a key has been generated for the slot. -/
  keyGen : Nat
  /-- The offset of each die's view (R20), added to the die's counter. -/
  offsets : List Int
  /-- Views not yet visible: die, cycle and offset (R231). -/
  coming : List (Nat × Nat × Int)
  s1root : W64
  s2root : W64
  /-- The roots that bind: as the registers stood when an invalidation of every entry last ended (R287). -/
  s1bound : W64
  s2bound : W64
  /-- Busy until this cycle: HTLBI, of every entry or of a VA's page, and S2INV, of every entry or of an IPA's (R287). -/
  htlbi : List (Nat × Option Nat)
  s2inv : List (Nat × Option Nat)
  chains : List (Nat × Nat)
  usage : Usage
  records : List UsageRec
  /-- Since CREATE a record was overwritten unread (R304). -/
  lost : Bool
  /-- The fleet-time anchor (R326): GEN, FTA, and the views. -/
  anchorGen : Nat
  anchorFta : Nat
  anchorZa : List Nat
  anchorRate : Nat
  anchorNext : Nat
  /-- Sessions with an admitted action task since the rescaling (R308). -/
  actedSince : List Nat
  /-- How far its ingress ran ahead of CAPE when the latest message landed, and that cycle (R332). -/
  inLevel : Nat
  inAt : Nat
  deriving DecidableEq, Repr

/-- A session context (R328, R329). -/
structure Session where
  isOpen : Bool
  owner : Nat
  ibase : Nat
  inslot : Nat
  isz : Nat
  peer : BitVec 128
  jobid : BitVec 24
  lastseq : W64
  safeva : Nat
  dup : W16
  dropin : W16
  incnt : W32
  /-- TOKW tasks read since it opened, and retired. -/
  tokRead : Nat
  tokRetired : Nat
  deriving DecidableEq, Repr

/-- The completion statuses (R269). -/
inductive TStatus where
  | done | failed | held | missed | refused
  deriving DecidableEq, Repr

/-- Where a task of the heap stands. -/
inductive TState where
  /-- Read, not admitted. -/
  | waiting
  /-- Admitted, not launched. -/
  | admitted
  | running
  /-- A save is under way, or done. -/
  | saved
  /-- Parked after XLATE_S1, until the host answers (R293). -/
  | parked
  /-- Failed or retired on its cores; entries still counted. -/
  | ending
  deriving DecidableEq, Repr

/-- A saved core of a task: its rank, and where it resumes (R60, R263). The registers and the program counters stand in its block; this is what
tells a saved point from an RGN that is re-entered, with what CT's RGN had read. -/
structure SavedCore where
  rank : Nat
  points : List SeqSnap
  budget : Nat
  liveIn : W64
  rgnAddr : Nat
  known : Known
  /-- The sequence of its last pushed MIRR (R243). -/
  mirrLast : Option Nat
  deriving DecidableEq, Repr

/-- A task of the deadline heap (R249, R252). -/
structure Task where
  id : Nat
  casement : Nat
  queue : Nat
  /-- The 128 bytes of the record, and the ladder and channel tables as read. -/
  record : List W8
  ladder : List (List Nat)
  chtab : List W64
  st : TState
  /-- Read order. -/
  order : Nat
  /-- Which of the session's TOKW tasks it is, from 1 (R329). -/
  tok : Nat
  /-- W at its admission, in quarter cycles (R258). -/
  window : Nat
  level : Nat
  cores : List Nat
  shadow : List Nat
  retries : Nat
  budget : Nat
  /-- The first core has started (R53). -/
  counting : Bool
  status : TStatus
  code : Nat
  /-- Cores whose entry has freed (R68). -/
  freed : List Nat
  thermal : Bool
  saveFaults : Nat
  /-- The cores of it that have been saved. -/
  savedCores : List SavedCore
  unmirrored : Bool
  launched : Bool
  /-- The cycle in which its first core starts (R53). -/
  readyAt : Nat
  /-- The cores that pre-emptions free for it (R261). -/
  holds : List Nat
  /-- Sixteenths of power units reserved at the admission of an action-class task, by die, until its launch (R25, R345). -/
  units : List (Nat × Nat)
  /-- The fault that parks it: address, core, KIND and CODE (R293). -/
  park : Option (Nat × Nat × Nat × Nat)
  deriving DecidableEq, Repr

/-- What leaves the part: chunks on the wire, interrupts, what firmware is told, traffic to the scale-up peers (the model's
own record of it). -/
inductive Output where
  | chunk (session : Nat) (bytes : List W8)
  | interrupt (cq : Nat) (vec : W16)
  | ringInterrupt (ring : Nat) (vec : W16)
  | machineCheck (core : Nat) (pa : Nat)
  | doubleTrap (core : Nat)
  | softCore (core : Nat)
  | hostReply (bytes : List W8)
  /-- The answer to an SES operation of a session that is no send (R327). -/
  | unsupported (session : Nat)
  deriving DecidableEq, Repr

/-- A page migration (R223, R295). -/
structure Migration where
  old : Nat
  new_ : Nat
  size : Nat
  switched : Bool
  /-- The cycle of the switch, and the lines still to be copied before it (R344, R345). -/
  due : Nat
  left : Nat
  /-- Held writes, in arrival order. -/
  held : List StoreRec
  deriving DecidableEq, Repr

/-- Boot and firmware (R341 to R343). -/
structure Boot where
  ready : Bool
  failcode : Nat
  fuse : Nat
  stage : Nat
  /-- Set when the next stage is due. -/
  nextAt : Option Nat
  /-- The flash: per slot, whether the image's signature holds, and its SVN. -/
  images : List (Bool × Nat)
  /-- The same of the service images. -/
  services : List (Bool × Nat)
  /-- The SVN of the running image. -/
  running : Nat
  /-- The clocks, HBM4E, the boundaries and the links train (log entry 14). -/
  trains : Bool
  /-- The hinge clock is lost (R459). -/
  hingeLost : Bool
  deriving DecidableEq, Repr

/-- Fleet time and the Ethernet ports (R323 to R325). -/
structure Fleet where
  ptpdom : W8
  /-- 0 port 0, 1 port 1, 2 none. -/
  ftport : Nat
  /-- 0 FREE, 1 LOCKED, 2 HOLDOVER. -/
  ftstat : Nat
  ftoff : W64
  pup : List Bool
  /-- FTIME in units of 10^−7 ns, and the slew in ppm. -/
  sub : Nat
  slew : Int
  /-- The cycle in which the slew last changed (R326). -/
  slewAt : Nat
  everLocked : Bool
  lastSync : Nat
  deriving DecidableEq, Repr

/-- The whole part. -/
structure State where
  /-- The hinge die's counter: cycles since its reset (R19, R20). -/
  now : Nat
  /-- The sequencer whose word stands at its issue: the model's own (log entry 9). -/
  cur : Option (Nat × SeqId)
  /-- A counter for numbers of things in flight, and the counter the free values are drawn with (log entries 4 and 9). -/
  nextId : Nat
  fresh : Nat
  cores : List (Nat × Core)
  /-- Clusters in service (R26). -/
  clusters : List Bool
  dies : List Die
  hbm : List Stack
  channels : List (Nat × Channel)
  mem : Cells
  /-- Which key each written line of HBM4E is under: line, then slot and generation (R303). -/
  lineKeys : List (Nat × Nat × Nat)
  stores : List StoreRec
  reqs : List Req
  /-- Stores sent so far by each die, and by what a fence of each waits (R211). -/
  sent : List Nat
  chanEnds : List ChanEnd
  grants : List Grant
  groups : List Group
  chunks : List Chunk
  mirrors : List MirrorArea
  mirrorPool : Nat
  queues : List (Nat × Queue)
  cqs : List (Nat × ComplQueue)
  rings : List Ring
  casements : List Casement
  sessions : List (Nat × Session)
  tasks : List Task
  streams : List Stream
  squall : Bool
  /-- A rescaling has scaled action minima: no new action sessions and tasks (R308). -/
  refuseAction : Bool
  lastRestore : Nat
  taskNo : Nat
  /-- The queue that a fetch slot was last given to (R249); at reset 255, so that queue 0 comes first (DESIGN CHOICE, log entry 89). -/
  lastServedQueue : Nat
  nextDecision : Nat
  nextRebalance : Nat
  /-- Power units free in the hinge die's pool, in sixteenths (R346). -/
  pool : Nat
  migration : Option Migration
  sublinks : List W64
  retiredLanes : List (Nat × Nat)
  boot : Boot
  fleet : Fleet
  /-- Tainted die-buffer ways: memory die, way, casement (R310). -/
  wayTaint : List (Nat × Nat × Nat)
  /-- The lines of the die buffers of M0 to M3 (R12). -/
  buffer : List BufLine
  /-- A channel has been retired by a transfer that failed, and its rescaling follows at the end of the cycle (R308, R315). -/
  rescaleDue : Bool
  /-- The scrub of stage 4 has finished (R311). -/
  scrubbed : Bool
  /-- What the world outside will do: cycle and step, earliest first (the model's own; empty at reset, log entry 3). -/
  inputs : List (Nat × Instr)
  out : List Output
  /-- Sessions whose opening waits for memory, and messages that wait to land, by session (R318, R328, R329). -/
  opening : List Nat
  arriving : List (Nat × List W8)
  deriving DecidableEq, Repr

/-! ### Reset -/

/-- A port that PCFG has not configured (R33). -/
def Port.none : Port := { set := Option.none, idx := [0, 0, 0, 0], stop := 0, ready := 0, used := 0 }

/-- A table register with no table (R33). -/
def Table.none : Table := { st := .invalid, mode := 0, koff := 0, loBlk := 0, nBlk := 0, counts := [], body := [], was := false }

/-- A bank of +0.0 (R33). -/
def Bank.zero : Bank := { acc := [], sticky := 0 }

/-- A sequencer that no task holds: its registers at their values at launch (R33, log entry 1). -/
def Seq.idle : Seq :=
  { regs := List.replicate 32 0, pc := 0, st := .off, base := 0, retry := Option.none, gapStart := 0, pend := []
    fetched := [], fetching := [], reentered := false, rgnTimed := false, rgnSp := false, rgnSn := false
    readStamp := List.replicate 9 0, fenced := Option.none, lastHeld := Option.none
    link := Option.none, cold := false, jump := Option.none, after := List.replicate 4 0 }

/-- The snapshot of such a sequencer. -/
def SeqSnap.idle : SeqSnap :=
  { pc := 0, regs := List.replicate 32 0, atRgn := false, sp := false, sn := false, timed := false, off := false }

/-- The core snapshot at launch (R33, R45). -/
def CoreSnap.idle : CoreSnap :=
  { rwin := 0x10, mact := 8, mrs := 0, vstat := 0, sacw := 1, ports := List.replicate 8 Port.none
    tokens := List.replicate 8 0 }

/-- A core that no task holds: everything at its value at launch (R33, log entry 1). -/
def Core.idle : Core :=
  { task := none, rank := 0, phase := .idle
    seqs := List.replicate 4 Seq.idle, snaps := List.replicate 4 SeqSnap.idle, snap := CoreSnap.idle
    tokens := List.replicate 8 0, overflowed := [], covers := List.replicate 8 (List.replicate 4 0)
    timed := false, cycle0 := 0, budget := 0, stamp := 0, liveIn := 0, rgnAddr := 0, powered := false, alignFrom := 0
    rcmtA := 0, rcmtB := 0, flip := false, mirrored := false
    tiles := [], masks := List.replicate 8 0, shapes := List.replicate 16 0, ports := List.replicate 8 Port.none
    tables := List.replicate 4 Table.none, codebook := List.replicate 16 0, banks := [Bank.zero, Bank.zero], work := false
    rwin := 0x10, mact := 8, mrs := 0, vstat := 0, vnew := 0, vcsrw := false, rkey0 := 0, rkey1 := 0, rctr := 0, sacw := 1
    tvec := 0, tsp := 0, tcause := 0, taddr := 0, tpc := 0, tcause2 := 0, tseq := 0, trgn := 0, dplidx := 0, domm := 0
    wspace := [], aspace := [], bufStamp := List.replicate 9 0, past := [], blocks := [], epoch := 0, vuFree := 0
    acts := [], held := [], pushes := [], mma := [], lookup := [], epi := [], sacc := []
    copies := [], copyAt := 0
    liveOut := 0, ckeep := false, liveMap := [], realign := none, mirrLast := none
    preempt := none, saveKind := 0, savePark := false, saveTiles := 0, saveDue := 0, causeUnread := false, entryHot := false, faults := []
    banksUsed := [], banksCycle := 0, wlog := [], softRun := 0, softCount := 0, tracker := [], tlb := [], units := 0, taint := none }

/-- A die's share of the lendable power units at reset, in sixteenths: 1,800 units of a compute die, 1,100 of a memory die, 11,600 in all (log
entry 16). -/
def dieShare (d : Nat) : Nat := if d < 4 then 1800 * 16 else if d < 8 then 1100 * 16 else 0

/-- A die right after reset (R20, R335, R346). -/
def Die.reset (share : Nat) : Die :=
  { live := true, retired := false, clockLost := false, zero := 0, vc := List.replicate 9 0, cache := [], lastBeat := 0, nextBeat := 1250
    units := share, used := 0, reserved := 0, borrowed := [], incoming := [], nextOffer := 1250
    hbmUnits := 0, hbmAt := 0, bandFailed := false }

/-- A channel right after reset (R317). -/
def Channel.reset : Channel :=
  { lfail := 0, lcrc := 0, aue := 0, ace := 0, uepa := 0, retired := false, queue := [], lastServed := 0, rotate := 0
    frame := 0, frameUse := List.replicate 16 0, nextLink := none, kept := 0, keptAt := 0, backlog := [] }

/-- A stack right after reset. -/
def Stack.reset : Stack := { live := true, hold := false, since := 0 }

/-- A queue right after reset: IDLE (R343). -/
def Queue.reset : Queue :=
  { qbase := 0, tctl := false, owner := 0, cqn := 0, qsz := 4, qrd := 0, qwr := 0, fidx := 0, cause := 0, st := .idle
    slot := false, reserved := 0, cmds := [], nextWait := 0, faultAt := 0, waitLine := none, reached := none, stalled := false, due := 0 }

/-- A completion queue right after reset. -/
def ComplQueue.reset : ComplQueue :=
  { base := 0, vec := 0, timer := 0, thresh := 0, size := 4, head := 0, tail := 0, waiting := [], pending := 0, oldest := 0
    newest := 0 }

/-- A fault ring right after reset. -/
def Ring.reset : Ring := { base := 0, vec := 0, size := 4, head := 0, tail := 0, waiting := [], open_ := [] }

/-- The counters of a window that opens with record `seq`, after the record `prev`. -/
def Usage.open_ (first : Bool) (seq : Nat) (prev : List W8) (window : Nat) : Usage :=
  { closed := false, first := first, thermal := false, capacity := false, softerr := 0, thmiss := 0
    seq := seq, cycles := [0, 0, 0], admits := [0, 0, 0], bytes := 0, hm := List.replicate 24 0, prev := prev, window := window }

/-- A casement right after a cold reset: FREE (R297, R311). -/
def Casement.reset : Casement :=
  { st := .free, fto := 1000, secure := false, capred := false, saveErr := false, err := false
    quota := List.replicate 16 0, inForce := List.replicate 16 0, toRewrite := [], scrubDone := 0, scrubTotal := 0, scrubPhase := 0, scrubDue := 0
    urseq := 0, keyValid := true, keyGen := 1, offsets := List.replicate 9 0, coming := [], s1root := 0, s2root := 0
    s1bound := 0, s2bound := 0
    htlbi := [], s2inv := [], chains := [], usage := Usage.open_ true 0 (List.replicate 48 0) 0, records := [], lost := false
    anchorGen := 0, anchorFta := 0, anchorZa := List.replicate 9 0, anchorRate := 0xCCCCCCCD, anchorNext := 1250000
    actedSince := [], inLevel := 0, inAt := 0 }

/-- A session context right after reset. -/
def Session.reset : Session :=
  { isOpen := false, owner := 0, ibase := 0, inslot := 0, isz := 0, peer := 0, jobid := 0, lastseq := 0, safeva := 0
    dup := 0, dropin := 0, incnt := 0, tokRead := 0, tokRetired := 0 }

/-- The boot right after a cold reset: the boot ROM starts (R342, R343, log entry 14). -/
def Boot.reset : Boot :=
  { ready := false, failcode := 0, fuse := 0, stage := 0, nextAt := some 1, images := [(true, 0), (true, 0)], services := [(true, 0), (true, 0)], running := 0, trains := true
    hingeLost := false }

/-- Fleet time right after a cold reset (R325). -/
def Fleet.reset : Fleet :=
  { ptpdom := 0, ftport := 0, ftstat := 0, ftoff := 0, pup := [true, true], sub := 0, slew := 0, slewAt := 0, everLocked := false
    lastSync := 0 }

/-- The part right after a cold reset. -/
def State.reset : State :=
  { now := 0, cur := none, nextId := 0, fresh := 0, cores := []
    clusters := List.replicate 12 true
    dies := (List.range 9).map fun d => Die.reset (dieShare d)
    hbm := List.replicate 16 Stack.reset, channels := []
    mem := [], lineKeys := [], stores := [], reqs := [], sent := List.replicate 9 0
    chanEnds := [], grants := [], groups := [], chunks := [], mirrors := [], mirrorPool := 0
    queues := [], cqs := [], rings := List.replicate 17 Ring.reset
    casements := List.replicate 16 Casement.reset, sessions := [], tasks := [], streams := []
    squall := false, refuseAction := false, lastRestore := 0, taskNo := 0, lastServedQueue := 255, nextDecision := 32
    nextRebalance := 12500, pool := 0, migration := none
    sublinks := List.replicate 16 0, retiredLanes := []
    boot := Boot.reset, fleet := Fleet.reset, wayTaint := [], buffer := [], rescaleDue := false, scrubbed := false, inputs := [], out := [], opening := [], arriving := [] }

end Sys2Proof.Machine
end

