-- ==== Sys2Proof/Machine/Bits.lean ====
section
/-! DEFINITION. Sparse byte arrays, keyed lists, and the little-endian and bit-field readings every record of the spec is read
with (R1, R131). -/

namespace Sys2Proof.Machine

/-! ### Sparse bytes -/

/-- The canonical form: addresses strictly rising, no zero byte. -/
def Cells.wf : Cells → Bool
  | [] => true
  | [(_, b)] => b != 0
  | (a, b) :: (a', b') :: rest => b != 0 && decide (a < a') && Cells.wf ((a', b') :: rest)

/-- The byte at an address; 0 where none is listed. -/
def Cells.get (m : Cells) (a : Nat) : W8 :=
  match m with
  | [] => 0
  | (x, b) :: rest => if x = a then b else Cells.get rest a

/-- The array with a byte put in its place. -/
def Cells.put (m : Cells) (a : Nat) (v : W8) : Cells :=
  match m with
  | [] => [(a, v)]
  | (x, b) :: rest =>
    if a < x then (a, v) :: (x, b) :: rest
    else if a = x then (a, v) :: rest
    else (x, b) :: Cells.put rest a v

/-- The array with one byte written; a zero takes the entry out. -/
def Cells.set (m : Cells) (a : Nat) (v : W8) : Cells := if v = 0 then m.filter fun e => e.1 != a else Cells.put m a v

/-- `n` bytes from an address on. -/
def Cells.read (m : Cells) (a n : Nat) : List W8 := (List.range n).map fun i => m.get (a + i)

/-- Bytes written from an address on. -/
def Cells.write (m : Cells) (a : Nat) (bs : List W8) : Cells :=
  match bs with
  | [] => m
  | b :: rest => Cells.write (m.set a b) (a + 1) rest

/-- Scattered bytes written; a zero byte is written too. -/
def Cells.writeAll (m : Cells) (bs : List (Nat × W8)) : Cells :=
  match bs with
  | [] => m
  | (a, b) :: rest => Cells.writeAll (m.set a b) rest

/-- Bytes from an address on, paired with their addresses. -/
def addrBytes (a : Nat) (bs : List W8) : List (Nat × W8) :=
  match bs with
  | [] => []
  | b :: rest => (a, b) :: addrBytes (a + 1) rest

/-! ### Little-endian words (R1) -/

/-- The number of bytes, the least significant first. -/
def leNat : List W8 → Nat
  | [] => 0
  | b :: rest => b.toNat + 256 * leNat rest

/-- The low `n` bytes of a number, the least significant first. -/
def leBytes (n v : Nat) : List W8 :=
  match n with
  | 0 => []
  | k + 1 => BitVec.ofNat 8 (v % 256) :: leBytes k (v / 256)

/-- Bits hi down to lo of a number. -/
def bits (v hi lo : Nat) : Nat := v / 2 ^ lo % 2 ^ (hi - lo + 1)

/-- One bit of a number. -/
def bit (v i : Nat) : Bool := v / 2 ^ i % 2 == 1

/-- `n` bytes of a record, from byte `a`, as a number. -/
def fieldLE (r : List W8) (a n : Nat) : Nat := leNat ((r.drop a).take n)

/-- A number of `w` bits read as two's complement. -/
def toSigned (w v : Nat) : Int := if v % 2 ^ w < 2 ^ (w - 1) then (v % 2 ^ w : Nat) else (v % 2 ^ w : Nat) - (2 ^ w : Nat)

/-- The bytes of a 64-byte record held as one number. -/
def recordBytes (r : BitVec 512) : List W8 := leBytes 64 r.toNat

/-- A 64-byte record as one number. -/
def recordOf (bs : List W8) : BitVec 512 := BitVec.ofNat 512 (leNat bs)

/-- Bytes `a` to `a + n − 1` of such a record. -/
def recordField (r : BitVec 512) (a n : Nat) : Nat := r.toNat / 256 ^ a % 256 ^ n

/-- A 64-bit word of a number. -/
def w64 (n : Nat) : W64 := BitVec.ofNat 64 n

/-- A flag as a number. -/
def flag (b : Bool) : Nat := if b then 1 else 0

/-! ### Keyed lists -/

/-- The entry of a key. -/
def keyGet {α : Type} (l : List (Nat × α)) (k : Nat) : Option α :=
  match l with
  | [] => none
  | (x, v) :: rest => if x = k then some v else keyGet rest k

/-- The list with a key's entry set; keys stay rising. -/
def keySet {α : Type} (l : List (Nat × α)) (k : Nat) (v : α) : List (Nat × α) :=
  match l with
  | [] => [(k, v)]
  | (x, w) :: rest =>
    if k < x then (k, v) :: (x, w) :: rest
    else if k = x then (k, v) :: rest
    else (x, w) :: keySet rest k v

/-- A list with its element at a place set; places that a shorter list lacks take a default, as reading them does. -/
def putAt {α : Type} (l : List α) (d : α) (i : Nat) (v : α) : List α :=
  match l, i with
  | [], 0 => [v]
  | [], i + 1 => d :: putAt [] d i v
  | _ :: l, 0 => v :: l
  | a :: l, i + 1 => a :: putAt l d i v

/-- The list without a key's entry. -/
def keyDel {α : Type} (l : List (Nat × α)) (k : Nat) : List (Nat × α) := l.filter fun e => e.1 != k

/-- The smallest element of a list by a key. -/
def leastBy {α : Type} (f : α → Nat) : List α → Option α
  | [] => none
  | a :: rest =>
    match leastBy f rest with
    | none => some a
    | some b => if f b < f a then some b else some a

/-- Up to `n` numbers from `a` on. -/
def span (a n : Nat) : List Nat := (List.range n).map (a + ·)

/-- ⌈a ÷ b⌉. -/
def ceilDiv (a b : Nat) : Nat := (a + b - 1) / b

end Sys2Proof.Machine
end

