-- ==== Sys2Proof/Machine/Parts.lean ====
section
/-! DEFINITION. The named operations over the state: the part's numbering, reading and writing of registers, tokens, buffers and
banks of a core, the scheduling of what lands later, and the zone counters. -/

namespace Sys2Proof.Machine

/-! ### Numbering (R9, R16, R17) -/

/-- The order LD, CM, ST, CT (R124). -/
def seqIdx : SeqId → Nat
  | .ld => 0
  | .cm => 1
  | .st => 2
  | .ct => 3

/-- The four sequencers in that order. -/
def allSeqs : List SeqId := [.ld, .cm, .st, .ct]

/-- The cluster of a core (R16). -/
def clusterOf (core : Nat) : Nat := core / 192

/-- The die of a cluster (R16). -/
def dieOfCluster (cl : Nat) : Nat := if cl < 8 then cl / 2 else cl - 4

/-- The die of a core. -/
def dieOf (core : Nat) : Nat := dieOfCluster (clusterOf core)

/-- The local number of a core (R17). -/
def localOf (core : Nat) : Nat := core % 192

/-- The die-pair latency of two spoke dies (R229). -/
def dpl (a b : Nat) : Nat :=
  if a = b then 20 else if decide (a < 4) == decide (b < 4) then 44 else 52

/-- The crossing to or from the hinge die (R457). -/
def hingeCross : Nat := 24

/-- The memory die of an HBM4E address (R460). -/
def hbmDie (pa : Nat) : Nat := 4 + pa / 2 ^ 38 % 4

/-- The channel of an HBM4E address (R460). -/
def channelOf (pa : Nat) : Nat := 128 * (pa / 2 ^ 38 % 4) + pa / 2 ^ 12 % 128

/-! ### Cores, sequencers, tasks, casements -/

/-- The core of a global number. -/
def State.core (s : State) (c : Nat) : Core := (keyGet s.cores c).getD Core.idle

/-- The state with a core replaced. -/
def State.setCore (s : State) (c : Nat) (k : Core) : State := { s with cores := keySet s.cores c k }

/-- The state with a core changed. -/
def State.modCore (s : State) (c : Nat) (f : Core → Core) : State := s.setCore c (f (s.core c))

/-- A sequencer of a core. -/
def Core.seq (k : Core) (q : SeqId) : Seq := k.seqs.getD (seqIdx q) Seq.idle

/-- The core with a sequencer replaced. -/
def Core.setSeq (k : Core) (q : SeqId) (x : Seq) : Core := { k with seqs := putAt k.seqs Seq.idle (seqIdx q) x }

/-- The core with a sequencer changed. -/
def Core.modSeq (k : Core) (q : SeqId) (f : Seq → Seq) : Core := k.setSeq q (f (k.seq q))

/-- The task of the heap with a number. -/
def State.task? (s : State) (t : Nat) : Option Task := s.tasks.find? fun x => x.id == t

/-- The task that holds a core. -/
def State.taskOf (s : State) (c : Nat) : Option Task := (s.core c).task.bind s.task?

/-- The casement of the task that holds a core; 16 when none does. -/
def State.casementOf (s : State) (c : Nat) : Nat := ((s.taskOf c).map Task.casement).getD 16

/-- The state with one task changed. -/
def State.modTask (s : State) (t : Nat) (f : Task → Task) : State :=
  { s with tasks := s.tasks.map fun x => if x.id == t then f x else x }

/-- A casement's block. -/
def State.casement (s : State) (k : Nat) : Casement := s.casements.getD k Casement.reset

/-- The state with a casement changed. -/
def State.modCasement (s : State) (k : Nat) (f : Casement → Casement) : State :=
  { s with casements := s.casements.modify k f }

/-- A die. -/
def State.die (s : State) (d : Nat) : Die := s.dies.getD d (Die.reset 0)

/-- The state with a die changed. -/
def State.modDie (s : State) (d : Nat) (f : Die → Die) : State := { s with dies := s.dies.modify d f }

/-- A queue's registers. -/
def State.queue (s : State) (q : Nat) : Queue := (keyGet s.queues q).getD Queue.reset

/-- The state with a queue changed. -/
def State.modQueue (s : State) (q : Nat) (f : Queue → Queue) : State :=
  { s with queues := keySet s.queues q (f (s.queue q)) }

/-- A completion queue's registers. -/
def State.cq (s : State) (q : Nat) : ComplQueue := (keyGet s.cqs q).getD ComplQueue.reset

/-- The state with a completion queue changed. -/
def State.modCq (s : State) (q : Nat) (f : ComplQueue → ComplQueue) : State :=
  { s with cqs := keySet s.cqs q (f (s.cq q)) }

/-- A session context. -/
def State.session (s : State) (n : Nat) : Session := (keyGet s.sessions n).getD Session.reset

/-- The state with a session changed. -/
def State.modSession (s : State) (n : Nat) (f : Session → Session) : State :=
  { s with sessions := keySet s.sessions n (f (s.session n)) }

/-- A channel's counters and queue. -/
def State.channel (s : State) (n : Nat) : Channel := (keyGet s.channels n).getD Channel.reset

/-- The state with a channel changed. -/
def State.modChannel (s : State) (n : Nat) (f : Channel → Channel) : State :=
  { s with channels := keySet s.channels n (f (s.channel n)) }

/-- The class of a task: 0 action, 1 reasoning, 2 batch (R252). -/
def Task.klass (t : Task) : Nat := bits (fieldLE t.record 1 1) 1 0

/-- A new number for something in flight. -/
def State.newId (s : State) : Nat × State := (s.nextId, { s with nextId := s.nextId + 1 })

/-- A free value, and the state that has drawn it (log entry 4). -/
def State.draw (s : State) : Nat × State := (Config.freeNat s.fresh, { s with fresh := s.fresh + 1 })

/-- A cycle after this one, at no fixed distance. -/
def State.drawDue (s : State) : Nat × State :=
  let (v, s) := s.draw
  (s.now + 1 + v, s)

/-- The state with something that has left the part recorded. -/
def State.emitOut (s : State) (o : Output) : State := { s with out := s.out ++ [o] }

/-! ### The zone counters (R20, R231) -/

/-- A die's own counter. -/
def State.rawCount (s : State) (d : Nat) : Nat := s.now - (s.die d).zero

/-- A casement's view of ZCNT on a die. -/
def State.zview (s : State) (k d : Nat) : W64 :=
  BitVec.ofInt 64 (s.rawCount d + (s.casement k).offsets.getD d 0)

/-- FTIME in nanoseconds (R325). -/
def State.ftime (s : State) : Nat := s.fleet.sub / 10000000

/-! ### Scalar registers (R77, R107) -/

/-- A scalar register; s0 reads as zero. -/
def Seq.reg (x : Seq) (r : Nat) : W64 := if r = 0 then 0 else x.regs.getD r 0

/-- A scalar register written; a result written to s0 is discarded. -/
def Seq.setReg (x : Seq) (r : Nat) (v : W64) : Seq := if r = 0 then x else { x with regs := putAt x.regs 0 r v }

/-- A register of a sequencer of a core. -/
def Core.reg (k : Core) (q : SeqId) (r : Nat) : W64 := (k.seq q).reg r

/-! ### Tokens (R34 to R38) -/

/-- The counter, by its place in TOKS, that WP waits on. -/
def wpCounter : SeqId → Nat
  | .ld => 3
  | .cm => 0
  | .st => 1
  | .ct => 2

/-- The counter that WN waits on. -/
def wnCounter : SeqId → Nat
  | .ld => 4
  | .cm => 5
  | .st => 6
  | .ct => 7

/-- The counter that SP signals. -/
def spCounter : SeqId → Nat
  | .ld => 7
  | .cm => 4
  | .st => 5
  | .ct => 6

/-- The counter that SN signals. -/
def snCounter : SeqId → Nat
  | .ld => 0
  | .cm => 1
  | .st => 2
  | .ct => 3

/-- A token counter. -/
def Core.token (k : Core) (i : Nat) : Nat := k.tokens.getD i 0

/-- Whether a word's waits are all met (R35). -/
def Core.waitsMet (k : Core) (q : SeqId) (wp wn : Bool) : Bool :=
  (!wp || decide (0 < k.token (wpCounter q))) && (!wn || decide (0 < k.token (wnCounter q)))

/-- A counter lowered by one. -/
def Core.takeToken (k : Core) (i : Nat) : Core := { k with tokens := k.tokens.modify i (· - 1) }

/-- The later of two cycles for each sequencer. -/
def laterOf (a b : List Nat) : List Nat := (List.range 4).map fun i => Max.max (a.getD i 0) (b.getD i 0)

/-- A sequencer acquires what the signals of a counter release (R37, R209). -/
def Core.acquireToken (k : Core) (q : SeqId) (i : Nat) : Core :=
  k.modSeq q fun x => { x with after := laterOf x.after (k.covers.getD i []) }

/-- A word's waits taken (R35), each an acquire (R37). -/
def Core.takeWaits (k : Core) (q : SeqId) (wp wn : Bool) : Core :=
  let k := if wp then (k.takeToken (wpCounter q)).acquireToken q (wpCounter q) else k
  if wn then (k.takeToken (wnCounter q)).acquireToken q (wnCounter q) else k

/-- A counter raised by one; a signal that takes it over 15 is remembered until the end of the cycle, as of the word before the sequencer's
next one (R36). -/
def Core.giveToken (k : Core) (q : SeqId) (i : Nat) : Core :=
  let k := if 15 ≤ k.token i then { k with overflowed := k.overflowed ++ [(i, q, (k.seq q).pc - 4)] } else k
  { k with tokens := k.tokens.modify i (· + 1) }

/-- A counter covers from now on what a sequencer has accessed before a cycle, and what it had acquired itself (R37, R209). -/
def Core.coverToken (k : Core) (q : SeqId) (i now : Nat) : Core :=
  { k with covers := k.covers.modify i fun l => laterOf l ((k.seq q).after.modify (seqIdx q) (Max.max now)) }

/-- What a core knows of the order of accesses, for a save or a mirror. -/
def Core.known (k : Core) : Known :=
  { stamps := k.seqs.map Seq.readStamp, covers := k.covers, afters := k.seqs.map Seq.after, past := k.past }

/-- A core that knows what another one did (R209 to R212). -/
def Core.learn (k : Core) (o : Known) : Core :=
  { k with
    covers := o.covers, past := o.past
    seqs := k.seqs.zipIdx.map fun (x, i) =>
      { x with readStamp := o.stamps.getD i (List.replicate 9 0), after := o.afters.getD i (List.replicate 4 0) } }

/-- A word's signals given (R36), each a release of its sequencer's accesses of earlier cycles (R37). -/
def Core.giveSignals (k : Core) (q : SeqId) (now : Nat) (sp sn : Bool) : Core :=
  let k := if sp then (k.giveToken q (spCounter q)).coverToken q (spCounter q) now else k
  if sn then (k.giveToken q (snCounter q)).coverToken q (snCounter q) now else k

/-- The signals remembered from the n-th on taken as those of the word at an address. -/
def Core.blame (k : Core) (n pc : Nat) : Core :=
  { k with overflowed := k.overflowed.take n ++ (k.overflowed.drop n).map fun e => (e.1, e.2.1, pc) }

/-- CSR TOKS (R38). A counter that stands at 16 between a cycle's signals and its waits reads modulo 16, as 0, which R38 leaves open (DESIGN CHOICE, log entry
96). -/
def Core.toks (k : Core) : W64 :=
  w64 ((List.range 8).foldl (fun a i => a + k.token i % 16 * 16 ^ i) 0)

/-! ### What lands later -/

/-- The state with something due on a core. -/
def State.addAct (s : State) (c due issued : Nat) (q : SeqId) (pc : Nat) (p : Pay) : State :=
  let (id, s) := s.newId
  s.modCore c fun k => { k with acts := k.acts ++ [{ id := id, due := due, issued := issued, by_ := q, pc := pc, pay := p }] }

/-- A core's act taken out. -/
def Core.dropAct (k : Core) (id : Nat) : Core := { k with acts := k.acts.filter fun a => a.id != id }

/-- An act put off to a later cycle (R124). -/
def Core.delayAct (k : Core) (id : Nat) (due : Nat) : Core :=
  { k with acts := k.acts.map fun a => if a.id == id then { a with due := due } else a }

/-- Whether an act is the SYNC signals of a word. -/
def Pay.isSignal : Pay → Bool
  | .signal _ _ _ => true
  | _ => false

/-- An access of a word put off to the next cycle: the word's signals, and the cycle its port is ready, move later by the same (R36, R124). -/
def Core.putOff (k : Core) (a : Act) (now : Nat) : Core :=
  let k : Core := { k with
    acts := k.acts.map fun x =>
      if x.id == a.id then { a with due := now + 1 }
      else if x.pay.isSignal && x.issued == a.issued && x.by_ == a.by_ then { x with due := x.due + 1 } else x }
  match a.pay with
  | .paramRead n _ => { k with ports := k.ports.modify n fun g => { g with ready := g.ready + 1 } }
  | _ => k

/-! ### The buffers (R124, R182, R186, R206) -/

/-- Bytes of the W-space and of the A-space (R22). -/
def bufSize (isA : Bool) : Nat := if isA then 0x18000 else 0x30000

/-- A buffer's bytes as the core's own fixed-cycle accesses see them. -/
def Core.buf (k : Core) (isA : Bool) : Cells := if isA then k.aspace else k.wspace

/-- The core with a buffer's bytes replaced. -/
def Core.setBuf (k : Core) (isA : Bool) (m : Cells) : Core :=
  if isA then { k with aspace := m } else { k with wspace := m }

/-- Bytes of a buffer. -/
def Core.readBuf (k : Core) (isA : Bool) (off n : Nat) : List W8 := (k.buf isA).read off n

/-- A byte of the A-space as every other agent sees it: what it showed before the oldest push that has not drained (R206). -/
def Core.viewA (k : Core) (off : Nat) : W8 :=
  match k.pushes.find? fun p => p.offs.contains off with
  | some p => p.old.get off
  | none => k.aspace.get off

/-- Bytes of a buffer as every other agent sees them. -/
def Core.viewBuf (k : Core) (isA : Bool) (off n : Nat) : List W8 :=
  if isA then (span off n).map k.viewA else k.wspace.read off n

/-- A write access over A-space bytes: it raises the counters of the blocks it touches and clears the tables built from them
(R182, R183). -/
def Core.touchBlocks (k : Core) (off n : Nat) : Core :=
  if n = 0 then k else
  let lo := off / 1024
  let hi := (off + n - 1) / 1024
  let blocks := (span lo (hi - lo + 1)).foldl (fun b i => keySet b i (((keyGet b i).getD 0 + 1) % 65536)) k.blocks
  let hit (t : Table) : Bool := decide (t.loBlk ≤ hi) && decide (lo < t.loBlk + t.nBlk)
  { k with
    blocks := blocks
    tables := k.tables.map fun t =>
      if hit t then
        match t.st with
        | .valid => { t with st := .invalid }
        | .building => { t with st := .stale }
        | _ => t
      else t }

/-- A-space bytes about to be written, noted as they stood at the start of the cycle. -/
def Core.noteA (k : Core) (offs : List Nat) : Core :=
  let fresh := offs.filter fun o => !(k.wlog.any fun e => e.1 == o)
  { k with wlog := k.wlog ++ fresh.map fun o => (o, k.aspace.get o) }

/-- Bytes of the A-space as they stood at the start of the cycle. -/
def Core.startA (k : Core) (off n : Nat) : List W8 :=
  (span off n).map fun o =>
    match k.wlog.find? fun e => e.1 == o with
    | some e => e.2
    | none => k.aspace.get o

/-- An ordinary write of scattered bytes to a buffer: the bytes, and the end of what earlier pushes still hide of them
(R206). The block counters are the caller's. -/
def Core.writeBytes (k : Core) (isA : Bool) (bs : List (Nat × W8)) : Core :=
  let k := if isA then k.noteA (bs.map Prod.fst) else k
  let k := k.setBuf isA ((k.buf isA).writeAll bs)
  if isA then
    { k with pushes := k.pushes.map fun p => { p with offs := p.offs.filter fun o => !(bs.any fun b => b.1 == o) } }
  else k

/-- One write access of consecutive bytes to a buffer. -/
def Core.writeBuf (k : Core) (isA : Bool) (off : Nat) (bs : List W8) : Core :=
  let k := k.writeBytes isA (addrBytes off bs)
  if isA then k.touchBlocks off bs.length else k

/-- The banks that bytes of a buffer lie in (R124). -/
def banksOf (off n : Nat) : List Nat :=
  if n = 0 then [] else
  let lo := off / 64
  ((span lo ((off + n - 1) / 64 - lo + 1)).map (· % 16)).eraseDups

/-- The uses of this cycle. -/
def Core.usedNow (k : Core) (now : Nat) : List (Bool × Nat × Nat × SeqId) :=
  if k.banksCycle = now then k.banksUsed else []

/-- A fixed-cycle access asks for its banks: the first bank another word's access holds in this cycle, if any (R124). -/
def Core.bankConflict (k : Core) (now : Nat) (isA : Bool) (banks : List Nat) (issued : Nat) (q : SeqId) : Option Nat :=
  banks.find? fun b => (k.usedNow now).any fun u => u.1 == isA && u.2.1 == b && !(u.2.2.1 == issued && u.2.2.2 == q)

/-- The banks taken for this cycle. -/
def Core.claimBanks (k : Core) (now : Nat) (isA : Bool) (banks : List Nat) (issued : Nat) (q : SeqId) : Core :=
  { k with banksUsed := k.usedNow now ++ banks.map fun b => (isA, b, issued, q), banksCycle := now }

/-- Banks that engine traffic takes in a free cycle (R124, R204). -/
def Core.claimFree (k : Core) (now : Nat) (isA : Bool) (banks : List Nat) : Core := k.claimBanks now isA banks 0 .ct

/-- Whether no access of this cycle uses these banks (R124: a free cycle). -/
def Core.banksFree (k : Core) (now : Nat) (isA : Bool) (banks : List Nat) : Bool :=
  banks.all fun b => !((k.usedNow now).any fun u => u.1 == isA && u.2.1 == b)

/-! ### Tiles and masks (R108, R111) -/

/-- A row of +0.0 containers. -/
def zeroRow : Row := List.replicate 64 0

/-- A row of a tile. -/
def Core.tileRow (k : Core) (tile row : Nat) : Row := (keyGet k.tiles (16 * tile + row)).getD zeroRow

/-- The core with a row of a tile written on some lanes. -/
def Core.setTileRow (k : Core) (tile row : Nat) (lanes : W64) (vals : Row) : Core :=
  let old := k.tileRow tile row
  let new_ := (List.range 64).map fun j => if lanes.getLsbD j then vals.getD j 0 else old.getD j 0
  { k with tiles := keySet k.tiles (16 * tile + row) new_ }

/-- The active mask (R111). -/
def Core.activeMask (k : Core) : W64 :=
  let m := (k.mact.extractLsb' 0 4).toNat
  if m < 8 then k.masks.getD m 0 else BitVec.allOnes 64

/-- The mask a tile instruction works under (R112). -/
def Core.laneMask (k : Core) (masked : Bool) : W64 := if masked then k.activeMask else BitVec.allOnes 64

/-- Sticky status bits added to VSTAT (R153); a CSRW of VSTAT that lands in the same cycle issued later, so its value remains (R123). -/
def Core.addStatus (k : Core) (st : Status) : Core :=
  if k.vcsrw then k else
  { k with vstat := k.vstat ||| st.setWidth 64, vnew := k.vnew ||| (st &&& ~~~(k.vstat.setWidth 10)) }

/-- VSTAT as BSTAT samples it: without the bits of landings and pushes of the cycle itself (R359). -/
def Core.vstatBefore (k : Core) : W64 := k.vstat &&& ~~~(k.vnew.setWidth 64)

/-! ### Accumulator banks (R167) -/

/-- A position of a bank, by its byte offset. -/
def Bank.get (b : Bank) (off : Nat) : W32 := (keyGet b.acc off).getD 0

/-- A bank with a position written. -/
def Bank.set (b : Bank) (off : Nat) (v : W32) : Bank :=
  { b with acc := if v = 0 then keyDel b.acc off else keySet b.acc off v }

/-- A bank by its physical place. -/
def Core.bank (k : Core) (phys : Bool) : Bank := k.banks.getD (flag phys) Bank.zero

/-- The core with a bank replaced. -/
def Core.setBank (k : Core) (phys : Bool) (b : Bank) : Core := { k with banks := putAt k.banks Bank.zero (flag phys) b }

/-! ### Where a core stands -/

/-- The region cycle (R39). -/
def Core.regionCycle (k : Core) (now : Nat) : Nat := now - k.cycle0

/-- Whether a fixed-cycle conflict or a missed issue is a fault: in a timed region (R39). -/
def Core.inTimed (k : Core) : Bool := k.phase == .run && k.timed

/-- The subnormal mode: a timed region flushes (R140). Words in a gap run under the tokened rules. -/
def Core.flushing (k : Core) : Bool := k.inTimed

/-- The address of the fetched word at a sequencer's program counter. -/
def Seq.wordAt (x : Seq) (a : Nat) : Option Fetched := x.fetched.find? fun f => f.addr == a

/-- The word a sequencer stands at, 0 when it is not fetched. -/
def Seq.curWord (x : Seq) : W32 := ((x.wordAt x.pc).map Fetched.word).getD 0

/-! ### Addresses (R87, R187, R188) -/

/-- What a virtual address names for a scalar access or one element of a copy. -/
inductive Place64 where
  /-- Own W or A space, an offset (R187). -/
  | own (isA : Bool) (off : Nat)
  /-- Another view of a core's buffers: the global core number (R188). -/
  | remote (core : Nat) (isA : Bool) (off : Nat)
  /-- An unmapped address of an aperture (R187, R188). -/
  | unmapped
  /-- The capability page, by its offset (R3). -/
  | capability (off : Nat)
  /-- From the end of the capability page to the apertures (R3). -/
  | reserved
  /-- Translated, or above 48 bits. -/
  | memory
  deriving DecidableEq, Repr

/-- A window of a core's buffers: W at 0, A at 0x4_0000 (R187). -/
def windowAt (off size : Nat) : Option (Bool × Nat) :=
  if off + size ≤ 0x30000 then some (false, off)
  else if 0x40000 ≤ off && decide (off + size ≤ 0x58000) then some (true, off - 0x40000)
  else none

/-- What `size` bytes at a virtual address name for a core (R3, R187, R188, R283). -/
def locate (core va size : Nat) : Place64 :=
  if va < 0xFD0000000000 || 2 ^ 48 ≤ va then .memory
  else if va < 0xFE0000000000 then
    if va + size ≤ 0xFD0000001000 then .capability (va - 0xFD0000000000) else .reserved
  else if va < 0xFF0000000000 then
    let n := (va - 0xFE0000000000) / 2 ^ 20
    if 192 ≤ n then .unmapped else
    match windowAt (va % 2 ^ 20) size with
    | some (isA, off) => .remote (clusterOf core * 192 + n) isA off
    | none => .unmapped
  else
    match windowAt (va - 0xFF0000000000) size with
    | some (isA, off) => .own isA off
    | none => .unmapped

end Sys2Proof.Machine
end

