-- ==== Sys2Proof/Machine/Memory.lean ====
section
/-! DEFINITION. Memory outside the cores: the physical map (R460), encryption by key slot (R303), the order in which stores become
visible to each die (R207 to R212), page migration (R223), the die buffer (R12, R299, R318), the draw of HBM4E transfers
(R344, R345), and the two stages of translation (R283 to R288, R294). -/

namespace Sys2Proof.Machine

/-! ### The physical address map (R460) -/

/-- What lies at a physical address. -/
inductive Region where
  | hbm | hingeSram | host | window | unmapped
  deriving DecidableEq, Repr

/-- The region of PA[47:0] (R460). -/
def regionOf (pa : Nat) : Region :=
  if pa < 0x10000000000 then .hbm
  else if pa < 0x10004000000 then .hingeSram
  else if pa < 0x800000000000 then .unmapped
  else if pa < 0xF00000000000 then .host
  else if pa < 0x1000000000000 then .window
  else .unmapped

/-- The address an access to a migrating page reaches: forwarded once the switch is made (R223). -/
def State.forward (s : State) (pa : Nat) : Nat :=
  match s.migration with
  | some m => if m.switched && decide (m.old ≤ pa) && decide (pa < m.old + m.size) then m.new_ + (pa - m.old) else pa
  | none => pa

/-- Whether a write to this address is held by a page's lock (R223). -/
def State.locked (s : State) (pa : Nat) : Bool :=
  match s.migration with
  | some m => !m.switched && decide (m.old ≤ pa) && decide (pa < m.old + m.size)
  | none => false

/-- Whether an HBM4E address can be reached: its die and stack live, its channel not retired (R315, R336). -/
def State.hbmReachable (s : State) (pa : Nat) : Bool :=
  (s.die (hbmDie pa)).live && !(s.channel (channelOf pa)).retired &&
    (s.hbm.getD (channelOf pa / 32) Stack.reset).live

/-- Whether an HBM4E address lies on a stack in thermal hold (R318). -/
def State.hotPage (s : State) (pa : Nat) : Bool :=
  regionOf pa == .hbm && (s.hbm.getD (channelOf pa / 32) Stack.reset).hold

/-- Whether an access to an address waits for a thermal hold to end (R318). -/
def State.waitsHot (s : State) (pa : Nat) : Bool := s.hotPage (s.forward pa)

/-- Whether an access to an address raises MACHINE_CHECK: HBM4E that cannot be reached (R315, R336, R460). -/
def State.dead (s : State) (pa : Nat) : Bool := regionOf (s.forward pa) == .hbm && !s.hbmReachable (s.forward pa)

/-! ### Reading -/

/-- A byte: the latest in coherence order that the given die has applied; of all stores performed, where no die is given (R211). -/
def State.byteAt (s : State) (die : Option Nat) (a : Nat) : W8 :=
  s.stores.foldl (fun acc r =>
    let seen := match die with
      | some d => r.applied.contains d
      | none => true
    (if seen then keyGet r.bytes a else none).getD acc) (s.mem.get a)

/-- A line encrypted under one key, as decryption under another gives it (R303). -/
def recrypt (old new_ : Nat × Nat) (line : Nat) (bs : List W8) : List W8 :=
  if old = new_ then bs
  else leBytes 64 ((Config.lineCipher new_ line).symm (Config.lineCipher old line (BitVec.ofNat 512 (leNat bs)))).toNat

/-- Whether a store has reached a die and touches a line. -/
def StoreRec.onLine (r : StoreRec) (die : Option Nat) (line : Nat) : Bool :=
  (match die with
   | some d => r.applied.contains d
   | none => true) && r.bytes.any fun b => b.1 / 64 == line

/-- The keys under which a line, and the stores to it that are not folded yet, were written, as a die sees them. -/
def State.lineTags (s : State) (die : Option Nat) (line : Nat) : List (Nat × Nat) :=
  (keyGet s.lineKeys line).toList ++ (s.stores.filter fun r => r.onLine die line).filterMap StoreRec.key

/-- A line's bytes under the key of the latest store to it, and that key: a store of a part decrypts and encrypts the rest with its own (R303). -/
def State.lineAt (s : State) (die : Option Nat) (line : Nat) : List W8 × Option (Nat × Nat) :=
  (s.stores.filter fun r => r.onLine die line).foldl (fun acc r =>
    let base :=
      match acc.2, r.key with
      | some o, some n => recrypt o n line acc.1
      | _, _ => acc.1
    ((base.zipIdx).map fun (v, i) => (keyGet r.bytes (64 * line + i)).getD v, r.key)) ((span (64 * line) 64).map s.mem.get, keyGet s.lineKeys line)

/-- A byte as a key slot reads it: a slot without a key reads zero, and another key's line reads as what decryption makes of it
(R303, log entry 11). -/
def State.readByte (s : State) (die : Option Nat) (slot a : Nat) : W8 :=
  let a := s.forward a
  if regionOf a == .window then Config.windowByte s.now a
  else if regionOf a != .hbm then s.byteAt die a else
  let k := s.casement slot
  if !k.keyValid then 0
  else if (s.lineTags die (a / 64)).all fun t => t == (slot, k.keyGen) then s.byteAt die a
  else
    let (bs, tag) := s.lineAt die (a / 64)
    (recrypt (tag.getD (slot, k.keyGen)) (slot, k.keyGen) (a / 64) bs).getD (a % 64) 0

/-- Bytes as a key slot reads them. -/
def State.readMem (s : State) (die : Option Nat) (slot a n : Nat) : List W8 :=
  (span a n).map (s.readByte die slot)

/-! ### Performing and applying stores (R208, R211) -/

/-- The larger of two counts for each die. -/
def joinCounts (a b : List Nat) : List Nat := (List.range 9).map fun i => Max.max (a.getD i 0) (b.getD i 0)

/-- Whether a die's counts cover what a stamp names. -/
def covers (vc stamp : List Nat) : Bool := (List.range 9).all fun i => decide (stamp.getD i 0 ≤ vc.getD i 0)

/-- Dies in service. -/
def State.liveDies (s : State) : List Nat := (List.range 9).filter fun d => (s.die d).live

/-- Whether a store is performed at DEVICE scope: applied on every die in service. -/
def State.everywhere (s : State) (r : StoreRec) : Bool := s.liveDies.all fun d => r.applied.contains d

/-- The bytes of a folded store written to the base; the rest of a line that was under another key becomes what decryption
and encryption make of it (R303). -/
def State.foldBytes (s : State) (r : StoreRec) : State :=
  match r.key with
  | none => { s with mem := s.mem.writeAll r.bytes }
  | some tag =>
    let lines := (r.bytes.map fun b => b.1 / 64).eraseDups
    let mem := lines.foldl (fun m l =>
      match keyGet s.lineKeys l with
      | none => m
      | some old => if old = tag then m else m.writeAll (addrBytes (64 * l) (recrypt old tag l ((span (64 * l) 64).map m.get)))) s.mem
    { s with mem := mem.writeAll r.bytes, lineKeys := lines.foldl (fun k l => keySet k l tag) s.lineKeys }

/-- The oldest stores folded into the base while they are applied everywhere; `fuel` bounds their number. -/
def State.foldStores (s : State) (fuel : Nat) : State :=
  match fuel with
  | 0 => s
  | n + 1 =>
    match s.stores with
    | [] => s
    | r :: rest => if s.everywhere r then State.foldStores { (s.foldBytes r) with stores := rest } n else s

/-- A store applied on a die (R211). -/
def State.applyOn (s : State) (d id : Nat) : State :=
  match s.stores.find? fun r => r.id == id with
  | none => s
  | some r =>
    let s := { s with stores := s.stores.map fun (x : StoreRec) => if x.id == id && !x.applied.contains d
                                                     then { x with applied := x.applied ++ [d] } else x }
    s.modDie d fun x => { x with vc := x.vc.modify r.die fun v => Max.max v r.num }

/-- Whether a die may apply a store now: it has arrived, and its sender's earlier stores and every store its stamp names are applied
there. -/
def State.mayApply (s : State) (d : Nat) (r : StoreRec) : Bool :=
  decide (r.arrives.getD d 0 ≤ s.now) && !r.applied.contains d && covers (s.die d).vc r.stamp && decide ((s.die d).vc.getD r.die 0 + 1 = r.num)

/-- A die brought up to a stamp: every store it names applied there, in coherence order. -/
def State.catchUp (s : State) (d : Nat) (stamp : List Nat) : State :=
  let s := (s.stores.filter fun r => decide (r.num ≤ stamp.getD r.die 0)).foldl (fun s r => s.applyOn d r.id) s
  s.foldStores s.stores.length

/-- The stamp of what the newest store to any of these bytes names, itself included; `die` restricts it to what that die has
applied. -/
def State.stampOf (s : State) (die : Option Nat) (addrs : List Nat) : List Nat :=
  s.stores.foldl (fun acc r =>
    let seen := match die with
      | some d => r.applied.contains d
      | none => true
    if seen && (addrs.any fun a => (keyGet r.bytes a).isSome)
    then joinCounts acc (joinCounts r.stamp ((List.replicate 9 0).set r.die r.num)) else acc) (List.replicate 9 0)

/-- A queue whose wait watches one of these lines evaluates again (R250). -/
def State.notifyLines (s : State) (bs : List (Nat × W8)) : State :=
  { s with queues := s.queues.map fun (n, q) =>
      match q.waitLine with
      | some l => if bs.any (fun b => b.1 / 64 == l) then (n, { q with nextWait := s.now + 1 }) else (n, q)
      | none => (n, q) }

/-- Bytes carried for a casement counted in its usage window (R305). -/
def State.countBytes (s : State) (k n : Nat) : State :=
  s.modCasement k fun c => { c with usage := { c.usage with bytes := (c.usage.bytes + n) % 2 ^ 48 } }

/-- No task: who asks for what the device does of its own accord. -/
def noTask : Nat := 2 ^ 64

/-- A store of a task performed at memory: appended to the coherence order, applied on the die that sends it; held under a migration's
lock, discarded under a slot without a key (R208, R211, R223, R303). `slot` is the key slot. -/
def State.performStoreOf (s : State) (task die core : Nat) (q : SeqId) (slot : Nat) (bs : List (Nat × W8)) : State :=
  match bs with
  | [] => s
  | (a0, _) :: _ =>
    let fwd := s.forward a0
    let bs := bs.map fun b => (b.1 - a0 + fwd, b.2)
    let hbm := regionOf fwd == .hbm
    let k := s.casement slot
    let num := s.sent.getD die 0 + 1
    let (id, s1) := s.newId
    let (arrives, s1) := (List.range 9).foldl (fun (l, s) _ => let (d, s) := s.drawDue; (l ++ [d], s)) (([] : List Nat), s1)
    let r : StoreRec :=
      { id := id, die := die, num := num, stamp := (s.die die).vc, bytes := bs
        key := if hbm then some (slot, k.keyGen) else none, applied := [die], arrives := arrives, core := core, by_ := q, task := task, amoc := none }
    if hbm && !k.keyValid then s
    else if s.locked a0 then
      { s1 with migration := s1.migration.map fun m => { m with held := m.held ++ [r] } }
    else
      let s := { s1 with sent := s1.sent.set die num, stores := s1.stores ++ [r] }
      let s := s.modDie die fun x => { x with vc := x.vc.set die num }
      let s := s.notifyLines bs
      let s := if regionOf fwd == .window then s.countBytes slot bs.length else s
      s.foldStores s.stores.length

/-- A store performed for the task that holds the core, if any. -/
def State.performStore (s : State) (die core : Nat) (q : SeqId) (slot : Nat) (bs : List (Nat × W8)) : State :=
  s.performStoreOf ((s.core core).task.getD noTask) die core q slot bs

/-- Consecutive bytes stored. -/
def State.storeBytes (s : State) (die core : Nat) (q : SeqId) (slot a : Nat) (bs : List W8) : State :=
  s.performStore die core q slot (addrBytes a bs)

/-! ### HBM4E: its draw, the die buffers, and what reaches it outside the channels' queues (R12, R25, R299, R303, R313 to R318, R344, R345) -/

/-- What a request of 64 bytes draws in its cycle, in sevenths of a sixteenth of a unit: 80 GB/s at 11.2 GB/s for a unit (R344). -/
def slotUnits : Nat := 800

/-- The sixteenths of a unit that hold an amount of sevenths of one. -/
def sixteenths (n : Nat) : Nat := (n + 6) / 7

/-- What a die's HBM4E draws in this cycle, in sixteenths of a unit: 100 units of refresh of a memory die, and its traffic (R344). -/
def State.hbmDraw (s : State) (d : Nat) : Nat :=
  let x := s.die d
  (if 4 ≤ d && d < 8 then 1600 else 0) + (if x.hbmAt = s.now then sixteenths x.hbmUnits else 0)

/-- Sixteenths of a unit that a die holds free of what its regions, commands, traffic and reservations take (R345, R346). -/
def State.freeUnits (s : State) (d : Nat) : Nat :=
  let x := s.die d
  x.units - (x.used + x.reserved + s.hbmDraw d)

/-- Whether a memory die holds the units for one more request (R25, R345). -/
def State.slotPower (s : State) (die : Nat) : Bool :=
  let x := s.die die
  let now := if x.hbmAt = s.now then x.hbmUnits else 0
  decide (sixteenths (now + slotUnits) ≤ s.freeUnits die + sixteenths now)

/-- One more request drawn from a memory die's units in this cycle (R344). -/
def State.drawSlot (s : State) (die : Nat) : State :=
  s.modDie die fun d => { d with hbmUnits := (if d.hbmAt = s.now then d.hbmUnits else 0) + slotUnits, hbmAt := s.now }

/-- Whether a transfer outside the queues may start at the channel of an address: in a kept slot, one slot in 16, that nothing has taken, behind no transfer still to be carried,
with the die's units for it; or behind one that has started there in this cycle (R25, R313, R345, log entry 86). -/
def State.keptOpen (s : State) (a : Nat) : Bool :=
  let c := s.channel (channelOf a)
  c.keptAt == s.now + 1 || (s.now % 16 == 0 && c.kept == 0 && c.lastServed != s.now + 1 && s.slotPower (hbmDie a))

/-- A transfer outside the queues put in its kept slot: this cycle's, or a later one, in which it draws (R313, R344, log entry 86). -/
def State.takeKept (s : State) (a : Nat) : State :=
  let c := s.channel (channelOf a)
  if s.now % 16 == 0 && c.kept == 0 && c.lastServed != s.now + 1 && s.slotPower (hbmDie a) then
    (s.drawSlot (hbmDie a)).modChannel (channelOf a) fun c => { c with lastServed := s.now + 1, keptAt := s.now + 1 }
  else s.modChannel (channelOf a) fun c => { c with kept := c.kept + 1, keptAt := s.now + 1 }

/-- A channel's next transfer still to be carried goes in this cycle, if it is a kept slot and the die has the units; none of a stack in thermal hold, and no more of a channel that
is out of service. -/
def State.carryKept (s : State) (n : Nat) : State :=
  let stack := s.hbm.getD (n / 32) Stack.reset
  if (s.channel n).kept = 0 then s
  else if (s.channel n).retired || !stack.live then s.modChannel n fun c => { c with kept := 0 }
  else if s.now % 16 != 0 || stack.hold || !s.slotPower (4 + n / 128) then s
  else (s.drawSlot (4 + n / 128)).modChannel n fun c => { c with kept := c.kept - 1, lastServed := s.now + 1 }

/-- The transfers still to be carried, of every channel. -/
def State.carryAll (s : State) : State := s.channels.foldl (fun s e => s.carryKept e.1) s

/-- A counter that saturates at all ones (R317). -/
def satAdd (c : W32) (n : Nat) : W32 := if c.toNat + n < 2 ^ 32 then c + BitVec.ofNat 32 n else BitVec.allOnes 32

/-- What a transfer's link and the array ECC leave in a channel's counters: replays, the failure that retires the channel, a corrected line, an
uncorrectable one of a key slot at a line's address (R315 to R317). -/
def Channel.noteLink (c : Channel) (link : LinkResult) (key line : Nat) : Channel :=
  match link with
  | .clean => c
  | .replayed n => { c with lcrc := satAdd c.lcrc (Min.min n 8) }
  | .corrected => { c with ace := satAdd c.ace 1 }
  | .failed => { c with lfail := satAdd c.lfail 1, lcrc := satAdd c.lcrc 8, retired := true }
  | .poisoned => { c with aue := satAdd c.aue 1, uepa := BitVec.ofNat 52 (key * 2 ^ 48 + line) }

/-- Whether a transfer fails its request: it fails 8 replays, or brings a poisoned line (R315, R316). -/
def linkFails : LinkResult → Bool
  | .failed => true
  | .poisoned => true
  | _ => false

/-- Whether a casement's minima are guaranteed: from CREATE to ERASING. -/
def Casement.guaranteed (x : Casement) : Bool :=
  match x.st with
  | .free => false
  | .erasing => false
  | _ => true

/-- MINW of a casement: the ways of each die buffer that are its alone (R299). -/
def State.minW (s : State) (k : Nat) : Nat := if (s.casement k).guaranteed then (s.casement k).inForce.getD 10 0 else 0

/-- CAPW: the lines of a set that it may hold, its own ways among them. -/
def State.capW (s : State) (k : Nat) : Nat := Max.max (s.minW k) ((s.casement k).inForce.getD 11 0)

/-- The line of an address: PA / 64, forwarded once a migration has switched. -/
def State.lineOf (s : State) (pa : Nat) : Nat := s.forward pa / 64

/-- The lines in the set of a line: 32,768 sets on each memory die (R12), chosen by PA[20:6] (log entry 81). -/
def State.bufferSet (s : State) (line : Nat) : List BufLine :=
  s.buffer.filter fun b => hbmDie (64 * b.line) == hbmDie (64 * line) && b.line % 32768 == line % 32768

/-- Whether a die buffer holds the line of an address under a key (R303). -/
def State.inBuffer (s : State) (pa key : Nat) : Bool := s.buffer.any fun b => b.line == s.lineOf pa && b.key == key

/-- Lines of a set under a casement's key. -/
def linesOf (l : List BufLine) (k : Nat) : Nat := (l.filter fun b => b.key == k).length

/-- Whether a set has a way for one more line of a casement: one of its own, or a shared one within its CAPW (R299). -/
def State.wayFree (s : State) (l : List BufLine) (k : Nat) : Bool :=
  let shared := 16 - ((List.range 16).map s.minW).sum
  let used := ((List.range 16).map fun j => linesOf l j - s.minW j).sum
  decide (l.length < 16) && (decide (linesOf l k < s.minW k) || (decide (linesOf l k < s.capW k) && decide (used < shared)))

/-- The lines of a set that may make way for one of a casement: its own, and below its CAPW those that others hold beyond their MINW (R299). -/
def State.mayLeave (s : State) (l : List BufLine) (k : Nat) : List BufLine :=
  l.filter fun b => b.key == k || (decide (linesOf l k < s.capW k) && decide (s.minW b.key < linesOf l b.key))

/-- A line leaves a die buffer; a dirty one waits at its channel to be written back (R12, R318). -/
def State.evictLine (s : State) (b : BufLine) : State :=
  let s := { s with buffer := s.buffer.filter fun x => x != b }
  if !b.dirty then s else
  let (id, s) := s.newId
  let pa := 64 * b.line
  let r : Req :=
    { id := id, core := 2304, by_ := .ct, task := noTask, pc := 0, va := pa, kind := .evict, rd := 0, sp := false, sn := false, release := false
      issued := s.now, arrived := s.now, st := .queued pa b.key (some (channelOf pa)), remote := none, heldHot := false, orphan := false
      drained := false, after := [] }
  ({ s with reqs := s.reqs ++ [r] }).modChannel (channelOf pa) fun c => { c with queue := c.queue ++ [id] }

/-- A line that HBM4E traffic has brought enters its die's buffer, where the casement's ways allow it; which line makes way is not fixed (R12, R299,
log entry 81). -/
def State.fillBuffer (s : State) (pa key : Nat) (dirty : Bool) : State :=
  let line := s.lineOf pa
  let s := (s.buffer.filter fun b => b.line == line && b.key != key).foldl State.evictLine s
  let new_ : BufLine := { line := line, key := key, dirty := dirty }
  if s.buffer.any fun b => b.line == line then
    if dirty then { s with buffer := s.buffer.map fun b => if b.line == line then new_ else b } else s
  else
    let l := s.bufferSet line
    if s.wayFree l key then { s with buffer := s.buffer ++ [new_] }
    else
      let gone := s.mayLeave l key
      if gone.isEmpty || s.capW key = 0 then s else
      let (v, s) := s.draw
      match gone[v % gone.length]? with
      | none => s
      | some b => let s := s.evictLine b; { s with buffer := s.buffer ++ [new_] }

/-- What becomes of an access to a line of memory outside the channels' queues. -/
inductive Touch where
  | ok (s : State)
  /-- It waits: in a thermal hold, else for power units (R318, R345). -/
  | wait (hot : Bool)
  /-- MACHINE_CHECK of the memory at this address (R315, R316, R336). -/
  | check (s : State) (pa : Nat)

/-- An access to a line of memory by a walk, a fetch or the device itself, under a key, for casement `k`, carrying `n` bytes through the scale-up window: a hit of the die
buffer, or a transfer of 64 bytes in a slot kept for such traffic (R305, R313), which waits for the slot and the die's units and meets what the link and the array do. `base` is the
state at the start of the access the line is part of (log entry 86). -/
def State.touchFrom (base s : State) (k pa key n : Nat) (write : Bool) : Touch :=
  let a := s.forward pa
  if regionOf a == .window then .ok (s.countBytes k n)
  else if regionOf a != .hbm then .ok s
  else if !s.hbmReachable a then .check s pa
  else if s.inBuffer pa key then .ok (if write then s.fillBuffer pa key true else s)
  else if s.hotPage a then .wait true
  else if !base.keptOpen a then .wait false
  else
    let link := ((s.channel (channelOf a)).nextLink).getD .clean
    let s := (s.takeKept a).modChannel (channelOf a) fun c => { (c.noteLink link key (a / 64 * 64)) with nextLink := none }
    if linkFails link then .check { s with rescaleDue := s.rescaleDue || link == .failed } pa
    else .ok ((s.fillBuffer pa key write).countBytes k 64)

/-- An access to one line. -/
def State.touchLine (s : State) (k pa key n : Nat) (write : Bool) : Touch := s.touchFrom s k pa key n write

/-- The lines of consecutive bytes, by an address in each. -/
def lineSpan (pa n : Nat) : List Nat := if n = 0 then [] else (List.range ((pa + n - 1) / 64 - pa / 64 + 1)).map fun i => Max.max pa ((pa / 64 + i) * 64)

/-- Several lines accessed in turn; the first that waits or fails ends it. -/
def State.touchLines (base s : State) (k key : Nat) (write : Bool) : List Nat → Touch
  | [] => .ok s
  | a :: rest =>
    match base.touchFrom s k a key (if write then 0 else 64) write with
    | .ok s => State.touchLines base s k key write rest
    | t => t

/-- Bytes accessed at once. -/
def State.touch (s : State) (k pa key n : Nat) (write : Bool) : Touch := s.touchLines s k key write (lineSpan pa n)

/-- Whether a casement owns the sub-link that an address of the scale-up window names (R333, R334). -/
def State.ownsLink (s : State) (k pa : Nat) : Bool :=
  let b := bits (s.sublinks.getD (bits pa 43 40) 0).toNat 63 0 / 256 ^ bits pa 39 37 % 256
  bit b 7 && bits b 3 0 == k

/-! ### Translation (R283 to R286) -/

/-- What an access does to the page (R286, R291). -/
inductive Access where
  | load | store | fetch
  deriving DecidableEq, Repr

/-- How a translation fails. -/
inductive XFault where
  /-- XLATE_S1 with the code of R291. -/
  | s1 (code : Nat)
  /-- XLATE_S1 of an action-class task for a stage-2 cause, which is also reported (R294): the IPA and the code of R291. -/
  | s1by2 (ipa code : Nat)
  /-- PERMISSION of a stage-1 leaf (R286). -/
  | perm
  /-- XLATE_S2: the IPA and the code of R291. -/
  | s2 (ipa code : Nat)
  /-- A table's descriptor cannot be read yet: in a thermal hold, else for want of power units (R318, R345). -/
  | wait (hot : Bool)
  /-- A table lies in memory that cannot be reached, or its transfer fails: MACHINE_CHECK, and the address (R315, R316, R460). -/
  | check (pa : Nat)
  deriving DecidableEq, Repr

/-- A leaf found by a walk: the address it gives, its size, its descriptor's address and its descriptor. -/
structure Leaf where
  oa : Nat
  size : Nat
  at_ : Nat
  desc : Nat
  deriving DecidableEq, Repr

/-- The descriptor's V (R284). -/
def dV (d : Nat) : Bool := bit d 0
/-- LEAF. -/
def dLeaf (d : Nat) : Bool := bit d 1
/-- W. -/
def dW (d : Nat) : Bool := bit d 3
/-- X. -/
def dX (d : Nat) : Bool := bit d 4
/-- PIN. -/
def dPin (d : Nat) : Bool := bit d 5
/-- A. -/
def dA (d : Nat) : Bool := bit d 6
/-- D. -/
def dD (d : Nat) : Bool := bit d 7
/-- OA, as an address. -/
def dOA (d : Nat) : Nat := bits d 47 12 * 4096
/-- KEYID. -/
def dKey (d : Nat) : Nat := bits d 51 48
/-- NS. -/
def dNS (d : Nat) : Bool := bit d 52

/-- The bytes a leaf of a level maps (R284). -/
def leafSize (level : Nat) : Nat := if level = 1 then 2 ^ 30 else if level = 2 then 2 ^ 21 else 4096

/-- Whether a descriptor breaks R284, its V apart: LEAF at level 0 or a table at level 3, a reserved bit, attributes on a
table, a key on a stage-1 leaf, a leaf whose OA breaks its alignment. -/
def dMalformed (level : Nat) (stage2 : Bool) (d : Nat) : Bool :=
  bits d 63 53 != 0 || bits d 11 8 != 0 || bit d 2 ||
  (dLeaf d && level == 0) || (!dLeaf d && level == 3) ||
  (!dLeaf d && (dNS d || dKey d != 0 || dD d || dA d || dPin d || dX d || dW d)) ||
  (dLeaf d && !stage2 && (dNS d || dKey d != 0)) ||
  (dLeaf d && dOA d % leafSize level != 0)

/-- The index of an address at a level (R284). -/
def tableIndex (a level : Nat) : Nat := a / 2 ^ (39 - 9 * level) % 512

/-- An 8-byte descriptor read for a casement's walk. The walkers' backing store holds those of levels 0 to 2, as the tables hold them (log entry 90): only one
of level 3 is read from memory (R288). -/
def State.readDesc (s : State) (die k level slot a : Nat) : Except (State × XFault) (State × Nat) :=
  if level < 3 then .ok (s, leNat (s.readMem (some die) slot a 8)) else
  match s.touchLine k a slot 8 false with
  | .ok s => .ok (s, leNat (s.readMem (some die) slot a 8))
  | .wait hot => .error (s, .wait hot)
  | .check s pa => .error (s, .check pa)

/-- The key of a casement's stage-2 tables (R285, R287). -/
def State.tableKey (s : State) (k : Nat) : Nat := bits (s.casement k).s2bound.toNat 51 48

/-- A stage-2 walk of an IPA from a table, `fuel` levels (R284, R302, R460). -/
def State.walk2 (die k ipa : Nat) : Nat → Nat → Nat → State → Except (State × XFault) (State × Leaf)
  | 0, _, _, s => .error (s, .s2 ipa 1)
  | fuel + 1, level, table, s =>
    let a := table + 8 * tableIndex ipa level
    match s.readDesc die k level (s.tableKey k) a with
    | .error e => .error e
    | .ok (s, d) =>
      if !dV d then .error (s, .s2 ipa 0)
      else if dMalformed level true d then .error (s, .s2 ipa 1)
      else if dLeaf d then
        let pa := dOA d + ipa % leafSize level
        if dKey d != k || (!(s.casement k).secure && !dNS d) ||
            regionOf pa == .hingeSram || regionOf pa == .unmapped then .error (s, .s2 ipa 1)
        else .ok (s, { oa := pa, size := leafSize level, at_ := a, desc := d })
      else State.walk2 die k ipa fuel (level + 1) (dOA d) s

/-- A or D set in a descriptor by an indivisible OR at the memory controller (R286). -/
def State.orDesc (s : State) (die core : Nat) (slot a : Nat) (m : Nat) : State :=
  let old := (s.readByte none slot a).toNat
  let v := old ||| m
  if v = old then s else s.performStore die core .ct slot [(a, BitVec.ofNat 8 v)]

/-- What a walk of an access sets in a leaf it uses: A, and D for a store (R286). -/
def Access.marks (acc : Access) : Nat := if acc == .store then 0xC0 else 0x40

/-- Whether a kept translation serves an access without a walk (R286). -/
def TlbEntry.serves (e : TlbEntry) (k va : Nat) (acc : Access) : Bool :=
  e.casement == k && decide (e.va ≤ va) && decide (va < e.va + e.size) &&
    (match acc with
     | .load => true
     | .store => e.w && e.dirty
     | .fetch => e.x)

/-- A translation added to a store of them; when it is full, one of them goes, and which is not fixed (log entry 10). -/
def keepEntry (limit pick : Nat) (l : List TlbEntry) (e : TlbEntry) : List TlbEntry :=
  let l := l.filter fun x => !(x.casement == e.casement && x.va == e.va && x.size == e.size && x.stage2 == e.stage2)
  if l.length < limit then l ++ [e] else l.eraseIdx (pick % l.length) ++ [e]

/-- A translation kept in a die's cache (131,072 entries) (R288). -/
def State.keepDie (s : State) (die : Nat) (e : TlbEntry) : State :=
  let (p, s) := if (s.die die).cache.length < 131072 then (0, s) else s.draw
  s.modDie die fun d => { d with cache := keepEntry 131072 p d.cache e }

/-- The physical address of a virtual one under a kept translation. -/
def TlbEntry.paOf (e : TlbEntry) (va : Nat) : Nat := e.pa + (va - e.va)

/-- Stage 2 of an IPA for an access: a translation that the die keeps, or a walk, which sets A and D in the leaf it uses and is kept (R284 to R286,
R288, R302). A root without EN that binds is walked as a descriptor without V (R287; DESIGN CHOICE, log entry 97). -/
def State.stage2 (s : State) (die core k ipa : Nat) (acc : Access) : Except (State × XFault) (State × TlbEntry) :=
  match (s.die die).cache.find? fun e => e.stage2 && e.serves k ipa acc with
  | some e => .ok (s, e)
  | none =>
    if !(s.casement k).s2bound.getLsbD 0 then .error (s, .s2 ipa 0) else
    match State.walk2 die k ipa 4 0 (bits (s.casement k).s2bound.toNat 47 12 * 4096) s with
    | .error e => .error e
    | .ok (s, l) =>
      if acc == .store && !dW l.desc then .error (s, .s2 ipa 2)
      else if acc == .fetch && !dX l.desc then .error (s, .s2 ipa 3)
      else
        let s := s.orDesc die core (s.tableKey k) l.at_ acc.marks
        let e : TlbEntry :=
          { casement := k, va := ipa / l.size * l.size, size := l.size, pa := l.oa / l.size * l.size, key := dKey l.desc, w := dW l.desc, x := dX l.desc
            pin := dPin l.desc, dirty := (acc == .store) || dD l.desc, stage2 := true, ipa := ipa / l.size * l.size, pin2 := dPin l.desc }
        .ok (s.keepDie die e, e)

/-- A stage-1 walk from a table at an IPA; each table address is translated by stage 2 first (R285). The key slot that the leaf's table is read under
comes with the leaf. -/
def State.walk1 (die core k va : Nat) : Nat → Nat → Nat → State → Except (State × XFault) (State × Leaf × Nat)
  | 0, _, _, s => .error (s, .s1 1)
  | fuel + 1, level, table, s =>
    let ia := table + 8 * tableIndex va level
    match s.stage2 die core k ia .load with
    | .error e => .error e
    | .ok (s, e2) =>
      match s.readDesc die k level e2.key (e2.paOf ia) with
      | .error e => .error e
      | .ok (s, d) =>
        if !dV d then .error (s, .s1 0)
        else if dMalformed level false d then .error (s, .s1 1)
        else if dLeaf d then
          .ok (s, { oa := dOA d + va % leafSize level, size := leafSize level, at_ := e2.paOf ia, desc := d }, e2.key)
        else State.walk1 die core k va fuel (level + 1) (dOA d) s

/-- The whole walk of an access (R283 to R286, R294): the translation to keep, and the memory with A and D set. A walk that fails leaves the stage-1 leaf as
it is, and A in the stage-2 leaves that it has used by then (log entry 82). A root without EN that binds is walked as a descriptor without V (R287; DESIGN CHOICE,
log entry 97). -/
def State.walk (s : State) (die core k va : Nat) (acc : Access) : Except (State × XFault) (State × TlbEntry) :=
  if !(s.casement k).s1bound.getLsbD 0 then .error (s, .s1 0) else
  match State.walk1 die core k va 4 0 (bits (s.casement k).s1bound.toNat 47 12 * 4096) s with
  | .error e => .error e
  | .ok (s, l1, slot1) =>
    if (acc == .store && !dW l1.desc) || (acc == .fetch && !dX l1.desc) then .error (s, .perm) else
    match s.stage2 die core k l1.oa acc with
    | .error e => .error e
    | .ok (s, e2) =>
      let s := s.orDesc die core slot1 l1.at_ acc.marks
      let size := Min.min l1.size e2.size
      .ok (s, { casement := k, va := va / size * size, size := size, pa := e2.paOf l1.oa / size * size, key := e2.key
                w := dW l1.desc && e2.w, x := dX l1.desc && e2.x, pin := dPin l1.desc && e2.pin
                dirty := (acc == .store) || (dD l1.desc && e2.dirty), stage2 := false, ipa := l1.oa / size * size, pin2 := e2.pin })

/-- A kept translation of a core or of its die for an access (R288). -/
def State.tlbHit (s : State) (core k va : Nat) (acc : Access) : Option TlbEntry :=
  match (s.core core).tlb.find? fun e => e.serves k va acc with
  | some e => some e
  | none => (s.die (dieOf core)).cache.find? fun e => !e.stage2 && e.serves k va acc

/-- A translation kept in the core's L1 TLB (384 entries) and in its die's cache (R288). -/
def State.keepTlb (s : State) (core : Nat) (e : TlbEntry) : State :=
  let (p, s) := if (s.core core).tlb.length < 384 then (0, s) else s.draw
  (s.modCore core fun c => { c with tlb := keepEntry 384 p c.tlb e }).keepDie (dieOf core) e

/-- Whether an address is one that translation never serves (R283): 0xFD00_0000_0000 and above within 48 bits. -/
def untranslated (va : Nat) : Bool := decide (0xFD0000000000 ≤ va) && decide (va < 2 ^ 48)

/-- What an action-class task's translation without PIN ends in: a stage-2 leaf's lack is reported with CODE 5 and the IPA, a stage-1 leaf's is its casement's own
(R294). -/
def TlbEntry.unpinned (e : TlbEntry) (va : Nat) : XFault := if e.pin2 then .s1 5 else .s1by2 (e.ipa + (va - e.va)) 5

/-- Translation of an access by a core for its task, at once: a kept entry, or a walk (R283, R294). For an action-class task a
leaf without PIN and any stage-2 fault is XLATE_S1 (R294). -/
def State.translate (s : State) (core va : Nat) (acc : Access) : Except (State × XFault) (State × Nat × Nat) :=
  let k := s.casementOf core
  let action := ((s.taskOf core).map Task.klass) == some 0
  if 2 ^ 48 ≤ va then .error (s, .s1 1) else
  let done (s : State) (e : TlbEntry) : Except (State × XFault) (State × Nat × Nat) :=
    if action && !e.pin then .error (s, e.unpinned va) else .ok (s, e.paOf va, e.key)
  match s.tlbHit core k va acc with
  | some e => done s e
  | none =>
    match s.walk (dieOf core) core k va acc with
    | .ok (s, e) => done (s.keepTlb core e) e
    | .error (s, .s2 ipa c) => if action then .error (s, .s1by2 ipa c) else .error (s, .s2 ipa c)
    | .error e => .error e

/-- Translation for the device's own accesses in a casement's space, which no task makes (R329, R461): the hinge die walks. A sub-link that the casement does
not own is not permitted (R334). -/
def State.translateFor (s : State) (k va : Nat) (acc : Access) : Except (State × XFault) (State × TlbEntry) :=
  if 2 ^ 48 ≤ va || untranslated va then .error (s, .s1 1) else
  match s.walk 8 2304 k va acc with
  | .ok (t, e) => if regionOf (e.paOf va) == .window && !t.ownsLink k (e.paOf va) then .error (t, .perm) else .ok (t, e)
  | .error e => .error e

end Sys2Proof.Machine
end

