-- ==== Sys2Proof/Machine/Ops.lean ====
section
/-! DEFINITION. The shared operations of the machine: restart snapshots and abandonment (R44, R45, R54, R58), the dispatch unit's
fault policy (R282), taking an exception and returning from one (R272 to R279), and reports to the fault rings (R290, R291). -/

namespace Sys2Proof.Machine

/-! ### Fault codes (R272) -/

/-- ILLEGAL_OP. -/
abbrev cIllegalOp : Nat := 0x01
/-- ILLEGAL_OPERAND. -/
abbrev cIllegalOperand : Nat := 0x02
/-- SCHEDULE_MISS. -/
abbrev cScheduleMiss : Nat := 0x03
/-- BANK_CONFLICT. -/
abbrev cBankConflict : Nat := 0x04
/-- TOKEN_OVERFLOW. -/
abbrev cTokenOverflow : Nat := 0x05
/-- SHAPE_MISMATCH. -/
abbrev cShapeMismatch : Nat := 0x06
/-- TABLE_STALE. -/
abbrev cTableStale : Nat := 0x07
/-- INDEX_RANGE. -/
abbrev cIndexRange : Nat := 0x08
/-- REGION_RULE. -/
abbrev cRegionRule : Nat := 0x09
/-- BUDGET_EXCEEDED. -/
abbrev cBudget : Nat := 0x0A
/-- PREDECESSOR_UNFINISHED. -/
abbrev cPredecessor : Nat := 0x0B
/-- ALIGN. -/
abbrev cAlign : Nat := 0x0C
/-- XLATE_S1. -/
abbrev cXlateS1 : Nat := 0x0D
/-- XLATE_S2. -/
abbrev cXlateS2 : Nat := 0x0E
/-- PERMISSION. -/
abbrev cPermission : Nat := 0x0F
/-- SPACE_ACCESS. -/
abbrev cSpaceAccess : Nat := 0x10
/-- ARRIVAL_OVERRUN. -/
abbrev cArrivalOverrun : Nat := 0x11
/-- PERMIT_VIOLATION. -/
abbrev cPermit : Nat := 0x12
/-- DOUBLE_TRAP. -/
abbrev cDoubleTrap : Nat := 0x13
/-- MACHINE_CHECK. -/
abbrev cMachineCheck : Nat := 0x14
/-- SOFT_ERROR_REEXEC. -/
abbrev cSoftError : Nat := 0x15
/-- TRAP_INSN. -/
abbrev cTrapInsn : Nat := 0x16
/-- BREAK. -/
abbrev cBreak : Nat := 0x17
/-- QUEUE_RECORD. -/
abbrev cQueueRecord : Nat := 0x18

/-! ### Fault rings (R290, R291) -/

/-- The bytes of a fault entry but for PHASE, which its writing adds (R291). -/
def faultEntry (addr va task core kind casement code : Nat) : List W8 :=
  leBytes 8 addr ++ leBytes 8 va ++ leBytes 4 task ++ leBytes 2 (core % 4096) ++ leBytes 1 kind ++
    leBytes 1 (16 * (casement % 16) + code % 16) ++ leBytes 8 0

/-- An entry handed to a ring: 0 to 15 of the virtual functions, 16 of the physical one. -/
def State.report (s : State) (ring : Nat) (entry : List W8) (w : RingWait) : State :=
  { s with rings := s.rings.modify ring fun r => { r with waiting := r.waiting ++ [(entry, w)] } }

/-- TASKID of a task number (R252). -/
def State.taskIdOf (s : State) (t : Nat) : Nat := ((s.task? t).map fun x => fieldLE x.record 8 4).getD 0

/-- The entry of an access of a core, to the ring it goes to. -/
def State.reportAccess (s : State) (ring addr va core kind code : Nat) (w : RingWait) : State :=
  let tid := ((s.core core).task.map s.taskIdOf).getD 0
  s.report ring (faultEntry addr va tid core kind (s.casementOf core) code) w

/-! ### Restart snapshots (R45, R58) -/

/-- The ports a sequencer configures: g0 to g3 of LD, g4 to g7 of ST (R113). -/
def portsOfSeq : SeqId → List Nat
  | .ld => [0, 1, 2, 3]
  | .st => [4, 5, 6, 7]
  | _ => []

/-- The snapshot of one sequencer as it stands, at a restart point `pc`. -/
def Seq.snapshot (x : Seq) (pc : Nat) (atRgn : Bool) : SeqSnap :=
  { pc := pc, regs := x.regs, atRgn := atRgn, sp := x.rgnSp, sn := x.rgnSn, timed := x.rgnTimed
    off := x.st == .off }

/-- The token counters as a snapshot takes them: one that a signal has just taken over 15 stays at 15 (R36). -/
def Core.heldTokens (k : Core) : List Nat := k.tokens.map fun n => Min.min n 15

/-- The sequencer CSRs, ports and token counters as they stand (R45). -/
def Core.coreSnapshot (k : Core) : CoreSnap :=
  { rwin := k.rwin, mact := k.mact, mrs := k.mrs, vstat := k.vstat, sacw := k.sacw, ports := k.ports, tokens := k.heldTokens }

/-- The snapshot of a core at its RGNs (R45): each program counter is that of the RGN, the waits are taken, the signals not
yet given. -/
def Core.snapRegion (k : Core) : Core :=
  { k with
    snaps := k.seqs.map fun x => x.snapshot (x.pc - 4) true
    snap := k.coreSnapshot }

/-- The snapshot of every sequencer at its gap start (R58). -/
def Core.snapGap (k : Core) : Core :=
  { k with snaps := k.seqs.map fun x => x.snapshot x.gapStart false, snap := k.coreSnapshot }

/-- The snapshot of one sequencer at a new gap start: its own registers and counters, the CSRs if it is CM, its own ports, and
the token counters (R58). -/
def Core.snapOne (k : Core) (q : SeqId) : Core :=
  let x := k.seq q
  let ports := (portsOfSeq q).foldl (fun ps i => ps.set i (k.ports.getD i Port.none)) k.snap.ports
  let cs := { k.snap with ports := ports, tokens := k.heldTokens }
  let cs := if q = .cm then
      { cs with rwin := k.rwin, mact := k.mact, mrs := k.mrs, vstat := k.vstat, sacw := k.sacw } else cs
  { k with snaps := k.snaps.set (seqIdx q) (x.snapshot x.gapStart false), snap := cs }

/-- Whether an address lies in a sequencer's return window: the 8 words from its latest JAL's link address (R382). -/
def Seq.inReturnWindow (x : Seq) (a : Nat) : Bool :=
  match x.link with
  | some l => decide (l ≤ a) && decide (a < l + 32)
  | none => false

/-- The words of a sequencer's region window and return window. -/
def Core.windows (k : Core) (q : SeqId) : List Nat :=
  let x := k.seq q
  (if k.phase == .run then (List.range 64).map fun i => (k.snaps.getD (seqIdx q) SeqSnap.idle).pc + 4 + 4 * i else []) ++
  (match x.link with
   | some l => (List.range 8).map fun i => l + 4 * i
   | none => [])

/-- A sequencer's fetched words and fetches, those of its windows kept or those outside them: what a FENCE.FULL of a timed region discards at once, and what it
discards at the region's end, until which the windows are held (R225, R357, R382, log entry 85). -/
def Seq.keepWords (x : Seq) (keep : Nat → Bool) : Seq :=
  { x with fetched := x.fetched.filter fun f => keep f.addr, fetching := x.fetching.filter fun r => keep r.addr, cold := true }

/-- A sequencer placed at its restart point (R44, R54 step 7): waiting at its RGN again, re-entered, or at its gap start; one that has executed
TAIL issues nothing more (R66). -/
def Seq.restart (x : Seq) (sn : SeqSnap) (now : Nat) : Seq :=
  { x with
    regs := sn.regs, retry := none, pend := [], fetching := []
    fetched := x.fetched.filter fun f => x.inReturnWindow f.addr
    pc := if sn.atRgn then sn.pc + 4 else sn.pc
    st := if sn.off then .off else if sn.atRgn then .atRgn else .run
    base := now + 1
    reentered := sn.atRgn
    rgnTimed := sn.timed, rgnSp := sn.sp, rgnSn := sn.sn }

/-- Whether a core's restart points are its RGNs. -/
def Core.restartsAtRgn (k : Core) : Bool := k.snaps.any SeqSnap.atRgn

/-- The four sequencers placed at their restart points. -/
def Core.restartAll (k : Core) (now : Nat) : Core :=
  { k with
    seqs := (List.range 4).map fun i => (k.seqs.getD i Seq.idle).restart (k.snaps.getD i SeqSnap.idle) now
    phase := if k.restartsAtRgn then .align else .gap
    alignFrom := now + 1 }

/-! ### Abandonment (R54) -/

/-- The channel end of a task's member with a number (R226). -/
def State.endOf (s : State) (task rank ch : Nat) : Option ChanEnd :=
  s.chanEnds.find? fun e => e.task == task && e.rank == rank && e.ch == ch

/-- The state with such an end changed. -/
def State.modEndOf (s : State) (task rank ch : Nat) (f : ChanEnd → ChanEnd) : State :=
  { s with chanEnds := s.chanEnds.map fun e => if e.task == task && e.rank == rank && e.ch == ch then f e else e }

/-- The channel end of a core with a number. -/
def State.chanEnd (s : State) (core ch : Nat) : Option ChanEnd :=
  (s.core core).task.bind fun t => s.endOf t (s.core core).rank ch

/-- The state with a channel end of a core changed. -/
def State.modEnd (s : State) (core ch : Nat) (f : ChanEnd → ChanEnd) : State :=
  match (s.core core).task with
  | some t => s.modEndOf t (s.core core).rank ch f
  | none => s

/-- A slot of a channel end changed. -/
def ChanEnd.modSlot (e : ChanEnd) (i : Nat) (f : Slot → Slot) : ChanEnd := { e with slots := e.slots.modify i f }

/-- The reservations of a dropped held effect given back (R237, R268). -/
def State.unreserve (s : State) (core : Nat) (h : HeldKind) : State :=
  match h with
  | .send ch slot _ _ => s.modEnd core ch fun e => e.modSlot slot fun x => { x with reserved := false }
  | .submit q _ _ => s.modQueue q fun x => { x with reserved := x.reserved - 1 }
  | _ => s

/-- An offer that no grant follows taken back: its XGRANT's descriptor has not passed (R2, R446). -/
def ChanEnd.withdraw (e : ChanEnd) (slot : Nat) : ChanEnd := { e with offered := e.offered.erase (slot, none) }

/-- The reservations of acts that would still have entered the store buffer (the reads of XSEND and TSUB at issue + 1), and the offers of grants that have not left. -/
def State.unreserveAct (s : State) (core : Nat) (a : Act) : State :=
  match a.pay with
  | .recordRead q _ => s.modQueue q fun x => { x with reserved := x.reserved - 1 }
  | .sendRead ch slot _ => s.modEnd core ch fun e => e.modSlot slot fun x => { x with reserved := false }
  | .grantRead ch slot _ => s.modEnd core ch fun e => e.withdraw slot
  | _ => s

/-- Whether a core's task is of the action class, whose units were reserved at its admission (R345). -/
def State.actionCore (s : State) (c : Nat) : Bool := ((s.taskOf c).map Task.klass) == some 0

/-- Power units, in sixteenths, taken for a core from its die, if they are free (R25, R345). -/
def State.takeUnits (s : State) (c n : Nat) : Option State :=
  if n = 0 || s.actionCore c then some s
  else if n ≤ s.freeUnits (dieOf c) then some (s.modDie (dieOf c) fun d => { d with used := d.used + n })
  else none

/-- Power units given back. -/
def State.giveUnits (s : State) (c n : Nat) : State :=
  if n = 0 || s.actionCore c then s else s.modDie (dieOf c) fun d => { d with used := d.used - n }

/-- A core's power units given back to its die (R25, R345). -/
def State.returnUnits (s : State) (c : Nat) : State :=
  let k := s.core c
  let n := k.units + (k.mma.map MmaCmd.units).sum + (k.lookup.map LookupCmd.units).sum
  (s.giveUnits c n).modCore c fun k => { k with units := 0, powered := false }

/-- Whether an act outlives its region and its task on the core: one of the epilogue unit, which abandonment does not stop (R374), or a QCTL's command, which has already been
sent (R408). -/
def Act.outlives (a : Act) : Bool :=
  match a.pay with
  | .epiBeat => true
  | .biasBeat _ _ => true
  | .command _ _ _ => true
  | _ => false

/-- Whether abandonment stops a copy: an immediate one of the region (R193). -/
def Copy.stops (cp : Copy) : Bool := cp.immediate && !cp.committed

/-- The banks as they stand noted for the EPIs that have started and read them (R373), before a bank's contents are replaced. -/
def Core.keepBanks (k : Core) (now : Nat) : Core :=
  { k with epi := k.epi.map fun e => if e.start.isSome && e.kept.isNone then { e with kept := some (now, k.bank e.bank) } else e }

/-- What abandonment does to the core itself (steps 1 and 3 to 5 of R54): nothing in flight lands, the region's commands and
immediate copies stop, the working bank is cleared, the tables are invalid, the snapshots come back. -/
def Core.dropRegion (k : Core) : Core :=
  { k with
    acts := k.acts.filter Act.outlives, mma := [], lookup := [], sacc := [], overflowed := []
    epi := k.epi.filter fun e => e.committed || e.start.isSome
    copies := k.copies.filter fun cp => !cp.stops
    held := k.held.filter fun h => h.released.isSome
    realign := none, flip := false, mirrored := false
    banks := k.banks.set (flag k.work) Bank.zero
    tables := k.tables.map fun t => { t with st := .invalid, was := false }
    rwin := k.snap.rwin, mact := k.snap.mact, mrs := k.snap.mrs, vstat := k.snap.vstat, sacw := k.snap.sacw
    ports := k.snap.ports, tokens := k.snap.tokens, faults := [], vuFree := 0 }

/-- A request that abandonment stops: a load, whose landing is dropped (R54), an AMOC not yet sent, its translation not done, and what the stopped
engines have asked for: the source beats of the copies named, a TFILL's lines (R193, R54). A handler's store is not of the region, and an AMOC that
has been sent is performed whatever happens to its region (R352). -/
def Req.stops (r : Req) (c : Nat) (copies : List Nat) : Bool :=
  r.core == c && !r.orphan && (match r.kind with
    | .load _ _ => true
    | .store _ => false
    | .copyRead n _ _ => copies.contains n
    | .copyWrite _ _ _ => false
    | .fillRead _ _ _ => true
    | .evict => false
    | .amoc _ _ _ _ =>
      match r.st with
      | .walking => true
      | .stalled _ => true
      | _ => false)

/-- Requests taken out, from their channels' queues too. -/
def State.dropReqs (s : State) (p : Req → Bool) : State :=
  let ids := (s.reqs.filter p).map Req.id
  { s with
    reqs := s.reqs.filter fun r => !p r
    channels := s.channels.map fun (n, x) => (n, { x with queue := x.queue.filter fun i => !ids.contains i }) }

/-- A sent AMOC of an abandoned region: its value and its signals land nowhere (R352). -/
def Req.orphaned (r : Req) (c : Nat) : Req :=
  match r.kind with
  | .amoc _ _ _ _ => if r.core = c then { r with orphan := true, rd := 0, sp := false, sn := false } else r
  | _ => r

/-- The tiles an abandoning save takes of a core as it stands before the abandonment (R57): the live-in mask of its current region, or the
previous RCMT's live-out mask. A core in handler mode has the region that its restart points lie in (log entry 34). -/
def Core.saveMask (k : Core) : Nat :=
  match k.preempt.bind Preempt.mask with
  | some m => m
  | none => if k.phase == .run || (k.phase == .trapped && k.restartsAtRgn) then bits k.liveIn.toNat 15 0 else bits k.liveOut.toNat 15 0

/-- A pre-emption request that has reached a core notes the live-in tiles of the region now abandoned under it (R57, R262). -/
def Core.noteMask (k : Core) (now : Nat) : Core :=
  { k with preempt := k.preempt.map fun p =>
      if k.phase == .run && decide (p.at_ ≤ now) && p.mask.isNone then { p with mask := some (bits k.liveIn.toNat 15 0) } else p }

/-- What a ring entry waits for, of those stalls of a core that have no number of their own: gone with the region they stall (R292). -/
def RingWait.closed (w : RingWait) (c : Nat) : RingWait :=
  match w with
  | .command n => if n = c then .nothing else w
  | .fetch n _ _ => if n = c then .nothing else w
  | .handlerEntry n => if n = c then .nothing else w
  | w => w

/-- The responses to the entries of a core's stalls that have ended with its region are ignored (R292). -/
def State.closeWaits (s : State) (c : Nat) : State :=
  { s with rings := s.rings.map fun (x : Ring) =>
      { x with waiting := x.waiting.map fun e => (e.1, e.2.closed c), open_ := x.open_.map fun e => (e.1, e.2.closed c) } }

/-- A region abandoned, or a gap restored: everything R54 says, in its order (R54, R55, R58). The core then stands at its
restart points, in ALIGN or GAP. -/
def State.abandon (s : State) (c : Nat) : State :=
  let k := s.core c
  let s := (k.held.filter fun h => h.released.isNone).foldl (fun s h => s.unreserve c h.kind) s
  let s := k.acts.foldl (fun s a => s.unreserveAct c a) s
  let gone := (k.copies.filter Copy.stops).map Copy.id
  let s := s.dropReqs fun r => r.stops c gone
  let s := { s with reqs := s.reqs.map fun (r : Req) => r.orphaned c }
  let s := (s.returnUnits c).closeWaits c
  s.modCore c fun k => (((k.noteMask s.now).keepBanks s.now).dropRegion).restartAll s.now

/-! ### Thermal marks (R305, R319) -/

/-- A task, and its casement's window, marked: a request of it waits in a thermal hold. -/
def State.markHot (s : State) (t : Nat) : State :=
  match s.task? t with
  | none => s
  | some x =>
    (s.modTask t fun y => { y with thermal := true }).modCasement x.casement fun c => { c with usage := { c.usage with thermal := true } }

/-! ### The dispatch unit's fault policy (R282) -/

/-- The stream of a task: (casement, session, class) for action and reasoning, the task itself for batch (R265). -/
def Task.streamKey (t : Task) : Nat × Nat × Nat :=
  (t.casement, if t.klass = 2 then 65536 + t.id else fieldLE t.record 6 2, t.klass)

/-- The level of a task's stream; 0 when nothing has lowered it. -/
def State.streamLevel (s : State) (t : Task) : Nat :=
  let (k, n, c) := t.streamKey
  ((s.streams.find? fun x => x.casement == k && x.session == n && x.klass == c).map Stream.level).getD 0

/-- A stream lowered by one level (R265), at most to 3. -/
def State.lowerStream (s : State) (t : Task) : State :=
  let (k, n, c) := t.streamKey
  let l := Min.min 3 (s.streamLevel t + 1)
  let rest := s.streams.filter fun x => !(x.casement == k && x.session == n && x.klass == c)
  { s with streams := rest ++ [{ casement := k, session := n, klass := c, level := l, since := none }] }

/-- FPOL of a task (R252). -/
def Task.fpol (t : Task) : Nat := bits (fieldLE t.record 2 1) 5 4

/-- The tiles of a mask, in increasing number. -/
def tilesOf (mask : Nat) : List Nat := (List.range 16).filter (bit mask)

/-- A number in a block. -/
def getLE (get : Nat → W8) (a n : Nat) : Nat := leNat ((span a n).map get)

/-- The live map of a block: its entries up to the one with LAST, none where no entry has it. -/
def blockMap (get : Nat → W8) : Nat → Nat → Option (List (Nat × Nat × Nat))
  | 0, _ => none
  | fuel + 1, a =>
    let e := getLE get a 8
    let x := (bits e 62 61, bits e 17 0, bits e 37 20)
    if bit e 63 then some [x] else (blockMap get fuel (a + 8)).map fun l => x :: l

/-- A mirror image, an area's contents in the layout of R263, with bytes that the A-space takes put into the live map's ranges of it (R244). -/
def patchImage (img : Cells) (off : Nat) (bs : List W8) : Cells :=
  let ranges := (blockMap img.get 32 0x100).getD []
  let start := 0x2000 + 4096 * (tilesOf (getLE img.get 2 2)).length + (if bit (getLE img.get 4 1) 0 then 32768 else 0)
  (ranges.foldl (fun (acc : Nat × Cells) e =>
    let inside := (addrBytes off bs).filter fun b => e.1 == 0 && decide (e.2.1 ≤ b.1) && decide (b.1 < e.2.1 + e.2.2)
    (acc.1 + e.2.2, acc.2.writeAll (inside.map fun b => (acc.1 + (b.1 - e.2.1), b.2)))) (start, img)).2

/-- Bytes of an EPI's output written. The images of the mirrors that have committed and wait for their EPIs take them too, as a save at their closing alignment would,
which waits for the EPIs (R57, R160, R244). -/
def Core.writeEpi (k : Core) (off : Nat) (bs : List W8) : Core :=
  let k := k.writeBuf true off bs
  { k with held := k.held.map fun h =>
      match h.kind with
      | .mirror a n img => if h.released.isSome then { h with kind := .mirror a n (patchImage img off bs) } else h
      | _ => h }

/-- A tracker entry of a task on a core, closed as though its fourth TAIL had issued; where all 16 are in use and none is the task's, it is taken when one frees
(R67, R282). -/
def Core.closeEntry (k : Core) (t : Nat) : Core :=
  if k.tracker.any fun e => e.task == t then
    { k with tracker := k.tracker.map fun e => if e.task == t then { e with closed := true } else e }
  else if 16 ≤ k.tracker.length then k
  else { k with tracker := k.tracker ++ [{ task := t, closed := true }] }

/-- A core stopped for a failed task: what it runs is abandoned, no sequencer issues again (R282). -/
def State.stopCore (s : State) (c t : Nat) : State :=
  if (s.core c).task != some t then s else
  let s := s.abandon c
  s.modCore c fun k =>
    { (k.closeEntry t) with
      phase := .idle, preempt := none, causeUnread := false
      seqs := k.seqs.map fun x => { x with st := .off } }

/-- A task failed: stopped at once on every core of its group; its completion follows when its entries have emptied (R282). -/
def State.failTask (s : State) (t code : Nat) : State :=
  match s.task? t with
  | none => s
  | some task =>
    if task.st == .ending then s else
    let s := task.cores.foldl (fun s c => s.stopCore c t) s
    s.modTask t fun x => { x with st := .ending, status := .failed, code := code, counting := false }

/-- The fault policy on a task's fault (R282): true when the task is retried. -/
def State.faultPolicy (s : State) (t code : Nat) (atOnce : Bool) : State × Bool :=
  match s.task? t with
  | none => (s, false)
  | some task =>
    if !atOnce && task.fpol != 2 && decide (0 < task.retries) then
      (s.modTask t fun x => { x with retries := x.retries - 1 }, true)
    else
      let s := if task.fpol = 1 then s.lowerStream task else s
      (s.failTask t code, false)

/-- The task fails with MACHINE_CHECK at once, and firmware is told (R282, R315, R316, R336). -/
def State.machineCheck (s : State) (c t pa : Nat) : State :=
  ((s.emitOut (.machineCheck c pa)).faultPolicy t cMachineCheck true).1

/-! ### Taking an exception (R272 to R278) -/

/-- The order in which one fault of a cycle is chosen (R274): the lower goes first. -/
def FaultRec.precedence (f : FaultRec) : Nat :=
  if f.code = cMachineCheck then 0
  else if f.code = cBudget then 1
  else if f.code = cScheduleMiss then 2
  else if f.code = cSoftError then 3
  else 4 + seqIdx f.by_

/-- The fault a core records of those raised in one cycle (R274). -/
def chooseFault (fs : List FaultRec) : Option FaultRec :=
  match leastBy FaultRec.precedence fs with
  | none => none
  | some f => leastBy FaultRec.issued (fs.filter fun g => g.precedence == f.precedence)

/-- The trap CSRs written for a fault (R273): `outside` for a gap or handler mode, `handler` for handler mode. -/
def Core.writeTrap (k : Core) (f : FaultRec) (outside handler : Bool) : Core :=
  { k with
    tcause := w64 (f.code + 256 * flag outside + 512 * flag handler)
    taddr := f.taddr
    tpc := w64 f.pc
    tseq := w64 (seqIdx f.by_)
    trgn := if handler then k.trgn else if outside then 0 else w64 k.rgnAddr }

/-- A double trap recorded on a core: TCAUSE2 takes the second fault's code, and firmware is told of the core (R277). -/
def State.noteDoubleTrap (s : State) (c code : Nat) : State :=
  (s.modCore c fun k => { k with tcause2 := w64 code }).emitOut (.doubleTrap c)

/-- A task failed by a double trap, whatever its fault policy; under FPOL 1 its stream is lowered (R277, R282). -/
def State.doubleTrapEnds (s : State) (t : Task) : State :=
  (if t.fpol = 1 then s.lowerStream t else s).failTask t.id cDoubleTrap

/-- The whole task failed by a double trap on a core (R277). -/
def State.doubleTrap (s : State) (c code : Nat) : State :=
  let s := s.noteDoubleTrap c code
  match s.taskOf c with
  | none => s
  | some t => s.doubleTrapEnds t

/-- A stage-2 cause of an action-class task's XLATE_S1, reported to the partition manager without a stall (R294). -/
def State.reportS2 (s : State) (c va kind : Nat) (f : XFault) : State :=
  match f with
  | .s1by2 ipa code => s.reportAccess 16 ipa va c kind code .nothing
  | _ => s

/-- The code of the fault a failed translation raises, where it does not stall. -/
def XFault.code : XFault → Nat
  | .s1 _ => cXlateS1
  | .s1by2 _ _ => cXlateS1
  | .perm => cPermission
  | .s2 _ _ => cXlateS2
  | .wait _ => 0
  | .check _ => cMachineCheck

/-- A task marked where what it waits for is a thermal hold (R319). -/
def State.markIfHot (s : State) (t : Nat) (hot : Bool) : State := if hot then s.markHot t else s

/-- A translation that must also be pinned, for the handler's entry (R276, R277). -/
def State.translatePinned (s : State) (c va : Nat) (acc : Access) : Except (State × XFault) (State × Nat × Nat) :=
  if untranslated va then .error (s, .perm) else
  match s.translate c va acc with
  | .error e => .error e
  | .ok (s, pa, key) =>
    match s.tlbHit c (s.casementOf c) va acc with
    | some e => if e.pin then .ok (s, pa, key) else .error (s, .s1 5)
    | none => .ok (s, pa, key)

/-- An entry into the handler that waits for a thermal hold or for power units: it is tried again each cycle (R318, R345). -/
def State.entryHolds (s : State) (c : Nat) (hot : Bool) : State :=
  (s.modCore c fun k => { k with entryHot := true }).markIfHot ((s.core c).task.getD noTask) hot

/-- A translation of step 4 of R276 that has failed: a stage-2 fault stalls the entry until the partition manager answers (R292); any other is a
double trap (R277). -/
def State.entryFault (s : State) (c va kind : Nat) (f : XFault) : State :=
  match f with
  | .s2 ipa code => s.reportAccess 16 ipa va c kind code (.handlerEntry c)
  | .wait hot => s.entryHolds c hot
  | f => (s.reportS2 c va kind f).doubleTrap c f.code

/-- Steps 4 and 5 of the delivery to the handler (R276): the page below TSP translated as for a store and pinned, the word at TVEC fetched, CT in
handler mode there. A page in the window of a core's buffers is not translated (R187, R450, log entry 61). -/
def State.handlerStart (s : State) (c : Nat) : State :=
  let s := s.modCore c fun k => { k with entryHot := false }
  let k := s.core c
  let tsp := (k.tsp - 8).toNat
  let stack : Except (State × XFault) State :=
    match locate c tsp 8 with
    | .own _ _ => .ok s
    | .remote _ _ _ => .ok s
    | _ => (s.translatePinned c tsp .store).map Prod.fst
  match stack with
  | .error (s, f) => s.entryFault c tsp 2 f
  | .ok s =>
    match (if untranslated k.tvec.toNat then .error (s, .perm) else s.translate c k.tvec.toNat .fetch) with
    | .error (s, f) => s.entryFault c k.tvec.toNat 0 f
    | .ok (s, pa, key) =>
      match s.touch (s.casementOf c) pa key 4 false with
      | .check s _ => s.doubleTrap c cMachineCheck
      | .wait hot => s.entryHolds c hot
      | .ok s =>
        let w : W32 := BitVec.ofNat 32 (leNat (s.readMem (some (dieOf c)) key pa 4))
        s.modCore c fun k => k.modSeq .ct fun x =>
          { x with
            st := .run, pc := k.tvec.toNat, base := s.now + 1, retry := none, reentered := false
            regs := (k.snaps.getD 3 SeqSnap.idle).regs
            fetched := [{ addr := k.tvec.toNat, word := w, fault := 0, xcode := 0 }], fetching := [] }

/-- Steps 3 to 5 of the delivery to the handler (R276), after the abandonment and the trap CSRs: LD, CM and ST held, then the entry. -/
def State.enterHandler (s : State) (c : Nat) : State :=
  (s.modCore c fun k =>
    { k with
      phase := .trapped, causeUnread := true
      seqs := k.seqs.map fun x => { x with st := .trapHeld } }).handlerStart c

/-- Whether a core waits at its entry into the handler (R292). -/
def Core.entryWaits (k : Core) : Bool := k.phase == .trapped && k.causeUnread && (k.seq .ct).st == .trapHeld

/-- A core begins a save (R60, R206, R262, R263): its pushes have drained, its sequencers stand still. -/
def State.beginSave (s : State) (c kind tiles : Nat) (park : Bool) : State :=
  let (due, s) := s.drawDue
  s.modCore c fun k =>
    { k with
      phase := .saving, saveKind := kind, savePark := park, saveTiles := tiles, saveDue := due, preempt := none, pushes := []
      causeUnread := false, seqs := k.seqs.map fun y => { y with st := .off } }

/-- XLATE_S1 with no handler, on a reasoning-class or batch-class task: an abandoning save of its cores that parks it (R293). The faulting core
has been abandoned; `tiles` are those its save takes. -/
def State.park (s : State) (c tiles : Nat) (f : FaultRec) : State :=
  match s.taskOf c with
  | none => s
  | some t =>
    let s := t.cores.foldl (fun s x =>
      if (s.core x).task == some t.id && (s.core x).phase != .saving then
        let m := if x = c then tiles else (s.core x).saveMask
        (if x = c then s else s.abandon x).beginSave x 1 m true
      else s) s
    s.modTask t.id fun x => { x with park := some (f.taddr.toNat, c, f.xkind, f.xcode), st := .saved }

/-- A soft error counted: in the core's count and in its casement's usage record (R280). -/
def State.countSoft (s : State) (c : Nat) : State :=
  (s.modCore c fun k => { k with softCount := k.softCount + 1 }).modCasement (s.casementOf c) fun x =>
    { x with usage := { x.usage with softerr := x.usage.softerr + 1 } }

/-- The repair of a parity error by re-execution (R280): no handler, no trap CSRs; the third in a row of one region goes to the fault policy,
and firmware is told of the core (R281); an error of a gap is none of a region's. The count goes on until a commit, so a later one in the same row goes to the policy too (DESIGN CHOICE,
log entry 80). -/
def State.repair (s : State) (c : Nat) (t : Task) : State :=
  let n := (s.core c).softRun + flag ((s.core c).phase == .run)
  let inRow := (s.core c).phase == .run && decide (3 ≤ n)
  let s := ((s.abandon c).modCore c fun k => { k with softRun := n }).countSoft c
  if !inRow then s else ((s.emitOut (.softCore c)).faultPolicy t.id cSoftError false).1

/-- The delivery of one fault of a core (R272 to R278, R282, R293): abandonment, the trap CSRs, then the handler, the fault
policy, the parking save, or the end of the task. -/
def State.deliver (s : State) (c : Nat) (f : FaultRec) : State :=
  let k := s.core c
  match s.taskOf c with
  | none => s.modCore c fun k => { k with faults := [] }
  | some t =>
    if k.phase == .trapped then
      if k.causeUnread then s.doubleTrap c f.code
      else
        -- R278: the handler is not entered again; the task goes to the fault policy
        let s := s.modCore c fun k => { (if f.code = cSoftError then k else k.writeTrap { f with by_ := .ct } true true) with faults := [] }
        let s := s.abandon c
        if f.code = cMachineCheck then s.machineCheck c t.id f.taddr.toNat else (s.faultPolicy t.id f.code false).1
    else if f.code = cSoftError && f.xkind = 1 then s.repair c t
    else
      let outside := k.phase != .run
      let s := s.modCore c fun k => if f.code = cSoftError then k else k.writeTrap f outside false
      let s := s.abandon c
      if f.code = cMachineCheck then s.machineCheck c t.id f.taddr.toNat
      else if f.code = cBudget || f.code = cScheduleMiss || f.code = cSoftError then (s.faultPolicy t.id f.code false).1
      else if k.tvec != 0 then s.enterHandler c
      else if f.code = cXlateS1 && t.klass != 0 then s.park c k.saveMask f
      else (s.faultPolicy t.id f.code false).1

/-- The faults a core has recorded in this cycle, settled: one of them is delivered, the others are dropped (R274). -/
def State.settle (s : State) (c : Nat) : State :=
  match chooseFault (s.core c).faults with
  | none => s
  | some f => (s.modCore c fun k => { k with faults := [] }).deliver c f

/-- A fault settled at once, with the others recorded on the core in this cycle (R274). -/
def State.settleNow (s : State) (c : Nat) (f : FaultRec) : State :=
  (s.modCore c fun k => { k with faults := k.faults ++ [f] }).settle c

/-- Whether nothing of a core itself that could raise another fault on it is due in this cycle: no act, no other word, no engine at work, no copy, no held effect
still to be translated, no budget ending. -/
def Core.quiet (k : Core) (now : Nat) : Bool :=
  k.acts.all (fun a => decide (now < a.due)) &&
  k.mma.isEmpty && k.lookup.isEmpty && k.sacc.isEmpty && k.overflowed.isEmpty && k.copies.isEmpty && k.held.all (fun h => h.released.isSome) &&
  k.seqs.all (fun x => x.st != .run || decide (now < x.retry.getD x.base)) &&
  !(k.phase == .run && k.budget != 0 && decide (k.cycle0 + k.budget ≤ now))

/-- Whether nothing else that could raise a fault on a core is due in this cycle: nothing of the core, no access it has sent, no task budget ending (R274). -/
def State.quiet (s : State) (c : Nat) : Bool :=
  (s.core c).quiet s.now && s.reqs.all (fun r => r.core != c) && (match s.taskOf c with
    | some t => t.budget != 0
    | none => true)

/-- A fault raised on a core: recorded, and settled with the others of its cycle (R274); at once where nothing else of the core is
due in the cycle, else at the cycle's end. -/
def State.raise (s : State) (c : Nat) (f : FaultRec) : State :=
  let s := s.modCore c fun k =>
    { (k.modSeq f.by_ fun x => { x with retry := some (s.now + 1) }) with faults := k.faults ++ [f] }
  if s.quiet c then s.settle c else s

/-! ### Returning from an exception (R279, R375) -/

/-- What CT still has in flight when handler mode ends, and what of it no longer counts: its token signals always (R375), and with its
registers put back its landings too. -/
def Act.diesAtEret (a : Act) (regs : Bool) : Bool :=
  match a.pay with
  | .signal q _ _ => q == .ct
  | .reg q _ _ _ => regs && q == .ct
  | .loadBank q _ _ _ _ _ _ _ _ => regs && q == .ct
  | .acquired q => q == .ct
  | .loaded q => regs && q == .ct
  | _ => false

/-- ERET without an operand: CT's registers from its snapshot, handler mode left, every sequencer released at its restart point:
ALIGN at the RGNs, or GAP at the gap starts; the token counters from the snapshot (R279, R375). -/
def State.returnToRestart (s : State) (c : Nat) : State :=
  let s := s.dropReqs fun r => r.stops c []
  s.modCore c fun k =>
    { (k.restartAll s.now) with
      causeUnread := false, tokens := k.snap.tokens, acts := k.acts.filter fun a => !a.diesAtEret true }

/-- ERET to a chosen address: CT goes on there in a gap with its registers as the handler left them, its gap start there; LD, CM and ST
are released at their restart points; the token counters from the snapshot (R279, R375). -/
def State.returnTo (s : State) (c pc : Nat) : State :=
  s.modCore c fun k =>
    let ct := k.seq .ct
    let others := (k.snaps.take 3).any SeqSnap.atRgn
    let k := { (k.restartAll s.now) with
      causeUnread := false, tokens := k.snap.tokens, acts := k.acts.filter fun a => !a.diesAtEret false }
    let k := k.setSeq .ct
      { ct with st := .run, pc := pc, base := s.now + 1, retry := none, reentered := false, gapStart := pc }
    { (k.snapOne .ct) with phase := if others then .align else .gap }

end Sys2Proof.Machine
end

