-- ==== Sys2Proof/Machine/Operands.lean ====
section
/-! DEFINITION. A word at its issue: the checks of R95 in their order, its waits, its effect, its signals, and what becomes of it
when it cannot be accepted (R35, R36, R39, R95, R97); and the forms of operands: designators (R78), addresses and the two
apertures (R87, R187, R188), parameter sets (R113), shape records (R120). -/

namespace Sys2Proof.Machine

/-! ### Issue -/

/-- Where a word stands: its core and sequencer, with their state. -/
structure Ctx where
  c : Nat
  q : SeqId
  k : Core
  x : Seq

/-- The region mode a word stands in. -/
inductive Place where
  | gap | timed | tokened | handler
  deriving DecidableEq, Repr

/-- Where a sequencer's next word would issue: a region, a gap, or handler mode (R58, R276). -/
def Core.place (k : Core) (q : SeqId) : Place :=
  match k.phase with
  | .run => if k.timed then .timed else .tokened
  | .trapped => if q = .ct then .handler else .gap
  | _ => .gap

/-- A register of the issuing sequencer, read at issue (R40). -/
def Ctx.reg (x : Ctx) (r : BitVec 5) : W64 := x.x.reg r.toNat

/-- What a word does at its issue. -/
inductive Iss where
  /-- It issues. `lat` is the latency its signals take effect after, none when what lands gives them itself; `next` the next
  word's address; `extra` cycles added before the next word (R39). -/
  | ok (s : State) (lat : Option Nat) (next : Nat) (extra : Nat)
  /-- It cannot be accepted in this cycle: SCHEDULE_MISS in a timed region, a stall elsewhere (R39). -/
  | hold (s : State)
  /-- It faults; an XLATE_S1 says what a report of it would carry (R293). -/
  | trap (code : Nat) (taddr : W64) (kind : Nat := 0) (xcode : Nat := 0)

/-- Who may execute a word, and where (R39, R58, R97, R276, R392). -/
structure Gate where
  seqs : List SeqId := allSeqs
  gap : Bool := true
  region : Bool := true
  timed : Bool := true
  handler : Bool := true
  /-- Step 1 of R95 beyond what the decoder refuses, and step 3. -/
  illegalOp : Bool := false
  operandBad : Bool := false
  /-- Step 4 beyond the place: R46. -/
  ruleBad : Bool := false
  /-- The scalar registers the word reads or writes: a variable-latency result still due stalls it (R201, R367). -/
  uses : List (BitVec 5) := []

/-- The gate of a word that only a region may hold (R58). -/
def Gate.regionOnly (seqs : List SeqId) : Gate := { seqs := seqs, gap := false, handler := false }

/-- Whether a gate admits a place. -/
def Gate.admits (g : Gate) : Place → Bool
  | .gap => g.gap
  | .tokened => g.region
  | .timed => g.region && g.timed
  | .handler => g.handler

/-- A fault of a word (R273). -/
def Ctx.fault (x : Ctx) (s : State) (code : Nat) (taddr : W64) : FaultRec :=
  { code := code, by_ := x.q, issued := s.now, pc := x.x.pc, taddr := taddr, xkind := 0, xcode := 0 }

/-- The state after a word that cannot be accepted (R39): SCHEDULE_MISS in a timed region, else it tries again in the next
cycle. -/
def Ctx.held (x : Ctx) (s : State) : State :=
  if x.k.place x.q == .timed then
    s.raise x.c (x.fault s cScheduleMiss (w64 (x.k.regionCycle s.now)))
  else s.modCore x.c fun k => k.modSeq x.q fun y => { y with retry := some (s.now + 1) }

/-- The state after a word has issued: its waits taken (R35), its place in the program moved on (R39), its signals due
(R36). -/
def Ctx.issued (x : Ctx) (h : Hdr) (s : State) (lat : Option Nat) (next extra : Nat) : State :=
  let now := s.now
  let s := s.modCore x.c fun k =>
    let k := k.takeWaits x.q h.wp h.wn
    k.modSeq x.q fun y =>
      { y with pc := next, base := now + 1 + extra, retry := none, jump := if next = y.pc + 4 || isPair y.curWord then y.jump else some (y.pc, next) }
  match lat with
  | some l => if h.sp || h.sn then s.addAct x.c (now + l) now x.q x.x.pc (.signal x.q h.sp h.sn) else s
  | none => s

/-- The current word's context, if a sequencer stands at its issue. -/
def State.ctx (s : State) : Option Ctx :=
  match s.cur with
  | none => none
  | some (c, q) =>
    let k := s.core c
    let x := k.seq q
    if x.st == .run && k.task.isSome && (k.phase == .gap || k.phase == .align || k.phase == .run ||
        (k.phase == .trapped && q == .ct))
    then some { c := c, q := q, k := k, x := x } else none

/-- The state with a word's SYNC waits taken (R35, R95). -/
def Ctx.taken (x : Ctx) (s : State) (h : Hdr) : State := s.modCore x.c fun k => k.takeWaits x.q h.wp h.wn

/-- A word at its issue (R95); its gate may depend on the operands it reads. A fault of its own comes once its waits are taken. -/
def issueAt (h : Hdr) (gate : Ctx → Gate) (body : Ctx → State → Iss) (s : State) : Host.Outcome State Fault Refusal :=
  match s.ctx with
  | none => .refused .noSequencer
  | some x =>
    let g := gate x
    let word := x.x.curWord.setWidth 64
    if g.illegalOp || !g.seqs.contains x.q then .next (s.raise x.c (x.fault s cIllegalOp word))
    else if g.operandBad then .next (s.raise x.c (x.fault s cIllegalOperand word))
    else if g.ruleBad || !g.admits (x.k.place x.q) then .next (s.raise x.c (x.fault s cRegionRule 0))
    else if g.uses.any (fun r => x.x.pend.contains r.toNat) || !x.k.waitsMet x.q h.wp h.wn then .next (x.held s)
    else
      match body x s with
      | .ok s' lat next extra => .next (x.issued h s' lat next extra)
      | .hold s' => .next (x.held s')
      | .trap code ta kind xcode =>
        .next ((x.taken s h).raise x.c { (x.fault s code ta) with xkind := kind, xcode := xcode })

/-- A word at its issue, with a gate that depends on nothing (R95). -/
def issue (h : Hdr) (g : Gate) (body : Ctx → State → Iss) (s : State) : Host.Outcome State Fault Refusal :=
  issueAt h (fun _ => g) body s

/-- A fault of an act of a word in flight (R273). -/
def Act.fault (a : Act) (code : Nat) (taddr : W64) : FaultRec :=
  { code := code, by_ := a.by_, issued := a.issued, pc := a.pc, taddr := taddr, xkind := 0, xcode := 0 }

/-- The address of the word after a one-word instruction. -/
def Ctx.next (x : Ctx) : Nat := x.x.pc + 4

/-- A word that issues with an effect and a latency, and goes on with the next word. -/
def Ctx.go (x : Ctx) (s : State) (lat : Nat) : Iss := .ok s (some lat) x.next 0

/-- A value that lands in a scalar register after a latency; discarded for s0 (R77, R122). -/
def Ctx.land (x : Ctx) (s : State) (r : BitVec 5) (v : W64) (lat : Nat) : State :=
  if r = 0 then s else s.addAct x.c (s.now + lat) s.now x.q x.x.pc (.reg x.q r.toNat v false)

/-! ### Branch targets (R76) -/

/-- The target of a branch at `a` with offset `k` in words, as a 64-bit address (R76). -/
def branchTarget {w : Nat} (a : Nat) (k : BitVec w) : Nat :=
  (BitVec.ofInt 64 ((a : Int) + 4 * k.toInt)).toNat

/-- A jump to the word behind it noted as any other is at its issue: that word is then the target of a taken jump (R357, R382). -/
def Ctx.goes (x : Ctx) (s : State) (tgt : Nat) : State :=
  if tgt = x.next then s.modCore x.c fun k => k.modSeq x.q fun y => { y with jump := some (y.pc, tgt) } else s

/-- A word that issues and jumps: taken, to its target, with the state that it leaves otherwise (R39, R356). -/
def Ctx.jump (x : Ctx) (s : State) (taken : Bool) (tgt : Nat) : Iss :=
  if taken then .ok (x.goes s tgt) (some 1) tgt 0 else .ok s (some 1) x.next 0

/-! ### Groups -/

/-- Whether a core is a member of the task that holds another. -/
def State.sameGroup (s : State) (c other : Nat) : Bool :=
  match s.taskOf c with
  | some t => t.cores.contains other
  | none => false

/-! ### Designators (R78, R90) -/

/-- Whether a designator names a read port, and which. -/
def readPort? (v : Nat) : Option Nat := if 16 ≤ v && v ≤ 19 then some (v - 16) else none

/-- Whether a designator names a write port, and which. -/
def writePort? (v : Nat) : Option Nat := if 20 ≤ v && v ≤ 23 then some (v - 16) else none

/-- The live-in mask names a tile that the word writes, in a region (R46). -/
def Core.liveInTile (k : Core) (d : Nat) : Bool := k.phase == .run && d < 16 && k.liveIn.getLsbD d

/-! ### Parameter sets (R113 to R115) -/

/-- FMT of a parameter set. -/
def pFmt (p : BitVec 512) : Nat := bits (recordField p 0 1) 3 0
/-- PACK. -/
def pPack (p : BitVec 512) : Bool := bit (recordField p 0 1) 7
/-- SAT. -/
def pSat (p : BitVec 512) : Bool := bit (recordField p 0 1) 6
/-- RND. -/
def pRnd (p : BitVec 512) : Rnd := Rnd.ofCode (BitVec.ofNat 2 (bits (recordField p 0 1) 5 4))
/-- SPACE: true for the A-space. -/
def pIsA (p : BitVec 512) : Bool := !bit (recordField p 1 1) 0
/-- NLEV. -/
def pLevels (p : BitVec 512) : Nat := recordField p 2 1
/-- BASE. -/
def pBase (p : BitVec 512) : Nat := recordField p 4 4
/-- COUNTi. -/
def pCount (p : BitVec 512) (i : Nat) : Nat := recordField p (8 + 2 * i) 2
/-- STRIDEi, signed. -/
def pStride (p : BitVec 512) (i : Nat) : Int := toSigned 32 (recordField p (16 + 4 * i) 4)

/-- The bits of a parameter set that fields have (R113); the rest are reserved, and a set is kept without them (R1). -/
def pDefined : BitVec 512 := BitVec.ofNat 512 (0xFF01FF + (2 ^ 224 - 1) * 2 ^ 32)

/-- Elements of a row: 64, or 128 or 256 with PACK (R115). -/
def pElems (p : BitVec 512) : Nat := if pPack p then 64 * (32 / fmtWidth (pFmt p)) else 64

/-- Bytes of a row (R115). -/
def pRowBytes (p : BitVec 512) : Nat := pElems p * fmtWidth (pFmt p) / 8

/-- The offset of the row the generator serves next (R115). -/
def Port.rowOffset (g : Port) (p : BitVec 512) : Int :=
  (List.range (pLevels p)).foldl (fun a i => a + g.idx.getD i 0 * pStride p i) (pBase p)

/-- The indices after a row (R115). -/
def advanceIdx (counts idx : List Nat) : List Nat :=
  match counts, idx with
  | c :: cs, i :: is => if i + 1 < c then (i + 1) :: is else 0 :: advanceIdx cs is
  | _, is => is

/-- A port after a row (R115). -/
def Port.advance (g : Port) (p : BitVec 512) : Port :=
  let n := pLevels p
  { g with idx := advanceIdx ((List.range n).map (pCount p)) (g.idx.take n) ++ g.idx.drop n }

/-- The lowest and highest offsets of row starts that a walk reaches (R114). -/
def pReach (p : BitVec 512) : Int × Int :=
  (List.range (pLevels p)).foldl (fun (lo, hi) i =>
    let d : Int := (pCount p i - 1 : Nat) * pStride p i
    if d < 0 then (lo + d, hi) else (lo, hi + d)) ((pBase p : Int), (pBase p : Int))

/-- The first fault of a parameter set, as PCFG's read finds it (R114). -/
def pFault (port : Nat) (p : BitVec 512) : Option Nat :=
  let used := List.range (pLevels p)
  let fmt := pFmt p
  if 12 ≤ fmt || pLevels p = 0 || 4 < pLevels p || used.any (fun i => pCount p i == 0) ||
      (pPack p && !(fmt == 7 || fmt == 8 || fmt == 9)) then some cIllegalOperand
  else if pBase p % 8 != 0 || used.any (fun i => pStride p i % 8 != 0) then some cAlign
  else if !pIsA p && 4 ≤ port then some cSpaceAccess
  else
    let (lo, hi) := pReach p
    if lo < 0 || (bufSize (pIsA p) : Int) < hi + pRowBytes p then some cSpaceAccess else none

/-! ### Shape records (R120, R121) -/

/-- FMT of a shape record. -/
def hFmt (r : BitVec 512) : Nat := bits (recordField r 0 1) 3 0
/-- SPACE. -/
def hSpace (r : BitVec 512) : Nat := bits (recordField r 1 1) 1 0
/-- SCL. -/
def hScl (r : BitVec 512) : Bool := bit (recordField r 2 1) 0
/-- ROWS. -/
def hRows (r : BitVec 512) : Nat := recordField r 4 2
/-- COLS. -/
def hCols (r : BitVec 512) : Nat := recordField r 6 2
/-- BASE. -/
def hBase (r : BitVec 512) : Nat := recordField r 8 4
/-- RSTRIDE. -/
def hStride (r : BitVec 512) : Nat := recordField r 12 4
/-- SBASE. -/
def hSbase (r : BitVec 512) : Nat := recordField r 16 4
/-- KB. -/
def hKb (r : BitVec 512) : Nat := recordField r 20 1
/-- NB. -/
def hNb (r : BitVec 512) : Nat := recordField r 21 1
/-- SSTRIDE. -/
def hSstride (r : BitVec 512) : Nat := recordField r 22 2
/-- KOFF. -/
def hKoff (r : BitVec 512) : Nat := recordField r 24 2

/-- The bits of a shape record that fields have (R120); the rest are reserved, and a record is kept without them (R1). -/
def hDefined : BitVec 512 := BitVec.ofNat 512 (0x01030F + (2 ^ 176 - 1) * 2 ^ 32)

/-- The bytes of a space: A, W, or the C space of one bank (R120, R186). -/
def spaceSize (space : Nat) : Nat := if space = 0 then 0x18000 else if space = 1 then 0x30000 else 0x8000

/-- Bytes from the first byte of a shape's elements to the end of its last (R120). -/
def hEnd (r : BitVec 512) : Nat := hBase r + (hRows r - 1) * hStride r + hCols r * fmtWidth (hFmt r) / 8

/-- The end of a shape's scale plane (R120). -/
def hScaleEnd (r : BitVec 512) : Nat :=
  hSbase r + (hRows r / hKb r - 1) * hSstride r + hCols r / hNb r

/-- Whether a shape record is refused by SHLD (R121). -/
def hMismatch (r : BitVec 512) : Bool :=
  let w := fmtWidth (hFmt r)
  let align := if hSpace r = 2 then 4 else 8
  hSpace r == 3 || hRows r == 0 || hCols r == 0 || hCols r * w % 8 != 0 ||
  hBase r % align != 0 || hStride r % align != 0 || decide (hStride r < hCols r * w / 8) ||
  decide (spaceSize (hSpace r) < hEnd r) ||
  (hSpace r == 2 && (hFmt r != 0 || decide (8192 < hRows r * hCols r))) ||
  (hScl r && (hKb r * hNb r != 32 || hRows r % hKb r != 0 || hCols r % hNb r != 0 ||
    decide (spaceSize (hSpace r) < hScaleEnd r)))

/-- The bit stream of some bytes: element `j` of width `w` (R131). -/
def element (bs : List W8) (w j : Nat) : Nat :=
  let b := j * w / 8
  let v := leNat ((bs.drop b).take ((j * w % 8 + w + 7) / 8))
  v / 2 ^ (j * w % 8) % 2 ^ w

end Sys2Proof.Machine
end

