-- ==== Sys2Proof/Machine/Access.lean ====
section
/-! DEFINITION. Scalar access to memory: LD (R383 to R385), ST (R417 to R419) and AMOC (R350 to R352), and the entry of an effect
into the region store buffer (R48). -/

namespace Sys2Proof.Machine

/-! ### Address classes (R384, R418) -/

/-- The class of an address, by its range alone. -/
inductive AddrClass where
  | translated | capability | remote | local_
  deriving DecidableEq, Repr

/-- The class of a virtual address (R384). -/
def addrClass (va : Nat) : AddrClass :=
  if va < 0xFD0000000000 || 2 ^ 48 ≤ va then .translated
  else if va < 0xFE0000000000 then .capability
  else if va < 0xFF0000000000 then .remote
  else .local_

/-- The address of an access: base and element count (R87). -/
def Ctx.elemAddr (x : Ctx) (a : BitVec 5) (n : BitVec 6) (size : Nat) : Nat :=
  (x.reg a + BitVec.ofNat 64 (n.toNat * size)).toNat

/-- Whether a register's next value is still to land from a load or AMOC (R367). -/
def Ctx.awaits (x : Ctx) (r : BitVec 5) : Bool := x.x.pend.contains r.toNat

/-- What a word's sequencer has acquired through tokens, the word's own waits among them (R37). -/
def Ctx.acquired (x : Ctx) (h : Hdr) : List Nat := ((x.k.takeWaits x.q h.wp h.wn).seq x.q).after

/-! ### Requests -/

/-- What an access needs of the page (R286, R350). -/
def ReqKind.access : ReqKind → Access
  | .load _ _ => .load
  | .store _ => .store
  | .amoc _ _ _ _ => .store
  | .copyRead _ _ _ => .load
  | .copyWrite _ _ _ => .store
  | .fillRead _ _ _ => .load
  | .evict => .store

/-- KIND of a fault entry for a request (R291). -/
def ReqKind.code : ReqKind → Nat
  | .load _ _ => 1
  | .store _ => 2
  | .amoc _ _ _ _ => 6
  | .copyRead _ _ _ => 3
  | .copyWrite _ _ _ => 3
  | .fillRead _ _ _ => 1
  | .evict => 2

/-- Whether a request is a word's own access, ordinary in the sense of R204, and not an engine's. -/
def ReqKind.scalar : ReqKind → Bool
  | .load _ _ => true
  | .store _ => true
  | .amoc _ _ _ _ => true
  | _ => false

/-- Whether a value of the request lands in a register: of a load or an AMOC (R201, R367). -/
def ReqKind.lands : ReqKind → Bool
  | .load _ _ => true
  | .amoc _ _ _ _ => true
  | _ => false

/-- Whether a request has been performed (R208). -/
def ReqState.performed : ReqState → Bool
  | .served _ _ => true
  | _ => false

/-- The cycle in which the translation of an access is made: this one on a kept translation; else at no fixed cycle, behind the two crossings to the walkers'
backing store (R288, R457). -/
def State.walkDue (s : State) (c va : Nat) (acc : Access) : Nat × State :=
  if (s.tlbHit c (s.casementOf c) va acc).isSome then (s.now, s) else let (d, s) := s.drawDue; (d + 2 * hingeCross, s)

/-- Whether the channel of an address has room for one more request: it queues at most 4,096 (R318). -/
def State.channelRoom (s : State) (pa : Nat) : Bool :=
  regionOf (s.forward pa) != .hbm || decide ((s.channel (channelOf (s.forward pa))).queue.length < 4096)

/-- A request as it now stands, in its own place among the requests, which stand in the order in which they were sent (R207). -/
def State.putReq (s : State) (r : Req) : State :=
  if s.reqs.any fun x => x.id == r.id then { s with reqs := s.reqs.map fun x => if x.id == r.id then r else x }
  else { s with reqs := s.reqs ++ [r] }

/-- A request with its address translated put where it is served: at its channel of HBM4E, in arrival order, else on its way to its target at no fixed
cycle. A task whose request waits in a thermal hold is marked; a hit of the die buffer does not wait (R313, R318, R319). -/
def State.enqueue (s : State) (r : Req) (pa key : Nat) : State :=
  if regionOf (s.forward pa) == .hbm then
    let ch := channelOf (s.forward pa)
    let hot := s.waitsHot pa && !s.inBuffer pa key
    let s := s.putReq { r with st := .queued pa key (some ch), arrived := s.now, heldHot := hot }
    (s.markIfHot r.task hot).modChannel ch fun x => { x with queue := x.queue ++ [r.id] }
  else
    let (due, s) := s.drawDue
    s.putReq { r with st := .queued pa key none, arrived := due }

/-- A request of an engine's or of the store buffer's, at an address already translated. -/
def State.engineReq (s : State) (c task pc va issued : Nat) (q : SeqId) (kind : ReqKind) (pa key : Nat) (release drained : Bool) : State :=
  let (id, s) := s.newId
  s.enqueue
    { id := id, core := c, by_ := q, task := task, pc := pc, va := va, kind := kind, rd := 0, sp := false, sn := false, release := release
      issued := issued, arrived := s.now, st := .walking, remote := none, heldHot := false, orphan := false, drained := drained, after := [] } pa key

/-- A variable-latency access sent: its destination awaits the landing (R367). A capability read carries key 17, and its crossing to the hinge die takes 24
cycles of its latency (R457). -/
def Ctx.send (x : Ctx) (s : State) (h : Hdr) (va : Nat) (kind : ReqKind) (rd : Nat) (acquire release : Bool) : State :=
  let (id, s) := s.newId
  let place := locate x.c va 1
  let (due, s) :=
    match place with
    | .memory => s.walkDue x.c va kind.access
    | .capability _ => let (d, s) := s.drawDue; (d + hingeCross, s)
    | _ => s.drawDue
  let st : ReqState :=
    match place with
    | .memory => .walking
    | .capability _ => .queued va 17 none
    | _ => .queued va 0 none
  let remote :=
    match place with
    | .remote core isA off => some (core, isA, off)
    | _ => none
  let r : Req :=
    { id := id, core := x.c, by_ := x.q, task := x.k.task.getD 0, pc := x.x.pc, va := va, kind := kind, rd := rd
      sp := h.sp, sn := h.sn, release := release, issued := s.now, arrived := due, st := st
      remote := remote, heldHot := false, orphan := false, drained := false, after := x.acquired h }
  let s := { s with reqs := s.reqs ++ [r] }
  s.modCore x.c fun k => k.modSeq x.q fun y =>
    { y with pend := if rd = 0 then y.pend else y.pend ++ [rd], st := if acquire then .atAcquire id else y.st }

/-! ### LD (R383 to R385) -/

/-- A load of any kind. -/
def loadWord (h : Hdr) (d a : BitVec 5) (n : BitVec 6) (size : Nat) (sext aq : Bool) (s : State) :
    Host.Outcome State Fault Refusal :=
  issueAt h (fun x =>
    { uses := [d, a]
      ruleBad := !x.awaits a && addrClass (x.elemAddr a n size) != .local_ &&
        (x.k.place x.q == .timed || x.k.place x.q == .gap) })
    (fun x s =>
      let va := x.elemAddr a n size
      if va % size != 0 then .trap cAlign (w64 va)
      else if 2 ^ 48 ≤ va then .trap cXlateS1 (w64 va) 1 1
      else
        match locate x.c va size with
        | .reserved => .trap cPermission (w64 va)
        | .unmapped => .trap cSpaceAccess (w64 va)
        | .own isA off =>
          let s := s.addAct x.c (s.now + 1) s.now x.q x.x.pc (.loadBank x.q d.toNat isA off size sext
            (aq && x.k.place x.q != .timed) h.sp h.sn)
          let s := if aq && x.k.place x.q != .timed then
              s.modCore x.c fun k => k.modSeq x.q fun y => { y with st := .atAcquire s.nextId }
            else s
          .ok s none x.next 0
        | .remote core _ _ =>
          if !s.sameGroup x.c core then .trap cPermission (w64 va)
          else .ok (x.send s h va (.load size sext) d.toNat aq false) none x.next 0
        | _ => .ok (x.send s h va (.load size sext) d.toNat aq false) none x.next 0) s

/-- LD.B -/
def execLdB (h : Hdr) (d a : BitVec 5) (n : BitVec 6) (s : State) : Host.Outcome State Fault Refusal :=
  loadWord h d a n 1 true false s

/-- LD.BU -/
def execLdBu (h : Hdr) (d a : BitVec 5) (n : BitVec 6) (s : State) : Host.Outcome State Fault Refusal :=
  loadWord h d a n 1 false false s

/-- LD.H -/
def execLdH (h : Hdr) (d a : BitVec 5) (n : BitVec 6) (s : State) : Host.Outcome State Fault Refusal :=
  loadWord h d a n 2 true false s

/-- LD.HU -/
def execLdHu (h : Hdr) (d a : BitVec 5) (n : BitVec 6) (s : State) : Host.Outcome State Fault Refusal :=
  loadWord h d a n 2 false false s

/-- LD.W -/
def execLdW (h : Hdr) (d a : BitVec 5) (n : BitVec 6) (s : State) : Host.Outcome State Fault Refusal :=
  loadWord h d a n 4 true false s

/-- LD.WU -/
def execLdWu (h : Hdr) (d a : BitVec 5) (n : BitVec 6) (s : State) : Host.Outcome State Fault Refusal :=
  loadWord h d a n 4 false false s

/-- LD.D -/
def execLdD (h : Hdr) (d a : BitVec 5) (n : BitVec 6) (s : State) : Host.Outcome State Fault Refusal :=
  loadWord h d a n 8 false false s

/-- LD.D.AQ: an acquire at SYSTEM scope (R213). -/
def execLdDAq (h : Hdr) (d a : BitVec 5) (n : BitVec 6) (s : State) : Host.Outcome State Fault Refusal :=
  loadWord h d a n 8 false true s

/-! ### Entry into the region store buffer (R48) -/

/-- The entry a store may merge into: the sequencer's preceding held store, of the same line (R48). -/
def Core.mergeTarget (k : Core) (q : SeqId) (kind : HeldKind) : Option Held :=
  match (k.seq q).lastHeld with
  | none => none
  | some id =>
    match k.held.find? fun (h : Held) => h.id == id && h.released.isNone with
    | none => none
    | some h =>
      match kind, h.kind with
      | .store va _ _ false, .store va' _ _ false => if va / 64 = va' / 64 then some h else none
      | .remote c isA off _ false, .remote c' isA' off' _ false =>
        if c = c' && isA == isA' && off / 64 = off' / 64 then some h else none
      | _, _ => none

/-- The later store's bytes over the earlier entry's (R48). -/
def HeldKind.merge (old new_ : HeldKind) : HeldKind :=
  match old, new_ with
  | .store va bs xl rl, .store _ bs' _ _ => .store va (bs'.foldl (fun m b => keySet m b.1 b.2) bs) xl rl
  | .remote c isA off bs rl, .remote _ _ _ bs' _ => .remote c isA off (bs'.foldl (fun m b => keySet m b.1 b.2) bs) rl
  | old, _ => old

/-- Whether a held effect is a scalar store. -/
def HeldKind.isStore : HeldKind → Bool
  | .store _ _ _ _ => true
  | .remote _ _ _ _ _ => true
  | _ => false

/-- Whether a held effect is a store through the remote aperture: it uses free bank cycles of the other core (R124, R188). -/
def HeldKind.isRemote : HeldKind → Bool
  | .remote _ _ _ _ _ => true
  | _ => false

/-- Whether a held effect is a release store. -/
def HeldKind.isRelease : HeldKind → Bool
  | .store _ _ _ rl => rl
  | .remote _ _ _ _ rl => rl
  | _ => false

/-- The translation of one end of a copy begun (R192). -/
def State.startEnd (s : State) (c : Nat) (e : CopyEnd) (acc : Access) : CopyEnd × State :=
  match e with
  | .mem va _ => let (due, s) := s.walkDue c va acc; (.mem va (.pending due), s)
  | e => (e, s)

/-- The translations of a copy begun: as it is pushed if it is immediate, as it enters the store buffer if it is held (R192). -/
def State.startCopy (s : State) (c : Nat) (cp : Copy) : Copy × State :=
  let (beats, s) := cp.beats.foldl (fun (l, s) b =>
    let (srcs, s) := b.srcs.foldl (fun (m, s) e => let (x, s) := s.startEnd c e.1 .load; (m ++ [(x, e.2)], s)) ([], s)
    let (dsts, s) := b.dsts.foldl (fun (m, s) e => let (x, s) := s.startEnd c e .store; (m ++ [x], s)) ([], s)
    (l ++ [{ b with srcs := srcs, dsts := dsts }], s)) ([], s)
  ({ cp with beats := beats }, s)

/-- An effect takes its entry: a store merges where R48 says so; a 257th entry is REGION_RULE (R48). -/
def State.takeEntry (s : State) (c : Nat) (a : Act) (kind : HeldKind) : State :=
  let k := s.core c
  match k.mergeTarget a.by_ kind with
  | some h =>
    s.modCore c fun k =>
      { k with held := k.held.map fun (e : Held) => if e.id == h.id then { e with kind := e.kind.merge kind } else e }
  | none =>
    if 256 ≤ k.held.length then (s.unreserve c kind).raise c (a.fault cRegionRule 0) else
    let (kind, s) :=
      match kind with
      | .store va bs _ rl => let (due, s) := s.walkDue c va .store; (HeldKind.store va bs (.pending due) rl, s)
      | .copy cp => let (cp, s) := s.startCopy c cp; (.copy cp, s)
      | x => (x, s)
    let (id, s) := s.newId
    let e : Held :=
      { id := id, by_ := a.by_, pc := a.pc, task := k.task.getD 0, rank := k.rank, kind := kind, fence := (k.seq a.by_).fenced
        released := none, pushed := false, fixed := false, due := 0, after := (k.seq a.by_).after }
    s.modCore c fun k =>
      let k := { k with held := k.held ++ [e] }
      if kind.isStore then k.modSeq a.by_ fun y => { y with lastHeld := if kind.isRelease then none else some id } else k

/-! ### What has been performed (R208, R213, R214, R216 to R218) -/

/-- Whether a store is performed at a scope: its own die sees it from the start (R208). -/
def State.performedAt (s : State) (r : StoreRec) (scope : Nat) : Bool := decide (scope ≤ 2) || s.everywhere r

/-- Whether an access of a task, made by a sequencer of a core, is one of a sequencer of core `c`: of the same core, or of one from which the task's member there
has been promoted (R207, R210, R245). -/
def State.own (s : State) (c : Nat) (q : SeqId) (core task : Nat) (p : SeqId) : Bool :=
  p == q && (core == c || ((s.core c).past.contains core && (s.core c).task == some task))

/-- Whether a store of a sequencer is held under a page's lock (R223). -/
def State.lockHolds (s : State) (c : Nat) (q : SeqId) : Bool :=
  match s.migration with
  | some m => m.held.any fun r => s.own c q r.core r.task r.by_
  | none => false

/-- Whether every store of a sequencer that has left the region store buffer is performed at a scope (R216, R218, R223). -/
def State.storesDone (s : State) (c : Nat) (q : SeqId) (scope : Nat) : Bool :=
  !(s.reqs.any fun r => s.own c q r.core r.task r.by_ && r.drained) &&
  s.stores.all (fun r => !s.own c q r.core r.task r.by_ || s.performedAt r scope) && !s.lockHolds c q

/-- Whether an access of the core's own buffers by an earlier word of a sequencer has not taken effect (R122, R205). -/
def Core.fixedOut (k : Core) (q : SeqId) (before : Nat) : Bool :=
  k.acts.any fun a => a.by_ == q && decide (a.issued < before) && (match a.pay with
    | .loadBank _ _ _ _ _ _ _ _ _ => true
    | .storeBank _ _ _ _ _ _ => true
    | .armLand _ _ => true
    | .arriveLand _ _ => true
    | _ => false)

/-- Whether a load of the core's own buffers by an earlier word of a sequencer has not landed (R122, R214). -/
def Core.loadOut (k : Core) (q : SeqId) (before : Nat) : Bool :=
  k.acts.any fun a => a.by_ == q && decide (a.issued < before) && (match a.pay with
    | .loadBank _ _ _ _ _ _ _ _ _ => true
    | .loaded _ => true
    | _ => false)

/-- Whether every access that a sequencer sent before a cycle has been performed, those of the core's own buffers among them (R205, R214, R218). -/
def State.accessesDone (s : State) (c : Nat) (q : SeqId) (before : Nat) : Bool :=
  !(s.core c).fixedOut q before && s.reqs.all fun r =>
    !(s.own c q r.core r.task r.by_ && r.kind.scalar && decide (r.issued < before) && !r.orphan && !r.drained) || r.st.performed

/-- Whether stores that an earlier region of a sequencer has committed are still in a store buffer (R217). -/
def State.storesHeld (s : State) (c : Nat) (q : SeqId) (before : Nat) : Bool :=
  s.cores.any fun (n, k) => k.held.any fun h => s.own c q n h.task h.by_ && h.kind.isStore && (match h.released with
    | some r => decide (r ≤ before)
    | none => false)

/-- Whether every access of a sequencer before a cycle, what its earlier regions have committed among them, is performed at a scope: what a release that
takes effect at once waits for (R213, R214, R217, R218). -/
def State.earlierDone (s : State) (c : Nat) (q : SeqId) (before scope : Nat) : Bool :=
  s.accessesDone c q before && s.storesDone c q scope && !s.storesHeld c q before

/-- Whether every store that the loads of a sequencer have read, and every store that happens before one, is applied on every die
(R212). -/
def State.readsEverywhere (s : State) (c : Nat) (q : SeqId) : Bool :=
  s.liveDies.all fun d => covers (s.die d).vc ((s.core c).seq q).readStamp

/-- What a sequencer may have read in a core's buffers added to its stamp: all that the core's die has applied, and all that happens before the stores that other cores have
made there (R210, R212). -/
def State.noteBuffer (s : State) (c : Nat) (q : SeqId) (d : Nat) : State :=
  let st := joinCounts (s.die (dieOf d)).vc (s.core d).bufStamp
  s.modCore c fun k => k.modSeq q fun x => { x with readStamp := joinCounts x.readStamp st }

/-- A core's buffers written by a store of a sequencer of another core: what happens before the store comes with it (R210, R212). -/
def State.stampBuffer (s : State) (d c : Nat) (q : SeqId) : State :=
  let st := joinCounts (s.die (dieOf c)).vc ((s.core c).seq q).readStamp
  s.modCore d fun k => { k with bufStamp := joinCounts k.bufStamp st }

/-- Whether what a sequencer has acquired through tokens is performed at a scope: of each sequencer of its core, the accesses before the cycle that comes
with the token, and from DEVICE on the stores that it has read (R37, R209, R210). -/
def State.acquiredDone (s : State) (c : Nat) (after : List Nat) (scope : Nat) : Bool :=
  allSeqs.all fun p =>
    let t := after.getD (seqIdx p) 0
    t == 0 ||
      !(s.core c).fixedOut p t &&
      (s.reqs.all fun r => !(s.own c p r.core r.task r.by_ && r.kind.scalar && decide (r.issued < t) && !r.orphan) || r.st.performed) &&
      !s.storesHeld c p t && !s.lockHolds c p &&
      (decide (scope < 3) || (s.readsEverywhere c p && s.stores.all fun r => !s.own c p r.core r.task r.by_ || s.everywhere r))

/-- Whether a release at a scope that takes effect at once may do so: everything before it in its sequencer, and in what that has acquired, is performed there
(R209, R210, R213, R217). -/
def State.releaseMet (s : State) (c : Nat) (q : SeqId) (before scope : Nat) (after : List Nat) : Bool :=
  s.earlierDone c q before scope && s.acquiredDone c after scope && (decide (scope < 3) || s.readsEverywhere c q)

/-! ### ST (R417 to R419) -/

/-- Whether a sequencer still waits for a load from memory or from another view of a buffer (R213). -/
def State.loadsOut (s : State) (c : Nat) (q : SeqId) : Bool :=
  s.reqs.any fun r => r.core == c && r.by_ == q && !r.orphan && (match r.kind with
    | .load _ _ => true
    | _ => false)

/-- Whether a release store to the core's own buffers may issue: its sequencer's loads have landed, and what it releases is performed. In a timed region only what
comes before the region counts: the accesses of the region itself are ordered by their cycles, or held (R205, R213, R215, R217, log entry 95). -/
def Ctx.ownRelease (x : Ctx) (s : State) (h : Hdr) : Bool :=
  if x.k.place x.q == .timed then s.releaseMet x.c x.q x.k.cycle0 4 ((x.acquired h).map (Min.min x.k.cycle0))
  else !s.loadsOut x.c x.q && s.releaseMet x.c x.q s.now 4 (x.acquired h)

/-- A store of any kind. -/
def storeWord (h : Hdr) (v a : BitVec 5) (n : BitVec 6) (size : Nat) (rl : Bool) (s : State) :
    Host.Outcome State Fault Refusal :=
  issueAt h (fun x =>
    { uses := [v, a]
      ruleBad := !x.awaits a && (addrClass (x.elemAddr a n size) == .remote ||
        addrClass (x.elemAddr a n size) == .translated) && x.k.place x.q == .gap })
    (fun x s =>
      let va := x.elemAddr a n size
      let bytes := leBytes size (x.reg v).toNat
      let hold (kind : HeldKind) : Iss :=
        if x.k.place x.q == .handler then .ok (x.send s h va (.store (addrBytes 0 bytes)) 0 false rl) (some 1) x.next 0
        else x.go (s.addAct x.c (s.now + 1) s.now x.q x.x.pc (.hold kind)) 1
      if va % size != 0 then .trap cAlign (w64 va)
      else if 2 ^ 48 ≤ va then .trap cXlateS1 (w64 va) 2 1
      else
        match locate x.c va size with
        | .reserved => .trap cPermission (w64 va)
        | .capability _ => .trap cPermission (w64 va)
        | .unmapped => .trap cSpaceAccess (w64 va)
        | .own isA off =>
          if rl && !x.ownRelease s h then .hold s else
          .ok (s.addAct x.c (s.now + 1) s.now x.q x.x.pc (.storeBank x.q isA off bytes h.sp h.sn)) none x.next 0
        | .remote core isA off =>
          if !s.sameGroup x.c core then .trap cPermission (w64 va)
          else hold (.remote core isA off (addrBytes off bytes) rl)
        | .memory => hold (.store va (addrBytes (va % 64) bytes) (.pending 0) rl)) s

/-- ST.B -/
def execStB (h : Hdr) (v a : BitVec 5) (n : BitVec 6) (s : State) : Host.Outcome State Fault Refusal :=
  storeWord h v a n 1 false s

/-- ST.H -/
def execStH (h : Hdr) (v a : BitVec 5) (n : BitVec 6) (s : State) : Host.Outcome State Fault Refusal :=
  storeWord h v a n 2 false s

/-- ST.W -/
def execStW (h : Hdr) (v a : BitVec 5) (n : BitVec 6) (s : State) : Host.Outcome State Fault Refusal :=
  storeWord h v a n 4 false s

/-- ST.D -/
def execStD (h : Hdr) (v a : BitVec 5) (n : BitVec 6) (s : State) : Host.Outcome State Fault Refusal :=
  storeWord h v a n 8 false s

/-- ST.W.RL: a release at SYSTEM scope (R213). -/
def execStWRl (h : Hdr) (v a : BitVec 5) (n : BitVec 6) (s : State) : Host.Outcome State Fault Refusal :=
  storeWord h v a n 4 true s

/-- ST.D.RL: a release at SYSTEM scope (R213). -/
def execStDRl (h : Hdr) (v a : BitVec 5) (n : BitVec 6) (s : State) : Host.Outcome State Fault Refusal :=
  storeWord h v a n 8 true s

/-! ### AMOC (R200, R350 to R352) -/

/-- The new value at memory of an AMOC on `size` bytes (R350). -/
def amocNew (op size old b e : Nat) : Nat :=
  let m := 2 ^ (8 * size)
  let o := toSigned (8 * size) old
  let v := toSigned (8 * size) b
  match op with
  | 0 => (old + b) % m
  | 1 => (old &&& b) % m
  | 2 => (old ||| b) % m
  | 3 => (old ^^^ b) % m
  | 4 => b % m
  | 5 => if o < v then b % m else old % m
  | 6 => if v < o then b % m else old % m
  | _ => if old % m = e % m then b % m else old % m

/-- An AMOC: CT only, tokened regions only; its checks at issue (R351), then sent, its old value landing at no fixed cycle. -/
def amocWord (h : Hdr) (a b d : BitVec 5) (z : Bool) (op : Nat) (s : State) : Host.Outcome State Fault Refusal :=
  issue h { Gate.regionOnly [.ct] with timed := false, uses := [d, a, b] }
    (fun x s =>
      let va := (x.reg a).toNat
      let size := if z then 8 else 4
      if va % size != 0 then .trap cAlign (w64 va)
      else
        match locate x.c va size with
        | .reserved => .trap cPermission (w64 va)
        | .capability _ => .trap cPermission (w64 va)
        | .memory =>
          if 2 ^ 48 ≤ va then .trap cXlateS1 (w64 va) 6 1
          else .ok (x.send s h va (.amoc op size (x.reg b) (x.reg d)) d.toNat false false) none x.next 0
        | _ => .trap cSpaceAccess (w64 va)) s

/-- AMOC.ADD -/
def execAmocAdd (h : Hdr) (a b d : BitVec 5) (z : Bool) (s : State) : Host.Outcome State Fault Refusal := amocWord h a b d z 0 s

/-- AMOC.AND -/
def execAmocAnd (h : Hdr) (a b d : BitVec 5) (z : Bool) (s : State) : Host.Outcome State Fault Refusal := amocWord h a b d z 1 s

/-- AMOC.OR -/
def execAmocOr (h : Hdr) (a b d : BitVec 5) (z : Bool) (s : State) : Host.Outcome State Fault Refusal := amocWord h a b d z 2 s

/-- AMOC.XOR -/
def execAmocXor (h : Hdr) (a b d : BitVec 5) (z : Bool) (s : State) : Host.Outcome State Fault Refusal := amocWord h a b d z 3 s

/-- AMOC.XCHG -/
def execAmocXchg (h : Hdr) (a b d : BitVec 5) (z : Bool) (s : State) : Host.Outcome State Fault Refusal := amocWord h a b d z 4 s

/-- AMOC.MAX -/
def execAmocMax (h : Hdr) (a b d : BitVec 5) (z : Bool) (s : State) : Host.Outcome State Fault Refusal := amocWord h a b d z 5 s

/-- AMOC.MIN -/
def execAmocMin (h : Hdr) (a b d : BitVec 5) (z : Bool) (s : State) : Host.Outcome State Fault Refusal := amocWord h a b d z 6 s

/-- AMOC.CAS -/
def execAmocCas (h : Hdr) (a b d : BitVec 5) (z : Bool) (s : State) : Host.Outcome State Fault Refusal := amocWord h a b d z 7 s

end Sys2Proof.Machine
end

