-- ==== Sys2Proof/Machine/Csr.lean ====
section
/-! DEFINITION. The control and status registers: the map of R126, CSRR and CSRW (R364, R365), MSEL (R397), and what a CSRW writes when it
lands (R110, R111, R123, R127, R230, R275). -/

namespace Sys2Proof.Machine

/-! ### The map (R126) -/

/-- The sequencers that may access a CSR (R126). -/
def csrSeqs (n : Nat) : List SeqId :=
  if n ≤ 8 || n = 0x18 || n = 0x30 then allSeqs
  else if 0x10 ≤ n && n ≤ 0x17 then [.cm]
  else [.ct]

/-- The CSRs that a CSRW may write (R126). -/
def csrWritable (n : Nat) : Bool := (0x10 ≤ n && n ≤ 0x17) || n = 0x20 || n = 0x21 || n = 0x31 || n = 0x40

/-- A CSR as it stands (R126, R364). -/
def State.csrRead (s : State) (c : Nat) (q : SeqId) (n : Nat) : W64 :=
  let k := s.core c
  let task := s.taskOf c
  let field (a m : Nat) : W64 := w64 ((task.map fun t => fieldLE t.record a m).getD 0)
  match n with
  | 0x00 => w64 (c * 2 ^ 16 + seqIdx q)
  | 0x01 => field 8 4
  | 0x02 => w64 (s.casementOf c)
  | 0x03 => s.zview (s.casementOf c) (dieOf c)
  | 0x04 => w64 s.ftime
  | 0x05 => field 24 8
  | 0x06 => w64 ((task.map Task.budget).getD 0)
  | 0x07 => w64 ((task.map Task.level).getD 0)
  | 0x08 => k.domm
  | 0x10 => k.rwin
  | 0x11 => k.mact
  | 0x12 => k.mrs
  | 0x13 => k.vstat
  | 0x14 => k.rkey0
  | 0x15 => k.rkey1
  | 0x16 => k.rctr
  | 0x17 => k.sacw
  | 0x18 => k.toks
  | 0x20 => k.tvec
  | 0x21 => k.tsp
  | 0x22 => k.tcause
  | 0x23 => k.taddr
  | 0x24 => k.tpc
  | 0x25 => k.tcause2
  | 0x26 => k.tseq
  | 0x27 => k.trgn
  | 0x30 => 0xFD0000000000
  | 0x31 => k.dplidx
  | 0x32 => w64 (dpl (bits k.dplidx.toNat 7 4) (bits k.dplidx.toNat 3 0))
  | _ => 0

/-- The fault of a value that a CSRW may not write (R365). -/
def csrBad (n : Nat) (timed : Bool) (v : W64) : Option Nat :=
  let x := v.toNat
  match n with
  | 0x10 =>
    let first := bits x 3 0
    let count := bits x 8 4
    if count = 0 || 16 < first + count then some cIllegalOperand else none
  | 0x11 => if 8 < bits x 3 0 then some cIllegalOperand else none
  | 0x17 => if bits x 4 0 = 0 || 16 < bits x 4 0 then some cIllegalOperand else none
  | 0x20 => if bits x 1 0 != 0 then some cAlign else if bits x 63 48 != 0 then some cIllegalOperand else none
  | 0x31 => if bit x 7 || bit x 3 then some cIllegalOperand else none
  | 0x40 =>
    if 2 ≤ bits x 3 0 || 4 ≤ bits x 6 4 || bits x 63 48 != 0 || bits x 11 7 != 0 then some cIllegalOperand
    else if timed && bits x 6 4 != 0 then some cRegionRule else none
  | _ => none

/-- The low bits of a value: a CSR's fields; its reserved bits above them read as zero (R1, R126). -/
def lowBits (m : Nat) (v : W64) : W64 := w64 (v.toNat % 2 ^ m)

/-- What a CSRW that has landed leaves in a CSR: the bits R365 writes. A TLBI is a command and leaves nothing (R289). -/
def Core.csrWrite (k : Core) (n : Nat) (v : W64) : Core :=
  let low (m : Nat) : W64 := lowBits m v
  match n with
  | 0x10 => { k with rwin := low 9 }
  | 0x11 => { k with mact := low 4 }
  | 0x12 => { k with mrs := low 4 }
  | 0x13 => { k with vstat := low 10, vnew := 0, vcsrw := true }
  | 0x14 => { k with rkey0 := low 32 }
  | 0x15 => { k with rkey1 := low 32 }
  | 0x16 => { k with rctr := v }
  | 0x17 => { k with sacw := low 5 }
  | 0x20 => { k with tvec := v }
  | 0x21 => { k with tsp := v }
  | 0x31 => { k with dplidx := low 8 }
  | _ => k

/-- A TLBI command under way (R289): its act. -/
def Act.isTlbi (a : Act) : Bool :=
  match a.pay with
  | .csr n _ => n == 0x40
  | _ => false

/-- CSRR (R364): its value lands after one cycle; that of TCAUSE ends the cause-unread state then, even in s0 (R277). -/
def execCsrr (h : Hdr) (d : BitVec 5) (c : BitVec 9) (s : State) : Host.Outcome State Fault Refusal :=
  issueAt h (fun x => { illegalOp := !csrAssigned c || !(csrSeqs c.toNat).contains x.q, uses := [d] })
    (fun x s =>
      let v := s.csrRead x.c x.q c.toNat
      if c = 0x22 then x.go (s.addAct x.c (s.now + 1) s.now x.q x.x.pc (.reg x.q d.toNat v true)) 1
      else x.go (x.land s d v 1) 1) s

/-- CSRW (R364, R365). -/
def execCsrw (h : Hdr) (a : BitVec 5) (c : BitVec 9) (s : State) : Host.Outcome State Fault Refusal :=
  issueAt h (fun x => { illegalOp := !csrAssigned c || !(csrSeqs c.toNat).contains x.q, uses := [a] })
    (fun x s =>
      if !csrWritable c.toNat then .trap cPermission (w64 c.toNat)
      else
        match csrBad c.toNat (x.k.place x.q == .timed) (x.reg a) with
        | some code =>
          .trap code (if code = cAlign then x.reg a else if code = cRegionRule then 0 else x.x.curWord.setWidth 64)
        | none => x.go (s.addAct x.c (s.now + 1) s.now x.q x.x.pc (.csr c.toNat (x.reg a))) 1) s

/-- MSEL: the active-mask selection, landing as a CSRW of MACT does (R111, R397). -/
def execMsel (h : Hdr) (m : BitVec 5) (s : State) : Host.Outcome State Fault Refusal :=
  issue h { seqs := [.cm], operandBad := 8 < m.toNat }
    (fun x s => x.go (s.addAct x.c (s.now + 1) s.now x.q x.x.pc (.csr 0x11 (w64 m.toNat))) 1) s

end Sys2Proof.Machine
end

