-- ==== Sys2Proof/Machine/Ports.lean ====
section
/-! DEFINITION. The ports (R113 to R119, R405, R406), their conversions (R116, R117), pops and pushes with their banks (R118, R124), the drain of
pushed rows (R206), and the words PCFG, PRWD and SHLD (R405, R415). -/

namespace Sys2Proof.Machine

/-! ### Conversions -/

/-- An element as a read port delivers it, without PACK (R116): its container and FLUSH. -/
def portIn (fmt : Nat) (fl : Bool) (code : Nat) : W32 × Status :=
  match Fmt.ofCode fmt with
  | .float f =>
    if f.width = 32 then (BitVec.ofNat 32 code, 0)
    else
      match f.value code with
      | .nan => (qnan, 0)
      | v =>
        let (x, st) := v.input fl
        ((rne32 false x).1, st)
  | .int f => (BitVec.ofInt 32 (f.value code), 0)
  | _ => (0, 0)

/-- A row of bytes as a read port delivers it: 64 containers, and the status of each lane (R115, R116). -/
def portRow (p : BitVec 512) (fl : Bool) (bs : List W8) : Row × List Status :=
  if pPack p || pFmt p = 0 then
    ((List.range 64).map fun j => BitVec.ofNat 32 (leNat ((bs.drop (4 * j)).take 4)), List.replicate 64 0)
  else
    let w := fmtWidth (pFmt p)
    let cells := (List.range 64).map fun j => portIn (pFmt p) fl (element bs w j)
    (cells.map Prod.fst, cells.map Prod.snd)

/-- A container as a write port stores it, without PACK (R117): the element's code and the conversion's status. A write port flushes what it
writes and no input (R141, R142). -/
def portOut (p : BitVec 512) (fl : Bool) (v : W32) : Nat × Status :=
  match Fmt.ofCode (pFmt p) with
  | .float f => if f.width = 32 then (v.toNat, 0) else
    let (x, sx) := fpIn false v
    let (c, s) := f.round (pRnd p) (pSat p) fl x
    (c, sx ||| s)
  | .int f =>
    let i := v.toInt
    if !pSat p then (f.code i, 0)
    else if i < f.lo then (f.code f.lo, Status.sat)
    else if f.hi < i then (f.code f.hi, Status.sat)
    else (f.code i, 0)
  | _ => (0, 0)

/-- The bits of the elements of one container: with PACK or FP32 all 32 of it. -/
def pLaneBits (p : BitVec 512) : Nat := if pPack p || pFmt p = 0 then 32 else fmtWidth (pFmt p)

/-- A row's bits as one number after a push of some lanes over `old`, and the status of the conversions (R117). -/
def pushedRow (p : BitVec 512) (fl : Bool) (lanes : W64) (vals : Row) (old : Nat) : Nat × Status :=
  let w := pLaneBits p
  (List.range 64).foldl (fun (acc, st) j =>
    if lanes.getLsbD j then
      let v := vals.getD j 0
      let (code, s) := if pPack p || pFmt p = 0 then (v.toNat, (0 : Status)) else portOut p fl v
      let was := acc / 2 ^ (w * j) % 2 ^ w
      (acc - was * 2 ^ (w * j) + code % 2 ^ w * 2 ^ (w * j), st ||| s)
    else (acc, st)) (old, 0)

/-- The offsets of a row's bytes that hold a bit of an enabled lane. -/
def touchedBytes (p : BitVec 512) (lanes : W64) : List Nat :=
  let w := pLaneBits p
  (List.range (pRowBytes p)).filter fun b =>
    (span (8 * b / w) ((8 * b + 7) / w - 8 * b / w + 1)).any fun j => lanes.getLsbD j

/-! ### Pops and pushes (R118, R124) -/

/-- Whether a port has been configured in the task (R115): from the read of a PCFG that found no fault, before its set lands (R114, R454). -/
def Core.portSet (k : Core) (n : Nat) : Bool :=
  (k.ports.getD n Port.none).set.isSome || k.acts.any fun a =>
    match a.pay with
    | .portLand p _ => p == n
    | _ => false

/-- Whether a port can serve a row in this cycle: ready, and not used yet (R118). -/
def Port.canServe (g : Port) (now : Nat) : Bool :=
  !(decide (g.stop ≤ now) && decide (now < g.ready)) && g.used != now + 1

/-- What asking a port for a row gives. -/
inductive PortTry (α : Type) where
  | got (a : α)
  /-- The port or a bank is not free in this cycle. -/
  | wait
  | fault (code : Nat) (taddr : W64)

/-- The port's row in the A or W space: its place and size, and a bank of it that another word's access holds in this cycle. -/
def Core.rowBanks (k : Core) (now : Nat) (n issued : Nat) (q : SeqId) : Option (BitVec 512 × Nat × List Nat × Option Nat) :=
  let g := k.ports.getD n Port.none
  match g.set with
  | none => none
  | some p =>
    let off := (g.rowOffset p).toNat
    let banks := banksOf off (pRowBytes p)
    some (p, off, banks, k.bankConflict now (pIsA p) banks issued q)

/-- One row popped from a read port (R115, R116, R118), as it stood before this cycle's writes (R125). -/
def Core.popOne (k : Core) (now n issued : Nat) (q : SeqId) (fl : Bool) : PortTry (Core × Row × List Status) :=
  let g := k.ports.getD n Port.none
  match k.rowBanks now n issued q with
  | none => .wait
  | some (p, off, banks, hit) =>
    if !g.canServe now then
      if k.inTimed then .fault cScheduleMiss (w64 (k.regionCycle now)) else .wait
    else
      match hit with
      | some b => if k.inTimed then .fault cBankConflict (w64 (16 * flag (pIsA p) + b)) else .wait
      | none =>
        let (row, st) := portRow p fl (if pIsA p then k.startA off (pRowBytes p) else k.readBuf false off (pRowBytes p))
        let k := k.claimBanks now (pIsA p) banks issued q
        .got ({ k with ports := putAt k.ports Port.none n { (g.advance p) with used := now + 1 } }, row, st)

/-- A row of a source designator: a tile's row, a popped row, or zeros (R109). -/
def Core.sourceRow (k : Core) (now v row issued : Nat) (q : SeqId) (fl : Bool) : PortTry (Core × Row × List Status) :=
  match readPort? v with
  | some n => k.popOne now n issued q fl
  | none => .got (k, if v < 16 then k.tileRow v row else zeroRow, List.replicate 64 0)

/-- A source of the current window row: the row it has popped already, or the one it reads now; zeros where the word has no such source. -/
def Core.sourceOnce (k : Core) (now : Nat) (v : Option Nat) (got : Option (Row × List Status)) (row issued : Nat) (q : SeqId) (fl : Bool) :
    PortTry (Core × Row × List Status) :=
  match got, v with
  | some (r, st), _ => .got (k, r, st)
  | none, none => .got (k, zeroRow, List.replicate 64 0)
  | none, some v => k.sourceRow now v row issued q fl

/-- What two sources give in a cycle. -/
inductive Sources where
  | both (k : Core) (a b : Row × List Status)
  /-- One pop or both are delayed; a row popped is kept, a tile's row is read when the window row is (R124). -/
  | wait (k : Core) (a b : Option (Row × List Status))
  | fault (code : Nat) (taddr : W64)

/-- The two sources of a window row (R118, R124): each is popped when its port and bank are free. -/
def Core.sources (k : Core) (now : Nat) (a b : Option Nat) (gotA gotB : Option (Row × List Status)) (row issued : Nat) (q : SeqId) (fl : Bool) :
    Sources :=
  let keep (v : Option Nat) (p : Row × List Status) : Option (Row × List Status) := if (v.bind readPort?).isSome then some p else none
  match k.sourceOnce now a gotA row issued q fl with
  | .fault code ta => .fault code ta
  | .wait =>
    (match k.sourceOnce now b gotB row issued q fl with
     | .fault code ta => .fault code ta
     | .wait => .wait k gotA gotB
     | .got (k, y) => .wait k gotA (keep b y))
  | .got (k, x) =>
    match k.sourceOnce now b gotB row issued q fl with
    | .fault code ta => .fault code ta
    | .wait => .wait k (keep a x) gotB
    | .got (k, y) => .both k x y

/-- A row pushed at its landing (R117, R118): converted, one write access to its blocks whatever lanes are enabled (R182), written for the core's own fixed-cycle accesses, and kept back from every
other agent until its drain (R206). -/
def Core.pushOne (k : Core) (now n issued : Nat) (q : SeqId) (fl : Bool) (lanes : W64) (vals : Row) (id due : Nat) :
    PortTry (Core × Status) :=
  let g := k.ports.getD n Port.none
  match k.rowBanks now n issued q with
  | none => .wait
  | some (p, off, banks, hit) =>
    if !g.canServe now then
      if k.inTimed then .fault cScheduleMiss (w64 (k.regionCycle now)) else .wait
    else
      match hit with
      | some b => if k.inTimed then .fault cBankConflict (w64 (16 + b)) else .wait
      | none =>
        let old := k.readBuf true off (pRowBytes p)
        let (v, st) := pushedRow p fl lanes vals (leNat old)
        let new_ := leBytes (pRowBytes p) v
        let offs := touchedBytes p lanes
        let push : Push :=
          { id := id, port := n, issued := issued, task := k.task.getD noTask, due := due
            old := offs.foldl (fun m b => m.set (off + b) (old.getD b 0)) []
            offs := offs.map (off + ·) }
        let k := (k.claimBanks now true banks issued q).noteA (offs.map (off + ·))
        let k := { k with
          aspace := k.aspace.writeAll (offs.map fun b => (off + b, new_.getD b 0))
          pushes := k.pushes ++ [push]
          ports := putAt k.ports Port.none n { (g.advance p) with used := now + 1 } }
        .got (k.touchBlocks off (pRowBytes p), st)

/-- The oldest push of a port drained (R206): every agent sees it, and no older push hides its bytes any more. -/
def Core.drainPush (k : Core) (port : Nat) : Core :=
  match k.pushes.find? fun (p : Push) => p.port == port with
  | none => k
  | some d =>
    let before := k.pushes.takeWhile fun p => p.id != d.id
    let after := k.pushes.filter fun p => !(before.any fun x => x.id == p.id) && p.id != d.id
    { k with
      pushes := (before.map fun p => { p with offs := p.offs.filter fun o => !d.offs.contains o }) ++ after }

/-- Every push drained (R206). -/
def Core.drainAll (k : Core) : Core := { k with pushes := [] }

/-- Pushes drained, each port's in landing order, until none that must be drained is left (R206). -/
def Core.drainWhere (must : Push → Bool) : Nat → Core → Core
  | 0, k => k
  | fuel + 1, k =>
    match k.pushes.find? must with
    | some p => Core.drainWhere must fuel (k.drainPush p.port)
    | none => k

/-- The pushes drained that must be (R206, R220). -/
def Core.drainMust (k : Core) (must : Push → Bool) : Core := Core.drainWhere must k.pushes.length k

/-! ### PCFG, PRWD, SHLD -/

/-- Whether a push to a write port is still to land: an issued tile word will push to it (R406). -/
def Core.pushDue (k : Core) (n : Nat) : Bool :=
  k.acts.any fun a =>
    match a.pay with
    | .pushRow p _ _ _ => p == n
    | .rowRead job _ =>
      (match job.fn with
       | .ext _ => false
       | _ => job.d == n + 16)
    | _ => false

/-- The gate of the two port words: LD for g0 to g3, ST for g4 to g7 (R97, R405). -/
def portGate (g : BitVec 5) (uses : List (BitVec 5)) : Gate :=
  { Gate.regionOnly (if g.toNat < 4 then [.ld] else if g.toNat < 8 then [.st] else [.ld, .st]) with
    operandBad := 8 ≤ g.toNat, uses := uses }

/-- A port not ready from one cycle on until another, nor in what is left of the window of an earlier PCFG or PRWD (R406). -/
def Port.held (g : Port) (stop ready : Nat) : Port :=
  if g.ready < stop then { g with stop := stop, ready := ready } else { g with stop := Min.min g.stop stop, ready := Max.max g.ready ready }

/-- The port as PCFG or PRWD leaves it at its issue: not ready from the next cycle on (R406). -/
def Core.holdPort (k : Core) (n stop ready : Nat) : Core :=
  { k with ports := putAt k.ports Port.none n ((k.ports.getD n Port.none).held stop ready) }

/-- Whether a 64-byte record at an offset of a space of the core can be read by a word (R113, R120): ALIGN, then SPACE_ACCESS. -/
def recordFault (off : W64) (size : Nat) : Option Nat :=
  if off.toNat % 64 != 0 then some cAlign else if size < off.toNat + 64 then some cSpaceAccess else none

/-- PCFG: the parameter set is read at issue + 1 and lands at issue + 4 (R113, R114, R405). -/
def execPcfg (h : Hdr) (g a : BitVec 5) (s : State) : Host.Outcome State Fault Refusal :=
  issue h (portGate g [a])
    (fun x s =>
      match recordFault (x.reg a) 98304 with
      | some code => .trap code (x.reg a)
      | none =>
        if x.k.place x.q != .timed && decide (4 ≤ g.toNat) && x.k.pushDue g.toNat then .hold s else
        let s := s.modCore x.c fun k => k.holdPort g.toNat (s.now + 1) (s.now + 4)
        x.go (s.addAct x.c (s.now + 1) s.now x.q x.x.pc (.paramRead g.toNat (x.reg a).toNat)) 4) s

/-- PRWD: the indices return to zero, and the port is ready at issue + 2 (R115, R405). -/
def execPrwd (h : Hdr) (g : BitVec 5) (s : State) : Host.Outcome State Fault Refusal :=
  issue h (portGate g [])
    (fun x s =>
      if !x.k.portSet g.toNat then .trap cIllegalOperand (x.x.curWord.setWidth 64)
      else if x.k.place x.q != .timed && decide (4 ≤ g.toNat) && x.k.pushDue g.toNat then .hold s else
      let s := s.modCore x.c fun k => k.holdPort g.toNat (s.now + 1) (s.now + 2)
      x.go (s.addAct x.c (s.now + 2) s.now x.q x.x.pc (.rewindLand g.toNat)) 2) s

/-- SHLD: the record is read at issue + 1 and lands at issue + 4 (R120, R415). R46 counts its target among the writes that the live-in mask forbids: the mask's
bit i stands for hi as it does for ti (DEDUCED, log entry 88). -/
def execShld (h : Hdr) (x a : BitVec 5) (s : State) : Host.Outcome State Fault Refusal :=
  issueAt h (fun c => { Gate.regionOnly [.ld] with operandBad := 16 ≤ x.toNat, ruleBad := c.k.liveInTile x.toNat, uses := [a] })
    (fun c s =>
      match recordFault (c.reg a) 98304 with
      | some code => .trap code (c.reg a)
      | none => c.go (s.addAct c.c (s.now + 1) s.now c.q c.x.pc (.shapeRead x.toNat (c.reg a).toNat)) 4) s

end Sys2Proof.Machine
end

