-- ==== Sys2Proof/Machine/Transfer.lean ====
section
/-! DEFINITION. Copies and arrival words: the copy record (R189), its checks (R190) and its walk (R191), the word CPY (R192 to R194, R362, R363),
the beats of the copy engine (R193, R196, R218), and ARM, ARRV, AWAIT and AWAIT.X (R195 to R197, R353 to R355). -/

namespace Sys2Proof.Machine

/-! ### Arrival words (R195, R196) -/

/-- What an arrival of `b` bytes makes of an arrival word (R196). -/
def arriveWord (w b : Nat) : Nat :=
  let target := bits w 31 0
  let count := Min.min (bits w 63 32 + b) 0xFFFFFFFF
  let gen := bits w 79 64
  let rest := w / 2 ^ 80
  let put (count gen rest : Nat) : Nat := target + 2 ^ 32 * count + 2 ^ 64 * gen + 2 ^ 80 * rest
  if target = 0 then put count gen rest
  else if count = target then put 0 ((gen + 1) % 2 ^ 16) rest
  else if target < count then put count gen (rest ||| 1)
  else put count gen rest

/-- What an ARM makes of an arrival word (R354). -/
def armWord (w target : Nat) : Nat :=
  target + 2 ^ 64 * bits w 79 64 + 2 ^ 80 * (w / 2 ^ 81 * 2)

/-- An arrival at a core's word; an arrival of 0 bytes is none. -/
def Core.arrive (k : Core) (off b : Nat) : Core :=
  if b = 0 then k
  else k.writeBytes true (addrBytes off (leBytes 16 (arriveWord (leNat (k.readBuf true off 16)) b)))

/-- GEN and OVR of an arrival word as they stood at the start of the cycle (R354). -/
def Core.arrivalState (k : Core) (off : Nat) : Nat × Bool :=
  let w := leNat (k.startA off 16)
  (bits w 79 64, bit w 80)

/-- Whether a generation has been reached (R197). -/
def generationDone (gen g : Nat) : Bool := decide ((gen + 2 ^ 16 - g) % 2 ^ 16 < 2 ^ 15)

/-- The first fault of an arrival word's offset (R353). -/
def arrivalFault (sa : W64) : Option Nat :=
  if sa.toNat % 16 != 0 then some cAlign else if 98304 < sa.toNat + 16 then some cSpaceAccess else none

/-- A word of the ARV group at its issue: the checks it shares with the others (R353), then its own effect. -/
def arvWord (h : Hdr) (timed : Bool) (a b : BitVec 5) (width : Nat) (body : Ctx → State → Iss) (s : State) :
    Host.Outcome State Fault Refusal :=
  issue h { Gate.regionOnly [.ld, .st, .ct] with timed := timed, uses := [a, b] }
    (fun x s =>
      match arrivalFault (x.reg a) with
      | some code => .trap code (x.reg a)
      | none =>
        if 2 ^ width ≤ (x.reg b).toNat then .trap cIllegalOperand (x.reg a) else body x s) s

/-- ARM (R354). -/
def execArm (h : Hdr) (a b : BitVec 5) (s : State) : Host.Outcome State Fault Refusal :=
  arvWord h true a b 32 (fun x s =>
    x.go (s.addAct x.c (s.now + 4) s.now x.q x.x.pc (.armLand (x.reg a).toNat ((x.reg b).setWidth 32))) 4) s

/-- ARRV (R354). -/
def execArrv (h : Hdr) (a b : BitVec 5) (s : State) : Host.Outcome State Fault Refusal :=
  arvWord h true a b 32 (fun x s =>
    x.go (s.addAct x.c (s.now + 4) s.now x.q x.x.pc (.arriveLand (x.reg a).toNat (x.reg b).toNat)) 4) s

/-- The check of an AWAIT at its issue, and in each cycle that it stalls (R354). -/
def awaitBody (a b : BitVec 5) (x : Ctx) (s : State) : Iss :=
  let (gen, ovr) := x.k.arrivalState (x.reg a).toNat
  if ovr then .trap cArrivalOverrun (x.reg a)
  else if generationDone gen (x.reg b).toNat then x.go s 1 else .hold s

/-- AWAIT -/
def execAwait (h : Hdr) (a b : BitVec 5) (s : State) : Host.Outcome State Fault Refusal :=
  arvWord h false a b 16 (awaitBody a b) s

/-- AWAIT.X -/
def execAwaitX (h : Hdr) (a b : BitVec 5) (s : State) : Host.Outcome State Fault Refusal :=
  arvWord h true a b 16 (awaitBody a b) s

/-- An ARM lands: after every arrival of its cycle (R355). -/
def Core.armLand (k : Core) (off : Nat) (target : W32) : Core :=
  k.writeBuf true off (leBytes 16 (armWord (leNat (k.readBuf true off 16)) target.toNat))

/-- An ARRV lands: one arrival, and a write access (R182, R354). -/
def Core.arriveLand (k : Core) (off count : Nat) : Core :=
  if count = 0 then k else (k.arrive off count).touchBlocks off 16

/-! ### The copy record (R189) -/

/-- NDIM. -/
def cDims (r : List W8) : Nat := bits (fieldLE r 0 1) 7 4
/-- 2^ESIZE. -/
def cSize (r : List W8) : Nat := 2 ^ bits (fieldLE r 0 1) 3 0
/-- ARV. -/
def cArv (r : List W8) : Bool := bit (fieldLE r 1 1) 1
/-- MCAST. -/
def cMcast (r : List W8) : Bool := bit (fieldLE r 1 1) 0
/-- SKIND. -/
def cSkind (r : List W8) : Nat := bits (fieldLE r 2 1) 1 0
/-- DKIND. -/
def cDkind (r : List W8) : Nat := bits (fieldLE r 3 1) 1 0
/-- MASK. -/
def cMask (r : List W8) : Nat := fieldLE r 4 2
/-- SELF. -/
def cSelf (r : List W8) : Bool := bit (fieldLE r 6 2) 15
/-- DCORE. -/
def cDcore (r : List W8) : Nat := bits (fieldLE r 6 2) 11 0
/-- SRC. -/
def cSrc (r : List W8) : Nat := fieldLE r 8 8
/-- DST. -/
def cDst (r : List W8) : Nat := fieldLE r 16 8
/-- DARV. -/
def cDarv (r : List W8) : Nat := fieldLE r 24 4
/-- COUNTd. -/
def cCount (r : List W8) (d : Nat) : Nat := fieldLE r (32 + 4 * d) 4
/-- SSTRd. -/
def cSstr (r : List W8) (d : Nat) : Int := toSigned 32 (fieldLE r (64 + 4 * d) 4)
/-- DSTRd. -/
def cDstr (r : List W8) (d : Nat) : Int := toSigned 32 (fieldLE r (96 + 4 * d) 4)

/-- Bytes per destination. -/
def cBytes (r : List W8) : Nat := (List.range (cDims r)).foldl (fun n d => n * cCount r d) (cSize r)

/-- The elements of a copy in walk order: source and destination of each (R191). Dimension `d − 1` is the outermost of `d`. -/
def copyWalk (r : List W8) (d : Nat) (s t : Int) : List (Int × Int) :=
  match d with
  | 0 => [(s, t)]
  | n + 1 =>
    (List.range (cCount r n)).flatMap fun (i : Nat) => copyWalk r n (s + i * cSstr r n) (t + i * cDstr r n)

/-- The lowest and the highest start that a walk reaches, by its strides. -/
def copyReach (r : List W8) (start : Int) (stride : Nat → Int) : Int × Int :=
  (List.range (cDims r)).foldl (fun (lo, hi) d =>
    let x : Int := ((cCount r d - 1 : Nat) : Int) * stride d
    if x < 0 then (lo + x, hi) else (lo, hi + x)) (start, start)

/-- The cores that receive the bytes under DKIND 1 and 2 (R191). -/
def copyCores (r : List W8) (self : Nat) : List Nat :=
  let base := if cSelf r then self else cDcore r
  if cMcast r then
    ((List.range 16).filter (bit (cMask r))).map fun i => clusterOf base * 192 + localOf base / 16 * 16 + i
  else [base]

/-- An address of an element under kind 0. -/
def copyAddr (a : Int) : Nat := (BitVec.ofInt 64 a).toNat

/-- The fault of an element under kind 0, and the core whose buffer it names, if any (R190). -/
def elementPlace (core size : Nat) (a : Int) : Except Nat CopyEnd :=
  let va := copyAddr a
  match locate core va size with
  | .own isA off => .ok (.buf core isA off)
  | .remote n isA off => .ok (.buf n isA off)
  | .unmapped => .error cSpaceAccess
  | .capability _ => .error cPermission
  | .reserved => .error cPermission
  | .memory => .ok (.mem va (.pending 0))

/-- One end of an element, under its kind: 0 an address, 1 the W-space, 2 the A-space of a core. -/
def copyEnd (core kind size target : Nat) (a : Int) : Except Nat CopyEnd :=
  if kind = 0 then elementPlace core size a else .ok (.buf target (kind == 2) a.toNat)

/-- The core of an end in a buffer. -/
def CopyEnd.core? : CopyEnd → Option Nat
  | .buf c _ _ => some c
  | .mem _ _ => none

/-- Whether one end continues another, `len` bytes long, within one 64-byte beat. -/
def CopyEnd.follows (b a : CopyEnd) (len : Nat) : Bool :=
  match a, b with
  | .mem va _, .mem vb _ => vb == va + len && vb % 64 != 0
  | .buf c i x, .buf d j y => c == d && i == j && y == x + len && y % 64 != 0
  | _, _ => false

/-- An element added to the beats of a copy: to the last one where it continues it (R193). -/
def addElement (beats : List Beat) (size : Nat) (src : CopyEnd) (dsts : List CopyEnd) : List Beat :=
  let fresh : Beat := { id := beats.length, srcs := [(src, size)], dsts := dsts, len := size, got := [], read := 0, asked := false }
  match beats with
  | [] => [fresh]
  | b :: rest =>
    match b.dsts, dsts with
    | d :: _, e :: _ =>
      if !e.follows d b.len then fresh :: beats
      else
        let srcs :=
          match b.srcs.getLast? with
          | some (l, n) =>
            if src.follows l n then b.srcs.dropLast ++ [(l, n + size)] else b.srcs ++ [(src, size)]
          | none => [(src, size)]
        { b with srcs := srcs, len := b.len + size } :: rest
    | _, _ => fresh :: beats

/-- The first fault of a copied record, up to the checks of single elements (R190, items 1 to 3 and the bounds of item 4). -/
def copyFault (r : List W8) : Option Nat :=
  let n := cDims r
  let z := cSize r
  let used := List.range n
  let bad (v : Int) : Bool := v % z != 0
  let space (kind : Nat) : Int := if kind = 1 then 0x30000 else 0x18000
  let outside (kind start : Nat) (stride : Nat → Int) : Bool :=
    kind != 0 && (let (lo, hi) := copyReach r start stride; decide (lo < 0) || decide (space kind < hi + z))
  if n = 0 || 8 < n || 6 < bits (fieldLE r 0 1) 3 0 || cSkind r = 3 || cDkind r = 3 ||
      bits (fieldLE r 1 1) 7 2 != 0 || bits (fieldLE r 2 1) 7 2 != 0 || bits (fieldLE r 3 1) 7 2 != 0 ||
      bits (fieldLE r 6 2) 14 12 != 0 || fieldLE r 28 4 != 0 || used.any (fun d => cCount r d == 0) ||
      (cMcast r && (cDkind r == 0 || cMask r == 0)) ||
      (cSkind r = 0 && 2 ^ 48 ≤ cSrc r) || (cDkind r = 0 && 2 ^ 48 ≤ cDst r) then some cIllegalOperand
  else if bad (cSrc r) || bad (cDst r) || used.any (fun d => bad (cSstr r d) || bad (cDstr r d)) ||
      (cArv r && cDarv r % 16 != 0) then some cAlign
  else if 0xFFFFFFFF < cBytes r then some cShapeMismatch
  else if outside (cSkind r) (cSrc r) (cSstr r) || outside (cDkind r) (cDst r) (cDstr r) ||
      (cArv r && decide (98304 < cDarv r + 16)) then some cSpaceAccess
  else none

/-- The beats of a copy in walk order, or the fault of an element of it that lies where no copy may reach (R190, R191). R190 gives no order within its
item 4: the bounds and the arrival word come first, then the first element of the walk, its source before its destination (log entry 83). -/
def copyBeats (core : Nat) (r : List W8) : Except Nat (List Beat) :=
  let z := cSize r
  let cores := copyCores r core
  let step (acc : Except Nat (List Beat)) (e : Int × Int) : Except Nat (List Beat) :=
    match acc with
    | .error c => .error c
    | .ok beats =>
      match copyEnd core (cSkind r) z core e.1 with
      | .error c => .error c
      | .ok src =>
        if cDkind r = 0 then
          match copyEnd core 0 z core e.2 with
          | .error c => .error c
          | .ok d => .ok (addElement beats z src [d])
        else .ok (addElement beats z src (cores.map fun n => .buf n (cDkind r == 2) e.2.toNat))
  match (copyWalk r (cDims r) (cSrc r) (cDst r)).foldl step (.ok []) with
  | .ok beats => .ok beats.reverse
  | .error c => .error c

/-- Whether every element lies in buffers of the task's group (R188, R190 item 5). -/
def State.copyAllowed (s : State) (c : Nat) (beats : List Beat) : Bool :=
  beats.all fun b => (b.srcs.map Prod.fst ++ b.dsts).all fun e =>
    match e.core? with
    | some n => n == c || s.sameGroup c n
    | none => true

/-- The scope of a copy's release (R218), the widest of the rows that fit it: a virtual-address source is DEVICE for an immediate copy too. A translated
address counts as device memory until its translation shows host memory. -/
def copyScope (c : Nat) (beats : List Beat) (srcAddr : Bool) : Nat :=
  let dsts := beats.flatMap Beat.dsts
  if srcAddr || dsts.any (fun d => match d.core? with
    | none => true
    | some n => clusterOf n != clusterOf c) then 3
  else if dsts.any (fun d => d.core? != some c) then 1 else 0

/-- The copy that a record describes. -/
def makeCopy (x : Ctx) (h : Hdr) (id now : Nat) (r : List W8) (beats : List Beat) : Copy :=
  let immediate := beats.all fun b => b.dsts.all fun d => d.core? == some x.c
  { id := id, by_ := x.q, pc := x.x.pc, issued := now, task := x.k.task.getD 0, immediate := immediate, committed := false
    arv := cArv r, darv := cDarv r, toAddr := cDkind r == 0
    scope := copyScope x.c beats (cSkind r == 0), after := x.acquired h
    beats := beats, past := [], acks := [], due := 0 }

/-- CPY: its record read at issue as one access of two banks, its checks, and its push if it is immediate (R189 to R193, R362, R363). -/
def execCpy (h : Hdr) (a : BitVec 5) (s : State) : Host.Outcome State Fault Refusal :=
  issue h { Gate.regionOnly [.ld, .st, .ct] with uses := [a] }
    (fun x s =>
      let sa := x.reg a
      let off := sa.toNat
      if off % 128 != 0 then .trap cAlign sa
      else if 98304 < off + 128 then .trap cSpaceAccess sa
      else
        match x.k.bankConflict s.now true (banksOf off 128) s.now x.q with
        | some bk => if x.k.place x.q == .timed then .trap cBankConflict (w64 (16 + bk)) else .hold s
        | none =>
          let r := x.k.readBuf true off 128
          let s0 := s
          let s := s.modCore x.c fun k => k.claimBanks s.now true (banksOf off 128) s.now x.q
          match copyFault r with
          | some code => .trap code sa
          | none =>
            match copyBeats x.c r with
            | .error code => .trap code sa
            | .ok beats =>
              if !s.copyAllowed x.c beats then .trap cPermission sa else
              let (id, s) := s.newId
              let cp := makeCopy x h id s.now r beats
              if !cp.immediate then
                x.go (s.addAct x.c (s.now + 1) s.now x.q x.x.pc (.hold (.copy cp))) 1
              else if 64 ≤ x.k.copies.length then .hold s0
              else
                let (cp, s) := s.startCopy x.c cp
                let (due, s) := s.drawDue
                x.go (s.modCore x.c fun k => { k with copies := k.copies ++ [{ cp with due := due }] }) 1) s

/-! ### The copy engine (R193, R218) -/

/-- Whether an end of a copy is translated. -/
def CopyEnd.ready : CopyEnd → Bool
  | .mem _ (.done _ _) => true
  | .mem _ _ => false
  | .buf _ _ _ => true

/-- Whether the banks that an end needs are free in this cycle on its core (R124), or its channel has room for the request (R318). -/
def State.endFree (s : State) (e : CopyEnd) (len : Nat) : Bool :=
  match e with
  | .buf c isA off => (s.core c).banksFree s.now isA (banksOf off len)
  | .mem _ (.done pa _) => s.channelRoom pa
  | .mem _ _ => false

/-- The address of an end whose memory cannot be reached, if any (R315, R336). -/
def State.deadEnd (s : State) (e : CopyEnd) : Option Nat :=
  match e with
  | .mem _ (.done pa _) => if s.dead pa then some pa else none
  | _ => none

/-- The source piece that a beat reads next. -/
def Beat.piece (b : Beat) : Option (CopyEnd × Nat) := b.srcs[b.read]?

/-- The ends that a beat's next step touches: its next source piece, or once all are read its destinations. -/
def Beat.nextEnds (b : Beat) : List (CopyEnd × Nat) :=
  match b.piece with
  | some e => [e]
  | none => b.dsts.map fun d => (d, b.len)

/-- Whether a beat can do its next step in this cycle: the engine reads at most one source piece a cycle (R193). -/
def State.beatReady (s : State) (c : Nat) (b : Beat) : Bool :=
  !b.asked && (b.piece.isNone || (s.core c).copyAt != s.now + 1) && b.nextEnds.all fun e => e.1.ready && s.endFree e.1 e.2

/-- A copy of a core. -/
def Core.copy? (k : Core) (id : Nat) : Option Copy := k.copies.find? fun c => c.id == id

/-- The core with a copy replaced, or taken out when nothing of it is left. -/
def Core.setCopy (k : Core) (c : Copy) : Core :=
  if c.beats.isEmpty && c.acks.isEmpty then { k with copies := k.copies.filter fun x => x.id != c.id }
  else { k with copies := k.copies.map fun x => if x.id == c.id then c else x }

/-- The copy with one of its beats changed. -/
def Copy.modBeat (cp : Copy) (id : Nat) (f : Beat → Beat) : Copy :=
  { cp with beats := cp.beats.map fun b => if b.id == id then f b else b }

/-- The copy without one of its beats, whose source pieces it keeps note of. -/
def Copy.dropBeat (cp : Copy) (id : Nat) : Copy :=
  { cp with beats := cp.beats.filter fun b => b.id != id, past := cp.past ++ (cp.beats.filter fun b => b.id == id).flatMap Beat.srcs }

/-- A beat with its next source piece read. -/
def Beat.take (b : Beat) (bs : List W8) : Beat := { b with got := b.got ++ bs, read := b.read + 1, asked := false }

/-- Whether a store of a number is performed at a scope by now. -/
def State.ackDone (s : State) (id scope : Nat) : Bool :=
  (match s.stores.find? fun r => r.id == id with
   | some r => s.performedAt r scope
   | none => true) &&
  (match s.migration with
   | some m => m.held.all fun r => r.id != id
   | none => true)

/-- Beats performed at their addresses: their arrivals count in the pushing core's word, and they free the command (R193, R196). -/
def State.takeAcks (s : State) (c : Nat) (cp : Copy) : State :=
  let ready := cp.acks.filter fun a => s.ackDone a.1 cp.scope
  let rest := cp.acks.filter fun a => !s.ackDone a.1 cp.scope
  s.modCore c fun k =>
    let k := if cp.arv then ready.foldl (fun k a => k.arrive cp.darv a.2) k else k
    k.setCopy { cp with acks := rest }

/-- A source piece read: from a buffer as an engine sees it, in free bank cycles, at once; from memory by a request (R193, R205, R206). Where a source byte
lies in a range that the copy has written or will write, either value is allowed, and this reads what stands there (R191, log entry 7). -/
def State.readPiece (s : State) (c : Nat) (cp : Copy) (b : Beat) (e : CopyEnd) (len : Nat) : State :=
  let put (s : State) (f : Beat → Beat) : State :=
    let (due, s) := s.drawDue
    s.modCore c fun k => { (k.setCopy { (cp.modBeat b.id f) with due := due }) with copyAt := s.now + 1 }
  match e with
  | .buf d isA off =>
    put (s.modCore d fun k => k.claimFree s.now isA (banksOf off len)) fun b => b.take ((s.core d).viewBuf isA off len)
  | .mem va (.done pa key) =>
    (put s fun b => { b with asked := true }).engineReq c cp.task cp.pc va cp.issued cp.by_ (.copyRead cp.id b.id len) pa key false false
  | .mem _ _ => s

/-- A whole beat written: to every destination in the buffers in the same cycle, each a write access there with its arrival (R182, R193, R196); to memory by a
request. -/
def State.writeBeat (s : State) (c : Nat) (cp : Copy) (b : Beat) : State :=
  let (due, s) := s.drawDue
  match b.dsts with
  | [.mem va (.done pa key)] =>
    (s.modCore c fun k => k.setCopy { (cp.modBeat b.id fun b => { b with asked := true }) with due := due }).engineReq c cp.task cp.pc va cp.issued cp.by_
      (.copyWrite cp.id b.id (addrBytes 0 b.got)) pa key false false
  | ds =>
    let s := ds.foldl (fun s d =>
      match d with
      | .buf n isA off =>
        let s := s.modCore n fun k => (k.claimFree s.now isA (banksOf off b.len)).writeBuf isA off b.got
        if cp.arv then s.modCore (if cp.toAddr then c else n) fun k => k.arrive cp.darv b.len else s
      | .mem _ _ => s) s
    s.modCore c fun k => k.setCopy { (cp.dropBeat b.id) with due := due }

/-- A copy's request performed at memory: a piece read, or a beat written, which is acknowledged once it is performed at the copy's scope (R193, R196). -/
def State.copyServed (s : State) (c id : Nat) (f : Copy → Copy) : State :=
  match (s.core c).copy? id with
  | some cp => s.modCore c fun k => k.setCopy (f cp)
  | none => s

/-- Whether what a copy's push releases is performed (R194, R218). -/
def State.copyReleased (s : State) (c : Nat) (cp : Copy) : Bool :=
  s.accessesDone c cp.by_ cp.issued && s.storesDone c cp.by_ cp.scope &&
  s.acquiredDone c cp.after cp.scope && !(cp.immediate && s.storesHeld c cp.by_ cp.issued)

/-- Whether a copy can do something in this cycle: a beat can go on, with what its push releases performed; or a beat has been performed. -/
def State.copyReady (s : State) (c : Nat) (cp : Copy) : Bool :=
  (cp.acks.any fun a => s.ackDone a.1 cp.scope) ||
  (decide (cp.due ≤ s.now) && cp.beats.any (s.beatReady c) && s.copyReleased c cp)

/-- COPY_BEAT: a source piece of a copy read, or a beat written to its destinations, or the arrivals of beats performed at memory (R193, R196). Which of the
beats goes on is not fixed. -/
def execCopyBeat (core id : Nat) (s : State) : Host.Outcome State Fault Refusal :=
  match (s.core core).copy? id with
  | none => .refused .eventNotEnabled
  | some cp =>
    if !s.copyReady core cp then .refused .eventNotEnabled
    else if cp.acks.any fun a => s.ackDone a.1 cp.scope then .next (s.takeAcks core cp)
    else
      let ok := cp.beats.filter (s.beatReady core)
      let (v, s) := s.draw
      match ok[v % ok.length]? with
      | none => .next s
      | some b =>
        match b.nextEnds.findSome? fun e => s.deadEnd e.1 with
        | some pa =>
          let t := s.modCore core fun k => { k with copies := k.copies.filter fun x => x.id != id }
          .next (if cp.committed || (s.core core).task != some cp.task then t.machineCheck core cp.task pa
            else t.raise core
              { code := cMachineCheck, by_ := cp.by_, issued := cp.issued, pc := cp.pc, taddr := w64 pa, xkind := 3, xcode := 0 })
        | none =>
          (match b.piece with
           | some (e, len) => .next (s.readPiece core cp b e len)
           | none => .next (s.writeBeat core cp b))

end Sys2Proof.Machine
end

