-- ==== Sys2Proof/Machine/Exchange.lean ====
section
/-! DEFINITION. Transom channels: XGRANT, XSEND and XSTAT (R233 to R242, R446, R447, R449), grants and groups on their way; the words EMIT
(R330, R370, R371) and MIRR (R243, R394); and submission by tasks, TSUB and QCTL (R268, R408, R426). -/

namespace Sys2Proof.Machine

/-! ### Channels (R226, R234, R238) -/

/-- The permit of a slot: a grant held and not reserved (R234). -/
def Slot.permit (x : Slot) : Bool := x.granted && !x.reserved

/-- A set of slots as a mask. -/
def slotMask (p : Nat → Bool) : Nat := (List.range 4).foldl (fun m i => m + flag (p i) * 2 ^ i) 0

/-- A slot of an end. -/
def ChanEnd.slot (e : ChanEnd) (i : Nat) : Slot :=
  e.slots.getD i { granted := false, reserved := false, nseq := 0, off := 0, len := 0, darv := 0 }

/-- The permit count of a send end (R234). -/
def ChanEnd.permits (e : ChanEnd) : Nat := (e.slots.filter Slot.permit).length

/-- What XSTAT reads of an end (R238). -/
def ChanEnd.status (e : ChanEnd) : W64 :=
  let g := slotMask fun i => if e.receive then e.offered.any (fun o => o.1 == i) else (e.slot i).permit
  let n := (List.range 4).countP (bit g)
  let r := if e.receive then 0 else slotMask fun i => (e.slot i).reserved
  w64 (n + 2 ^ 4 * g + 2 ^ 8 * r + 2 ^ 12 * flag e.gerr + 2 ^ 13 * flag e.receive)

/-- TADDR of a permit violation (R272). -/
def permitAddr (ch slot : Nat) : W64 := w64 (16 * slot + ch)

/-- The core of a member of a task, by its rank (R31). -/
def State.memberCore (s : State) (task rank : Nat) : Option Nat := (s.task? task).bind fun t => t.cores[rank]?

/-- The checks that XGRANT and XSEND share at issue (R446, items 1 to 4): the end they name. -/
def exchangeEnd (x : Ctx) (s : State) (ch slot : Nat) (receive : Bool) (sb : W64) : Except (Nat × W64) ChanEnd :=
  if 7 < ch then .error (cIllegalOperand, x.x.curWord.setWidth 64)
  else
    match s.chanEnd x.c ch with
    | none => .error (cPermit, permitAddr ch slot)
    | some e =>
      if e.receive != receive then .error (cPermit, permitAddr ch slot)
      else if e.nslot < slot then .error (cIllegalOperand, x.x.curWord.setWidth 64)
      else if sb.toNat % 16 != 0 then .error (cAlign, sb)
      else if 98304 < sb.toNat + 16 then .error (cSpaceAccess, sb)
      else .ok e

/-- The gate of the exchange words (R235). -/
def exchangeGate (uses : List (BitVec 5)) : Gate := { Gate.regionOnly [.ct] with uses := uses }

/-- A receive end's record of a slot that an XGRANT offers, from its issue on; its grant's GSEQ is still to be read (R236, R446). -/
def ChanEnd.offer (e : ChanEnd) (slot : Nat) : ChanEnd := { e with offered := e.offered ++ [(slot, none)] }

/-- The offered slot with its grant's GSEQ. -/
def ChanEnd.offerSeq (e : ChanEnd) (slot : Nat) (g : W16) : ChanEnd :=
  { e with offered := ((e.withdraw slot).offered.filter fun o => o.1 != slot || o.2.isNone) ++ [(slot, some g)] }

/-- XGRANT (R235, R236, R446). -/
def execXgrant (h : Hdr) (a b : BitVec 5) (k : BitVec 2) (s : State) : Host.Outcome State Fault Refusal :=
  issue h (exchangeGate [a, b])
    (fun x s =>
      let ch := (x.reg a).toNat
      match exchangeEnd x s ch k.toNat true (x.reg b) with
      | .error (code, ta) => .trap code ta
      | .ok _ =>
        let s := s.modEnd x.c ch fun e => e.offer k.toNat
        x.go (s.addAct x.c (s.now + 1) s.now x.q x.x.pc (.grantRead ch k.toNat (x.reg b).toNat)) 1) s

/-- XSEND: its slot evaluated at issue (R237, R447). -/
def execXsend (h : Hdr) (a b : BitVec 5) (k : BitVec 2) (s : State) : Host.Outcome State Fault Refusal :=
  issue h (exchangeGate [a, b])
    (fun x s =>
      let ch := (x.reg a).toNat
      match exchangeEnd x s ch k.toNat false (x.reg b) with
      | .error (code, ta) => .trap code ta
      | .ok e =>
        let sl := e.slot k.toNat
        if sl.reserved then .trap cPermit (permitAddr ch k.toNat)
        else if sl.granted then
          let s := s.modEnd x.c ch fun e => e.modSlot k.toNat fun y => { y with reserved := true }
          x.go (s.addAct x.c (s.now + 1) s.now x.q x.x.pc (.sendRead ch k.toNat (x.reg b).toNat)) 1
        else if e.permits = 0 then .hold s
        else .trap cPermit (permitAddr ch k.toNat)) s

/-- XSTAT (R238, R449). -/
def execXstat (h : Hdr) (a d : BitVec 5) (s : State) : Host.Outcome State Fault Refusal :=
  issue h (exchangeGate [a, d])
    (fun x s =>
      let ch := (x.reg a).toNat
      if 7 < ch then .trap cIllegalOperand (x.x.curWord.setWidth 64)
      else
        match s.chanEnd x.c ch with
        | none => .trap cPermit (permitAddr ch 0)
        | some e => x.go (x.land s d e.status 1) 1) s

/-! ### The reads at issue + 1 (R235) -/

/-- A fixed-cycle read of the A-space by an act: the bytes, or the state in which it tries again or faults (R124). -/
def State.actRead (s : State) (c : Nat) (a : Act) (isA : Bool) (off n : Nat) : Except State (State × List W8) :=
  let k := s.core c
  match k.bankConflict s.now isA (banksOf off n) a.issued a.by_ with
  | some b =>
    let s := s.setCore c (k.putOff a s.now)
    .error (if k.inTimed then s.raise c (a.fault cBankConflict (w64 (16 * flag isA + b))) else s)
  | none => .ok (s.setCore c (k.claimBanks s.now isA (banksOf off n) a.issued a.by_), k.readBuf isA off n)

/-- The first fault of a slot descriptor (R233, R235). -/
def descriptorFault (d : List W8) : Option Nat :=
  let off := fieldLE d 0 4
  let len := fieldLE d 4 4
  let darv := fieldLE d 8 4
  if darv % 16 != 0 then some cAlign
  else if 98304 < off + len || 98304 < darv + 16 then some cSpaceAccess
  else if fieldLE d 14 2 != 0 || off % 64 != 0 || len % 64 != 0 || len == 0 || decide (98304 < len) then some cIllegalOperand
  else none

/-- The first fault of a send record (R233, R235). -/
def sendFault (d : List W8) : Option Nat :=
  let off := fieldLE d 0 4
  let n := fieldLE d 4 4
  if 98304 < off + n then some cSpaceAccess
  else if fieldLE d 8 8 != 0 || off % 64 != 0 || n % 64 != 0 || n == 0 || decide (98304 < n) then some cIllegalOperand
  else none

/-- XGRANT's descriptor read: a grant that passes leaves the core in that cycle (R235, R446). -/
def State.grantRead (s : State) (c : Nat) (a : Act) (ch slot sb : Nat) : State :=
  match s.actRead c a true sb 16 with
  | .error s => s
  | .ok (s, d) =>
    let s := s.modCore c fun k => k.dropAct a.id
    match descriptorFault d with
    | some code => (s.modEnd c ch fun e => e.withdraw slot).raise c (a.fault code (w64 sb))
    | none =>
      match s.chanEnd c ch with
      | none => s
      | some e =>
        let (id, s) := s.newId
        let g : W16 := BitVec.ofNat 16 (fieldLE d 12 2)
        let die := ((s.memberCore e.task e.peerRank).map dieOf).getD (dieOf c)
        let gr : Grant :=
          { id := id, due := s.now + dpl (dieOf c) die, task := e.task, rank := e.peerRank, ch := e.peerCh, slot := slot
            off := fieldLE d 0 4, len := fieldLE d 4 4, darv := fieldLE d 8 4, gseq := g }
        ({ s with grants := s.grants ++ [gr] }).modEnd c ch fun e => e.offerSeq slot g

/-- XSEND's record read: its entry taken, or its reservation cleared with the region (R237, R447). -/
def State.sendRead (s : State) (c : Nat) (a : Act) (ch slot sb : Nat) : State :=
  match s.actRead c a true sb 16 with
  | .error s => s
  | .ok (s, d) =>
    let n := fieldLE d 4 4
    let s := s.modCore c fun k => k.dropAct a.id
    let kind := HeldKind.send ch slot (fieldLE d 0 4) n
    match sendFault d with
    | some code => (s.unreserve c kind).raise c (a.fault code (w64 sb))
    | none =>
      let len := ((s.chanEnd c ch).map fun e => (e.slot slot).len).getD 0
      if len < n then (s.unreserve c kind).raise c (a.fault cPermit (permitAddr ch slot)) else s.takeEntry c a kind

/-! ### Grants and groups (R236, R239) -/

/-- What a grant does at its send end (R236). -/
def ChanEnd.takeGrant (e : ChanEnd) (g : Grant) : ChanEnd :=
  let sl := e.slot g.slot
  if !sl.granted && g.gseq == sl.nseq then
    e.modSlot g.slot fun x => { x with granted := true, off := g.off, len := g.len, darv := g.darv }
  else { e with gerr := e.gerr || !(g.gseq == sl.nseq - 1 || (sl.granted && g.gseq == sl.nseq)) }

/-- GRANT_ARRIVAL: a grant reaches the send end's state (R236, R241). -/
def execGrantArrival (id : Nat) (s : State) : Host.Outcome State Fault Refusal :=
  match s.grants.find? fun g => g.id == id with
  | none => .refused .eventNotEnabled
  | some g =>
    if s.now < g.due then .refused .eventNotEnabled else
    .next (({ s with grants := s.grants.filter fun x => x.id != id }).modEndOf g.task g.rank g.ch fun e => e.takeGrant g)

/-- Groups read in this cycle from their senders, as the A-space stands at the cycle's start; with the last group of a send its held entry
frees (R237, R239). -/
def State.readGroups (s : State) : State :=
  s.groups.foldl (fun s g =>
    if g.data.isSome || decide (s.now < g.readAt) then s else
    let bytes := (s.core g.sender).viewBuf true g.src g.len
    let s := { s with groups := s.groups.map fun x => if x.id == g.id then { x with data := some bytes } else x }
    if g.last then s.modCore g.sender fun k => { k with held := k.held.filter fun h => h.id != g.entry } else s) s

/-- XSEND pushed, at the end of its own task, which may have left the core (R67): its permit consumed, and its groups set out (R237, R239). -/
def State.pushSend (s : State) (c : Nat) (h : Held) (ch slot off bytes : Nat) : State :=
  match s.endOf h.task h.rank ch with
  | none => s.modCore c fun k => { k with held := k.held.filter fun x => x.id != h.id }
  | some e =>
    let sl := e.slot slot
    let t0 := Max.max s.now e.free
    let n := ceilDiv bytes 2048
    let die := ((s.memberCore e.task e.peerRank).map dieOf).getD (dieOf c)
    let groups := (List.range n).map fun g =>
      ({ id := s.nextId + g, readAt := t0 + g, due := t0 + dpl (dieOf c) die + g, task := e.task, sender := c
         src := off + 2048 * g, rank := e.peerRank, ch := e.peerCh, slot := slot, gseq := sl.nseq, off := sl.off + 2048 * g
         len := Min.min 2048 (bytes - 2048 * g), darv := sl.darv, data := none, last := g + 1 == n, entry := h.id } : Group)
    let s := { s with nextId := s.nextId + n, groups := s.groups ++ groups }
    let s := s.modEndOf h.task h.rank ch fun e =>
      { (e.modSlot slot fun x => { x with granted := false, reserved := false, nseq := x.nseq + 1 }) with free := t0 + n }
    let s := s.modCore c fun k => { k with held := k.held.map fun x => if x.id == h.id then { x with pushed := true } else x }
    s.readGroups

/-- The slot of a send that has arrived is no longer offered, unless it has been offered again (R238, R449). -/
def ChanEnd.arrived (e : ChanEnd) (slot : Nat) (g : W16) : ChanEnd :=
  { e with offered := e.offered.filter fun o => !(o.1 == slot && o.2 == some g) }

/-- TRANSOM_GROUP_LANDS: a group's bytes at the receiver, one write access for each beat, and one arrival (R239). A group whose receiver no longer
holds its core is lost (log entry 30). -/
def execTransomGroupLands (id : Nat) (s : State) : Host.Outcome State Fault Refusal :=
  match s.groups.find? fun g => g.id == id with
  | none => .refused .eventNotEnabled
  | some g =>
    match g.data with
    | none => .refused .eventNotEnabled
    | some bytes =>
      if s.now < g.due then .refused .eventNotEnabled else
      let s := { s with groups := s.groups.filter fun x => x.id != id }
      let s := if g.last then s.modEndOf g.task g.rank g.ch fun e => e.arrived g.slot g.gseq else s
      match s.memberCore g.task g.rank with
      | none => .next s
      | some c =>
        if (s.core c).task != some g.task then .next s else
        .next (s.modCore c fun k =>
          let k := (List.range (ceilDiv g.len 64)).foldl (fun k b =>
            k.writeBuf true (g.off + 64 * b) ((bytes.drop (64 * b)).take 64)) k
          k.arrive g.darv g.len)

/-! ### EMIT and MIRR -/

/-- EMIT: the checks that depend on the registers alone (R330, items 1 to 3). -/
def execEmit (h : Hdr) (a b : BitVec 5) (s : State) : Host.Outcome State Fault Refusal :=
  issue h { Gate.regionOnly [.st, .ct] with uses := [a, b] }
    (fun x s =>
      if 65535 < (x.reg a).toNat then .trap cIllegalOperand (x.x.curWord.setWidth 64)
      else
        match recordFault (x.reg b) 98304 with
        | some code => .trap code (x.reg b)
        | none =>
          x.go (s.addAct x.c (s.now + 1) s.now x.q x.x.pc (.emitRead x.q (x.reg a).toNat (x.reg b).toNat)) 1) s

/-- The first fault of an EMIT found at its header's read (R330, items 4 to 6). -/
def State.emitFault (s : State) (c session sb : Nat) (h : List W8) : Option Nat :=
  let x := s.session session
  let len := fieldLE h 8 2
  if !x.isOpen || x.owner != s.casementOf c then some cPermission
  else if len % 16 != 0 || decide (len < 16) || decide (4032 < len) || fieldLE h 10 1 != 0 || fieldLE h 11 5 != 0 ||
      (h.drop 24).any (· != 0) then some cIllegalOperand
  else if 98304 < sb + 64 + len then some cSpaceAccess
  else none

/-- EMIT's header read: frozen, and its entry taken (R330, R370, R371). -/
def State.emitRead (s : State) (c : Nat) (a : Act) (session sb : Nat) : State :=
  match s.actRead c a true sb 64 with
  | .error s => s
  | .ok (s, h) =>
    let s := s.modCore c fun k => k.dropAct a.id
    match s.emitFault c session sb h with
    | some code => s.raise c (a.fault code (w64 sb))
    | none => s.takeEntry c a (.emit session h (sb + 64) [])

/-- MIRR of a task record (R252). -/
def Task.mirr (t : Task) : Bool := bit (fieldLE t.record 1 1) 3

/-- MIRR (R243, R394). -/
def execMirr (h : Hdr) (a b : BitVec 5) (s : State) : Host.Outcome State Fault Refusal :=
  issue h { Gate.regionOnly [.st, .ct] with uses := [a, b] }
    (fun x s =>
      let (sa, sb) := ((x.reg a).toNat, (x.reg b).toNat)
      let late : Bool :=
        match x.k.mirrLast with
        | some n => decide (sb ≤ n)
        | none => false
      if 1 < sa || 2 ^ 32 ≤ sb then .trap cIllegalOperand (x.x.curWord.setWidth 64)
      else if !((s.taskOf x.c).map Task.mirr).getD false then .trap cPermission (x.reg a)
      else if x.k.mirrored || late then .trap cRegionRule 0
      else
        let s := s.modCore x.c fun k => { k with mirrored := true }
        x.go (s.addAct x.c (s.now + 1) s.now x.q x.x.pc (.hold (.mirror sa sb []))) 1) s

/-! ### TSUB and QCTL (R268) -/

/-- The first fault of the queue that TSUB or QCTL names. -/
def queueFault (x : Ctx) (s : State) (q : Nat) : Option (Nat × W64) :=
  if 255 < q then some (cIllegalOperand, x.x.curWord.setWidth 64)
  else if (s.queue q).owner != s.casementOf x.c || !(s.queue q).tctl then some (cPermission, w64 q)
  else none

/-- Free places of a queue's ring (R268). -/
def Queue.room (q : Queue) : Nat := 2 ^ q.qsz - ((q.qwr - q.qrd).toNat + q.reserved)

/-- TSUB: its place reserved at issue (R268, R426). -/
def execTsub (h : Hdr) (a b : BitVec 5) (s : State) : Host.Outcome State Fault Refusal :=
  issue h { Gate.regionOnly [.ct] with uses := [a, b] }
    (fun x s =>
      let q := (x.reg a).toNat
      let sb := (x.reg b).toNat
      match queueFault x s q with
      | some (code, ta) => .trap code ta
      | none =>
        if sb % 128 != 0 then .trap cAlign (x.reg b)
        else if 98304 < sb + 128 then .trap cSpaceAccess (x.reg b)
        else if (s.queue q).room = 0 then .hold s
        else
          let s := s.modQueue q fun y => { y with reserved := y.reserved + 1 }
          x.go (s.addAct x.c (s.now + 1) s.now x.q x.x.pc (.recordRead q sb)) 1) s

/-- The first half of TSUB's record read, and its entry taken (R268, R426). -/
def State.recordRead (s : State) (c : Nat) (a : Act) (q sb : Nat) : State :=
  match s.actRead c a true sb 64 with
  | .error s => s
  | .ok (s, bs) =>
    let id := s.nextId
    let s := (s.modCore c fun k => k.dropAct a.id).takeEntry c a (.submit q bs none)
    if (s.core c).held.any fun h => h.id == id then
      s.addAct c (s.now + 1) a.issued a.by_ a.pc (.recordRest id (sb + 64))
    else s

/-- The second half, one cycle later (R268, R426). -/
def State.recordRest (s : State) (c : Nat) (a : Act) (entry sb : Nat) : State :=
  match s.actRead c a true sb 64 with
  | .error s => s
  | .ok (s, bs) =>
    let full (k : HeldKind) : HeldKind :=
      match k with
      | .submit q first st => .submit q (first ++ bs) st
      | k => k
    s.modCore c fun k =>
      { (k.dropAct a.id) with held := k.held.map fun h => if h.id == entry then { h with kind := full h.kind } else h }

/-- QCTL: a command that reaches the hinge die a cycle later, behind that cycle's QCMD writes, for its next decision; not held (R268, R408). -/
def execQctl (h : Hdr) (a b : BitVec 5) (s : State) : Host.Outcome State Fault Refusal :=
  issue h { Gate.regionOnly [.ct] with uses := [a, b] }
    (fun x s =>
      let q := (x.reg a).toNat
      let v := (x.reg b).toNat
      match queueFault x s q with
      | some (code, ta) => .trap code ta
      | none =>
        if 3 ≤ bits v 3 0 || bits v 31 4 != 0 then .trap cIllegalOperand (x.x.curWord.setWidth 64)
        else x.go (s.addAct x.c (s.now + 1) s.now x.q x.x.pc (.command q (bits v 3 0) (BitVec.ofNat 32 (v / 2 ^ 32)))) 1) s

end Sys2Proof.Machine
end

