-- ==== Sys2Proof/Machine/Drain.lean ====
section
/-! DEFINITION. The drain of a committed region's held effects (HELD_EFFECT_DRAIN: R48, R52, R216 to R218, R239, R243, R244, R268, R330), and the
completion of a mirror area (MIRROR_AREA_COMPLETE, R244). -/

namespace Sys2Proof.Machine

/-! ### When a held effect may drain -/

/-- The fence that an entry is performed under (R216): its record, or for a release store a FULL at SYSTEM scope. -/
def Held.order (h : Held) : Option (Nat × Bool) := if h.kind.isRelease then some (4, true) else h.fence

/-- The scope at which a command's push is a release (R218). -/
def HeldKind.scope : HeldKind → Nat
  | .copy c => c.scope
  | .emit _ _ _ _ => 4
  | .store _ _ _ _ => 0
  | .remote _ _ _ _ _ => 0
  | .send _ _ _ _ => 3
  | .mirror _ _ _ => 3
  | .submit _ _ _ => 3
  | .spill _ _ _ => 3

/-- Whether two stores touch one 64-byte line, or may do so: as long as one of them is not translated, pages may be one and the same. -/
def HeldKind.sameLine (a b : HeldKind) : Bool :=
  match a, b with
  | .store _ _ (.done p _) _, .store _ _ (.done r _) _ => p / 64 == r / 64
  | .store va _ _ _, .store vb _ _ _ => va % 4096 / 64 == vb % 4096 / 64
  | .remote c i o _ _, .remote d j p _ _ => c == d && i == j && o / 64 == p / 64
  | _, _ => false

/-- Whether an entry may leave before an earlier one of its sequencer: plain stores to different lines, with no fence between
(R216). -/
def Held.mayPass (h e : Held) : Bool :=
  h.kind.isStore && e.kind.isStore && h.order.isNone && e.order.isNone && !h.kind.sameLine e.kind

/-- Whether the translations an entry needs are made, and its record is read (R48, R185, R268). -/
def HeldKind.translated : HeldKind → Bool
  | .store _ _ (.done _ _) _ => true
  | .store _ _ _ _ => false
  | .spill _ _ xl => xl.all fun x => match x with
    | .done _ _ => true
    | _ => false
  | .submit _ record st => decide (record.length = 128) && st.isNone
  | _ => true

/-- Whether the unit an entry goes to has room for it: a place of the copy engine, free banks of the remote core, or places in the queues of its channels
(R124, R193, R318). A mirror waits for the epilogue unit, as a save does (R57, R244). -/
def State.roomFor (s : State) (c : Nat) (k : HeldKind) : Bool :=
  match k with
  | .copy _ => decide ((s.core c).copies.length < 64)
  | .remote d isA _ bytes _ => (s.core d).banksFree s.now isA (bytes.map fun b => b.1 / 64 % 16)
  | .emit _ header payload got => (s.core c).banksFree s.now true (banksOf (payload + got.length) (Min.min 64 (fieldLE header 8 2 - got.length)))
  | .store _ _ (.done pa _) _ => s.channelRoom pa
  | .mirror _ _ _ => (s.core c).epi.isEmpty
  | .spill _ _ xl => xl.all fun x => match x with
    | .done pa _ => regionOf (s.forward pa) != .hbm || decide ((s.channel (channelOf (s.forward pa))).queue.length + 64 ≤ 4096)
    | _ => false
  | _ => true

/-- Whether an entry is an EMIT. -/
def HeldKind.isEmit : HeldKind → Bool
  | .emit _ _ _ _ => true
  | _ => false

/-- Whether a held entry may drain in this cycle (R52, R216, R218). A push whose cycle R240 fixes waits for nothing else, and an EMIT under way for its next
beat's bank; the EMITs of one sequencer go one after another (R371). -/
def State.drainReady (s : State) (c : Nat) (h : Held) : Bool :=
  if h.fixed then !h.pushed && decide (h.due ≤ s.now)
  else if h.pushed && h.kind.isEmit then decide (h.due ≤ s.now) && s.roomFor c h.kind else
  let earlier := ((s.core c).held.takeWhile fun e => e.id != h.id).filter fun e => e.by_ == h.by_ && (!e.pushed || (e.kind.isEmit && h.kind.isEmit))
  let scope := if h.kind.isStore then (h.order.map Prod.fst).getD 0 else Max.max h.kind.scope ((h.order.map Prod.fst).getD 0)
  let released : Bool :=
    (h.order.isNone && h.kind.isStore) ||
      (s.storesDone c h.by_ scope && s.accessesDone c h.by_ (h.released.getD 0))
  let cumulative : Bool :=
    match h.order with
    | some (f, full) => !full || decide (f < 3) || s.readsEverywhere c h.by_
    | none => true
  (match h.released with
   | some r => decide (r ≤ s.now)
   | none => false) &&
  !h.pushed && decide (h.due ≤ s.now) && h.kind.translated && s.roomFor c h.kind &&
  earlier.all h.mayPass && released && cumulative && s.acquiredDone c h.after scope

/-! ### The drain -/

/-- An entry of the store buffer freed. -/
def Core.freeHeld (k : Core) (id : Nat) : Core := { k with held := k.held.filter fun h => h.id != id }

/-- A held store to memory: to HBM4E it goes to its channel, where it is served in a slot (R313); elsewhere it is performed. An address
that cannot be reached fails the task (R315, R336). -/
def State.drainStore (s : State) (c : Nat) (h : Held) (va : Nat) (bytes : List Host.Cell) (pa key : Nat) : State :=
  let s := s.modCore c fun k => k.freeHeld h.id
  let line := pa / 64 * 64
  if s.dead line then s.machineCheck c h.task pa
  else if regionOf (s.forward line) == .hbm then
    s.engineReq c h.task h.pc (va / 64 * 64) (h.released.getD s.now) h.by_ (.store bytes) line key h.kind.isRelease true
  else s.performStoreOf h.task (dieOf c) c h.by_ key (bytes.map fun b => (line + b.1, b.2))

/-- A held store through the remote aperture: one write access of the other core's buffer (R182, R188). -/
def State.drainRemote (s : State) (c : Nat) (h : Held) (d : Nat) (isA : Bool) (bytes : List Host.Cell) : State :=
  let s := (s.modCore c fun k => k.freeHeld h.id).stampBuffer d c h.by_
  s.modCore d fun k =>
    let k := (k.claimFree s.now isA (bytes.map fun b => b.1 / 64 % 16)).writeBytes isA bytes
    if isA then (bytes.map fun b => b.1 / 1024).eraseDups.foldl (fun k b => k.touchBlocks (1024 * b) 1) k else k

/-- The lines of consecutive bytes: the address of each line, and its bytes by their offset in it. -/
def linesOfBytes (va : Nat) (bytes : List W8) : List (Nat × List Host.Cell) :=
  (List.range ((va + bytes.length + 63) / 64 - va / 64)).map fun i =>
    let line := (va / 64 + i) * 64
    let lo := Max.max va line
    (line, addrBytes (lo - line) ((bytes.drop (lo - va)).take (line + 64 - lo)))

/-- A TSPILL's image written to memory, line by line, each line a request of its own (R185, R313). -/
def State.drainSpill (s : State) (c : Nat) (h : Held) (va : Nat) (bytes : List W8) (xl : List XlState) : State :=
  let s := s.modCore c fun k => k.freeHeld h.id
  match xl.findSome? fun x => match x with
    | .done pa _ => if s.dead pa then some pa else none
    | _ => none with
  | some pa => s.machineCheck c h.task pa
  | none =>
    (linesOfBytes va bytes).foldl (fun s l =>
      match xl[l.1 / 4096 - va / 4096]? with
      | some (.done pa key) =>
        let a := pa / 4096 * 4096 + l.1 % 4096
        if regionOf (s.forward a) == .hbm then
          s.engineReq c h.task h.pc l.1 (h.released.getD s.now) h.by_ (.store l.2) a key false true
        else s.performStoreOf h.task (dieOf c) c h.by_ key (l.2.map fun b => (a + b.1, b.2))
      | _ => s) s

/-- A held entry changed. -/
def Core.modHeld (k : Core) (id : Nat) (f : Held → Held) : Core :=
  { k with held := k.held.map fun e => if e.id == id then f e else e }

/-- A chunk leaves for the endpoint on the hinge die, where it arrives behind those that its sequencer has sent before (R330, R371, R457). -/
def State.sendEmit (s : State) (c : Nat) (h : Held) (session : Nat) (header payload : List W8) : State :=
  let (id, s) := s.newId
  let (due, s) := s.drawDue
  let before := (s.chunks.filter fun x => x.core == c && x.by_ == h.by_).map Chunk.due
  let chunk : Chunk :=
    { id := id, due := before.foldl Max.max (due + hingeCross), core := c, by_ := h.by_, session := session, header := header, payload := payload
      action := ((s.task? h.task).map Task.klass) == some 0, task := h.task }
  ({ s with chunks := s.chunks ++ [chunk] }).modCore c fun k => k.freeHeld h.id

/-- The next beat of an EMIT's payload read, in a cycle in which its bank is free, as the A-space stands; behind the last, the chunk leaves (R330, R371). -/
def State.drainEmit (s : State) (c : Nat) (h : Held) (session : Nat) (header : List W8) (payload : Nat) (got : List W8) : State :=
  let len := fieldLE header 8 2
  let n := Min.min 64 (len - got.length)
  let at_ := payload + got.length
  let got := got ++ (s.core c).viewBuf true at_ n
  let s := s.modCore c fun k => k.claimFree s.now true (banksOf at_ n)
  if len ≤ got.length then s.sendEmit c h session header got else
  let (due, s) := s.drawDue
  s.modCore c fun k => k.modHeld h.id fun e => { e with pushed := true, due := due, kind := .emit session header payload got }

/-- The ends of the channels of a task's member (R234, R244). -/
def State.endsOf (s : State) (task rank : Nat) : List ChanEnd := s.chanEnds.filter fun e => e.task == task && e.rank == rank

/-- The sequence of the last MIRR pushed by a member of a task: on the core that holds the member, or where it waits for its resume (R243). -/
def State.noteMirr (s : State) (task rank seq : Nat) : State :=
  let s := s.modTask task fun t => { t with savedCores := t.savedCores.map fun x => if x.rank == rank then { x with mirrLast := some seq } else x }
  match s.memberCore task rank with
  | some c => s.modCore c fun k => if k.task = some task then { k with mirrLast := some seq } else k
  | none => s

/-- A MIRR pushed to an area of its task: the area is incomplete while it is written, over the crossing to the hinge die (R243, R244, R457). -/
def State.drainMirror (s : State) (c : Nat) (h : Held) (area seq : Nat) (img : Cells) : State :=
  let s := s.modCore c fun k => k.freeHeld h.id
  if (s.task? h.task).isNone then s else
  let (due, s) := s.drawDue
  let new_ : MirrorArea :=
    { core := c, task := h.task, area := area, complete := false, seq := seq, img := img, ends := s.endsOf h.task h.rank
      known := (s.core c).known, due := due + hingeCross }
  let s := { s with mirrors := (s.mirrors.filter fun (m : MirrorArea) => !(m.core == c && m.task == h.task && m.area == area)) ++ [new_] }
  s.noteMirr h.task h.rank seq

/-- TSUB's drain that a fault of its translation ends: the place is given back, and the task fails (R268, log entries 32 and 33). -/
def State.submitFails (s : State) (c : Nat) (h : Held) (addr : Nat) : State :=
  (((s.unreserve c h.kind).modCore c fun k => k.freeHeld h.id)).machineCheck c h.task addr

/-- TSUB's record written to the queue's ring, and its index advanced (R268). A stage-2 fault stalls it, and is reported (R292); an action-class task never
stalls (R294). A thermal hold, and a want of power units, make it wait (R318, R345). -/
def State.drainSubmit (s : State) (c : Nat) (h : Held) (q : Nat) (record : List W8) : State :=
  let x := s.queue q
  let va := x.qbase.toNat / 4096 % 2 ^ 36 * 4096 + 128 * (x.qwr.toNat % 2 ^ x.qsz)
  let later (s : State) (hot : Bool) : State := (s.modCore c fun k => k.modHeld h.id fun e => { e with due := s.now + 1 }).markIfHot h.task hot
  match s.translateFor x.owner va .store with
  | .error (s, .wait hot) => later s hot
  | .error (s, .s2 ipa code) =>
    if ((s.task? h.task).map Task.klass) == some 0 then (s.reportAccess 16 ipa va c 2 code .nothing).submitFails c h va
    else
      (s.modCore c fun k => k.modHeld h.id fun e => { e with kind := .submit q record (some va) }).reportAccess 16 ipa va c 2 code (.heldEntry c h.id)
  | .error (s, .check pa) => s.submitFails c h pa
  | .error (s, _) => s.submitFails c h va
  | .ok (s, e) =>
    -- R294: an action-class task's page must be pinned
    if ((s.task? h.task).map Task.klass) == some 0 && !e.pin then (s.reportS2 c va 2 (e.unpinned va)).submitFails c h va else
    match s.touch x.owner (e.paOf va) e.key 128 true with
    | .wait hot => later s hot
    | .check s pa => s.submitFails c h pa
    | .ok s =>
      let s := s.performStoreOf h.task (dieOf c) c h.by_ e.key (addrBytes (e.paOf va) record)
      let s := s.modQueue q fun y => { y with qwr := y.qwr + 1, reserved := y.reserved - 1 }
      s.modCore c fun k => k.freeHeld h.id

/-- A held copy pushed to the copy engine (R192, R193). -/
def State.drainCopy (s : State) (c : Nat) (h : Held) (cp : Copy) : State :=
  let (due, s) := s.drawDue
  s.modCore c fun k =>
    { (k.freeHeld h.id) with copies := k.copies ++ [{ cp with committed := true, issued := s.now, after := h.after, due := due }] }

/-- A held effect leaves the store buffer. -/
def State.drain (s : State) (c : Nat) (h : Held) : State :=
  match h.kind with
  | .store va bytes (.done pa key) _ => s.drainStore c h va bytes pa key
  | .store _ _ _ _ => s
  | .remote d isA _ bytes _ => s.drainRemote c h d isA bytes
  | .copy cp => s.drainCopy c h cp
  | .send ch slot off bytes => s.pushSend c h ch slot off bytes
  | .emit session header payload got => s.drainEmit c h session header payload got
  | .mirror area seq img => s.drainMirror c h area seq img
  | .submit q record _ => s.drainSubmit c h q record
  | .spill va bytes xl => s.drainSpill c h va bytes xl

/-- HELD_EFFECT_DRAIN: a held effect is performed, or pushed (R216). -/
def execHeldEffectDrain (core id : Nat) (s : State) : Host.Outcome State Fault Refusal :=
  match (s.core core).held.find? fun (h : Held) => h.id == id with
  | none => .refused .eventNotEnabled
  | some h => if s.drainReady core h then .next (s.drain core h) else .refused .eventNotEnabled

/-- MIRROR_AREA_COMPLETE: the last beat of a MIRR has landed (R244). -/
def execMirrorAreaComplete (core area : Nat) (s : State) : Host.Outcome State Fault Refusal :=
  match s.mirrors.find? fun m => m.core == core && m.area == area && !m.complete && m.due != 0 && decide (m.due ≤ s.now) with
  | none => .refused .eventNotEnabled
  | some m =>
    .next { s with mirrors := s.mirrors.map fun x => if x.core == core && x.area == area && x.task == m.task then { x with complete := true, due := 0 } else x }

end Sys2Proof.Machine
end

