-- ==== Sys2Proof/Machine/Matrix.lean ====
section
/-! DEFINITION. The operand streams of the engines (R169, R134) and the matrix engine: the word MMA (R162, R163, R395, R396) and the steps of
a command (R145, R146, R159, R164 to R166). -/

namespace Sys2Proof.Machine

/-! ### Operand streams (R169) -/

/-- Beats sampled by a command: space, number of the aligned 64-byte block, bytes. -/
abbrev Beats := List (Bool × Nat × List W8)

/-- A sampled byte of a space. -/
def Beats.byte (bs : Beats) (isA : Bool) (off : Nat) : W8 :=
  match bs.find? fun b => b.1 == isA && b.2.1 == off / 64 with
  | some b => b.2.2.getD (off % 64) 0
  | none => 0

/-- The bit of element (i, j) of a shape in its space (R120, R131). -/
def hBit (r : BitVec 512) (i j : Nat) : Nat := 8 * (hBase r + i * hStride r) + j * fmtWidth (hFmt r)

/-- The scale byte of element (i, j) (R120). -/
def hScaleByte (r : BitVec 512) (i j : Nat) : Nat := hSbase r + i / hKb r * hSstride r + j / hNb r

/-- The beats from one byte to another. -/
def beatsBetween (isA : Bool) (lo hi : Nat) : List (Bool × Nat) :=
  (span (lo / 64) (hi / 64 - lo / 64 + 1)).map fun b => (isA, b)

/-- The beats that hold the elements of some rows from column `j` on, `n` columns. -/
def elementBeats (isA : Bool) (r : BitVec 512) (rows : List Nat) (j n : Nat) : List (Bool × Nat) :=
  rows.flatMap fun i =>
    beatsBetween isA (hBit r i j / 8) ((hBit r i (j + n) - 1) / 8)

/-- The beats that hold the scale bytes of those elements. -/
def scaleBeats (isA : Bool) (r : BitVec 512) (rows : List Nat) (j n : Nat) : List (Bool × Nat) :=
  if hScl r then rows.flatMap fun i => beatsBetween isA (hScaleByte r i j) (hScaleByte r i (j + n - 1)) else []

/-- Beats read as one access of a command: those it has not sampled yet, or the first bank that another word's access holds in this cycle
(R124, R169). -/
def Core.sampleBeats (k : Core) (now issued : Nat) (have_ : Beats) (want : List (Bool × Nat)) :
    Except (Bool × Nat) (Core × Beats) :=
  let fresh := want.eraseDups.filter fun w => !(have_.any fun b => b.1 == w.1 && b.2.1 == w.2)
  match fresh.findSome? fun w => (k.bankConflict now w.1 [w.2 % 16] issued .cm).map fun b => (w.1, b) with
  | some hit => .error hit
  | none =>
    .ok (fresh.foldl (fun k w => k.claimBanks now w.1 [w.2 % 16] issued .cm) k,
      have_ ++ fresh.map fun w => (w.1, w.2, k.readBuf w.1 (64 * w.2) 64))

/-- The code of element (i, j) of a shape, from sampled beats (R131). -/
def shapeCode (bs : Beats) (isA : Bool) (r : BitVec 512) (i j : Nat) : Nat :=
  let w := fmtWidth (hFmt r)
  let p := hBit r i j
  leNat ((span (p / 8) ((p % 8 + w + 7) / 8)).map (bs.byte isA)) / 2 ^ (p % 8) % 2 ^ w

/-- The scale code of element (i, j), if the shape has scales. -/
def shapeScale (bs : Beats) (isA : Bool) (r : BitVec 512) (i j : Nat) : Option Nat :=
  if hScl r then some (bs.byte isA (hScaleByte r i j)).toNat else none

/-- A value under its scale, with input flushing before it (R133, R134, R141). -/
def scaled (fl : Bool) (scale : Option Nat) (v : Val) : Val × Status :=
  match scale with
  | none => v.input fl
  | some 0 => (.zero false, 0)
  | some 255 => (.nan, Status.nanin)
  | some c =>
    let (x, st) := v.input fl
    (x.scale ((c : Int) - 127), st)

/-- The scaled value of element (i, j) of a shape (R134). -/
def shapeValue (bs : Beats) (isA fl : Bool) (cb : List W16) (r : BitVec 512) (i j : Nat) : Val × Status :=
  scaled fl (shapeScale bs isA r i j) ((Fmt.ofCode (hFmt r)).value cb (shapeCode bs isA r i j))

/-- The exact sum of values (R146): a NaN among them makes it a NaN; infinities of both signs make it one and set NV; it is −0 only when every
one of them is −0. -/
def exactSum (vs : List Val) : Val × Status :=
  if vs.any Val.isNan then (.nan, 0)
  else
    match vs with
    | [] => (.zero false, 0)
    | v :: rest => rest.foldl (fun (a, st) b => let (x, s) := a.add b; (x, st ||| s)) (v, 0)

/-- An accumulator after an addition with one rounding (R146). The accumulator's own NaN counts as an input only where `reads` says that the
command has not written it yet (R143). -/
def accumulate (fl reads : Bool) (c : W32) (s : Val) : W32 × Status :=
  let (x, sx) := fpIn fl c
  let sx := if reads then sx else sx &&& ~~~Status.nanin
  let (z, sz) := x.add s
  let (w, sw) := rne32 fl z
  (w, sx ||| sz ||| sw)

/-! ### The C space (R167) -/

/-- The offset of position (m, n) of an accumulator shape in its bank. -/
def cOffset (r : BitVec 512) (m n : Nat) : Nat := hBase r + m * hStride r + 4 * n

/-- Whether an accumulator shape covers an offset of the bank. -/
def cCovers (r : BitVec 512) (off : Nat) : Bool :=
  decide (hBase r ≤ off) && decide ((off - hBase r) % hStride r < 4 * hCols r) &&
    decide ((off - hBase r) / hStride r < hRows r)

/-- The bank with an accumulator shape cleared, and its sticky bits (R147, R164, R181). -/
def Bank.clearShape (b : Bank) (r : BitVec 512) : Bank :=
  { acc := b.acc.filter fun e => !cCovers r e.1, sticky := 0 }

/-- The bank with positions updated one by one, the status gathered (R147). -/
def Bank.update (b : Bank) (offs : List (Nat × Nat × Nat)) (f : Nat → Nat → W32 → W32 × Status) : Bank :=
  offs.foldl (fun b (m, n, off) =>
    let (v, st) := f m n (b.get off)
    { (b.set off v) with sticky := b.sticky ||| st }) b

/-- The positions of a tile of an accumulator shape: rows from `m`, columns from `n`. -/
def tilePositions (r : BitVec 512) (m rows n cols : Nat) : List (Nat × Nat × Nat) :=
  (span m (Min.min rows (hRows r - m))).flatMap fun i =>
    (span n (Min.min cols (hCols r - n))).map fun j => (i, j, cOffset r i j)

/-! ### Commands that wait and run (R159) -/

/-- A fault of a command, delivered against CM (R161). -/
def commandFault (pc issued code : Nat) (taddr : W64) : FaultRec :=
  { code := code, by_ := .cm, issued := issued, pc := pc, taddr := taddr, xkind := 0, xcode := 0 }

/-- k per step of an operand format (R145). -/
def kPerStep (fmt : Nat) : Nat :=
  if fmt ≤ 2 || fmt = 7 || fmt = 0xC || fmt = 0xD then 1
  else if fmt = 6 || fmt = 0xA || fmt = 0xB || fmt = 0xE || fmt = 0xF then 4 else 2

/-- k per step of an MMA. -/
def MmaCmd.kstep (m : MmaCmd) : Nat := Min.min (kPerStep (hFmt m.recA)) (kPerStep (hFmt m.recB))

/-- Cycles per step (R145). -/
def MmaCmd.cyc (m : MmaCmd) : Nat := if hFmt m.recA = 0 || hFmt m.recB = 0 then 4 else 1

/-- P of R165. -/
def MmaCmd.steps (m : MmaCmd) : Nat := ceilDiv (hCols m.recA) m.kstep

/-- Tiles along N. -/
def MmaCmd.tilesN (m : MmaCmd) : Nat := ceilDiv (hCols m.recC) 64

/-- T of R165. -/
def MmaCmd.tiles (m : MmaCmd) : Nat := ceilDiv (hRows m.recC) 32 * m.tilesN

/-- L of R165. -/
def MmaCmd.tileLen (m : MmaCmd) : Nat := m.steps * m.cyc + flag m.rs

/-- The cycle of the next step (R165), with what serialised reads have added (R169). -/
def MmaCmd.stepAt (m : MmaCmd) (start : Nat) : Nat :=
  start + m.tile * m.tileLen + flag m.rs + m.step * m.cyc + m.delay

/-- The cycle in which a command ends, once its last step is done; it completes six cycles later (R165). -/
def MmaCmd.endAt (m : MmaCmd) : Option Nat := m.done.map (· - 6)

/-- Whether a command of the matrix engine still holds one of its two places. -/
def MmaCmd.open_ (m : MmaCmd) (now : Nat) : Bool :=
  match m.endAt with
  | some e => decide (now < e)
  | none => true

/-- The sixteenths an MMA needs above a tokened region's 50: by its operands' class, which its k per step tells (R344, R345). Where the formats of A and B
are of different classes R344 names no row: the class is that of the slower one, whose k per step the command runs at (DESIGN CHOICE, log entry 52). -/
def MmaCmd.extra (m : MmaCmd) : Nat := if m.kstep = 1 then 0 else if m.kstep = 2 then 18 else 25

/-- The first fault of an MMA's records (R163): its code and the record it is raised against. -/
def mmaFault (rs : Bool) (c a b : Nat) (rc ra rb : BitVec 512) : Option (Nat × Nat) :=
  if hSpace ra != 0 then some (cSpaceAccess, a)
  else if hSpace rb != 1 then some (cSpaceAccess, b)
  else if hSpace rc != 2 then some (cSpaceAccess, c)
  else if 12 ≤ hFmt ra then some (cIllegalOperand, a)
  else if hCols ra != hRows rb || hKoff ra != hKoff rb then some (cShapeMismatch, b)
  else if hRows rc != hRows ra || hCols rc != hCols rb || hScl rc || (rs && decide (16 < hRows rc)) then
    some (cShapeMismatch, c)
  else none

/-- A shape record of a core. -/
def Core.shape (k : Core) (n : Nat) : BitVec 512 := k.shapes.getD n 0

/-- The gate of an engine command (R58, R97). -/
def engineGate (bad : Bool) (uses : List (BitVec 5)) : Gate :=
  { Gate.regionOnly [.cm] with operandBad := bad, uses := uses }

/-- MMA: what its issue checks and samples (R162 to R164, R395). Z and RS set together are no word (R162). -/
def execMma (h : Hdr) (c a b : BitVec 5) (z f r : Bool) (s : State) : Host.Outcome State Fault Refusal :=
  issue h { engineGate (15 < c.toNat || 15 < a.toNat || 15 < b.toNat) [] with illegalOp := z && r }
    (fun x s =>
      let k := x.k
      let (rc, ra, rb) := (k.shape c.toNat, k.shape a.toNat, k.shape b.toNat)
      if 2 ≤ (k.mma.filter fun m => m.open_ s.now).length then .hold s else
      match mmaFault r c.toNat a.toNat b.toNat rc ra rb with
      | some (code, n) => .trap code (w64 n)
      | none =>
        let m : MmaCmd :=
          { pc := x.x.pc, issued := s.now, z := z, f := f, rs := r, recA := ra, recB := rb, recC := rc
            cb := k.codebook
            alpha := (List.range 16).map fun i => (k.tileRow (bits k.mrs.toNat 3 0) i).getD 1 0
            flushing := k.flushing, start := none, delay := 0, tile := 0, step := 0, sampled := [], done := none, units := 0 }
        x.go (s.modCore x.c fun k => { k with mma := k.mma ++ [m] }) 1) s

/-- The accumulators at the start of an MMA: cleared under Z, rescaled under RS (R164). -/
def MmaCmd.prepare (m : MmaCmd) (b : Bank) : Bank :=
  let b := if m.z then b.clearShape m.recC else b
  if m.rs then
    b.update (tilePositions m.recC 0 (hRows m.recC) 0 (hCols m.recC)) fun i _ v => fpMul m.flushing v (m.alpha.getD i 0)
  else b

/-- A command of the matrix engine starts (R159, R164): when the command before it has ended, two cycles after its issue, and with the power
its class needs (R345). None while it may not. -/
def State.startMatrix (s : State) (c : Nat) : Option State :=
  let k := s.core c
  match k.mma.find? fun m => m.start.isNone with
  | none => none
  | some m =>
    let before := k.mma.takeWhile fun x => x.start.isSome
    if before.any (fun x => x.open_ s.now) || decide (s.now < m.issued + 2) then none else
    let need := if k.timed then 0 else m.extra
    (s.takeUnits c need).map fun s => s.modCore c fun k =>
      let m' := { m with start := some s.now, units := need }
      { (k.setBank k.work (m.prepare (k.bank k.work))) with
        mma := before ++ m' :: k.mma.drop (before.length + 1) }

/-- The step under way of the matrix engine's running command. -/
def Core.runningMma (k : Core) : Option (MmaCmd × Nat) :=
  (k.mma.find? fun m => m.start.isSome && m.done.isNone).bind fun m => m.start.map fun st => (m, st)

/-- The core with its running MMA replaced. -/
def Core.setMma (k : Core) (m : MmaCmd) : Core :=
  { k with mma := k.mma.map fun x => if x.start.isSome && x.done.isNone then m else x }

/-- The positions of the current tile (R164). -/
def MmaCmd.positions (m : MmaCmd) : List (Nat × Nat × Nat) :=
  tilePositions m.recC (32 * (m.tile / m.tilesN)) 32 (64 * (m.tile % m.tilesN)) 64

/-- The beats that the current step uses (R169). -/
def MmaCmd.wanted (m : MmaCmd) : List (Bool × Nat) :=
  let m0 := 32 * (m.tile / m.tilesN)
  let n0 := 64 * (m.tile % m.tilesN)
  let k0 := m.step * m.kstep
  let nk := Min.min m.kstep (hCols m.recA - k0)
  let rows := span m0 (Min.min 32 (hRows m.recA - m0))
  let nn := Min.min 64 (hCols m.recB - n0)
  elementBeats true m.recA rows k0 nk ++ scaleBeats true m.recA rows k0 nk ++
    elementBeats false m.recB (span k0 nk) n0 nn ++ scaleBeats false m.recB (span k0 nk) n0 nn

/-- s(m, n, k0) of R146, and the status of its operands and products. -/
def MmaCmd.stepSum (m : MmaCmd) (a b : Nat → Nat → Val × Status) (i j : Nat) : Val × Status :=
  let k0 := m.step * m.kstep
  let ps := (span k0 (Min.min m.kstep (hCols m.recA - k0))).map fun k =>
    let (x, sx) := a i k
    let (y, sy) := b k j
    let (p, sp) := x.mul y
    (p, sx ||| sy ||| sp)
  let (v, st) := exactSum (ps.map Prod.fst)
  (v, ps.foldl (fun t p => t ||| p.2) st)

/-- The bank after one step (R164). -/
def MmaCmd.apply (m : MmaCmd) (b : Bank) : Bank :=
  let va (i k : Nat) : Val × Status := shapeValue m.sampled true m.flushing m.cb m.recA i k
  let vb (k j : Nat) : Val × Status := shapeValue m.sampled false m.flushing m.cb m.recB k j
  b.update m.positions fun i j c =>
    let (v, st) := m.stepSum va vb i j
    let (w, sw) := accumulate m.flushing (m.step == 0 && !m.rs) c v
    (w, st ||| sw)

/-- The command after one step: the next step, the next tile, or its end (R165). -/
def MmaCmd.next (m : MmaCmd) (start : Nat) : MmaCmd :=
  if m.step + 1 < m.steps then { m with step := m.step + 1 }
  else
    let m := { m with step := 0, tile := m.tile + 1, sampled := [] }
    if m.tile < m.tiles then m else { m with done := some (start + m.tiles * m.tileLen + m.delay + 6) }

/-- MMA_STEP: the step of the running MMA that is due, or its delay by a bank's serialisation (R164, R165, R169). -/
def execMmaStep (core : Nat) (s : State) : Host.Outcome State Fault Refusal :=
  let k := s.core core
  match k.runningMma with
  | none => .refused .eventNotEnabled
  | some (m, start) =>
    if s.now < m.stepAt start then .refused .eventNotEnabled else
    match k.sampleBeats s.now m.issued m.sampled m.wanted with
    | .error (isA, b) =>
      let s := s.setCore core (k.setMma { m with delay := m.delay + 1 })
      if k.inTimed then .next (s.raise core (commandFault m.pc m.issued cBankConflict (w64 (16 * flag isA + b)))) else .next s
    | .ok (k, beats) =>
      let m := { m with sampled := beats }
      .next (s.setCore core ((k.setBank k.work (m.apply (k.bank k.work))).setMma (m.next start)))

/-- MMA_COMPLETE: the final accumulations have landed; F marks the bank for the flip, and the extra power returns (R165, R52, R25). -/
def execMmaComplete (core : Nat) (s : State) : Host.Outcome State Fault Refusal :=
  match (s.core core).mma with
  | m :: rest =>
    match m.done with
    | some d =>
      if s.now < d then .refused .eventNotEnabled else
      .next ((s.giveUnits core m.units).modCore core fun k => { k with mma := rest, flip := k.flip || m.f })
    | none => .refused .eventNotEnabled
  | [] => .refused .eventNotEnabled

end Sys2Proof.Machine
end

