-- ==== Sys2Proof/Machine/Lookup.lean ====
section
/-! DEFINITION. The lookup engine (R176 to R185): the words LMMA (R179, R389, R390), TBUILD (R176, R177, R423), TINV, TSPILL and TFILL (R185,
R424) and CBLD (R178, R360), and the steps of their commands. -/

namespace Sys2Proof.Machine

/-! ### Table registers (R176, R183) -/

/-- A table register of a core. -/
def Core.table (k : Core) (q : Nat) : Table := k.tables.getD q Table.none

/-- The core with a table register replaced. -/
def Core.setTable (k : Core) (q : Nat) (t : Table) : Core := { k with tables := putAt k.tables Table.none q t }

/-- The k indices that a mode covers (R176). -/
def tableCols (mode : Nat) : Nat := if mode = 1 then 16 else 64

/-- The lowest A-space byte of a shape's elements and scale plane, and one above the highest (R177). -/
def hExtent (r : BitVec 512) : Nat × Nat :=
  if hScl r then (Min.min (hBase r) (hSbase r), Max.max (hEnd r) (hScaleEnd r)) else (hBase r, hEnd r)

/-- The first block of a shape's span and the number of blocks (R177). -/
def hSpan (r : BitVec 512) : Nat × Nat :=
  let (lo, hi) := hExtent r
  (lo / 1024, (hi - 1) / 1024 - lo / 1024 + 1)

/-- A block's counter (R182). -/
def Core.blockCount (k : Core) (b : Nat) : Nat := (keyGet k.blocks b).getD 0

/-! ### Commands (R159) -/

/-- The cycle in which a command of the lookup engine ends: an LMMA six cycles before its completion (R181), the others at it. -/
def LookupCmd.endAt (m : LookupCmd) : Option Nat :=
  match m.kind with
  | .lmma _ _ _ _ _ _ => m.done.map (· - 6)
  | _ => m.done

/-- Whether a command of the lookup engine still holds one of its two places. -/
def LookupCmd.open_ (m : LookupCmd) (now : Nat) : Bool :=
  match m.endAt with
  | some e => decide (now < e)
  | none => true

/-- The sixteenths a command needs above a tokened region's 50 (R345): LMMA and TBUILD are of the lookup class. -/
def LookupKind.extra : LookupKind → Nat
  | .lmma _ _ _ _ _ _ => 18
  | .tbuild _ _ _ _ _ => 18
  | _ => 0

/-- A command pushed to the lookup engine, if it has a place (R159). -/
def Ctx.pushLookup (x : Ctx) (s : State) (kind : LookupKind) : Iss :=
  let (id, s) := s.newId
  let m : LookupCmd :=
    { id := id, pc := x.x.pc, issued := s.now, kind := kind, flushing := x.k.flushing, start := none, delay := 0
      tile := 0, step := 0, plane := 0, sampled := [], got := [], st := 0, head := [], snap := none, xl := [], asked := 0, done := none
      units := 0 }
  x.go (s.modCore x.c fun k => { k with lookup := k.lookup ++ [m] }) 1

/-- Whether both places of the lookup engine are full (R159). -/
def Core.lookupFull (k : Core) (now : Nat) : Bool := decide (2 ≤ (k.lookup.filter fun m => m.open_ now).length)

/-- The lookup engine's running command, with its start. -/
def Core.runningLookup (k : Core) : Option (LookupCmd × Nat) :=
  (k.lookup.find? fun m => m.start.isSome && m.done.isNone).bind fun m => m.start.map fun st => (m, st)

/-- The core with a command of the lookup engine replaced. -/
def Core.setLookup (k : Core) (m : LookupCmd) : Core :=
  { k with lookup := k.lookup.map fun x => if x.id == m.id then m else x }

/-- The core without a command of its lookup engine. -/
def Core.popLookup (k : Core) (m : LookupCmd) : Core := { k with lookup := k.lookup.erase m }

/-- The first command that is complete by now: one behind an LMMA may complete before it (R165, R181, R185). -/
def Core.endedLookup (k : Core) (now : Nat) : Option LookupCmd :=
  k.lookup.find? fun m =>
    match m.done with
    | some d => decide (d ≤ now)
    | none => false

/-! ### LMMA -/

/-- Whether a weight format indexes a Z table, plane by plane (R179). -/
def wPlanes (fmt : Nat) : Nat := if fmt = 0xB || fmt = 0xA then 4 else if fmt = 8 then 8 else 1

/-- Whether a weight format is one of R179's table. -/
def wAllowed (fmt : Nat) : Bool :=
  fmt == 0xB || fmt == 0xA || fmt == 8 || fmt == 0xE || fmt == 0xC || fmt == 0xD || fmt == 0xF

/-- Whether it needs a Z table. -/
def wIsZ (fmt : Nat) : Bool := fmt == 0xB || fmt == 0xA || fmt == 8 || fmt == 0xE

/-- kL of R179. -/
def wStep (fmt : Nat) : Nat := if wIsZ fmt then 16 else 4

/-- The weight of a plane (R179). -/
def wPlaneWeight (fmt p : Nat) : Int :=
  if fmt = 0xE then 2
  else if fmt = 0xA && p = 3 then -8
  else if fmt = 8 && p = 7 then -128
  else if wIsZ fmt then 2 ^ p else 1

/-- The first fault of LMMA's records at its issue (R179, R390). -/
def lmmaFault (c w : Nat) (rc rw : BitVec 512) : Option (Nat × Nat) :=
  if hSpace rw != 1 then some (cSpaceAccess, w)
  else if hSpace rc != 2 then some (cSpaceAccess, c)
  else if hRows rc != 16 || hCols rc != hCols rw then some (cShapeMismatch, c)
  else if !wAllowed (hFmt rw) then some (cIllegalOperand, w)
  else none

/-- The first fault of an LMMA at S, against the table as it then stands (R179, R180, R390). -/
def lmmaStartFault (t : Table) (q w : Nat) (rw : BitVec 512) : Option (Nat × Nat) :=
  let fmt := hFmt rw
  if wIsZ fmt != (t.mode == 0) || t.mode == 3 then some (cShapeMismatch, q)
  else if hRows rw % wStep fmt != 0 || (hScl rw && hKb rw % wStep fmt != 0) then some (cShapeMismatch, w)
  else if hKoff rw < t.koff || t.koff + tableCols t.mode < hKoff rw + hRows rw ||
      (t.mode == 0 && (hKoff rw - t.koff) % 4 != 0) then some (cIndexRange, q)
  else none

/-- LMMA: what its issue checks and samples (R179, R389, R390). -/
def execLmma (h : Hdr) (c q w : BitVec 5) (z f : Bool) (s : State) : Host.Outcome State Fault Refusal :=
  issue h (engineGate (15 < c.toNat || 3 < q.toNat || 15 < w.toNat) [])
    (fun x s =>
      if x.k.lookupFull s.now then .hold s else
      let (rc, rw) := (x.k.shape c.toNat, x.k.shape w.toNat)
      match lmmaFault c.toNat w.toNat rc rw with
      | some (code, n) => .trap code (w64 n)
      | none => x.pushLookup s (.lmma z f q.toNat w.toNat rc rw)) s

/-- Entry (m, i, j) of a table, i the group or k index within it (R176). -/
def tableEntry (mode : Nat) (body : Array W32) (m i j : Nat) : W32 :=
  body.getD (if mode = 2 then (m * 64 + i) * 4 + j else (m * 16 + i) * 16 + j) 0

/-- The code of group or element `g` of column n in one lookup: plane p of four weights, or one weight's code (R181). -/
def lookupCode (bs : Beats) (rw : BitVec 512) (step p g n : Nat) : Nat :=
  if wIsZ (hFmt rw) then
    (List.range 4).foldl (fun a i => a + shapeCode bs false rw (4 * (4 * step + g) + i) n / 2 ^ p % 2 * 2 ^ i) 0
  else shapeCode bs false rw (4 * step + g) n

/-- x of R181 for one position, and the status of its operands. -/
def lookupValue (fl : Bool) (t : Table) (body : Array W32) (rw : BitVec 512) (bs : Beats) (step p m n : Nat) : Val × Status :=
  let fmt := hFmt rw
  let d := if t.mode = 0 then (hKoff rw - t.koff) / 4 else hKoff rw - t.koff
  let entry (g j : Nat) : Val × Status := fpIn fl (tableEntry t.mode body m (d + 4 * step + g) j)
  let es := (List.range 4).map fun g =>
    let code := lookupCode bs rw step p g n
    if t.mode = 0 && code = 0 then (Val.zero false, (0 : Status)) else entry g code
  let cs := (List.range 4).map fun g => if fmt = 0xE then entry g 0 else (Val.zero false, (0 : Status))
  let (v, st) := exactSum ((es ++ cs).map Prod.fst)
  let st := (es ++ cs).foldl (fun a e => a ||| e.2) st
  let (v, _) := v.mul (Val.ofInt (wPlaneWeight fmt p))
  match shapeScale bs false rw (wStep fmt * step) n with
  | none => (v, st)
  | some 0 => (.zero false, 0)
  | some 255 => (.nan, Status.nanin)
  | some c => (v.scale ((c : Int) - 127), st)

/-- Lookup cycles of one tile's step count (R181). -/
def lmmaSteps (rw : BitVec 512) : Nat := hRows rw / wStep (hFmt rw)

/-- The cycle of a running LMMA's next lookup (R181). -/
def LookupCmd.lookupAt (m : LookupCmd) (rw : BitVec 512) (start : Nat) : Nat :=
  start + (m.tile * lmmaSteps rw + m.step) * wPlanes (hFmt rw) + m.plane + m.delay

/-- The command after one lookup cycle (R181). -/
def LookupCmd.nextLookup (m : LookupCmd) (rw : BitVec 512) (now : Nat) : LookupCmd :=
  if m.plane + 1 < wPlanes (hFmt rw) then { m with plane := m.plane + 1 }
  else if m.step + 1 < lmmaSteps rw then { m with plane := 0, step := m.step + 1 }
  else
    let m := { m with plane := 0, step := 0, tile := m.tile + 1, sampled := [] }
    if m.tile < ceilDiv (hCols rw) 64 then m else { m with done := some (now + 7) }

/-- The beats of the weights that a lookup uses (R169). -/
def LookupCmd.wantedWeights (m : LookupCmd) (rw : BitVec 512) : List (Bool × Nat) :=
  let k := wStep (hFmt rw)
  let n0 := 64 * m.tile
  let nn := Min.min 64 (hCols rw - n0)
  elementBeats false rw (span (k * m.step) k) n0 nn ++ scaleBeats false rw [k * m.step] n0 nn

/-- LMMA_LOOKUP: one step and plane of the running LMMA (R181, R183, R390). -/
def execLmmaLookup (core : Nat) (s : State) : Host.Outcome State Fault Refusal :=
  let k := s.core core
  match k.runningLookup with
  | none => .refused .eventNotEnabled
  | some (m, start) =>
    match m.kind with
    | .lmma _ _ q _ rc rw =>
      if s.now < m.lookupAt rw start then .refused .eventNotEnabled else
      let t := k.table q
      let late := s.setCore core (k.setLookup { m with delay := m.delay + 1 })
      let fault (code : Nat) (ta : W64) : Host.Outcome State Fault Refusal :=
        .next (late.raise core (commandFault m.pc m.issued code ta))
      if !t.was then fault cTableStale (w64 q) else
      match k.sampleBeats s.now m.issued m.sampled (m.wantedWeights rw) with
      | .error (isA, b) => if k.inTimed then fault cBankConflict (w64 (16 * flag isA + b)) else .next late
      | .ok (k, beats) =>
        let n0 := 64 * m.tile
        let cols := span n0 (Min.min 64 (hCols rw - n0))
        if t.mode = 2 && cols.any (fun n => (List.range 4).any fun g =>
            decide (4 ≤ lookupCode beats rw m.step m.plane g n)) then fault cIndexRange (w64 q)
        else
          let body := t.body.toArray
          let bank := (k.bank k.work).update (tilePositions rc 0 16 n0 64) fun i j c =>
            let (v, st) := lookupValue m.flushing t body rw beats m.step m.plane i j
            let (w, sw) := accumulate m.flushing (m.step == 0 && m.plane == 0) c v
            (w, st ||| sw)
          .next (s.setCore core ((k.setBank k.work bank).setLookup
            ({ m with sampled := beats }.nextLookup rw s.now)))
    | _ => .refused .eventNotEnabled

/-- LMMA_COMPLETE: the final accumulations have landed (R181, R52, R25). -/
def execLmmaComplete (core : Nat) (s : State) : Host.Outcome State Fault Refusal :=
  match (s.core core).endedLookup s.now with
  | some m =>
    match m.kind with
    | .lmma _ f _ _ _ _ =>
      .next ((s.giveUnits core m.units).modCore core fun k => { k.popLookup m with flip := k.flip || f })
    | _ => .refused .eventNotEnabled
  | none => .refused .eventNotEnabled

/-! ### TBUILD -/

/-- The first fault of TBUILD's record at its issue (R176, R177). -/
def tbuildFault (mode : Nat) (r : BitVec 512) : Option Nat :=
  if hSpace r != 0 then some cSpaceAccess
  else if 12 ≤ hFmt r then some cIllegalOperand
  else if hRows r != 16 || hCols r != tableCols mode || decide (16 < (hSpan r).2) then some cShapeMismatch
  else none

/-- TBUILD in any mode: what its issue checks and samples (R176, R177, R423). -/
def tbuildWord (h : Hdr) (mode : Nat) (q a : BitVec 5) (s : State) : Host.Outcome State Fault Refusal :=
  issue h (engineGate (3 < q.toNat || 15 < a.toNat) [])
    (fun x s =>
      if x.k.lookupFull s.now then .hold s else
      let r := x.k.shape a.toNat
      match tbuildFault mode r with
      | some code => .trap code (w64 a.toNat)
      | none => x.pushLookup s (.tbuild mode q.toNat a.toNat r x.k.codebook)) s

/-- TBUILD.Z -/
def execTbuildZ (h : Hdr) (q a : BitVec 5) (s : State) : Host.Outcome State Fault Refusal := tbuildWord h 0 q a s
/-- TBUILD.C -/
def execTbuildC (h : Hdr) (q a : BitVec 5) (s : State) : Host.Outcome State Fault Refusal := tbuildWord h 1 q a s
/-- TBUILD.C2 -/
def execTbuildC2 (h : Hdr) (q a : BitVec 5) (s : State) : Host.Outcome State Fault Refusal := tbuildWord h 2 q a s

/-- An entry rounded once (R148). -/
def roundEntry (fl : Bool) (v : Val × Status) : W32 × Status :=
  let (w, st) := rne32 fl v.1
  (w, v.2 ||| st)

/-- The 256 entries of one activation row (R176, R177): `vals` its scaled, input-flushed activations. -/
def tableRow (mode : Nat) (fl : Bool) (cb : List W16) (vals : List (Val × Status)) : List (W32 × Status) :=
  let a (k : Nat) : Val × Status := vals.getD k (.zero false, 0)
  match mode with
  | 0 =>
    (List.range 16).flatMap fun g =>
      (List.range 16).map fun j =>
        let used := (List.range 4).filter fun i => j = 0 || bit j i
        let vs := used.map fun i => a (4 * g + i)
        let (v, st) := exactSum (vs.map Prod.fst)
        let st := vs.foldl (fun t x => t ||| x.2) st
        roundEntry fl (if j = 0 then ((v.scale (-1)).negate, st) else (v, st))
  | m =>
    let n := if m = 1 then 16 else 4
    (List.range (tableCols m)).flatMap fun k =>
      (List.range n).map fun j =>
        let (x, sx) := a k
        let (y, sy) := (FloatFmt.bf16.value (cb.getD j 0).toNat).input fl
        let (p, sp) := x.mul y
        roundEntry fl (p, sx ||| sy ||| sp)

/-- An activation row read by a TBUILD, at S + i or as much later as serialised reads have made it (R169, R177). -/
def State.tbuildRow (s : State) (c : Nat) (a : Act) (i : Nat) : State :=
  let k := s.core c
  let late := s.setCore c (k.delayAct a.id (s.now + 1))
  match k.runningLookup with
  | none => s.setCore c (k.dropAct a.id)
  | some (m, start) =>
    match m.kind with
    | .tbuild mode _ _ r cb =>
      let n := hCols r
      match k.sampleBeats s.now m.issued [] (elementBeats true r [i] 0 n ++ scaleBeats true r [i] 0 n) with
      | .error (isA, b) =>
        if k.inTimed then late.raise c (a.fault cBankConflict (w64 (16 * flag isA + b))) else late
      | .ok (k, beats) =>
        let row := tableRow mode m.flushing cb ((List.range n).map fun j => shapeValue beats true m.flushing cb r i j)
        let m := { m with got := m.got ++ row.map Prod.fst, st := row.foldl (fun t e => t ||| e.2) m.st }
        let m := if i = 15 then { m with done := some (s.now + 49) } else m
        let s := s.setCore c ((k.dropAct a.id).setLookup m)
        if i = 15 then s else s.addAct c (Max.max (s.now + 1) (start + i + 1)) a.issued .cm a.pc (.tbuildRow (i + 1))
    | _ => s.setCore c (k.dropAct a.id)

/-- TBUILD_COMPLETE: entries, descriptor and status land; VALID unless a write has marked the table stale (R177, R183). -/
def execTbuildComplete (core : Nat) (s : State) : Host.Outcome State Fault Refusal :=
  let k := s.core core
  match k.endedLookup s.now with
  | some m =>
    match m.kind with
    | .tbuild mode q _ r _ =>
      let t := k.table q
      let ok := t.st == .building
      let t := { t with mode := mode, koff := hKoff r, body := m.got, st := if ok then .valid else .invalid, was := ok }
      .next ((s.giveUnits core m.units).modCore core fun k => ((k.popLookup m).setTable q t).addStatus m.st)
    | _ => .refused .eventNotEnabled
  | none => .refused .eventNotEnabled

/-! ### TINV, TSPILL, TFILL (R185, R424) -/

/-- TINV -/
def execTinv (h : Hdr) (q : BitVec 5) (s : State) : Host.Outcome State Fault Refusal :=
  issue h (engineGate (3 < q.toNat) [])
    (fun x s => if x.k.lookupFull s.now then .hold s else x.pushLookup s (.tinv q.toNat)) s

/-- TINV_COMPLETE: the table is INVALID (R183, R185). -/
def execTinvComplete (core : Nat) (s : State) : Host.Outcome State Fault Refusal :=
  let k := s.core core
  match k.endedLookup s.now with
  | some m =>
    match m.kind with
    | .tinv q => .next (s.setCore core ((k.popLookup m).setTable q { (k.table q) with st := .invalid, was := false }))
    | _ => .refused .eventNotEnabled
  | none => .refused .eventNotEnabled

/-- Bytes of a spilled table: its header and its body (R185). -/
def spillSize : Nat := 64 + 16384

/-- Where a spill area lies: in the A-space, at an offset, or in memory; or the fault it raises (R185, R186). -/
inductive SpillPlace where
  | own (off : Nat)
  | memory
  | bad (code : Nat) (xcode : Nat)

/-- The place of a spill area (R3, R185 to R188). DESIGN CHOICE, log entry 99: R185 does not say what an address in the remote aperture or another own
space does; it raises SPACE_ACCESS at the issue. -/
def spillPlace (core va : Nat) : SpillPlace :=
  if va % 64 != 0 then .bad cAlign 0
  else if 2 ^ 48 ≤ va then .bad cXlateS1 1
  else
    match locate core va 1 with
    | .own true off => if off + spillSize ≤ 0x18000 then .own off else .bad cSpaceAccess 0
    | .memory => if 0xFD0000000000 < va + spillSize then .bad cPermission 0 else .memory
    | .capability _ => .bad cPermission 0
    | .reserved => .bad cPermission 0
    | _ => .bad cSpaceAccess 0

/-- TSPILL or TFILL at its issue; to or from device memory it may not run in a timed region (R185, R424). -/
def spillWord (h : Hdr) (fill : Bool) (q a : BitVec 5) (s : State) : Host.Outcome State Fault Refusal :=
  issueAt h (fun x =>
    { engineGate (3 < q.toNat) [a] with
      ruleBad := !x.awaits a && addrClass (x.reg a).toNat == .translated && x.k.place x.q == .timed })
    (fun x s =>
      if x.k.lookupFull s.now then .hold s else
      let va := (x.reg a).toNat
      match spillPlace x.c va with
      | .bad code xc => .trap code (w64 va) (if fill then 1 else 2) xc
      | _ => x.pushLookup s (if fill then .tfill q.toNat va else .tspill q.toNat va)) s

/-- TSPILL -/
def execTspill (h : Hdr) (q a : BitVec 5) (s : State) : Host.Outcome State Fault Refusal := spillWord h false q a s

/-- TFILL -/
def execTfill (h : Hdr) (q a : BitVec 5) (s : State) : Host.Outcome State Fault Refusal := spillWord h true q a s

/-- The header of a table as a core spills it (R185). -/
def spillHeader (core epoch : Nat) (t : Table) : List W8 :=
  [1, BitVec.ofNat 8 (128 * flag (t.st == .valid) + t.mode)] ++ leBytes 2 core ++ leBytes 2 epoch ++ leBytes 2 t.koff ++
    leBytes 1 t.loBlk ++ leBytes 1 t.nBlk ++ leBytes 6 0 ++ (span 0 16).flatMap (fun i => leBytes 2 (t.counts.getD i 0)) ++
    leBytes 16 0

/-- Body beat b of a table: 16 entries (R176). -/
def tableBeat (body : List W32) (b : Nat) : List W8 := (span (16 * b) 16).flatMap fun i => leBytes 4 (body.getD i 0).toNat

/-- The entries that some bytes hold. -/
def entriesOf (bs : List W8) : List W32 :=
  (List.range (bs.length / 4)).map fun i => BitVec.ofNat 32 (leNat ((bs.drop (4 * i)).take 4))

/-- Whether a spilled header cannot be filled at all (R185). -/
def headerBad (h : List W8) : Bool :=
  fieldLE h 9 1 == 0 || decide (16 < fieldLE h 9 1) || decide (96 < fieldLE h 8 1 + fieldLE h 9 1)

/-- The table a header and body give, VALID only if every check of R185 holds. No check names MODE 11, which R185's table does not define: such a
table may be VALID here, and an LMMA on it raises SHAPE_MISMATCH at its start (DESIGN CHOICE, log entry 91). -/
def Core.filled (k : Core) (core : Nat) (h : List W8) (body : List W32) : Table :=
  let lo := fieldLE h 8 1
  let n := fieldLE h 9 1
  let counts := (span 0 16).map fun i => fieldLE h (16 + 2 * i) 2
  let ok := fieldLE h 0 1 == 1 && bit (fieldLE h 1 1) 7 && bits (fieldLE h 2 2) 11 0 == core &&
    fieldLE h 4 2 == k.epoch && (List.range n).all fun i => counts.getD i 0 == k.blockCount (lo + i)
  { st := if ok then .valid else .invalid, mode := bits (fieldLE h 1 1) 1 0, koff := fieldLE h 6 2, loBlk := lo, nBlk := n
    counts := counts, body := body, was := ok }

/-- A beat of TSPILL to the A-space: 0 the header, b + 1 body beat b; one write access each (R169, R182, R185). -/
def State.spillBeat (s : State) (c : Nat) (a : Act) (i : Nat) : State :=
  let k := s.core c
  let late := s.setCore c (k.delayAct a.id (s.now + 1))
  match k.runningLookup with
  | none => s.setCore c (k.dropAct a.id)
  | some (m, _) =>
    match m.kind, m.snap with
    | .tspill _ sa, some t =>
      let off := sa - 0xFF0000040000 + 64 * i
      match k.bankConflict s.now true (banksOf off 64) m.issued .cm with
      | some b => if k.inTimed then late.raise c (a.fault cBankConflict (w64 (16 + b))) else late
      | none =>
        let bytes := if i = 0 then spillHeader c k.epoch t else tableBeat t.body (i - 1)
        let k := (k.claimBanks s.now true (banksOf off 64) m.issued .cm).writeBuf true off bytes
        let k := (k.dropAct a.id).setLookup (if i = 256 then { m with done := some (s.now + 1) } else m)
        let s := s.setCore c k
        if i = 256 then s else s.addAct c (s.now + 1) a.issued .cm a.pc (.spillBeat (i + 1))
    | _, _ => s.setCore c (k.dropAct a.id)

/-- A beat of TFILL from the A-space (R169, R185). -/
def State.fillBeat (s : State) (c : Nat) (a : Act) (i : Nat) : State :=
  let k := s.core c
  let late := s.setCore c (k.delayAct a.id (s.now + 1))
  match k.runningLookup with
  | none => s.setCore c (k.dropAct a.id)
  | some (m, _) =>
    match m.kind with
    | .tfill q sa =>
      let off := sa - 0xFF0000040000 + 64 * i
      match k.bankConflict s.now true (banksOf off 64) m.issued .cm with
      | some b => if k.inTimed then late.raise c (a.fault cBankConflict (w64 (16 + b))) else late
      | none =>
        let bytes := k.readBuf true off 64
        if i = 0 && headerBad bytes then late.raise c (a.fault cShapeMismatch (w64 q)) else
        let m := if i = 0 then { m with head := bytes } else { m with got := m.got ++ entriesOf bytes }
        let m := if i = 256 then { m with done := some (s.now + 1) } else m
        let s := s.setCore c (((k.claimBanks s.now true (banksOf off 64) m.issued .cm).dropAct a.id).setLookup m)
        if i = 256 then s else s.addAct c (s.now + 1) a.issued .cm a.pc (.fillBeat (i + 1))
    | _ => s.setCore c (k.dropAct a.id)

/-- TSPILL_COMPLETE (R185). -/
def execTspillComplete (core : Nat) (s : State) : Host.Outcome State Fault Refusal :=
  let k := s.core core
  match k.endedLookup s.now with
  | some m =>
    match m.kind with
    | .tspill _ _ => .next (s.setCore core (k.popLookup m))
    | _ => .refused .eventNotEnabled
  | none => .refused .eventNotEnabled

/-- A line of a TFILL's image has come from memory; with the last of the 257 the command ends, at no fixed cycle (R185). -/
def State.fillLine (s : State) (c id off : Nat) (bytes : List W8) : State :=
  match (s.core c).lookup.find? fun m => m.id == id with
  | none => s
  | some m =>
    let (due, s) := s.drawDue
    let got := m.sampled ++ [(false, off, bytes)]
    s.modCore c fun k => k.setLookup { m with sampled := got, done := if got.length = 257 then some due else none }

/-- A TFILL with the header and the entries of the lines that came from memory. -/
def LookupCmd.gathered (m : LookupCmd) : LookupCmd :=
  let line (i : Nat) : List W8 := ((m.sampled.find? fun e => e.2.1 == 64 * i).map fun e => e.2.2).getD []
  { m with head := line 0, got := (List.range 256).flatMap fun i => entriesOf (line (i + 1)) }

/-- TFILL_COMPLETE: the table takes the entries and the descriptor, and the checks of R185 decide its validity (log entry 27). -/
def execTfillComplete (core : Nat) (s : State) : Host.Outcome State Fault Refusal :=
  let k := s.core core
  match k.endedLookup s.now with
  | some m =>
    match m.kind with
    | .tfill q _ =>
      let rest := k.popLookup m
      let m := if m.xl.isEmpty then m else m.gathered
      if !m.xl.isEmpty && headerBad m.head then
        .next ((s.setCore core rest).raise core (commandFault m.pc m.issued cShapeMismatch (w64 q)))
      else .next (s.setCore core (rest.setTable q (k.filled core m.head m.got)))
    | _ => .refused .eventNotEnabled
  | none => .refused .eventNotEnabled

/-! ### A command starts (R159) -/

/-- The pages of 4 KiB that a run of bytes touches. -/
def pagesOf (va n : Nat) : List Nat := (span (va / 4096) ((va + n - 1) / 4096 - va / 4096 + 1)).map (· * 4096)

/-- Translations begun for pages (R288). -/
def State.startPages (s : State) (c va n : Nat) (acc : Access) : List XlState × State :=
  (pagesOf va n).foldl (fun (l, s) p =>
    let (due, s) := s.walkDue c (Max.max p va) acc
    (l ++ [XlState.pending due], s)) ([], s)

/-- The start of an LMMA: the checks of R180, then Z's clearing (R181). -/
def State.startLmma (s : State) (c : Nat) (m : LookupCmd) (z : Bool) (q w : Nat) (rc rw : BitVec 512) : State :=
  let k := s.core c
  match lmmaStartFault (k.table q) q w rw with
  | some (code, n) => s.raise c (commandFault m.pc m.issued code (w64 n))
  | none => if z then s.setCore c (k.setBank k.work ((k.bank k.work).clearShape rc)) else s

/-- The start of a TBUILD: the table is BUILDING, with its span and counters; row 0 is read in the same cycle (R177, R183). -/
def State.startTbuild (s : State) (c : Nat) (m : LookupCmd) (q : Nat) (r : BitVec 512) : State :=
  let s := s.modCore c fun k =>
    let (lo, n) := hSpan r
    k.setTable q { (k.table q) with
      st := .building, was := false, loBlk := lo, nBlk := n, counts := (span lo n).map k.blockCount }
  s.addAct c s.now m.issued .cm m.pc (.tbuildRow 0)

/-- The start of a TSPILL: to the A-space beat by beat; to memory one entry of the region store buffer, and the command ends (R185). -/
def State.startSpill (s : State) (c : Nat) (m : LookupCmd) (q sa : Nat) : State :=
  let k := s.core c
  let t := k.table q
  match spillPlace c sa with
  | .own _ =>
    (s.setCore c (k.setLookup { m with snap := some t })).addAct c s.now m.issued .cm m.pc (.spillBeat 0)
  | _ =>
    let bytes := spillHeader c k.epoch t ++ (List.range 256).flatMap (tableBeat t.body)
    let (xl, s) := s.startPages c sa spillSize .store
    let s := s.modCore c fun k => k.setLookup { m with done := some (s.now + 1) }
    s.takeEntry c { id := 0, due := s.now, issued := m.issued, by_ := .cm, pc := m.pc, pay := .signal .cm false false }
      (.spill sa bytes xl)

/-- The start of a TFILL: from the A-space beat by beat, from memory after its pages' translation (R185). -/
def State.startFill (s : State) (c : Nat) (m : LookupCmd) (sa : Nat) : State :=
  match spillPlace c sa with
  | .own _ => s.addAct c s.now m.issued .cm m.pc (.fillBeat 0)
  | _ =>
    let (xl, s) := s.startPages c sa spillSize .load
    s.modCore c fun k => k.setLookup { m with xl := xl }

/-- A command of the lookup engine starts (R159), with the power its class needs (R345). None while it may not. -/
def State.startLookup (s : State) (c : Nat) : Option State :=
  let k := s.core c
  match k.lookup.find? fun m => m.start.isNone with
  | none => none
  | some m =>
    let before := k.lookup.takeWhile fun x => x.start.isSome
    if before.any (fun x => x.open_ s.now) || decide (s.now < m.issued + 2) then none else
    let need := if k.timed then 0 else m.kind.extra
    (s.takeUnits c need).map fun s =>
      let m := { m with start := some s.now, units := need }
      let s := s.modCore c fun k => k.setLookup m
      match m.kind with
      | .lmma z _ q w rc rw => s.startLmma c m z q w rc rw
      | .tbuild _ q _ r _ => s.startTbuild c m q r
      | .tinv _ => s.modCore c fun k => k.setLookup { m with done := some (s.now + 1) }
      | .tspill q sa => s.startSpill c m q sa
      | .tfill _ sa => s.startFill c m sa

/-! ### CBLD -/

/-- CBLD: the codebook's beat is read at issue + 1 and lands at issue + 4 (R178, R360). -/
def execCbld (h : Hdr) (a : BitVec 5) (s : State) : Host.Outcome State Fault Refusal :=
  issue h (engineGate false [a])
    (fun x s =>
      let sa := (x.reg a).toNat
      if sa % 32 != 0 then .trap cAlign (w64 sa)
      else if 196608 < sa + 32 then .trap cSpaceAccess (w64 sa)
      else x.go (s.addAct x.c (s.now + 1) s.now x.q x.x.pc (.codebookRead sa)) 4) s

end Sys2Proof.Machine
end

