-- ==== Sys2Proof/Machine/Request.lean ====
section
/-! DEFINITION. Accesses of no fixed latency: the walks of the translations that are due (TRANSLATION_WALK, R283 to R286, R292, R294, R334), requests
served at their targets (R200, R207, R211, R350), their landings (LOAD_VALUE_LANDS, R367; AMOC_OLD_VALUE_LANDS, R352), stores applied on other
dies (REMOTE_STORE_APPLY, R211), the capability page (R3 to R7), and fetches (INSTRUCTION_FETCH_COMPLETE, R225, R357, R458). -/

namespace Sys2Proof.Machine

/-! ### The capability page (R3 to R7, R26, R307, R326) -/

/-- The data words of the package configuration record (R26). -/
def State.packageWords (s : State) : List Nat :=
  let mask (l : List Bool) : Nat := (l.zipIdx.map fun (b, i) => flag b * 2 ^ i).sum
  [mask (s.hbm.map Stack.live) * 2 ^ 32 + mask s.clusters * 2 ^ 12 + mask (s.dies.map fun d => d.live && !d.retired),
   14400 * 2 ^ 32 + 1250000,
   131072 * 2 ^ 32 + 384 * 2 ^ 16 + 192]

/-- The data words of the device identity public key, each coordinate big-endian in the byte order of the words (R307). -/
def deviceKeyWords : List Nat :=
  let bytes := (leBytes 96 Config.deviceKey.toNat).reverse
  (List.range 12).map fun i => leNat ((bytes.drop (8 * i)).take 8)

/-- The data words of a casement's fleet-time anchor (R326). -/
def State.anchorWords (s : State) (k : Nat) : List Nat :=
  let c := s.casement k
  [c.anchorGen, c.anchorFta] ++ c.anchorZa ++ [c.anchorRate]

/-- A record of the list (R4). -/
def capRecord (next id : Nat) (words : List Nat) : List W8 :=
  leBytes 8 (next * 2 ^ 32 + words.length * 2 ^ 24 + 1 * 2 ^ 16 + id) ++ words.flatMap (leBytes 8)

/-- The capability page of a casement: its records stand one behind the other (R3, R5, log entry 15). -/
def State.capPage (s : State) (k : Nat) : List W8 :=
  capRecord 0x20 0x0001 s.packageWords ++ capRecord 0x88 0x0010 deviceKeyWords ++ capRecord 0 0x0020 (s.anchorWords k)

/-- Bytes of the page. -/
def State.capBytes (s : State) (k off n : Nat) : List W8 :=
  let page := s.capPage k
  (span off n).map fun i => page.getD i 0

/-! ### Walks (R283 to R294) -/

/-- How a walk ends. -/
inductive WalkEnd where
  | ok (s : State) (pa key : Nat)
  /-- A fault, with the KIND and CODE of a report of it. -/
  | fault (s : State) (code xcode : Nat)
  /-- A stage-2 fault that stalls: the IPA and the code of its entry (R292). -/
  | stall (s : State) (ipa code : Nat)
  /-- A table that cannot be read yet: in a thermal hold, else for want of power units (R318, R345). -/
  | wait (s : State) (hot : Bool)
  /-- MACHINE_CHECK of a table's memory, at an address (R315, R316, R460). -/
  | check (s : State) (pa : Nat)

/-- The walk of an access of a core, of a KIND, `amoc` an AMOC's operation (R286, R294, R334, R351). A stage-2 leaf with W 0 is PERMISSION for an AMOC
(R351); for an action-class task R294 comes first, and it is XLATE_S1 (log entry 84). -/
def State.walkNow (s : State) (c va : Nat) (acc : Access) (kind : Nat) (amoc : Option Nat) : WalkEnd :=
  if untranslated va then .fault s cPermission 0 else
  match s.translate c va acc with
  | .error (s, .s1 code) => .fault s cXlateS1 code
  | .error (s, .s1by2 ipa code) => .fault (s.reportS2 c va kind (.s1by2 ipa code)) cXlateS1 1
  | .error (s, .perm) => .fault s cPermission 0
  | .error (s, .s2 ipa code) => if amoc.isSome && code == 2 then .fault s cPermission 0 else .stall s ipa code
  | .error (s, .wait hot) => .wait s hot
  | .error (s, .check pa) => .check s pa
  | .ok (s, pa, key) =>
    let narrow : Bool :=
      match amoc with
      | some op => !(op == 0 || op == 4 || op == 7) && (regionOf pa == .host || regionOf pa == .window)
      | none => false
    if narrow || (regionOf pa == .window && !s.ownsLink (s.casementOf c) pa) then .fault s cPermission 0 else .ok s pa key

/-- A fault of an access found after its word's issue: raised on the core while the task has it and the access belongs to no committed
region; else the task fails with MACHINE_CHECK (R272, R292, log entry 33). -/
def State.lateFault (s : State) (c task : Nat) (committed : Bool) (f : FaultRec) : State :=
  if committed || (s.core c).task != some task then s.machineCheck c task f.taddr.toNat else s.raise c f

/-- The bytes a request touches. -/
def ReqKind.size : ReqKind → Nat
  | .load n _ => n
  | .store bs => bs.foldl (fun n b => Max.max n (b.1 + 1)) 0
  | .amoc _ n _ _ => n
  | .copyRead _ _ n => n
  | .copyWrite _ _ bs => bs.foldl (fun n b => Max.max n (b.1 + 1)) 0
  | .fillRead _ _ n => n
  | .evict => 64

/-- Whether a request is a load, of a register or of a table. -/
def ReqKind.isLoad : ReqKind → Bool
  | .load _ _ => true
  | .fillRead _ _ _ => true
  | _ => false

/-- MACHINE_CHECK of what a core's access meets at an address: raised on the core, with the failing unit's address, where the access belongs to no committed
region of the task that holds the core; for the rest the task fails at once and firmware is told (R272, R273, R277, R278, R315, R316, R336). -/
def State.memoryFails (s : State) (c task : Nat) (committed : Bool) (q : SeqId) (issued pc kind pa : Nat) : State :=
  if !committed && (s.core c).task == some task then
    s.raise c
      { code := cMachineCheck, by_ := q, issued := issued, pc := pc, taddr := w64 pa, xkind := kind, xcode := 0 }
  else if task = noTask then s.emitOut (.machineCheck c pa)
  else s.machineCheck c task pa

/-- A request's translation (R283, R292). -/
def State.walkReq (s : State) (r : Req) : State :=
  let drop (s : State) : State := { s with reqs := s.reqs.filter fun x => x.id != r.id }
  let put (s : State) (r : Req) : State := { s with reqs := s.reqs.map fun x => if x.id == r.id then r else x }
  let amoc : Option Nat :=
    match r.kind with
    | .amoc op _ _ _ => some op
    | _ => none
  match s.walkNow r.core r.va r.kind.access r.kind.code amoc with
  | .fault s code xcode =>
    (drop s).lateFault r.core r.task false
      { code := code, by_ := r.by_, issued := r.issued, pc := r.pc, taddr := w64 r.va, xkind := r.kind.code, xcode := xcode }
  | .stall s ipa code =>
    (put s { r with st := .stalled 0 }).reportAccess 16 ipa r.va r.core r.kind.code code (.request r.id)
  | .wait s hot => (put s { r with arrived := s.now + 1, heldHot := r.heldHot || hot }).markIfHot r.task hot
  | .check s pa => (drop s).memoryFails r.core r.task false r.by_ r.issued r.pc r.kind.code pa
  | .ok s pa key => if s.channelRoom pa then s.enqueue r pa key else put s { r with arrived := s.now + 1 }

/-- Whether a translation is due to be walked. -/
def XlState.dueNow (x : XlState) (now : Nat) : Bool :=
  match x with
  | .pending due => decide (due ≤ now)
  | _ => false

/-- Whether a translation is done. -/
def XlState.isDone (x : XlState) : Bool :=
  match x with
  | .done _ _ => true
  | _ => false

/-- A list with its first element that satisfies a condition replaced. -/
def mapFirst {α : Type} (p : α → Bool) (f : α → α) : List α → List α
  | [] => []
  | a :: rest => if p a then f a :: rest else a :: mapFirst p f rest

/-- Whether the translation of an end of a copy is due. -/
def CopyEnd.dueNow (e : CopyEnd) (now : Nat) : Bool :=
  match e with
  | .mem _ x => x.dueNow now
  | .buf _ _ _ => false

/-- Whether an end of a beat is due. -/
def Beat.dueNow (b : Beat) (now : Nat) : Bool := b.srcs.any (fun e => e.1.dueNow now) || b.dsts.any (fun e => e.dueNow now)

/-- The virtual address of a stalled translation. -/
def XlState.stalledAt (x : XlState) : Option Nat :=
  match x with
  | .stalled va => some va
  | _ => none

/-- The virtual address of a copy's stalled translation: it stalls the copy (R192). -/
def Copy.stalledAt (cp : Copy) : Option Nat :=
  let at_ (e : CopyEnd) : Option Nat :=
    match e with
    | .mem _ x => x.stalledAt
    | .buf _ _ _ => none
  cp.beats.findSome? fun b =>
    match b.srcs.findSome? fun e => at_ e.1 with
    | some va => some va
    | none => b.dsts.findSome? at_

/-- The virtual address of a held effect's stalled translation. -/
def HeldKind.stalledAt (h : HeldKind) : Option Nat :=
  match h with
  | .store _ _ x _ => x.stalledAt
  | .copy cp => cp.stalledAt
  | .spill _ _ xl => xl.findSome? XlState.stalledAt
  | .submit _ _ st => st
  | _ => none

/-- The next end of a copy to walk: its address, and whether it is written. -/
def Copy.walkWanted (cp : Copy) (now : Nat) : Option (Nat × Bool) :=
  if cp.stalledAt.isSome then none else
  (cp.beats.find? fun b => b.dueNow now).bind fun b =>
    match b.srcs.find? fun e => e.1.dueNow now with
    | some (.mem va _, _) => some (va, false)
    | _ =>
      match b.dsts.find? fun e => e.dueNow now with
      | some (.mem va _) => some (va, true)
      | _ => none

/-- An end with its translation set. -/
def CopyEnd.setXl (e : CopyEnd) (x : XlState) : CopyEnd :=
  match e with
  | .mem va _ => .mem va x
  | e => e

/-- The copy with that end's translation set. -/
def Copy.walked (cp : Copy) (now : Nat) (x : XlState) : Copy :=
  { cp with
    beats := mapFirst (fun b => b.dueNow now) (fun b =>
      if b.srcs.any fun e => e.1.dueNow now then
        { b with srcs := mapFirst (fun e => e.1.dueNow now) (fun e => (e.1.setXl x, e.2)) b.srcs }
      else { b with dsts := mapFirst (fun e => e.dueNow now) (fun e => e.setXl x) b.dsts }) cp.beats }

/-- A copy with every stalled end to be walked again, or those ends alone dropped from waiting (R292). -/
def Copy.retry (cp : Copy) (due : Nat) : Copy :=
  let again (e : CopyEnd) : CopyEnd :=
    match e with
    | .mem va (.stalled _) => .mem va (.pending due)
    | e => e
  { cp with beats := cp.beats.map fun b => { b with srcs := b.srcs.map fun e => (again e.1, e.2), dsts := b.dsts.map again } }

/-- How a walk of a held entry, a copy or a page of an engine fails, where it does not stall: a fault and the code of a report of it, or memory that
cannot be reached, at an address. -/
inductive WalkBad where
  | fault (code xcode : Nat)
  | check (pa : Nat)

/-- What a walk of a held entry, a copy or a page leaves: the new translation, or how it fails. -/
structure Walked where
  s : State
  xl : XlState
  bad : Option WalkBad

/-- A walk for something that keeps its own translation. -/
def State.walkKept (s : State) (c task va : Nat) (acc : Access) (kind : Nat) (w : RingWait) : Walked :=
  match s.walkNow c va acc kind none with
  | .ok s pa key => { s := s, xl := .done pa key, bad := none }
  | .fault s code xcode => { s := s, xl := .stalled va, bad := some (.fault code xcode) }
  | .stall s ipa code => { s := s.reportAccess 16 ipa va c kind code w, xl := .stalled va, bad := none }
  | .wait s hot => { s := s.markIfHot task hot, xl := .pending (s.now + 1), bad := none }
  | .check s pa => { s := s, xl := .stalled va, bad := some (.check pa) }

/-- The fault of a walk of an engine's: as the walk gives it, or MACHINE_CHECK with the address of the memory (R272). -/
def WalkBad.record (b : WalkBad) (q : SeqId) (issued pc va kind : Nat) : FaultRec :=
  match b with
  | .fault code xcode => { code := code, by_ := q, issued := issued, pc := pc, taddr := w64 va, xkind := kind, xcode := xcode }
  | .check pa => { code := cMachineCheck, by_ := q, issued := issued, pc := pc, taddr := w64 pa, xkind := kind, xcode := 0 }

/-- The address that a failed walk of committed work is reported to firmware with. -/
def WalkBad.at_ (b : WalkBad) (va : Nat) : Nat :=
  match b with
  | .fault _ _ => va
  | .check pa => pa

/-- A copy's next walk, for a copy of the store buffer or of the engine. -/
def State.walkCopy (s : State) (c : Nat) (cp : Copy) (w : RingWait) : State × Copy × Option FaultRec :=
  match cp.walkWanted s.now with
  | none => (s, cp, none)
  | some (va, isStore) =>
    let r := s.walkKept c cp.task va (if isStore then .store else .load) 3 w
    (r.s, cp.walked s.now r.xl, r.bad.map fun b => b.record cp.by_ s.now cp.pc va 3)

/-- The walk of a held entry (R48, R185, R192). -/
def State.walkHeld (s : State) (c : Nat) (h : Held) : State :=
  let put (s : State) (k : HeldKind) : State :=
    s.modCore c fun x => { x with held := x.held.map fun e => if e.id == h.id then { e with kind := k } else e }
  let done (s : State) (k : HeldKind) (f : Option FaultRec) : State :=
    match f with
    | none => put s k
    | some f =>
      if h.released.isSome then (s.modCore c fun x => x.freeHeld h.id).lateFault c h.task true f
      else (put s k).lateFault c h.task false f
  let fault (va kind : Nat) (b : WalkBad) : FaultRec := b.record h.by_ s.now h.pc va kind
  match h.kind with
  | .store va bytes _ rl =>
    let r := s.walkKept c h.task va .store 2 (.heldEntry c h.id)
    done r.s (.store va bytes r.xl rl) (r.bad.map (fault va 2))
  | .copy cp =>
    let (s, cp, f) := s.walkCopy c cp (.heldEntry c h.id)
    done s (.copy cp) f
  | .spill va bytes xl =>
    let i := xl.findIdx fun x => x.dueNow s.now
    let page := if i = 0 then va else (va / 4096 + i) * 4096
    let r := s.walkKept c h.task page .store 2 (.heldEntry c h.id)
    done r.s (.spill va bytes (xl.set i r.xl)) (r.bad.map (fault page 2))
  | _ => s

/-- Whether a held entry has a translation to walk now. -/
def HeldKind.walkDue (k : HeldKind) (now : Nat) : Bool :=
  match k with
  | .store _ _ x _ => x.dueNow now
  | .copy cp => (cp.walkWanted now).isSome
  | .spill _ _ xl => k.stalledAt.isNone && xl.any fun x => x.dueNow now
  | _ => false

/-- The walk of a page of a TFILL from memory (R185); its lines are asked for once every page is translated. -/
def State.walkFill (s : State) (c : Nat) (m : LookupCmd) (sa : Nat) : State :=
  let i := m.xl.findIdx fun x => x.dueNow s.now
  let page := if i = 0 then sa else (sa / 4096 + i) * 4096
  let task := (s.core c).task.getD noTask
  let r := s.walkKept c task page .load 1 (.command c)
  let s := r.s.modCore c fun k => k.setLookup { m with xl := m.xl.set i r.xl }
  match r.bad with
  | none => s
  | some b => s.raise c (b.record .cm m.issued m.pc page 1)

/-- The lines of a TFILL's image that can be asked for now, each by a request of its own, one a cycle (R185, R313). -/
def State.askFill (s : State) (c : Nat) (m : LookupCmd) (sa : Nat) : State :=
  let va := sa + m.asked * 64
  match m.xl[va / 4096 - sa / 4096]? with
  | some (.done pa key) =>
    let a := pa / 4096 * 4096 + va % 4096
    let task := (s.core c).task.getD noTask
    if s.dead a then s.raise c ((WalkBad.check a).record .cm m.issued m.pc va 1)
    else if !s.channelRoom a then s
    else
      (s.modCore c fun k => k.setLookup { m with asked := m.asked + 1 }).engineReq c task m.pc va m.issued .cm (.fillRead m.id (64 * m.asked) 64) a key false false
  | _ => s

/-- What a number of the part's translations stands for, with a walk that is due in this cycle. -/
inductive WalkItem where
  | req (r : Req)
  | held (c : Nat) (h : Held)
  | copy (c : Nat) (cp : Copy)
  | fill (c : Nat) (m : LookupCmd) (sa : Nat)

/-- The walks due on one core. -/
def Core.walkItems (k : Core) (c now : Nat) : List (Nat × WalkItem) :=
  (k.held.filterMap fun h => if h.kind.walkDue now then some (h.id, .held c h) else none) ++
  (k.copies.filterMap fun cp => if (cp.walkWanted now).isSome then some (cp.id, .copy c cp) else none) ++
  (match k.runningLookup with
   | some (m, _) =>
     (match m.kind with
      | .tfill _ sa => if (m.xl.findSome? XlState.stalledAt).isNone && m.xl.any fun x => x.dueNow now then [(m.id, .fill c m sa)] else []
      | _ => [])
   | none => [])

/-- The walks due in this cycle, by their numbers. -/
def State.walkItems (s : State) : List (Nat × WalkItem) :=
  (s.reqs.filterMap fun r =>
    match r.st with
    | .walking => if r.arrived ≤ s.now then some (r.id, .req r) else none
    | _ => none) ++
  s.cores.flatMap fun (c, k) => k.walkItems c s.now

/-- TRANSLATION_WALK: a two-stage walk completes or fails (R284 to R286, R292). -/
def execTranslationWalk (id : Nat) (s : State) : Host.Outcome State Fault Refusal :=
  match s.walkItems.find? fun x => x.1 == id with
  | none => .refused .eventNotEnabled
  | some (_, .req r) => .next (s.walkReq r)
  | some (_, .held c h) => .next (s.walkHeld c h)
  | some (_, .fill c m sa) => .next (s.walkFill c m sa)
  | some (_, .copy c cp) =>
    let (s, cp, f) := s.walkCopy c cp (.copyOf c cp.id)
    let s := s.modCore c fun k => { k with copies := k.copies.map fun x => if x.id == cp.id then cp else x }
    match f with
    | none => .next s
    | some f =>
      if cp.committed then
        .next ((s.modCore c fun k => { k with copies := k.copies.filter fun x => x.id != cp.id }).lateFault c cp.task true f)
      else .next (s.lateFault c cp.task false f)

/-! ### Requests at their targets -/

/-- Whether two ranges of bytes touch. -/
def rangesMeet (a m b n : Nat) : Bool := decide (a < b + n) && decide (b < a + m)

/-- Whether accesses of memory at two virtual addresses touch a byte in common, or may do so: by their physical addresses, or as long as one of them is not
translated by their places in their pages (R207). -/
def placesMeet (va : Nat) (pa : Option Nat) (m vb : Nat) (pb : Option Nat) (n : Nat) : Bool :=
  match pa, pb with
  | some a, some b => rangesMeet a m b n
  | _, _ => rangesMeet (va % 4096) m (vb % 4096) n

/-- The physical address of a request of memory that is translated. -/
def Req.pa? (r : Req) : Option Nat :=
  match r.st with
  | .queued pa _ _ => some pa
  | _ => none

/-- Whether two requests touch a byte in common: through the same aperture, or both of memory. -/
def Req.meets (r x : Req) : Bool :=
  if r.remote.isSome || x.remote.isSome || untranslated r.va || untranslated x.va then rangesMeet r.va r.kind.size x.va x.kind.size
  else placesMeet r.va r.pa? r.kind.size x.va x.pa? x.kind.size

/-- The physical address of a translation that is made. -/
def XlState.pa? (x : XlState) : Option Nat :=
  match x with
  | .done pa _ => some pa
  | _ => none

/-- Whether a held store of an earlier region touches bytes of a request (R207). -/
def HeldKind.meets (h : HeldKind) (r : Req) : Bool :=
  match h with
  | .store va bs xl _ => r.remote.isNone && !untranslated r.va && bs.any fun b =>
      placesMeet (va / 64 * 64 + b.1) (xl.pa?.map fun pa => pa / 64 * 64 + b.1) 1 r.va r.pa? r.kind.size
  | .remote c isA _ bs _ =>
    (match r.remote with
     | some (d, i, off) => c == d && isA == i && bs.any fun b => decide (off ≤ b.1) && decide (b.1 < off + r.kind.size)
     | none => false)
  | _ => false

/-- Whether a store that a page's lock holds, of the request's own sequencer, touches bytes of it (R207, R223). -/
def State.lockMeets (s : State) (r : Req) : Bool :=
  match s.migration, r.pa? with
  | some m, some pa => m.held.any fun x => s.own r.core r.by_ x.core x.task x.by_ && x.bytes.any fun b => rangesMeet b.1 1 (s.forward pa) r.kind.size
  | _, _ => false

/-- Whether every earlier access of the request's sequencer to the same bytes has been performed, what its earlier regions committed among them, and what waits under
a page's lock (R207). -/
def State.reqOrdered (s : State) (r : Req) : Bool :=
  !r.kind.scalar ||
    ((s.reqs.takeWhile fun x => x.id != r.id).all fun x =>
      !s.own r.core r.by_ x.core x.task x.by_ || !x.kind.scalar || x.st.performed || !r.meets x) &&
    (r.drained || s.cores.all fun (c, k) =>
      k.held.all fun h => !s.own r.core r.by_ c h.task h.by_ || h.released.isNone || !h.kind.meets r) &&
    (r.kind.access == .store || !s.lockMeets r)

/-- Whether an AMOC waits under a page's lock, in its place among the writes held there (R223). -/
def State.lockedIn (s : State) (id : Nat) : Bool :=
  match s.migration with
  | some m => m.held.any fun x => x.amoc == some id
  | none => false

/-- Whether a request may be performed now: in its order (R207), after what its sequencer has acquired (R37), a release after what it releases (R213), and
an AMOC that a page's lock holds at the switch (R223, R352). -/
def State.reqReady (s : State) (r : Req) : Bool :=
  decide (r.arrived ≤ s.now) && s.reqOrdered r && s.acquiredDone r.core r.after (if r.release then 4 else 0) &&
  (!r.release || r.drained || s.releaseMet r.core r.by_ r.issued 4 r.after) && !s.lockedIn r.id

/-- A request's value and where it stands, set. -/
def State.setReq (s : State) (r : Req) : State := { s with reqs := s.reqs.map fun x => if x.id == r.id then r else x }

/-- A request taken out, from its channel's queue too. -/
def State.dropReq (s : State) (id : Nat) : State := s.dropReqs fun r => r.id == id

/-- What a sequencer has read, as a die has it or the newest, added to its stamp (R212). -/
def State.noteRead (s : State) (c : Nat) (q : SeqId) (die : Option Nat) (addrs : List Nat) : State :=
  let st := s.stampOf die addrs
  s.modCore c fun k => k.modSeq q fun x => { x with readStamp := joinCounts x.readStamp st }

/-- A value of a load or an AMOC as it lands (R200, R383). -/
def landedValue (size : Nat) (sext : Bool) (bs : List W8) : W64 :=
  if sext then BitVec.ofInt 64 (toSigned (8 * size) (leNat bs)) else w64 (leNat bs)

/-- The cycle in which a value read from an address lands: from HBM4E within the array access and twice the distance of R314, else at no fixed distance
(R314, log entry 4). -/
def State.landDue (s : State) (core pa : Nat) : Nat × State :=
  let a := s.forward pa
  if regionOf a != .hbm then s.drawDue else
  let (v, s) := s.draw
  (s.now + 1 + v % (2 * dpl (dieOf core) (hbmDie a) + 96), s)

/-- Bytes that a request brings through the scale-up window, counted for the casement of its key; those of HBM4E count by its transfers (R305). -/
def State.countRead (s : State) (pa key n : Nat) : State := if regionOf (s.forward pa) == .window then s.countBytes key n else s

/-- An AMOC held under a page's lock: it takes its place among the writes held there, and waits (R223). -/
def State.holdAmoc (s : State) (r : Req) (pa key : Nat) : State :=
  let m : StoreRec :=
    { id := s.nextId, die := dieOf r.core, num := 0, stamp := [], bytes := [], key := none, applied := [], arrives := [], core := r.core, by_ := r.by_
      task := r.task, amoc := some r.id }
  ({ s with nextId := s.nextId + 1, migration := s.migration.map fun (x : Migration) => { x with held := x.held ++ [m] } }).setReq { r with st := .queued pa key none }

/-- A request performed at memory (R200, R208, R211, R350): a store then needs nothing more; the value of a load or an AMOC lands later; an engine takes
its bytes. -/
def State.serveMem (s : State) (r : Req) (pa key : Nat) : State :=
  let die := dieOf r.core
  let out (s : State) (v : W64) : State :=
    let (due, s) := s.landDue r.core pa
    s.setReq { r with st := .served v due }
  match r.kind with
  | .load n sext =>
    let v := landedValue n sext (s.readMem (some die) key pa n)
    let s := if r.orphan then s else s.noteRead r.core r.by_ (some die) (span (s.forward pa) n)
    out (s.countRead pa key n) v
  | .store bytes =>
    (s.dropReq r.id).performStoreOf r.task die r.core r.by_ key (bytes.map fun b => (pa + b.1, b.2))
  | .amoc op n b e =>
    if s.locked pa then s.holdAmoc r pa key else
    let old := s.readMem none key pa n
    let new_ := amocNew op n (leNat old) b.toNat e.toNat
    let s := if r.orphan then s else s.noteRead r.core r.by_ none (span (s.forward pa) n)
    out ((s.countRead pa key n).performStoreOf r.task die r.core r.by_ key (addrBytes pa (leBytes n new_))) (landedValue n (n == 4) old)
  | .copyRead id beat n =>
    let bs := s.readMem (some die) key pa n
    ((s.dropReq r.id).countRead pa key n).copyServed r.core id fun cp => cp.modBeat beat fun b => b.take bs
  | .copyWrite id beat bytes =>
    let s := s.dropReq r.id
    let store := s.nextId
    (s.performStoreOf r.task die r.core r.by_ key (bytes.map fun b => (pa + b.1, b.2))).copyServed r.core id fun cp =>
      { (cp.dropBeat beat) with acks := cp.acks ++ [(store, bytes.length)] }
  | .fillRead id off n =>
    let bs := s.readMem (some die) key pa n
    ((s.dropReq r.id).countRead pa key n).fillLine r.core id off bs
  | .evict => s.dropReq r.id

/-- A request performed through the remote aperture, in a cycle in which the banks of the other core are free (R124, R188). -/
def State.serveRemote (s : State) (r : Req) (d : Nat) (isA : Bool) (off : Nat) : State :=
  let n := r.kind.size
  if !(s.core d).banksFree s.now isA (banksOf off n) then s.setReq { r with arrived := s.now + 1 } else
  let s := s.modCore d fun k => k.claimFree s.now isA (banksOf off n)
  match r.kind with
  | .store bytes => ((s.dropReq r.id).stampBuffer d r.core r.by_).modCore d fun k => k.writeBuf isA off (bytes.map Prod.snd)
  | .load m sext =>
    let s := if r.orphan then s else s.noteBuffer r.core r.by_ d
    let (due, s) := s.drawDue
    s.setReq { r with st := .served (landedValue m sext ((s.core d).viewBuf isA off m)) due }
  | _ => s

/-- A request served outside HBM4E: host memory, the scale-up window, the capability page or another core's buffers. The capability page stands on the hinge
die: a load's crossing there and the answer's are 24 cycles each (R3, R457). -/
def State.serveNear (s : State) (r : Req) : State :=
  match r.st with
  | .queued pa key none =>
    if !s.reqReady r then s
    else
      match r.remote with
      | some (d, isA, off) => s.serveRemote r d isA off
      | none =>
        if key = 17 then
          match r.kind with
          | .load n sext =>
            let (due, s) := s.drawDue
            s.setReq { r with st := .served (landedValue n sext (s.capBytes (s.casementOf r.core) (pa - 0xFD0000000000) n)) (due + hingeCross) }
          | _ => s.dropReq r.id
        else s.serveMem r pa key
  | _ => s

/-- A request at a channel whose line the die buffer holds: it is served there, without a slot, in a thermal hold too (R12, R318). -/
def State.serveHit (s : State) (r : Req) : State :=
  match r.st with
  | .queued pa key (some ch) =>
    if r.kind == .evict || !s.reqReady r || s.dead pa || !s.inBuffer pa key then s else
    let s := s.modChannel ch fun c => { c with queue := c.queue.filter fun id => id != r.id }
    (if r.kind.access == .store then s.fillBuffer pa key true else s).serveMem r pa key
  | _ => s

/-- Whether a request is a store through the remote aperture. -/
def Req.remoteStore (r : Req) : Bool :=
  r.remote.isSome && (match r.kind with
    | .store _ => true
    | _ => false)

/-- A handler's store through the remote aperture performed, before the arrivals and ARMs of its cycle (R355), once it is ready. -/
def State.serveStore (s : State) (id : Nat) : Option State :=
  match s.reqs.find? fun x => x.id == id with
  | some r => if s.reqReady r && decide (r.arrived ≤ s.now) then some (s.serveNear r) else none
  | none => none

/-- Every request that can be served in this cycle without a slot of HBM4E; a store through the remote aperture has its own place in the cycle. -/
def State.serveAllNear (s : State) : State :=
  s.reqs.foldl (fun s r => match s.reqs.find? fun x => x.id == r.id with
    | some r => if r.remoteStore then s else (s.serveNear r).serveHit r
    | none => s) s

/-! ### Landings -/

/-- A served request's value landed: in its register, with its word's signals; an acquire lets its sequencer go on (R213, R367): the word behind it may issue
one cycle after the landing, its IDLE apart (DESIGN CHOICE, log entry 50). A landing of an abandoned region goes nowhere (R352). -/
def State.landReq (s : State) (r : Req) (v : W64) : State :=
  let s := s.dropReq r.id
  if r.orphan then s else
  s.modCore r.core fun k =>
    let k := k.modSeq r.by_ fun x =>
      let x := (x.setReg r.rd v)
      let x := { x with pend := x.pend.erase r.rd }
      match x.st with
      | .atAcquire id => if id = r.id then { x with st := .run, base := s.now + 1 } else x
      | _ => x
    (k.giveSignals r.by_ s.now r.sp r.sn).blame k.overflowed.length r.pc

/-- A landing that is due. -/
def State.landingDue (s : State) (id : Nat) (amoc : Bool) : Option (Req × W64) :=
  match s.reqs.find? fun (r : Req) => r.id == id with
  | none => none
  | some r =>
    let isAmoc : Bool := match r.kind with
      | .amoc _ _ _ _ => true
      | _ => false
    match r.st with
    | .served v due => if due ≤ s.now && isAmoc == amoc then some (r, v) else none
    | _ => none

/-- LOAD_VALUE_LANDS (R367, R385). -/
def execLoadValueLands (id : Nat) (s : State) : Host.Outcome State Fault Refusal :=
  match s.landingDue id false with
  | none => .refused .eventNotEnabled
  | some (r, v) => .next (s.landReq r v)

/-- AMOC_OLD_VALUE_LANDS (R201, R352). -/
def execAmocOldValueLands (id : Nat) (s : State) : Host.Outcome State Fault Refusal :=
  match s.landingDue id true with
  | none => .refused .eventNotEnabled
  | some (r, v) => .next (s.landReq r v)

/-- REMOTE_STORE_APPLY: a die applies an arriving store after every store its stamp names (R211). -/
def execRemoteStoreApply (die id : Nat) (s : State) : Host.Outcome State Fault Refusal :=
  match s.stores.find? fun (r : StoreRec) => r.id == id with
  | none => .refused .eventNotEnabled
  | some r =>
    if !s.mayApply die r then .refused .eventNotEnabled else
    let s := s.applyOn die id
    .next (s.foldStores s.stores.length)

/-! ### Fetches (R225, R357, R382, R458) -/

/-- A word's fetch ended: the word, or the fault that its issue will raise. -/
def State.setFetched (s : State) (c : Nat) (q : SeqId) (f : Fetched) : State :=
  s.modCore c fun k => k.modSeq q fun x =>
    { x with
      fetching := x.fetching.filter fun r => r.addr != f.addr
      fetched := (x.fetched.filter fun r => r.addr != f.addr) ++ [f] }

/-- A fetch under way changed. -/
def State.modFetch (s : State) (c : Nat) (q : SeqId) (addr : Nat) (f : FetchReq → FetchReq) : State :=
  s.modCore c fun k => k.modSeq q fun y => { y with fetching := y.fetching.map fun z => if z.addr == addr then f z else z }

/-- The words whose stage-2 fault is reported and stalls: the next to issue, the second word of a pair there, and at a timed region's RGN those of its region
window (R225, R292). A word further ahead is fetched again when its turn comes. -/
def Core.needed (k : Core) (q : SeqId) (addr : Nat) : Bool :=
  let x := k.seq q
  addr == x.pc || (addr == (x.pc + 4) % 2 ^ 64 && (x.wordAt x.pc).any fun f => f.fault == 0 && isPair f.word) ||
    (k.phase == .align && x.st == .atRgn && x.rgnTimed && decide (x.pc ≤ addr) && decide (addr < x.pc + 256))

/-- What a fetch comes to: the word, or a fault for its issue; a stage-2 fault stalls it where the word is needed (R225, R283, R292, R458). -/
def State.endFetch (s : State) (core : Nat) (q : SeqId) (addr : Nat) : State :=
  let bad (s : State) (code xcode : Nat) : State := s.setFetched core q { addr := addr, word := 0, fault := code, xcode := xcode }
  let later (s : State) (hot : Bool) : State :=
    (s.modFetch core q addr fun z => { z with due := s.now + 1 }).markIfHot ((s.core core).task.getD noTask) hot
  if 2 ^ 48 ≤ addr then bad s cXlateS1 1
  else if untranslated addr then bad s cPermission 0
  else
    match s.walkNow core addr .fetch 0 none with
    | .fault s code xcode => bad s code xcode
    | .check s pa => bad s cMachineCheck pa
    | .wait s hot => later s hot
    | .stall s ipa code =>
      if !(s.core core).needed q addr then bad s cXlateS2 0
      else (s.modFetch core q addr fun z => { z with stalled := true }).reportAccess 16 ipa addr core 0 code (.fetch core q addr)
    | .ok s pa key =>
      match s.touch (s.casementOf core) pa key 4 false with
      | .check s pa => bad s cMachineCheck pa
      | .wait hot => later s hot
      | .ok s =>
        let w := leNat (s.readMem (some (dieOf core)) key pa 4)
        s.setFetched core q { addr := addr, word := BitVec.ofNat 32 w, fault := 0, xcode := 0 }

/-- INSTRUCTION_FETCH_COMPLETE. -/
def execInstructionFetchComplete (core : Nat) (q : SeqId) (addr : Nat) (s : State) : Host.Outcome State Fault Refusal :=
  match ((s.core core).seq q).fetching.find? fun (r : FetchReq) => r.addr == addr with
  | none => .refused .eventNotEnabled
  | some r =>
    if r.stalled || decide (s.now < r.due) then .refused .eventNotEnabled else .next (s.endFetch core q addr)

/-- Whether a word is ready by its issue cycle as the target of the sequencer's latest jump: it lies within the 64 words after the jump, in the region window or
in the return window (R357, R382). `word` is the target, or the second word of a pair there: behind the last word of a window it comes by ordinary fetch (R388). -/
def Core.assured (k : Core) (q : SeqId) (word : Nat) : Bool :=
  let x := k.seq q
  match x.jump with
  | none => false
  | some (from_, target) =>
    let rgn := (k.snaps.getD (seqIdx q) SeqSnap.idle).pc
    x.pc == target && (word == target || word == target + 4) &&
    (decide (from_ < word ∧ word ≤ from_ + 256) || (k.phase == .run && decide (rgn < word ∧ word ≤ rgn + 256)) ||
      (match x.link with
       | some l => decide (l ≤ word ∧ word < l + 32)
       | none => false))

/-- The fetches of a sequencer that have no latency of their own: words that are never fetched, whose fault stands ready, and the assured targets of a jump that
no FENCE.FULL has just discarded (R356 to R358, R382, R458). -/
def State.fetchAssured (s : State) (core : Nat) (q : SeqId) : State :=
  let x := (s.core core).seq q
  [x.pc, (x.pc + 4) % 2 ^ 64].foldl (fun s a =>
    let k := s.core core
    match (k.seq q).fetching.find? fun (r : FetchReq) => r.addr == a with
    | none => s
    | some r =>
      if !r.stalled && (decide (2 ^ 48 ≤ a) || untranslated a || (r.sure && k.assured q a)) then s.endFetch core q a else s) s

end Sys2Proof.Machine
end

