-- ==== Sys2Proof/Machine/Save.lean ====
section
/-! DEFINITION. Saved state: the block of R263, for the shutter engine and for MIRR (R244, R453), its restoring, SAVE_COMPLETE and SAVE_FAULT (R57, R60,
R262 to R264, R293), and PREEMPT_REQUEST (R262). -/

namespace Sys2Proof.Machine

/-! ### The block of R263 -/

/-- A live-map entry (R51). -/
def mapEntry (last : Bool) (e : Nat × Nat × Nat) : Nat := flag last * 2 ^ 63 + e.1 * 2 ^ 61 + e.2.2 / 64 * 64 * 2 ^ 20 + e.2.1

/-- The 32-byte-aligned image of a live map of at most 32 entries. -/
def mapBytes (m : List (Nat × Nat × Nat)) : List W8 :=
  (m.zipIdx).flatMap fun (e, i) => leBytes 8 (mapEntry (i + 1 == m.length) e)

/-- Pieces in rising order, as sparse bytes. -/
def piecesCells (ps : List (Nat × List W8)) : Cells := (ps.flatMap fun p => addrBytes p.1 p.2).filter fun b => b.2 != 0

/-- A sequencer's part: PC, s1 to s31, and its ports' sets and indices. -/
def seqPieces (base : Nat) (sn : SeqSnap) (ports : List Port) : List (Nat × List W8) :=
  [(base, leBytes 8 sn.pc), (base + 8, (sn.regs.drop 1).flatMap fun r => leBytes 8 r.toNat),
   (base + 0x100, ports.flatMap fun g => leBytes 64 ((g.set.map fun p => (p &&& pDefined).toNat).getD 0)),
   (base + 0x200, ports.flatMap fun g => g.idx.flatMap (leBytes 4))]

/-- TOKS of stored counters (R38). -/
def toksOf (ts : List Nat) : Nat := ((List.range 8).map fun i => ts.getD i 0 % 16 * 16 ^ i).sum

/-- A tile's 4 KiB. -/
def Core.tileBytes (k : Core) (t : Nat) : List W8 := (List.range 16).flatMap fun r => (k.tileRow t r).flatMap fun v => leBytes 4 v.toNat

/-- A bank's 32 KiB. -/
def Bank.bytes (b : Bank) : List W8 := (List.range 8192).flatMap fun i => leBytes 4 (b.get (4 * i)).toNat

/-- The size of a block: 0x2000 bytes, its tiles, the bank if CKEEP, its ranges (R263, R453). -/
def blockSize (tiles : Nat) (ckeep : Bool) (m : List (Nat × Nat × Nat)) : Nat :=
  0x2000 + 4096 * (tilesOf tiles).length + (if ckeep then 32768 else 0) + (m.map fun e => e.2.2).sum

/-- The block of a core at its restart points (R57, R263), its reserved bits zero (R1): the snapshots, the core state outside them, the tiles of a mask, the committed bank if
CKEEP, the live map's ranges. -/
def Core.block (k : Core) (kind tiles : Nat) : Cells :=
  let ts := tilesOf tiles
  let bankAt := 0x2000 + 4096 * ts.length
  let rangesAt := bankAt + (if k.ckeep then 32768 else 0)
  let committed := k.bank (!k.work)
  let sn (i : Nat) : SeqSnap := k.snaps.getD i SeqSnap.idle
  let header := [1, BitVec.ofNat 8 kind] ++ leBytes 2 tiles ++ leBytes 4 (flag k.ckeep) ++ leBytes 4 k.rank ++
    leBytes 2 (if k.ckeep then committed.sticky.toNat else 0)
  let csrs := [k.snap.rwin, k.snap.mact, k.snap.mrs, k.snap.vstat, k.snap.sacw, k.rkey0, k.rkey1, k.rctr, k.dplidx, k.tvec, k.tsp]
  let ranges := (k.liveMap.foldl (fun (acc : Nat × List (Nat × List W8)) e =>
    (acc.1 + e.2.2, acc.2 ++ [(acc.1, k.viewBuf (e.1 == 0) e.2.1 e.2.2)])) (rangesAt, [])).2
  piecesCells
    ([(0, header), (0x40, leBytes 8 (toksOf k.snap.tokens)), (0x100, mapBytes k.liveMap),
      (0x200, (k.masks ++ csrs).flatMap fun v => leBytes 8 v.toNat), (0x400, k.shapes.flatMap fun r => recordBytes (r &&& hDefined)),
      (0x800, k.codebook.flatMap fun v => leBytes 2 v.toNat)] ++
     seqPieces 0x1000 (sn 0) (k.snap.ports.take 4) ++ seqPieces 0x1400 (sn 1) [] ++
     seqPieces 0x1800 (sn 2) (k.snap.ports.drop 4) ++ seqPieces 0x1C00 (sn 3) [] ++
     (ts.zipIdx.map fun (t, i) => (0x2000 + 4096 * i, k.tileBytes t)) ++
     (if k.ckeep then [(bankAt, committed.bytes)] else []) ++ ranges)

/-- A port of a block: never configured where its parameter set is all zeros. -/
def blockPort (get : Nat → W8) (base i : Nat) : Port :=
  let p := BitVec.ofNat 512 (getLE get (base + 0x100 + 64 * i) 64) &&& pDefined
  { Port.none with
    set := if p = 0 then none else some p
    idx := (List.range 4).map fun j => getLE get (base + 0x200 + 16 * i + 4 * j) 4 }

/-- A core restored from a block (R57, R263), whose reserved bits are ignored (R1): the registers, tiles, bank and ranges saved, every other part at zero or +0.0, the table registers
invalid; its sequencers at their restart points. -/
def Core.fromBlock (get : Nat → W8) (old : Core) (sc : SavedCore) (now : Nat) : Core :=
  let tiles := getLE get 2 2
  let ts := tilesOf tiles
  let ckeep := bit (get 4).toNat 0
  let m := (blockMap get 32 0x100).getD []
  let csr (i : Nat) : W64 := w64 (getLE get (0x200 + 8 * i) 8)
  let ports := (List.range 4).map (blockPort get 0x1000) ++ (List.range 4).map (blockPort get 0x1800)
  let toks := getLE get 0x40 8
  let bankAt := 0x2000 + 4096 * ts.length
  let rangesAt := bankAt + (if ckeep then 32768 else 0)
  let tileRows := ts.zipIdx.flatMap fun (t, i) => (List.range 16).map fun r =>
    (16 * t + r, (List.range 64).map fun j => (BitVec.ofNat 32 (getLE get (0x2000 + 4096 * i + 256 * r + 4 * j) 4) : W32))
  let bank : Bank :=
    if ckeep then
      { acc := ((List.range 8192).map fun i => (4 * i, (BitVec.ofNat 32 (getLE get (bankAt + 4 * i) 4) : W32))).filter fun e => e.2 != 0
        sticky := BitVec.ofNat 10 (getLE get 12 2) }
    else Bank.zero
  let sn (i : Nat) : SeqSnap :=
    { sc.points.getD i SeqSnap.idle with
      pc := getLE get (0x1000 + 0x400 * i) 8
      regs := 0 :: (List.range 31).map fun r => w64 (getLE get (0x1008 + 0x400 * i + 8 * r) 8) }
  let snap : CoreSnap :=
    { rwin := lowBits 9 (csr 8), mact := lowBits 4 (csr 9), mrs := lowBits 4 (csr 10), vstat := lowBits 10 (csr 11)
      sacw := lowBits 5 (csr 12), ports := ports
      tokens := (List.range 8).map fun i => toks / 16 ^ i % 16 }
  let k : Core :=
    { Core.idle with
      tiles := tileRows, masks := (List.range 8).map csr
      shapes := (List.range 16).map fun i => recordOf ((span (0x400 + 64 * i) 64).map get) &&& hDefined
      codebook := (List.range 16).map fun i => BitVec.ofNat 16 (getLE get (0x800 + 2 * i) 2)
      banks := [Bank.zero, bank], work := false, snap := snap, snaps := (List.range 4).map sn
      rwin := snap.rwin, mact := snap.mact, mrs := snap.mrs, vstat := snap.vstat, sacw := snap.sacw, ports := snap.ports
      tokens := snap.tokens, rkey0 := lowBits 32 (csr 13), rkey1 := lowBits 32 (csr 14), rctr := csr 15, dplidx := lowBits 8 (csr 16), tvec := csr 17, tsp := csr 18
      budget := sc.budget, liveIn := sc.liveIn, rgnAddr := sc.rgnAddr
      liveOut := w64 tiles, ckeep := ckeep, liveMap := m, mirrLast := sc.mirrLast
      epoch := old.epoch, acts := old.acts.filter Act.outlives, held := old.held, copies := old.copies, epi := (old.keepBanks now).epi, tracker := old.tracker, tlb := old.tlb
      taint := old.taint, softCount := old.softCount }
  let k := (m.foldl (fun (acc : Nat × Core) e =>
    (acc.1 + e.2.2, acc.2.writeBuf (e.1 == 0) e.2.1 ((span acc.1 e.2.2).map get))) (rangesAt, k)).2
  let k := k.restartAll now
  ({ k with blocks := old.blocks, wlog := [] } : Core).learn sc.known

/-! ### Saves -/

/-- What remembers a core's restart points beside its block. -/
def Core.savedCore (k : Core) : SavedCore :=
  { rank := k.rank, points := k.snaps.map fun x => { x with regs := [], pc := 0 }, budget := k.budget, liveIn := k.liveIn
    rgnAddr := k.rgnAddr, known := k.known, mirrLast := k.mirrLast }

/-- SAVEVA of a task (R252). -/
def Task.saveVa (t : Task) : Nat := fieldLE t.record 72 8

/-- Why a save's writing stops. -/
inductive SaveStop where
  /-- A write takes a fault of its translation: its page, and what the first field of its entry shows, the IPA for a stage-2 fault (R264, R291). -/
  | fault (va addr : Nat)
  /-- Memory that cannot be reached, at this address (R315, R336). -/
  | dead (pa : Nat)
  /-- It waits: in a thermal hold, else for power units (R318, R345). -/
  | wait (hot : Bool)
  deriving DecidableEq, Repr

/-- The address that the first field of a fault entry shows (R291). -/
def XFault.shown (f : XFault) (va : Nat) : Nat :=
  match f with
  | .s2 ipa _ => ipa
  | .s1by2 ipa _ => ipa
  | _ => va

/-- A core's block written page by page: the state, or why it stops, with the state by then (R264). The untranslated range is no place for it
(R283). -/
def State.writeBlock (s : State) (c : Nat) (va : Nat) (img : Cells) : List Nat → Except (State × SaveStop) State
  | [] => .ok s
  | i :: rest =>
    let page := va + 4096 * i
    if untranslated page then .error (s, .fault page page) else
    match s.translate c page .store with
    | .error (s, .wait hot) => .error (s, .wait hot)
    | .error (s, .check pa) => .error (s, .dead pa)
    | .error (s, f) => .error (s, .fault page (f.shown page))
    | .ok (s, pa, key) =>
      match s.touch (s.casementOf c) pa key 4096 true with
      | .wait hot => .error (s, .wait hot)
      | .check s at_ => .error (s, .dead at_)
      | .ok s => State.writeBlock (s.storeBytes 8 c .ct key pa (img.read (4096 * i) 4096)) c va img rest

/-- The save of a core tried: its block at SAVEVA + RANK × 0x6_2000, in the pages it fills. -/
def State.trySave (s : State) (c : Nat) : Except (State × SaveStop) State :=
  let k := s.core c
  match s.taskOf c with
  | none => .ok s
  | some t =>
    let pages := List.range (ceilDiv (blockSize k.saveTiles k.ckeep k.liveMap) 4096)
    s.writeBlock c (t.saveVa + k.rank * 0x62000) (k.block k.saveKind k.saveTiles) pages

/-- Whether a save has come to its end: what must be waited for has finished (R160). -/
def Core.saveDone (k : Core) (now : Nat) : Bool := k.phase == .saving && decide (k.saveDue ≤ now) && k.epi.isEmpty

/-- The tasks of the saves whose writes wait in a thermal hold, marked (R319). -/
def State.markSaves (s : State) : State :=
  s.cores.foldl (fun s (c, k) =>
    if k.saveDone s.now then
      match s.trySave c with
      | .error (_, .wait true) => s.markHot (k.task.getD noTask)
      | _ => s
    else s) s

/-- A core whose task has left it: free, every push drained (R206), with the work that has left the sequencers going on (R31, R67). -/
def Core.free (k : Core) : Core :=
  { k with
    task := none, phase := .idle, preempt := none, causeUnread := false, faults := [], pushes := []
    seqs := k.seqs.map fun x => { x with st := .off, fetched := [], fetching := [], pend := [], link := none } }

/-- Once every core that held the task has been saved: a parked task's fault is reported to the casement's runtime (R293). -/
def State.parkReport (s : State) (t : Nat) : State :=
  match s.task? t with
  | none => s
  | some x =>
    if x.cores.any fun c => (s.core c).task == some t && (s.core c).phase == .saving then s
    else
      match x.park with
      | none => s
      | some (va, core, kind, code) =>
        if x.st == .parked then s else
        let s := s.modTask t fun y => { y with st := .parked }
        s.report x.casement (faultEntry va va (s.taskIdOf t) core kind x.casement code) (.parked t)

/-- SAVE_COMPLETE: the shutter engine has written a core's block; the core is free (R60, R262, R263). A write that meets memory that cannot be reached
ends the task instead (R315, R336). -/
def execSaveComplete (core : Nat) (s : State) : Host.Outcome State Fault Refusal :=
  let k := s.core core
  match k.task with
  | none => .refused .eventNotEnabled
  | some t =>
    if !k.saveDone s.now then .refused .eventNotEnabled else
    match s.trySave core with
    | .error (s, .dead pa) => .next (s.machineCheck core t pa)
    | .error _ => .refused .eventNotEnabled
    | .ok s =>
      let s := s.modTask t fun x => { x with savedCores := x.savedCores ++ [k.savedCore] }
      .next ((s.modCore core Core.free).parkReport t)

/-- A core whose save is cancelled goes on from its points (R60, R264). -/
def State.cancelSave (s : State) (c : Nat) : State := s.modCore c fun k => k.restartAll s.now

/-- A queue STOPPED. -/
def Queue.stopped (x : Queue) : Queue :=
  { x with st := .stopped, slot := false, waitLine := none, reached := none, stalled := false }

/-- A queue that is ACTIVE or in WAIT_FAULT goes to STOPPED; a record being read is finished first: a mark whose signal write is stalled leaves the
STOP among the queue's commands (R251). -/
def Queue.stop (x : Queue) : Queue :=
  if x.stalled then { x with cmds := x.cmds ++ [(1, 0)] }
  else if x.st == .active || x.st == .waitFault then x.stopped else x

/-- The casement's save area in error after a second SAVE_FAULT of one task (R264). -/
def State.saveAreaError (s : State) (k : Nat) : State :=
  let s := s.modCasement k fun c => { c with saveErr := true }
  { s with queues := s.queues.map fun (n, q) => if q.owner == k then (n, q.stop) else (n, q) }

/-- SAVE_FAULT: a write of a save takes a fault; the save and its pre-emption are cancelled (R264), and where the task was to be parked, on whichever core the write was, the task goes
to the fault policy with XLATE_S1 (R264, R293). -/
def execSaveFault (core : Nat) (s : State) : Host.Outcome State Fault Refusal :=
  let k := s.core core
  match s.taskOf core with
  | none => .refused .eventNotEnabled
  | some t =>
    if !k.saveDone s.now then .refused .eventNotEnabled else
    match s.trySave core with
    | .error (s, .fault va addr) =>
      let s := s.report 16 (faultEntry addr va (s.taskIdOf t.id) core 4 t.casement 4) .nothing
      let s := t.cores.foldl (fun s c =>
        if (s.core c).task != some t.id then s
        else if (s.core c).phase == .saving then s.cancelSave c
        else s.modCore c fun k => { k with preempt := none }) s
      let s := if 1 ≤ t.saveFaults then s.saveAreaError t.casement else s
      let s := s.modTask t.id fun x =>
        { x with saveFaults := x.saveFaults + 1, park := none, st := if x.savedCores.isEmpty then .running else .saved }
      if t.park.isSome then .next (s.faultPolicy t.id cXlateS1 false).1 else .next s
    | _ => .refused .eventNotEnabled

/-! ### Pre-emption (R262) -/

/-- PREEMPT_REQUEST: a request takes effect on a core at its cycle, after a fault of the same cycle (R262). In a region that ends within the
bound it waits for the closing alignment. -/
def execPreemptRequest (core : Nat) (s : State) : Host.Outcome State Fault Refusal :=
  let k := s.core core
  match k.preempt with
  | none => .refused .eventNotEnabled
  | some p =>
    if s.now < p.at_ || k.task.isNone then .refused .eventNotEnabled else
    let save : State := (s.abandon core).beginSave core 1 k.saveMask false
    match k.phase with
    | .run =>
      if k.budget != 0 && decide (k.cycle0 + k.budget ≤ p.at_ + p.bound) then .refused .eventNotEnabled else .next save
    | .gap => .next save
    | .align => .next save
    | .trapped => .next save
    | .idle => .refused .eventNotEnabled
    | .saving => .refused .eventNotEnabled
    | .saved => .refused .eventNotEnabled

end Sys2Proof.Machine
end

