-- ==== Sys2Proof/Machine/Region.lean ====
section
/-! DEFINITION. Regions and barriers: REGION_ALIGNMENT (R25, R42 to R46, R206, R288), CLOSING_ALIGNMENT (R50 to R52, R160, R192, R231, R232, R240,
R243, R453), BUDGET_EXCEEDED and TASK_BUDGET_EXPIRY (R53), SOFT_ERROR_REEXEC (R280, R281), REALIGN_VISIBLE (R231, R457), and the completions of STEP
(R64) and FENCE (R214, R215). -/

namespace Sys2Proof.Machine

/-! ### Opening a region (R42, R43) -/

/-- Whether the four sequencers stand at their RGNs. -/
def Core.allAtRgn (k : Core) : Bool := k.seqs.all fun x => x.st == .atRgn

/-- The address of the word after a sequencer's RGN at which it stands. -/
def Seq.window (x : Seq) : List Nat := (List.range 64).map fun i => x.pc + 4 * i

/-- Whether the first 64 words after each RGN have been fetched, as far as their addresses can be fetched at all (R225, R288); one whose fetch a
stage-2 fault stalls has not (R292). -/
def Core.windowFetched (k : Core) : Bool :=
  k.seqs.all fun x => x.window.all fun a => (x.wordAt a).any fun f => f.fault != cXlateS2

/-- The mode of CT's RGN. -/
def Core.rgnTimed (k : Core) : Bool := (k.seq .ct).rgnTimed

/-- Sixteenths of power units that a region takes at its alignment (R345). -/
def Core.regionUnits (k : Core) : Nat := if k.rgnTimed then 75 else 50

/-- The power units of a core that waits at its RGNs granted, when its die has them; the alignment cycle is a later one (R25, R43). -/
def State.grantPower (s : State) (c : Nat) : State :=
  let k := s.core c
  if k.phase != .align || k.powered || !k.allAtRgn then s else
  match s.takeUnits c k.regionUnits with
  | none => s
  | some s => s.modCore c fun k => { k with powered := true, units := k.regionUnits, alignFrom := Max.max k.alignFrom (s.now + 1) }

/-- Whether a core's alignment cycle has come: all four arrived, the units granted, the store buffer drained, every EPI completed, a timed
region's first words fetched (R43, R160, R288). -/
def Core.alignable (k : Core) (now : Nat) : Bool :=
  k.phase == .align && k.allAtRgn && k.powered && decide (k.alignFrom ≤ now) && k.held.isEmpty && k.epi.isEmpty &&
  (!k.rgnTimed || k.windowFetched)

/-- What alignment checks beside the stamp: equal mode bits, a timed region's budget, the live-in mask (R42). -/
def Core.rgnRuleBroken (k : Core) : Bool :=
  k.seqs.any (fun x => x.rgnTimed != k.rgnTimed) || (k.rgnTimed && k.budget == 0) || bits k.liveIn.toNat 63 16 != 0

/-- The region opens in this cycle, its cycle 0 (R43, R45): the snapshot is taken, the RGNs' signals take effect, every push has drained. -/
def Core.openRegion (k : Core) (now : Nat) : Core :=
  let k := k.drainAll.snapRegion
  let k := { k with
    phase := .run, timed := k.rgnTimed, cycle0 := now, flip := false, mirrored := false, realign := none
    seqs := k.seqs.map fun x =>
      { x with st := .run, base := now, retry := none, reentered := false, fenced := none, lastHeld := none } }
  allSeqs.foldl (fun k q => k.giveSignals q now (k.seq q).rgnSp (k.seq q).rgnSn) k

/-- A fault raised at an alignment against CT (R42, R43): the region does not start, and is abandoned to its RGNs (R44, R60). -/
def State.alignmentFault (s : State) (c code : Nat) : State :=
  let s := s.modCore c fun k => { k.drainAll.snapRegion with phase := .run, timed := k.rgnTimed, cycle0 := s.now }
  s.raise c { code := code, by_ := .ct, issued := s.now, pc := (s.core c).rgnAddr, taddr := 0, xkind := 0, xcode := 0 }

/-- REGION_ALIGNMENT (R43, R44): the region starts, or the fault that keeps it from starting is raised: a passed stamp's before those of R42 (R274). With a stamp it starts in the cycle in
which the view reads the stamp; a re-entered RGN ignores its stamp. Pushes have drained by the alignment cycle, wherever cycle 0 falls (R206). -/
def execRegionAlignment (core : Nat) (s : State) : Host.Outcome State Fault Refusal :=
  let k := s.core core
  let view := s.zview (s.casementOf core) (dieOf core)
  let stamp : W64 := if (k.seq .ct).reentered then 0 else k.stamp
  if !k.alignable s.now || !k.faults.isEmpty then .refused .eventNotEnabled
  else if stamp != 0 && stamp.ult view then .next (s.alignmentFault core cScheduleMiss)
  else if k.rgnRuleBroken then .next (s.alignmentFault core cRegionRule)
  else if stamp == 0 || stamp == view then .next (s.setCore core (k.openRegion s.now))
  else if !k.pushes.isEmpty then .next (s.setCore core k.drainAll)
  else .refused .eventNotEnabled

/-! ### Closing a region (R50 to R52) -/

/-- The live map that RCMT names, read as the A-space stood at the start of the cycle (R51, R409): its entries, or the fault. -/
def Core.readMap (k : Core) : Nat → Nat → Except (Nat × W64) (List (Nat × Nat × Nat))
  | 0, a => .error (if 98304 < a + 8 then (cSpaceAccess, w64 a) else (cRegionRule, 0))
  | fuel + 1, a =>
    if 98304 < a + 8 then .error (cSpaceAccess, w64 a) else
    let e := leNat (k.startA a 8)
    match (if bit e 63 then .ok [] else Core.readMap k fuel (a + 8)) with
    | .error (code, ta) => .error (code, ta)
    | .ok rest => .ok ((bits e 62 61, bits e 17 0, bits e 37 20) :: rest)

/-- Whether an entry of a live map breaks R51. An entry of LEN 0 whose OFF lies beyond the end of its space breaks it too, which R51 leaves open (DESIGN CHOICE, log
entry 96). -/
def mapBad (e : Nat × Nat × Nat) : Bool :=
  decide (2 ≤ e.1) || e.2.1 % 64 != 0 || e.2.2 % 64 != 0 || decide (bufSize (e.1 == 0) < e.2.1 + e.2.2)

/-- The live map of CT's RCMT, or the fault of the checks of R50 and R51 in their order. -/
def Core.checkRcmt (k : Core) : Except (Nat × W64) (List (Nat × Nat × Nat)) :=
  let sb := k.rcmtB.toNat
  if sb % 8 != 0 then .error (cAlign, k.rcmtB) else
  match (if sb = 0 then .ok [] else k.readMap 32 sb) with
  | .error (code, ta) => .error (code, ta)
  | .ok m => if bits k.rcmtA.toNat 63 17 != 0 || m.any mapBad then .error (cRegionRule, 0) else .ok m

/-- The offset of a casement's view on a die that will stand in a cycle (R20, R231). -/
def Casement.offsetAt (x : Casement) (die cycle : Nat) : Int :=
  (x.coming.filter fun e => e.1 == die && decide (e.2.1 ≤ cycle)).foldl (fun _ e => e.2.2) (x.offsets.getD die 0)

/-- The cycles from a closing alignment on a die until a REALIGN is visible on another (R231, R457). -/
def realignDelay (d e : Nat) : Nat := if e = 8 then hingeCross else dpl d e

/-- Whether a REALIGN would move a view backward (R232). -/
def State.realignBack (s : State) (k d : Nat) (v : W64) : Bool :=
  s.liveDies.any fun e =>
    let at_ := s.now + realignDelay d e
    let old := BitVec.ofInt 64 ((at_ : Int) - (s.die e).zero + (s.casement k).offsetAt e at_)
    (v + BitVec.ofNat 64 (realignDelay d e)).ult old

/-- A REALIGN applied at a closing alignment: the new views come at their cycles (R231). An earlier one that would come to a die in or after that
cycle has been replaced there: the last one applied stands (R232). -/
def State.applyRealign (s : State) (k d : Nat) (v : W64) : State :=
  s.modCasement k fun x =>
    { x with coming := (x.coming.filter fun e => decide (e.2.1 < s.now + realignDelay d e.1)) ++ s.liveDies.map fun e =>
        (e, s.now + realignDelay d e, (v.toNat : Int) - ((s.now : Int) - (s.die e).zero)) }

/-- The bound channel ends of a core, for the size of its mirrored state (R453). -/
def State.boundEnds (s : State) (c : Nat) : Nat := (s.endsOf ((s.core c).task.getD 0) (s.core c).rank).length

/-- Whether the mirrored state of a region's MIRR is larger than its area (R243, R453). -/
def State.mirrorTooLarge (s : State) (c : Nat) (map_ : List (Nat × Nat × Nat)) : Bool :=
  let k := s.core c
  let size := blockSize (bits k.rcmtA.toNat 15 0) (bit k.rcmtA.toNat 16) map_ + 64 * s.boundEnds c
  k.mirrored && decide (((s.taskOf c).map fun t => fieldLE t.record 12 4).getD 0 < ceilDiv size 64 * 64)

/-- Acts of a region that would still enter an effect into its store buffer. -/
def Act.enters (a : Act) : Bool :=
  match a.pay with
  | .hold _ => true
  | .sendRead _ _ _ => true
  | .emitRead _ _ _ => true
  | .recordRead _ _ => true
  | .grantRead _ _ _ => true
  | _ => false

/-- Whether a translation is under way; one stalled on a stage-2 fault is (R192, R292). -/
def XlState.open_ (x : XlState) : Bool :=
  match x with
  | .pending _ => true
  | .stalled _ => true
  | .done _ _ => false

/-- Whether a copy has a translation under way. -/
def Copy.open_ (cp : Copy) : Bool :=
  let end_ (e : CopyEnd) : Bool :=
    match e with
    | .mem _ x => x.open_
    | .buf _ _ _ => false
  cp.beats.any fun b => b.srcs.any (fun e => end_ e.1) || b.dsts.any end_

/-- Whether a held effect has a translation under way. -/
def HeldKind.open_ (h : HeldKind) : Bool :=
  match h with
  | .store _ _ x _ => x.open_
  | .copy cp => cp.open_
  | .spill _ _ xl => xl.any XlState.open_
  | _ => false

/-- The words of the region that keep it from closing, each with its sequencer, its address and its issue: a command that must complete (R160,
R199), a translation (R48, R192, R288), an effect still to enter the store buffer. -/
def Core.unfinishedWords (k : Core) : List (SeqId × Nat × Nat) :=
  k.mma.map (fun m => (.cm, m.pc, m.issued)) ++ k.lookup.map (fun m => (.cm, m.pc, m.issued)) ++
  k.sacc.map (fun m => (.cm, m.pc, m.issued)) ++ (k.acts.filter Act.enters).map (fun a => (a.by_, a.pc, a.issued)) ++
  (k.held.filter fun h => h.released.isNone && h.kind.open_).map (fun h => (h.by_, h.pc, k.cycle0)) ++
  (k.copies.filter fun cp => !cp.committed && cp.open_).map fun cp => (cp.by_, cp.pc, cp.issued)

/-- Whether something of the region keeps it from closing. -/
def Core.unfinished (k : Core) : Bool := !k.unfinishedWords.isEmpty

/-- The SCHEDULE_MISS of a timed region that is unfinished at its closing alignment, against the first such word: for a command, CM and the command
word (R160, R161, R192). -/
def Core.unfinishedFault (k : Core) (now : Nat) : Option FaultRec :=
  (leastBy (fun (x : SeqId × Nat × Nat) => x.2.2) k.unfinishedWords).map fun x =>
    { code := cScheduleMiss, by_ := x.1, issued := x.2.2, pc := x.2.1, taddr := w64 (k.regionCycle now), xkind := 0, xcode := 0 }

/-- Whether loads and AMOCs of the core's region have values still to land (R352, R385); the beats of its copies are not waited for (R192, R193). -/
def State.landingsOut (s : State) (c : Nat) : Bool := s.reqs.any fun r => r.core == c && !r.orphan && r.kind.lands

/-- The held effects of a region released to drain (R52, R240): an XSEND of a timed region whose earlier CT entries are XSENDs only is pushed at
the closing cycle + 1 + j; the others at no fixed cycle. -/
def State.releaseHeld (s : State) (c : Nat) : State :=
  let timed := (s.core c).timed
  let (held, s, _, _) := (s.core c).held.foldl (fun (acc : List Held × State × Nat × Bool) h =>
    let (l, s, j, only) := acc
    if h.released.isSome then (l ++ [h], s, j, only) else
    let send : Bool :=
      match h.kind with
      | .send _ _ _ _ => true
      | _ => false
    let (due, s) := s.drawDue
    let fixed := send && timed && only
    let due := if fixed then s.now + 1 + j else due
    (l ++ [{ h with released := some (s.now + 1), due := due, fixed := fixed }], s, if send then j + 1 else j,
      only && (send || h.by_ != .ct))) ([], s, 0, true)
  s.modCore c fun k => { k with held := held }

/-- A MIRR's image filled in with the state that a save at this closing alignment would take, which has drained every push (R206, R244). -/
def Held.fillMirror (h : Held) (img : Cells) : Held :=
  match h.kind with
  | .mirror area seq [] => if h.released.isNone then { h with kind := .mirror area seq img } else h
  | _ => h

/-- A sequencer after a commit: in a gap whose start is the word after its RCMT (R52); a FENCE.FULL of a timed region has the words of its windows, held until now,
dropped (R225, R357, log entry 85). -/
def Seq.afterCommit (x : Seq) (now : Nat) (timed : Bool) (windows : List Nat) : Seq :=
  let drop : Bool :=
    match x.fenced with
    | some (_, f) => f && timed
    | none => false
  { (if drop then x.keepWords fun a => !windows.contains a else x) with
    st := .run, base := now + 1, retry := none, gapStart := x.pc, fenced := none, lastHeld := none }

/-- The core after its commit (steps 2 to 6 of R52): banks flipped, live-out recorded, each sequencer in its gap. -/
def Core.commit (k : Core) (now : Nat) (map_ : List (Nat × Nat × Nat)) : Core :=
  let k1 : Core := { k with
    work := k.work != k.flip
    flip := false, realign := none, softRun := 0, phase := .gap
    epi := k.epi.map fun (e : EpiCmd) => { e with committed := true }
    copies := k.copies.map fun (cp : Copy) => { cp with committed := true }
    liveOut := k.rcmtA &&& 0xFFFF, ckeep := bit k.rcmtA.toNat 16, liveMap := map_
    seqs := allSeqs.map fun q => (k.seq q).afterCommit now k.timed (k.windows q) }
  (allSeqs.foldl (fun (k : Core) q => k.giveSignals q now (k.seq q).rgnSp (k.seq q).rgnSn) k1).snapGap

/-- The commit of a region (R52). -/
def State.commit (s : State) (c : Nat) (map_ : List (Nat × Nat × Nat)) : State :=
  let k0 := s.core c
  let s := match k0.realign with
    | some v => s.applyRealign (s.casementOf c) (dieOf c) v
    | none => s
  let s := s.returnUnits c
  let s := s.modCore c fun k => k.commit s.now map_
  let k := s.core c
  let img := if k0.mirrored then k.drainAll.block 0 (bits k.liveOut.toNat 15 0) else []
  let s := s.modCore c fun k => { k with held := k.held.map fun h => h.fillMirror img, mirrored := false }
  let s := s.releaseHeld c
  match (s.core c).preempt with
  | some p => if p.at_ ≤ s.now then s.beginSave c 0 (bits k.liveOut.toNat 15 0) false else s
  | none => s

/-- CLOSING_ALIGNMENT: with the four RCMTs issued, and in a tokened region with everything completed that must be, the region commits; or the fault
that a check or an unfinished command raises abandons it (R50 to R52, R70, R160). A fault of the same cycle goes before the checks and the commit; the
SCHEDULE_MISS of an unfinished command is recorded beside it (R274). -/
def execClosingAlignment (core : Nat) (s : State) : Host.Outcome State Fault Refusal :=
  let k := s.core core
  if k.phase != .run || !(k.seqs.all fun x => x.st == .atRcmt) then .refused .eventNotEnabled
  else if !k.timed && (k.unfinished || s.landingsOut core) then .refused .eventNotEnabled
  else
    let f (code : Nat) (ta : W64) : FaultRec :=
      { code := code, by_ := .ct, issued := s.now, pc := (k.seq .ct).pc - 4, taddr := ta, xkind := 0, xcode := 0 }
    match (if k.timed then k.unfinishedFault s.now else none) with
    | some m => if k.faults.contains m then .refused .eventNotEnabled else .next (s.raise core m)
    | none =>
      if !k.faults.isEmpty then .refused .eventNotEnabled else
      match k.checkRcmt with
      | .error (code, ta) => .next (s.settleNow core (f code ta))
      | .ok m =>
        let back : Bool :=
          match k.realign with
          | some v => s.realignBack (s.casementOf core) (dieOf core) v
          | none => false
        if back || s.mirrorTooLarge core m then .next (s.settleNow core (f cRegionRule 0)) else .next (s.commit core m)

/-! ### Budgets and soft errors -/

/-- BUDGET_EXCEEDED at the region's cycle b (R53). -/
def execBudgetExceeded (core : Nat) (s : State) : Host.Outcome State Fault Refusal :=
  let k := s.core core
  if k.phase != .run || k.budget == 0 || decide (s.now < k.cycle0 + k.budget) || k.faults.any (fun f => f.code == cBudget) then
    .refused .eventNotEnabled
  else
    .next (s.raise core
      { code := cBudget, by_ := .ct, issued := s.now, pc := (k.seq .ct).pc, taddr := 0, xkind := 0, xcode := 0 })

/-- Whether a task's budget counts in this cycle: a core holds it and is not saving (R53). -/
def State.budgetCounts (s : State) (t : Task) : Bool :=
  t.counting && decide (t.readyAt ≤ s.now) && t.cores.any fun c => (s.core c).task == some t.id && (s.core c).phase != .saving

/-- Whether a core's task is in the cause-unread state of its handler (R277). -/
def Core.unread (k : Core) : Bool := k.phase == .trapped && k.causeUnread

/-- The trap registers of the cores on which a task's budget ran out: each that holds the task and is neither saving nor saved
(R272, R273, log entry 79); one in the cause-unread state keeps its first fault (R277). -/
def State.trapBudget (s : State) (t : Task) : State :=
  { s with cores := s.cores.map fun e =>
      let k := e.2
      if t.cores.contains e.1 && k.task == some t.id && (k.phase != .idle && k.phase != .saving && k.phase != .saved) && !k.unread then
        (e.1, k.writeTrap { code := cBudget, by_ := .ct, issued := s.now, pc := (k.seq .ct).pc, taddr := 1, xkind := 0, xcode := 0 }
          (k.phase != .run) (k.phase == .trapped))
      else e }

/-- Whether a MACHINE_CHECK of this cycle stands recorded on a core of a task: it goes before the task's budget (R274). -/
def State.checkPending (s : State) (t : Task) : Bool :=
  t.cores.any fun c => (s.core c).task == some t.id && (s.core c).faults.any fun f => f.code == cMachineCheck

/-- TASK_BUDGET_EXPIRY: the task's budget has reached zero (R53, R272, R273, R274, R282). On a core in the cause-unread state it is a double trap (R277). -/
def execTaskBudgetExpiry (task : Nat) (s : State) : Host.Outcome State Fault Refusal :=
  match s.task? task with
  | none => .refused .eventNotEnabled
  | some t =>
    if t.budget != 0 || !s.budgetCounts t || t.st == .ending || s.checkPending t then .refused .eventNotEnabled
    else
      let unread := t.cores.filter fun c => (s.core c).task == some t.id && (s.core c).unread
      let s := s.trapBudget t
      if unread.isEmpty then .next (s.faultPolicy task cBudget true).1
      else .next ((unread.foldl (fun s c => s.noteDoubleTrap c cBudget) s).doubleTrapEnds t)

/-- SOFT_ERROR_REEXEC: a parity error found by a read (R280, R281); a single-bit error of a buffer, corrected and counted as any other (log entry 80);
or a double-bit error, a MACHINE_CHECK whose TADDR, the failing unit's address as firmware reads it, the spec does not state: a free value
(R272, R281, log entry 80). -/
def execSoftErrorReexec (core : Nat) (site : SoftSite) (s : State) : Host.Outcome State Fault Refusal :=
  let k := s.core core
  if k.task.isNone || k.phase == .idle || k.phase == .saving then .refused .eventNotEnabled else
  let f (code kind : Nat) (ta : W64) : FaultRec :=
    { code := code, by_ := .ct, issued := s.now, pc := (k.seq .ct).pc, taddr := ta, xkind := kind, xcode := 0 }
  match site with
  | .value => .next (s.raise core (f cSoftError 1 0))
  | .liveInput => .next (s.raise core (f cSoftError 0 0))
  | .bufferSingle => .next (s.countSoft core)
  | .bufferDouble =>
    let (v, s) := s.draw
    .next (s.raise core (f cMachineCheck 0 (w64 v)))

/-! ### REALIGN_VISIBLE (R231, R326, R457) -/

/-- Nanoseconds per cycle × 2³², to nearest: 0.8 ns × (1 + slew ÷ 10⁶) (R325, R326). -/
def Fleet.rate (f : Fleet) : Nat := ((4 * 2 ^ 32 * ((1000000 : Int) + f.slew) + 2500000) / 5000000).toNat

/-- The fleet-time anchor of a casement rewritten (R326). -/
def State.writeAnchor (s : State) (k : Nat) : State :=
  s.modCasement k fun x =>
    { x with
      anchorGen := (x.anchorGen + 2) % 2 ^ 64, anchorFta := s.ftime
      anchorZa := (List.range 9).map fun d => (BitVec.ofInt 64 (s.rawCount d + x.offsets.getD d 0)).toNat
      anchorRate := s.fleet.rate
      anchorNext := s.now + 1250000 }

/-- REALIGN_VISIBLE: a casement's new view stands on a die (R231); on the hinge die the anchor is rewritten with it (R326). -/
def execRealignVisible (casement die : Nat) (s : State) : Host.Outcome State Fault Refusal :=
  match (s.casement casement).coming.find? fun e => e.1 == die && decide (e.2.1 ≤ s.now) with
  | none => .refused .eventNotEnabled
  | some e =>
    let s := s.modCasement casement fun x => { x with offsets := x.offsets.set die e.2.2, coming := x.coming.erase e }
    .next (if die = 8 then s.writeAnchor casement else s)

/-! ### Barriers and fences (R64, R65, R214, R215) -/

/-- The cores of a task in the domain of a level that holds a core (R61). -/
def domainOf (cores : List Nat) (c level : Nat) : List Nat :=
  cores.filter fun x =>
    match level with
    | 0 => x == c
    | 1 => clusterOf x == clusterOf c && localOf x / 4 == localOf c / 4
    | 2 => clusterOf x == clusterOf c && localOf x / 16 == localOf c / 16
    | 3 => clusterOf x == clusterOf c
    | 4 => dieOf x == dieOf c
    | _ => true

/-- Whether a barrier's last member has issued its STEP: every sequencer of every core of the domain stands at it (R64, R65). -/
def State.stepMet (s : State) (c level : Nat) : Bool :=
  match s.taskOf c with
  | none => false
  | some t =>
    (domainOf t.cores c level).all fun x =>
      (s.core x).task == some t.id && (s.core x).seqs.all fun y => y.st == .atStep level

/-- A sequencer past its completed STEP: its signals given, its gap start moved (R39, R58, R420). -/
def Core.passStep (k : Core) (q : SeqId) (now : Nat) : Core :=
  let x := k.seq q
  let k := k.setSeq q { x with st := .run, base := now + 1, retry := none, gapStart := x.pc }
  (k.giveSignals q now x.rgnSp x.rgnSn).snapOne q

/-- What the members of a core's domain at a level have read of stores, and what happens before those (R64, R210). -/
def State.stepStamp (s : State) (c level : Nat) : List Nat :=
  match s.taskOf c with
  | none => List.replicate 9 0
  | some t => (domainOf t.cores c level).foldl (fun a x => (s.core x).seqs.foldl (fun a y => joinCounts a y.readStamp) a) (List.replicate 9 0)

/-- The barriers of a core that completed with the cycle before this one. Completion is an acquire: the core's die has applied all that the members' arrivals
release, their own stores, performed at the scope of the level, and the stores that these follow (R61, R64, R209, R210). -/
def State.passSteps (s : State) (done : List (Nat × Nat)) : State :=
  let stamps := done.map fun (c, l) => (c, s.stepStamp c l)
  let s := stamps.foldl (fun s (c, stamp) => s.catchUp (dieOf c) stamp) s
  done.foldl (fun s (c, l) => s.modCore c fun k => allSeqs.foldl (fun k q => if (k.seq q).st == .atStep l then k.passStep q s.now else k) k) s

/-- The barriers that stand complete: cores and levels. -/
def State.metSteps (s : State) : List (Nat × Nat) :=
  s.cores.flatMap fun (c, k) => (List.range 6).filterMap fun l =>
    if (k.seqs.all fun x => x.st == .atStep l) && s.stepMet c l then some (c, l) else none

/-- Whether what a FENCE of a kind (0 FULL, 1 ACQ, 2 REL) waits for has come about (R212, R214, R215, R224). -/
def State.fenceMet (s : State) (c : Nat) (q : SeqId) (scope kind since : Nat) : Bool :=
  let loadsLanded := !(s.core c).loadOut q since &&
    !(s.reqs.any fun r => s.own c q r.core r.task r.by_ && r.kind.lands && !r.orphan && decide (r.issued < since))
  let performed := s.releaseMet c q since scope ((s.core c).seq q).after
  match kind with
  | 1 => loadsLanded
  | 2 => performed
  | _ => performed && loadsLanded && !((s.core c).acts.any Act.isTlbi)

/-- A sequencer past its completed FENCE; a FENCE.FULL discards its prefetched words, which are fetched from memory again (R215, R225). -/
def Core.passFence (k : Core) (q : SeqId) (kind : Nat) (sp sn : Bool) (now : Nat) : Core :=
  let k := k.modSeq q fun x =>
    { x with
      st := .run, base := now + 1, retry := none, fetched := if kind = 0 then [] else x.fetched
      fetching := if kind = 0 then [] else x.fetching, cold := x.cold || kind == 0 }
  k.giveSignals q now sp sn

/-- The fences of a core that complete in this cycle. -/
def State.passFences (s : State) : State :=
  s.cores.foldl (fun s (c, _) =>
    allSeqs.foldl (fun s q =>
      match ((s.core c).seq q).st with
      | .atFence scope kind since sp sn =>
        if since ≤ s.now && s.fenceMet c q scope kind since then s.modCore c fun k => k.passFence q kind sp sn s.now else s
      | _ => s) s) s

end Sys2Proof.Machine
end

