-- ==== Sys2Proof/Machine/Quota.lean ====
section
/-! DEFINITION. What casements are guaranteed: the units in service (R26, R27), the quota fields and their checks (R296, R298), QUOTA_WRITE, and the
rescaling of the minima after a loss of capacity (R308). -/

namespace Sys2Proof.Machine

/-! ### What is in service (R26, R27) -/

/-- Whether a cluster is in service. -/
def State.clusterUp (s : State) (c : Nat) : Bool := s.clusters.getD c false

/-- Cores in service, N. -/
def State.coresUp (s : State) : Nat := 192 * (s.clusters.filter id).length

/-- Whether an HBM4E channel is in service: neither retired nor on a stack or die that is lost or retired. -/
def State.channelUp (s : State) (n : Nat) : Bool :=
  !(s.channel n).retired && (s.hbm.getD (n / 32) Stack.reset).live && (s.die (4 + n / 128)).live

/-- HBM4E channels in service, C. -/
def State.channelsUp (s : State) : Nat := ((List.range 512).filter s.channelUp).length

/-- Scale-up lanes in service. -/
def State.lanesUp (s : State) : Nat := 128 - s.retiredLanes.length

/-- The Ultra Ethernet rate in service, in Mb/s: 800,000 for each port (R298). -/
def State.rateUp (s : State) : Nat := 800000 * (s.fleet.pup.filter id).length

/-! ### Quota fields (R296) -/

/-- A field's place in `Casement.quota`, and its width in bits. -/
def quotaPlace : QuotaField → Nat × Nat
  | .mina => (0, 32)
  | .capa => (1, 32)
  | .minr => (2, 32)
  | .capr => (3, 32)
  | .minb => (4, 32)
  | .capb => (5, 32)
  | .minhr => (6, 32)
  | .minha => (7, 32)
  | .minhb => (8, 32)
  | .caph => (9, 9)
  | .minw => (10, 5)
  | .capw => (11, 5)
  | .mine => (12, 32)
  | .cape => (13, 32)
  | .minl => (14, 8)
  | .capl => (15, 8)

/-- A quota of a casement by its place. -/
def Casement.q (x : Casement) (i : Nat) : Nat := x.quota.getD i 0

/-- MINA + MINR + MINB. -/
def Casement.coreMinima (x : Casement) : Nat := x.q 0 + x.q 2 + x.q 4

/-- MINH of a class (0 action, 1 reasoning, 2 batch). -/
def hbmPlace (c : Nat) : Nat := [7, 6, 8].getD c 8

/-- The slots of a frame that a casement's classes take on each channel (R298, R299). -/
def Casement.slotShares (x : Casement) (channels : Nat) : Nat :=
  ((List.range 3).map fun c => ceilDiv (x.q (hbmPlace c)) channels).sum

/-- Whether the quotas break R298, with casement k counted as guaranteed. -/
def State.quotasBad (s : State) (k : Nat) : Bool :=
  let x := s.casement k
  let c := s.channelsUp
  let cores := ((s.casements.zipIdx.filter fun e => e.1.guaranteed || e.2 == k).map fun e => e.1.coreMinima).sum
  let all (f : Casement → Nat) : Nat := (s.casements.map f).sum
  [(0, 1), (2, 3), (4, 5), (10, 11), (12, 13), (14, 15)].any (fun p => decide (x.q p.2 < x.q p.1)) ||
  decide (s.coresUp * 1250000 < cores) ||
  decide (240 < all fun y => y.slotShares c) ||
  decide (16 < all fun y => y.q 10) || decide (16 < x.q 11) ||
  decide (1600000 < all fun y => y.q 12) ||
  decide (s.lanesUp < all fun y => y.q 14)

/-- A casement with a minimum rewritten: once every minimum that a rescaling touched has been, CAPRED clears (R308). -/
def Casement.rewritten (x : Casement) (i : Nat) : Casement :=
  let left := x.toRewrite.filter fun j => j != i
  { x with toRewrite := left, capred := x.capred && !left.isEmpty }

/-- The refusals of step 5 of R308 end once no casement has CAPRED set. -/
def State.endRefusal (s : State) : State :=
  if s.casements.any fun x => x.capred then s else { s with refuseAction := false }

/-- A quota field written: taken, or discarded with ERR set (R298). -/
def State.writeQuota (s : State) (k : Nat) (f : QuotaField) (value : Nat) : State :=
  let (i, w) := quotaPlace f
  let t := s.modCasement k fun x => { x with quota := x.quota.set i (value % 2 ^ w) }
  if t.quotasBad k then s.modCasement k fun x => { x with err := true }
  else (t.modCasement k fun x => { (x.rewritten i) with err := false }).endRefusal

/-- QUOTA_WRITE (R298). Before READY, and with the hinge clock lost, a write is discarded (R342, R459). -/
def execQuotaWrite (casement : Nat) (field : QuotaField) (value : Nat) (s : State) : Host.Outcome State Fault Refusal :=
  if 16 ≤ casement then .refused .eventNotEnabled
  else .next (if s.boot.ready then s.writeQuota casement field value else s)

/-! ### Rescaling (R308) -/

/-- Step 1: minima of the class that goes first, kept whole where they fit, else scaled to at least one unit each. Whether anything was scaled. -/
def scaleFirst (unit avail : Nat) (mins : List Nat) : List Nat × Bool :=
  if mins.sum ≤ avail then (mins, false)
  else (mins.map fun m => Max.max 1 (m * avail / (mins.sum * unit)) * unit, true)

/-- Step 2: minima of a later class against what is left. -/
def scaleRest (unit avail : Nat) (mins : List Nat) : List Nat :=
  if mins.sum ≤ avail then mins else mins.map fun m => m * avail / (mins.sum * unit) * unit

/-- The minima of the classes of one resource after the loss, in the order action, reasoning, batch; whether step 1 scaled anything. -/
def rescale (unit avail : Nat) : List (List Nat) → List (List Nat) × Bool
  | [] => ([], false)
  | first :: rest =>
    let (a, scaled) := scaleFirst unit avail first
    let r := rest.foldl (fun (acc : List (List Nat) × Nat) m =>
      let x := scaleRest unit acc.2 m
      (acc.1 ++ [x], acc.2 - x.sum)) ([a], avail - a.sum)
    (r.1, scaled)

/-- A resource rescaled where the sum of its guaranteed minima exceeds what is available. `fields` are the places of its minima, in the order of the
classes; `into` turns a minimum into what is scaled, and `back` a scaled one back. -/
def State.rescaleOne (s : State) (fields : List Nat) (unit avail : Nat) (into back : Nat → Nat) : State :=
  let ks := (List.range 16).filter fun k => (s.casement k).guaranteed
  let old := fields.map fun f => ks.map fun k => into ((s.casement k).q f)
  if (old.map List.sum).sum ≤ avail then s else
  let (new_, scaled) := rescale unit avail old
  let s := ((fields.zip (old.zip new_)).flatMap fun (f, o, n) => (ks.zip (o.zip n)).map fun (k, a, b) => (f, k, a, b)).foldl
    (fun (s : State) e =>
      let (f, k, a, b) := e
      if a = b then s
      else s.modCasement k fun x => { x with quota := x.quota.set f (back b), inForce := x.inForce.set f (back b) }) s
  let s := { s with casements := s.casements.map fun x =>
    let x := if scaled then { x with actedSince := [] } else x
    if x.st == .active then
      { x with capred := true, toRewrite := (x.toRewrite ++ fields).eraseDups, usage := { x.usage with capacity := true } }
    else x }
  if scaled then { s with refuseAction := true } else s

/-- After a loss of capacity, every resource whose guaranteed minima no longer fit is rescaled (R308). Lanes and the Ethernet rate have no classes: step 1 scales
them all, and with it step 5 applies (DESIGN CHOICE, log entry 92). -/
def State.rescaleAll (s : State) : State :=
  let c := s.channelsUp
  let s := s.rescaleOne [0, 2, 4] 1250000 (s.coresUp * 1250000) id id
  let s := s.rescaleOne [7, 6, 8] 1 240 (fun m => ceilDiv m c) (fun m => m * c)
  let s := s.rescaleOne [14] 1 s.lanesUp id id
  s.rescaleOne [12] 1000 s.rateUp id id

end Sys2Proof.Machine
end

