-- ==== Sys2Proof/Machine/Usage.lean ====
section
/-! DEFINITION. Usage records (R304 to R306): SHA-384, the record's layout, USAGE_WINDOW_CLOSE and USAGE_RECORD_COMPLETE. -/

namespace Sys2Proof.Machine

/-! ### SHA-384, which R304 names -/

/-- The integer square root of n below 2^w, bit by bit. -/
def rootBits (power n : Nat) : Nat → Nat → Nat
  | 0, r => r
  | w + 1, r => rootBits power n w (if (r + 2 ^ w) ^ power ≤ n then r + 2 ^ w else r)

/-- The first 64 bits of the fractional part of a prime's root. -/
def rootFraction (power p : Nat) : W64 := BitVec.ofNat 64 (rootBits power (p * 2 ^ (64 * power)) 72 0)

/-- The first primes, as far as SHA-384 uses them. -/
def shaPrimes : List Nat := ((List.range 410).filter fun n => 2 ≤ n && (span 2 (n - 2)).all fun d => n % d != 0).take 80

/-- The round constants: cube roots of the first 80 primes. -/
def shaRound : List W64 := shaPrimes.map (rootFraction 3)

/-- The initial hash: square roots of the ninth to the sixteenth prime. -/
def shaInit : List W64 := ((shaPrimes.drop 8).take 8).map (rootFraction 2)

/-- The message padded to whole blocks of 128 bytes. -/
def shaPad (m : List W8) : List W8 :=
  m ++ [0x80] ++ List.replicate ((128 - (m.length + 17) % 128) % 128) 0 ++ (leBytes 16 (8 * m.length)).reverse

/-- The 80 words of a block's schedule, latest first while it grows. -/
def shaSchedule (block : List W64) : List W64 :=
  ((List.range 64).foldl (fun (w : List W64) _ =>
    let g (i : Nat) : W64 := w.getD (i - 1) 0
    let a := g 15
    let b := g 2
    let s0 := (a.rotateRight 1) ^^^ (a.rotateRight 8) ^^^ (a >>> 7)
    let s1 := (b.rotateRight 19) ^^^ (b.rotateRight 61) ^^^ (b >>> 6)
    (g 16 + s0 + g 7 + s1) :: w) block.reverse).reverse

/-- One round of the compression function on (a, …, h). -/
def shaStep (v : List W64) (kw : W64 × W64) : List W64 :=
  match v with
  | [a, b, c, d, e, f, g, h] =>
    let s1 := (e.rotateRight 14) ^^^ (e.rotateRight 18) ^^^ (e.rotateRight 41)
    let ch := (e &&& f) ^^^ (~~~ e &&& g)
    let t1 := h + s1 + ch + kw.1 + kw.2
    let s0 := (a.rotateRight 28) ^^^ (a.rotateRight 34) ^^^ (a.rotateRight 39)
    let maj := (a &&& b) ^^^ (a &&& c) ^^^ (b &&& c)
    [t1 + s0 + maj, a, b, c, d + t1, e, f, g]
  | v => v

/-- The hash after one block. -/
def shaBlock (h : List W64) (block : List W8) : List W64 :=
  let words := (List.range 16).map fun i => (BitVec.ofNat 64 (leNat ((block.drop (8 * i)).take 8).reverse) : W64)
  let v := (shaRound.zip (shaSchedule words)).foldl shaStep h
  (h.zip v).map fun p => p.1 + p.2

/-- SHA-384: 48 bytes. -/
def sha384 (m : List W8) : List W8 :=
  let p := shaPad m
  let h := (List.range (p.length / 128)).foldl (fun h i => shaBlock h ((p.drop (128 * i)).take 128)) shaInit
  ((h.take 6).flatMap fun w => (leBytes 8 w.toNat).reverse)

/-! ### Records -/

/-- A count as a 16-bit field holds it. -/
def sat16 (n : Nat) : Nat := Min.min n 65535

/-- The bytes 0 to 159 of a casement's record for the window that ends at `fend` (R304). ENERGY is a value the spec does not state (log entry 36). -/
def usageBody (k : Nat) (u : Usage) (closed lost : Bool) (energy fend : Nat) : List W8 :=
  let counts := u.softerr :: u.thmiss :: u.hm
  let flags := 32 * flag closed + 16 * flag lost + 8 * flag (counts.any fun n => decide (65535 < n)) + 4 * flag u.first +
    2 * flag u.thermal + flag u.capacity
  [1, BitVec.ofNat 8 (16 * k)] ++ leBytes 2 flags ++ leBytes 2 (sat16 u.softerr) ++ leBytes 2 (sat16 u.thmiss) ++ leBytes 8 u.seq ++
  leBytes 8 fend ++ u.cycles.flatMap (leBytes 6) ++ u.admits.flatMap (leBytes 4) ++ leBytes 6 u.bytes ++ leBytes 4 energy ++
  u.hm.flatMap (fun n => leBytes 2 (sat16 n)) ++ u.prev

/-- A record: the body with its signature, r and s big-endian. -/
def usageRecord (body : List W8) : List W8 := body ++ (leBytes 96 (Config.recordSignature body).toNat).reverse

/-- Whether a request of a casement's tasks waits in a thermal hold (R318, R319). -/
def State.waitsInHold (s : State) (k : Nat) : Bool :=
  s.reqs.any fun r => ((s.task? r.task).map Task.casement) == some k && (match r.st with
    | .queued pa key (some _) => s.waitsHot pa && !s.inBuffer pa key
    | _ => false)

/-- A casement's window closed at a fleet time: the record is produced and signed, and the next window opens, with the thermal mark where a request still waits in a hold
(R304, R306, R319). -/
def State.closeWindow (s : State) (k fend : Nat) (closed : Bool) : State :=
  let x := s.casement k
  let u := x.usage
  let (energy, s) := s.draw
  let (d, s) := s.draw
  let r := usageRecord (usageBody k u closed x.lost energy fend)
  let rec_ : UsageRec := { bytes := r, due := s.now + 1 + d % 1249000, seq := u.seq, read := false }
  s.modCasement k fun x =>
    { x with
      records := x.records ++ [rec_]
      usage := { Usage.open_ false (u.seq + 1) (sha384 r) (s.ftime / 10000000) with thermal := s.waitsInHold k } }

/-- USAGE_WINDOW_CLOSE: fleet time has reached a multiple of 10 ms (R304). -/
def execUsageWindowClose (casement : Nat) (s : State) : Host.Outcome State Fault Refusal :=
  let x := s.casement casement
  let w := s.ftime / 10000000
  if 16 ≤ casement || !x.guaranteed || s.boot.hingeLost || decide (w ≤ x.usage.window) then .refused .eventNotEnabled
  else .next (s.closeWindow casement (w * 10000000) false)

/-- The record of a casement that completes next. -/
def Casement.nextRecord (x : Casement) : Option UsageRec := x.records.find? fun r => r.due != 0

/-- USAGE_RECORD_COMPLETE: a record stands in the ring and URSEQ names it (R306). A ring of 1,024 records keeps no older one; one that the host has
not read is lost (R304). -/
def execUsageRecordComplete (casement : Nat) (s : State) : Host.Outcome State Fault Refusal :=
  match (s.casement casement).nextRecord with
  | none => .refused .eventNotEnabled
  | some r =>
    if s.now < r.due || s.boot.hingeLost then .refused .eventNotEnabled else
    .next (s.modCasement casement fun x =>
      { x with
        urseq := r.seq
        lost := x.lost || x.records.any fun y => y.due == 0 && !y.read && y.seq % 1024 == r.seq % 1024
        records := (x.records.filter fun y => y.due != 0 || y.seq % 1024 != r.seq % 1024).map fun (y : UsageRec) =>
          if y.due == r.due && y.seq == r.seq then { y with due := 0 } else y })

end Sys2Proof.Machine
end

