-- ==== Sys2Proof/Machine/Complete.lean ====
section
/-! DEFINITION. Reports of completions: signal writes (R221, R461), the completion queues (R269 to R271; COMPLETION_ENTRY_WRITE, CQ_INTERRUPT), and the
fault rings' entries (R290, R291; FAULT_ENTRY_WRITE). -/

namespace Sys2Proof.Machine

/-- The agent that stands for the device's own accesses in records of stores: no core. -/
def noCore : Nat := 2304

/-! ### The device's own accesses -/

/-- How an access of the device itself in a casement's space ends. -/
inductive Dev (α : Type) where
  | ok (s : State) (a : α)
  /-- It cannot be translated, or is not permitted. -/
  | fault (s : State) (f : XFault)
  /-- It is tried again in a later cycle: a thermal hold, which marks the casement's record (R319), or power units (R345). -/
  | wait (s : State)
  /-- MACHINE_CHECK of the memory, of which firmware is told (R315, R316, R336, R460). -/
  | check (s : State)

/-- What follows an access. -/
def Dev.bind {α β : Type} (d : Dev α) (f : State → α → Dev β) : Dev β :=
  match d with
  | .ok s a => f s a
  | .fault s x => .fault s x
  | .wait s => .wait s
  | .check s => .check s

/-- A casement whose request waits in a thermal hold: its record sets THERMAL (R319). -/
def State.markRecord (s : State) (k : Nat) (hot : Bool) : State :=
  if hot then s.modCasement k fun x => { x with usage := { x.usage with thermal := true } } else s

/-- A translation in a casement's space. -/
def State.devTranslate (s : State) (k va : Nat) (acc : Access) : Dev TlbEntry :=
  match s.translateFor k va acc with
  | .error (s, .wait hot) => .wait (s.markRecord k hot)
  | .error (s, .check pa) => .check (s.emitOut (.machineCheck noCore pa))
  | .error (s, f) => .fault s f
  | .ok (s, e) => .ok s e

/-- Bytes of a page reached in memory under a key. -/
def State.devTouch (s : State) (k pa key n : Nat) (write : Bool) : Dev Unit :=
  match s.touch k pa key n write with
  | .ok s => .ok s ()
  | .wait hot => .wait (s.markRecord k hot)
  | .check s at_ => .check (s.emitOut (.machineCheck noCore at_))

/-- Bytes of one page of a casement's space translated and reached. -/
def State.devReach (s : State) (k va n : Nat) (acc : Access) : Dev TlbEntry :=
  (s.devTranslate k va acc).bind fun s e => (s.devTouch k (e.paOf va) e.key n (acc == .store)).bind fun s _ => .ok s e

/-- Bytes the device writes at a physical address with its key ID, in a ring's memory; none while the write must wait. Nothing reaches an address that is
not there. -/
def State.deviceWrite (s : State) (a : Nat) (bs : List W8) : Option State :=
  let pa := bits a 47 0
  let key := bits a 51 48
  if regionOf pa == .unmapped then some s else
  match s.devTouch key pa key bs.length true with
  | .ok s _ => some (s.storeBytes 8 noCore .ct key pa bs)
  | .wait _ => none
  | .check s => some s
  | .fault s _ => some s

/-- Whether bytes of a ring's memory wait for a thermal hold, and the casement of their key (R319). -/
def State.entryHot (s : State) (a : Nat) : Option Nat :=
  let pa := bits a 47 0
  let key := bits a 51 48
  if s.waitsHot pa && !s.dead pa && !s.inBuffer pa key then some key else none

/-- The casements whose completion and fault entries wait for a thermal hold: their records set THERMAL (R318, R319). -/
def State.hotEntries (s : State) : List Nat :=
  (s.cqs.filterMap fun (_, x) =>
    if (x.waiting.take 1).any fun r => r.sig == 0 then s.entryHot (x.base.toNat + 32 * (x.tail.toNat % 2 ^ x.size)) else none) ++
  s.rings.filterMap fun (x : Ring) => if x.waiting.isEmpty then none else s.entryHot (x.base.toNat + 32 * (x.tail.toNat % 2 ^ x.size))

/-- Their marks. -/
def State.markEntries (s : State) : State := s.hotEntries.foldl (fun s k => s.markRecord k true) s

/-! ### Signal writes (R461) -/

/-- The CODE of a fault entry for a failed access of the device's own (R291). -/
def XFault.entryCode : XFault → Nat
  | .s1 code => code
  | .s1by2 _ code => code
  | .perm => 2
  | .s2 _ code => code
  | .wait _ => 0
  | .check _ => 0

/-- How a signal write ends. -/
inductive SignalEnd where
  /-- Made or dropped. -/
  | done (s : State)
  /-- Stalled by a stage-2 fault, reported. -/
  | stalled (s : State)
  /-- To be made later: a thermal hold, or power units (R318, R345). -/
  | wait (s : State)

/-- VALUE written to SIG in a casement's space by the hinge die (R221, R461). `w` is what waits for the answer to a stage-2 fault. A task's SIG is used as it
is, a multiple of 8 or not (DESIGN CHOICE, log entry 93). -/
def State.signalWrite (s : State) (k va : Nat) (value : W64) (taskId : Nat) (w : RingWait) : SignalEnd :=
  let drop (s : State) (code : Nat) : SignalEnd := .done (s.report k (faultEntry va va taskId 0 8 k code) .nothing)
  match s.devReach k va 8 .store with
  | .fault s (.s2 ipa code) => .stalled (s.report 16 (faultEntry ipa va taskId 0 8 k code) w)
  | .fault s f => drop s f.entryCode
  | .wait s => .wait s
  | .check s => .done s
  | .ok s e => .done (s.storeBytes 8 noCore .ct e.key (e.paOf va) (leBytes 8 value.toNat))

/-- The signal writes of a completion queue that are still to be made, in order, up to the first that must wait; `fuel` bounds their number. -/
def State.flushSignals (s : State) (q : Nat) : Nat → State
  | 0 => s
  | fuel + 1 =>
    match (s.cq q).waiting.findIdx? fun r => r.sig != 0 with
    | none => s
    | some i =>
      match (s.cq q).waiting[i]? with
      | none => s
      | some r =>
        if r.stalled then s else
        let set (s : State) (f : Report → Report) : State := s.modCq q fun x => { x with waiting := x.waiting.modify i f }
        match s.signalWrite r.casement r.sig r.value (fieldLE r.entry 0 4) (.signal q) with
        | .wait s => s
        | .stalled s => set s fun r => { r with stalled := true }
        | .done s => State.flushSignals (set s fun r => { r with sig := 0 }) q fuel

/-- The signal writes that waited, tried again. -/
def State.flushAll (s : State) : State :=
  s.cqs.foldl (fun s e => if e.2.waiting.any fun r => r.sig != 0 && !r.stalled then s.flushSignals e.1 e.2.waiting.length else s) s

/-- A completion handed to its queue, with its signal write first (R269). -/
def State.complete (s : State) (q : Nat) (r : Report) : State :=
  let s := s.modCq q fun x => { x with waiting := x.waiting ++ [r] }
  s.flushSignals q (s.cq q).waiting.length

/-! ### Completion entries and interrupts (R269 to R271) -/

/-- A completion entry, its PHASE apart (R269). -/
def completionEntry (taskId status casement level code ftime queue session : Nat) : List W8 :=
  leBytes 4 taskId ++ leBytes 1 status ++ leBytes 1 (16 * casement + level) ++ leBytes 1 code ++ [0] ++ leBytes 8 ftime ++
  leBytes 2 queue ++ leBytes 2 session ++ List.replicate 12 0

/-- The PHASE of an entry of a ring of 2^n entries at a tail (log entry 37). -/
def phaseOf (tail : W32) (n : Nat) : Nat := tail.toNat / 2 ^ n % 2

/-- Whether a ring has room. -/
def roomIn (head tail : W32) (n : Nat) : Bool := decide ((tail - head).toNat < 2 ^ n)

/-- COMPLETION_ENTRY_WRITE: the oldest waiting entry is written and CQTAIL advanced, once its signal write is over and the ring has room (R270). -/
def execCompletionEntryWrite (cq : Nat) (s : State) : Host.Outcome State Fault Refusal :=
  let x := s.cq cq
  match x.waiting with
  | [] => .refused .eventNotEnabled
  | r :: rest =>
    if r.sig != 0 || !roomIn x.head x.tail x.size || s.boot.hingeLost then .refused .eventNotEnabled else
    let a := x.base.toNat + 32 * (x.tail.toNat % 2 ^ x.size)
    match s.deviceWrite a (r.entry.set 7 (BitVec.ofNat 8 (phaseOf x.tail x.size))) with
    | none => .refused .eventNotEnabled
    | some s =>
      .next (s.modCq cq fun x =>
        { x with
          tail := x.tail + 1, waiting := rest, pending := x.pending + 1, newest := s.ftime
          oldest := if x.pending = 0 then s.ftime else x.oldest })

/-- Whether a completion queue's interrupt is due (R271). -/
def ComplQueue.interruptDue (x : ComplQueue) (ftime : Nat) : Bool :=
  decide (0 < x.pending) &&
    (decide (x.thresh + 1 ≤ x.pending) || decide (x.oldest + x.timer.toNat ≤ ftime) || decide (x.newest + 1000 ≤ ftime))

/-- CQ_INTERRUPT: the coalesced interrupt is sent and the pending count returns to zero (R271). -/
def execCqInterrupt (cq : Nat) (s : State) : Host.Outcome State Fault Refusal :=
  let x := s.cq cq
  if !x.interruptDue s.ftime || s.boot.hingeLost then .refused .eventNotEnabled
  else .next ((s.emitOut (.interrupt cq x.vec)).modCq cq fun x => { x with pending := 0 })

/-! ### Fault entries (R290, R291) -/

/-- A ring. -/
def State.ring (s : State) (i : Nat) : Ring := s.rings.getD i Ring.reset

/-- FAULT_ENTRY_WRITE: the oldest waiting fault entry is written once the ring has room, and its vector's interrupt sent; what it reports then
waits for an answer to that index (R291, R292). -/
def execFaultEntryWrite (ring : Nat) (s : State) : Host.Outcome State Fault Refusal :=
  let x := s.ring ring
  match x.waiting with
  | [] => .refused .eventNotEnabled
  | (e, w) :: rest =>
    if !roomIn x.head x.tail x.size || s.boot.hingeLost then .refused .eventNotEnabled else
    let a := x.base.toNat + 32 * (x.tail.toNat % 2 ^ x.size)
    match s.deviceWrite a (e.set 24 (BitVec.ofNat 8 (phaseOf x.tail x.size))) with
    | none => .refused .eventNotEnabled
    | some s =>
      let x := { x with
        tail := x.tail + 1, waiting := rest
        open_ := (x.open_.filter fun o => o.1 != x.tail.toNat % 2 ^ x.size) ++
          (if w == .nothing then [] else [(x.tail.toNat % 2 ^ x.size, w)]) }
      .next ({ s with rings := s.rings.set ring x }.emitOut (.ringInterrupt ring x.vec))

end Sys2Proof.Machine
end

