-- ==== Sys2Proof/Machine/Queue.lean ====
section
/-! DEFINITION. Task queues (R247 to R251): their commands (START, STOP, SETRD), the writing of QWR (QWR_WRITE), fetch slots (R249), the evaluation of
waits and the signals of marks (WAIT_RECHECK, MARK_RECORD, WAIT_FAULT_TIMEOUT). -/

namespace Sys2Proof.Machine

/-- The virtual address of record 0. -/
def Queue.ringVa (x : Queue) : Nat := bits x.qbase.toNat 47 12 * 4096

/-- Records in the ring. -/
def Queue.unread (x : Queue) : Nat := (x.qwr - x.qrd).toNat

/-- The virtual address of the record at the read index (R248). -/
def Queue.recordVa (x : Queue) : Nat := x.ringVa + 128 * (x.qrd.toNat % 2 ^ x.qsz)

/-- Whether a range of a casement's space is valid and pinned at both stages, for an access; `fuel` bounds the leaves met. -/
def State.pinned (s : State) (k va len : Nat) (acc : Access) : Nat → Dev Bool
  | 0 => .ok s (len == 0)
  | fuel + 1 =>
    if len = 0 then .ok s true else
    match s.devTranslate k va acc with
    | .fault s _ => .ok s false
    | .check s => .ok s false
    | .wait s => .wait s
    | .ok s e =>
      if !e.pin then .ok s false else
      let n := Min.min len (e.va + e.size - va)
      State.pinned s k (va + n) (len - n) acc fuel

/-- A range of pages checked whole. -/
def State.rangePinned (s : State) (k va len : Nat) (acc : Access) : Dev Bool := s.pinned k va len acc (len / 4096 + 2)

/-- A queue in ERROR (R251). FIDX takes QRD in every case; DESIGN CHOICE, log entry 99: so also after a START on an unpinned ring, which no record
caused. -/
def Queue.errored (x : Queue) (cause : Nat) : Queue :=
  { x with st := .error, cause := cause, fidx := x.qrd, slot := false, waitLine := none, reached := none, stalled := false }

/-! ### Commands (R251) -/

/-- START: the ring must be pinned; while the casement's save area is in error the queue then goes to STOPPED at once (R264). While the tables cannot be read
the command waits among the queue's (R318). -/
def State.queueStart (s : State) (q : Nat) : State :=
  let x := s.queue q
  let open_ (s : State) : State :=
    match s.rangePinned x.owner x.ringVa (128 * 2 ^ x.qsz) .load with
    | .wait s => s.modQueue q fun x => { x with cmds := (0, 0) :: x.cmds }
    | .ok s true =>
      s.modQueue q fun x => if (s.casement x.owner).saveErr then x.stopped else { x with st := .active, due := s.now }
    | .ok s false => s.modQueue q fun x => x.errored 0x0E
    | .fault s _ => s.modQueue q fun x => x.errored 0x0E
    | .check s => s.modQueue q fun x => x.errored 0x0E
  match x.st with
  | .idle => open_ s
  | .error => open_ s
  | .stopped => open_ s
  | .active => s
  | .waitFault => s

/-- STOP. -/
def State.queueStop (s : State) (q : Nat) : State := s.modQueue q Queue.stop

/-- SETRD. -/
def State.queueSetrd (s : State) (q : Nat) (index : W32) : State :=
  match (s.queue q).st with
  | .error => s.modQueue q fun x => { x with qrd := index }
  | .stopped => s.modQueue q fun x => { x with qrd := index }
  | _ => s

/-- A command by its code in QCTL's layout (R268). DESIGN CHOICE, log entry 99: a host's QCMD with CMD 3 to 15, of which the spec says nothing, has no
effect, and its bits 31 to 4 are dropped. -/
def State.queueCommand (s : State) (q code : Nat) (index : W32) : State :=
  match code with
  | 0 => s.queueStart q
  | 1 => s.queueStop q
  | 2 => s.queueSetrd q index
  | _ => s

/-- Commands of a queue in their order; behind one that waits, the others wait too. -/
def State.runCommands (s : State) (q : Nat) (cmds : List (Nat × W32)) : State :=
  cmds.foldl (fun s c =>
    if (s.queue q).cmds.isEmpty then s.queueCommand q c.1 c.2 else s.modQueue q fun x => { x with cmds := x.cmds ++ [c] }) s

/-- The commands that wait at a queue, taken by a decision (R260). A mark whose signal write is stalled is finished before a STOP (R251). -/
def State.takeCommands (s : State) (q : Nat) : State :=
  let x := s.queue q
  if x.stalled then s else (s.modQueue q fun x => { x with cmds := [] }).runCommands q x.cmds

/-- START. -/
def execStart (queue : Nat) (s : State) : Host.Outcome State Fault Refusal :=
  if 256 ≤ queue then .refused .eventNotEnabled else .next (if s.boot.ready then s.queueStart queue else s)

/-- STOP. -/
def execStop (queue : Nat) (s : State) : Host.Outcome State Fault Refusal :=
  if 256 ≤ queue then .refused .eventNotEnabled
  else .next (if s.boot.ready then s.queueStop queue else s)

/-- SETRD. -/
def execSetrd (queue : Nat) (index : W32) (s : State) : Host.Outcome State Fault Refusal :=
  if 256 ≤ queue then .refused .eventNotEnabled else .next (if s.boot.ready then s.queueSetrd queue index else s)

/-! ### QWR (R248) -/

/-- Whether a function reaches a block of a casement (R247, R321). -/
def HostFn.owns : HostFn → Nat → Bool
  | .pf, _ => true
  | .vf k, owner => k == owner

/-- A host write of QWR; an ACTIVE queue that it overfills goes to ERROR (R248, R251), and one that it empties gives up its slot (R249). -/
def State.writeQwr (s : State) (fn : HostFn) (q : Nat) (value : W32) : State :=
  if !HostFn.owns fn (s.queue q).owner then s else
  s.modQueue q fun x =>
    let y := { x with qwr := value }
    if x.st == .active && decide (2 ^ x.qsz < y.unread) then y.errored 0x18
    else if y.unread = 0 then { y with slot := false } else y

/-- QWR_WRITE. -/
def execQwrWrite (fn : HostFn) (queue : Nat) (value : W32) (s : State) : Host.Outcome State Fault Refusal :=
  if 256 ≤ queue then .refused .eventNotEnabled else .next (if s.boot.ready then s.writeQwr fn queue value else s)

/-! ### Fetch slots (R249) -/

/-- Whether a queue waits for a slot. -/
def Queue.wantsSlot (x : Queue) (now : Nat) : Bool := x.st == .active && !x.slot && x.unread != 0 && decide (x.due ≤ now)

/-- Slots given in rotation by queue number, after the last queue served. The latency of the first read is not fixed. -/
def State.giveSlots (s : State) : State :=
  let used := (s.queues.filter fun e => e.2.slot).length
  let order := ((List.range 256).map fun i => (s.lastServedQueue + 1 + i) % 256).filter fun q => (s.queue q).wantsSlot s.now
  (order.take (64 - used)).foldl (fun s q =>
    let (due, s) := s.drawDue
    { (s.modQueue q fun x => { x with slot := true, due := due }) with lastServedQueue := q }) s

/-- A queue past a record: the index advanced, the slot freed when it empties. -/
def State.advanceQueue (s : State) (q : Nat) : State :=
  let (due, s) := s.drawDue
  s.modQueue q fun x =>
    let y := { x with qrd := x.qrd + 1, reached := none, waitLine := none, stalled := false, due := due }
    if y.unread = 0 then { y with slot := false } else y

/-! ### Waits (R250) -/

/-- Bytes read by the hinge die with an acquire at SYSTEM scope: what the newest store to them releases is applied there first (R210, R250). -/
def State.acquireRead (s : State) (slot pa n : Nat) : State × List W8 :=
  let s := s.catchUp 8 (s.stampOf none (span (s.forward pa) n))
  (s, s.readMem (some 8) slot pa n)

/-- SIG of a wait or mark record, an 8-byte word (log entry 38). -/
def recordSig (r : List W8) : Nat := fieldLE r 8 8 / 8 * 8

/-- Whether a wait's condition holds. -/
def waitMet (r : List W8) (sig : Nat) : Bool :=
  let v := fieldLE r 16 8
  match bits (fieldLE r 1 1) 1 0 with
  | 0 => sig == v
  | 1 => decide (v ≤ sig)
  | _ => sig != v

/-- A wait evaluated (R250). Its word not resident: WAIT_FAULT, with a report where `tell` or where the queue was ACTIVE. -/
def State.evalWait (s : State) (q : Nat) (tell : Bool) : State :=
  let x := s.queue q
  match x.reached with
  | none => s
  | some r =>
    let k := x.owner
    let va := recordSig r
    let absent (s : State) (ring addr code : Nat) : State :=
      let s := if tell || x.st == .active then s.report ring (faultEntry addr 0 0 0 5 k code) (.queueWait q) else s
      s.modQueue q fun y =>
        { y with
          st := .waitFault, faultAt := if y.st == .active then s.ftime else y.faultAt, waitLine := none
          nextWait := s.now + 12500 }
    match s.devReach k va 8 .load with
    | .fault s (.s2 ipa code) => absent s 16 ipa code
    | .fault s .perm => absent s k va 1
    | .fault s f => absent s k va f.entryCode
    | .check s => s.modQueue q fun y => y.errored 0x0E
    | .wait s => s.modQueue q fun y => { y with nextWait := s.now + 1 }
    | .ok s e =>
      let pa := e.paOf va
      let (s, bs) := s.acquireRead e.key pa 8
      let s := s.modQueue q fun y => { y with st := .active }
      if waitMet r (leNat bs) then s.advanceQueue q
      else s.modQueue q fun y => { y with waitLine := some (s.forward pa / 64), nextWait := s.now + 12500 }

/-- Whether a queue stands at a wait record. -/
def Queue.atWait (x : Queue) : Bool :=
  match x.reached with
  | some r => fieldLE r 0 1 == 2
  | none => false

/-- WAIT_RECHECK: a wait is evaluated again, on a write to its line or 10 µs after the last time (R250). -/
def execWaitRecheck (queue : Nat) (s : State) : Host.Outcome State Fault Refusal :=
  let x := s.queue queue
  if (x.st == .active || x.st == .waitFault) && x.atWait && decide (x.nextWait ≤ s.now) && !s.boot.hingeLost then
    .next (s.evalWait queue false)
  else .refused .eventNotEnabled

/-- WAIT_FAULT_TIMEOUT: the casement's fault timeout has passed (R250, R251). -/
def execWaitFaultTimeout (queue : Nat) (s : State) : Host.Outcome State Fault Refusal :=
  let x := s.queue queue
  if x.st == .waitFault && decide (x.faultAt + 1000 * (s.casement x.owner).fto ≤ s.ftime) && !s.boot.hingeLost then
    .next (s.modQueue queue fun y => y.errored 0x0E)
  else .refused .eventNotEnabled

/-! ### Marks (R250, R461) -/

/-- A mark's signal write tried. -/
def State.markWrite (s : State) (q : Nat) (r : List W8) : State :=
  match s.signalWrite (s.queue q).owner (recordSig r) (w64 (fieldLE r 16 8)) 0 (.markWrite q) with
  | .wait s => s.modQueue q fun x => { x with due := s.now + 1 }
  | .stalled s => s.modQueue q fun x => { x with stalled := true }
  | .done s => s.advanceQueue q

/-- MARK_RECORD: every earlier task of the queue has retired; the mark's signal is written and QRD advances (R250). -/
def execMarkRecord (queue : Nat) (s : State) : Host.Outcome State Fault Refusal :=
  let x := s.queue queue
  match x.reached with
  | none => .refused .eventNotEnabled
  | some r =>
    if fieldLE r 0 1 != 3 || x.st != .active || x.stalled || decide (s.now < x.due) || s.boot.hingeLost ||
        s.tasks.any (fun t => t.queue == queue) then .refused .eventNotEnabled
    else .next (s.markWrite queue r)

end Sys2Proof.Machine
end

