-- ==== Sys2Proof/Machine/Placement.lean ====
section
/-! DEFINITION. Task records and where tasks go: the fields of a record and its checks (R252 to R254), the channel table (R226, R227), core groups and
their placement (R29, R228, R261, R337, R338). -/

namespace Sys2Proof.Machine

/-! ### Fields of a task record (R252) -/

/-- A field of a task's record. -/
def Task.field (t : Task) (off n : Nat) : Nat := fieldLE t.record off n

/-- DKIND. -/
def Task.dkind (t : Task) : Nat := bits (t.field 1 1) 7 6
/-- TOKW. -/
def Task.tokw (t : Task) : Bool := bit (t.field 1 1) 5
/-- CHAIN. -/
def Task.chain (t : Task) : Bool := bit (t.field 1 1) 4
/-- NLEV. -/
def Task.nlev (t : Task) : Nat := bits (t.field 2 1) 1 0
/-- RETRY. -/
def Task.retry (t : Task) : Nat := bits (t.field 3 1) 7 4
/-- NPRED. -/
def Task.npred (t : Task) : Nat := bits (t.field 3 1) 2 0
/-- CORES. -/
def Task.coresAsked (t : Task) : Nat := bits (t.field 4 2) 11 0
/-- SESSION. -/
def Task.session (t : Task) : Nat := t.field 6 2
/-- TASKID. -/
def Task.taskId (t : Task) : Nat := t.field 8 4
/-- MIRRSZ. -/
def Task.mirrSize (t : Task) : Nat := t.field 12 4
/-- RELEASE. -/
def Task.release (t : Task) : Nat := t.field 16 8
/-- DEADLINE. -/
def Task.deadline (t : Task) : Nat := t.field 24 8
/-- SIG. -/
def Task.sig (t : Task) : Nat := t.field 56 8
/-- PREDi. -/
def Task.pred (t : Task) (i : Nat) : Nat := t.field (80 + 4 * i) 4
/-- CHAINID. -/
def Task.chainId (t : Task) : Nat := bits (t.field 80 4) 11 0
/-- ORDER. -/
def Task.chainOrder (t : Task) : Nat := t.field 84 4
/-- PCLU. -/
def Task.pclu (t : Task) : Nat := bits (t.field 96 2) 11 0

/-- The cores of a group for a request: beyond one cluster, whole clusters (R29). -/
def groupSize (n : Nat) : Nat := if n ≤ 192 then n else ceilDiv n 192 * 192

/-- The cores of a task's group. -/
def Task.groupCores (t : Task) : Nat := groupSize t.coresAsked

/-- The budget of a ladder level (R253). -/
def Task.ladderBudget (t : Task) (l : Nat) : Nat := (t.ladder.getD l []).getD 4 0

/-- The mirror pool that a mirrored task takes (R337). -/
def Task.poolShare (t : Task) : Nat := if t.mirr then 2 * t.coresAsked * t.mirrSize else 0

/-! ### Clusters (R13, R16, R29, R337, R338) -/

/-- The clusters that a DKIND and a PCLU allow (R252). -/
def allowedClusters (dkind pclu : Nat) : List Nat :=
  (List.range 12).filter fun c =>
    (dkind == 2 || (dkind == 0 && decide (c < 8)) || (dkind == 1 && decide (8 ≤ c))) && (pclu == 0 || bit pclu c)

/-- The cores of a cluster. -/
def clusterCores (c : Nat) : List Nat := span (192 * c) 192

/-- The cluster of a shadow (R337). -/
def partnerCluster (c : Nat) : Nat := if c < 8 then c ^^^ 2 else c ^^^ 1

/-- The core of a shadow. -/
def partnerCore (c : Nat) : Nat := 192 * partnerCluster (clusterOf c) + localOf c

/-- Whether no die carries a cluster of both a group and its shadow (R338). -/
def mirrorShape (g : List Nat) : Bool :=
  g.all fun a => g.all fun b => dieOfCluster a != dieOfCluster (partnerCluster b)

/-- The lists of m members of a list, in its order. -/
def choose : Nat → List Nat → List (List Nat)
  | 0, _ => [[]]
  | _ + 1, [] => []
  | m + 1, a :: rest => (choose m rest).map (a :: ·) ++ choose (m + 1) rest

/-- The cluster groups for a request of n cores among some clusters: one cluster, or whole ones. -/
def clusterGroups (n : Nat) (cs : List Nat) : List (List Nat) := choose (if n ≤ 192 then 1 else ceilDiv n 192) cs

/-! ### The channel table (R226 to R228) -/

/-- VALID of an entry. -/
def chValid (e : W64) : Bool := e.getLsbD 63
/-- ROLE: true for the receive end. -/
def chReceive (e : W64) : Bool := e.getLsbD 62
/-- NSLOT. -/
def chSlots (e : W64) : Nat := bits e.toNat 61 60
/-- PCH. -/
def chPeerCh (e : W64) : Nat := bits e.toNat 46 44
/-- PEER. -/
def chPeer (e : W64) : Nat := bits e.toNat 43 32

/-- Whether a channel table of a group breaks R227, the rates apart. -/
def channelsBad (tab : List W64) : Bool :=
  (tab.zipIdx).any fun (e, i) =>
    bits e.toNat 59 47 != 0 || bits e.toNat 31 0 != 0 ||
    (chValid e &&
      (match tab[8 * chPeer e + chPeerCh e]? with
       | none => true
       | some p =>
         !chValid p || 8 * chPeer p + chPeerCh p != i || chReceive p == chReceive e || chSlots p != chSlots e))

/-- The boundaries that the channels of a table cross on a group: the send end's die and the receive end's (R228). -/
def hopsOf (tab : List W64) (cores : List Nat) : List (Nat × Nat) :=
  (tab.zipIdx).filterMap fun (e, i) =>
    if chValid e && !chReceive e then
      let a := dieOf (cores.getD (i / 8) 0)
      let b := dieOf (cores.getD (chPeer e) 0)
      if a = b then none else some (a, b)
    else none

/-- Whether some boundary carries more than 50 channels in one direction (R228). -/
def overRate (hops : List (Nat × Nat)) : Bool :=
  (List.range 8).any fun d => decide (50 < (hops.filter fun h => h.1 == d).length) || decide (50 < (hops.filter fun h => h.2 == d).length)

/-- The hops of a task on a group, with those of its shadow group where it is mirrored (R228). -/
def Task.hops (t : Task) (cores : List Nat) : List (Nat × Nat) :=
  hopsOf t.chtab cores ++ (if t.mirr && !t.unmirrored then hopsOf t.chtab (cores.map partnerCore) else [])

/-- Whether a task's channels fit on some placement that its DKIND and PCLU allow, with every die in service and no other channels (R227). -/
def Task.channelsFit (t : Task) : Bool :=
  (clusterGroups t.coresAsked (allowedClusters t.dkind t.pclu)).any fun g =>
    (!t.mirr || mirrorShape g) && !overRate (t.hops ((g.flatMap clusterCores).take t.groupCores))

/-! ### The record's check (R254, R329, R338) -/

/-- A record's fields as R254 checks them, without what the state holds. -/
def recordBad (r : List W8) : Bool :=
  let f (off n : Nat) : Nat := fieldLE r off n
  let b1 := f 1 1
  let b2 := f 2 1
  let b3 := f 3 1
  bits b1 7 6 == 3 || bit b1 2 || bits b1 1 0 == 3 ||
  bits b2 7 6 != 0 || bits b2 5 4 == 3 || bits b2 3 2 != 0 || bits b2 1 0 == 0 ||
  bit b3 3 || decide (4 < bits b3 2 0) ||
  bits (f 4 2) 15 12 != 0 || bits (f 4 2) 11 0 == 0 || decide (2304 < bits (f 4 2) 11 0) ||
  f 12 4 % 64 != 0 || decide (f 24 8 ≤ f 16 8) || f 40 8 % 8 != 0 || f 72 8 % 4096 != 0 ||
  (bit b1 4 && (bits (f 80 4) 31 12 != 0 || f 88 8 != 0)) ||
  bits (f 96 2) 15 12 != 0 || (r.drop 98).any fun b => b != 0

/-- Whether a ladder breaks R253; each entry is its four entry points and its budget, from its 40 bytes. -/
def ladderBad (bytes : List W8) : Bool :=
  let e (i : Nat) : Nat := fieldLE bytes (8 * i) 8
  (List.range 4).any (fun i => bits (e i) 63 48 != 0 || e i % 4 != 0) || fieldLE bytes 32 4 == 0 || fieldLE bytes 36 4 != 0

/-- A ladder entry's numbers. -/
def ladderEntry (bytes : List W8) : List Nat := ((List.range 4).map fun i => fieldLE bytes (8 * i) 8) ++ [fieldLE bytes 32 4]

/-! ### Placement (R261, R338) -/

/-- Whether a core may be given to a task: in service, held by none or by one of `gone`, in no reservation of another task, untainted by another
casement (R27, R310, R338). Work of an earlier task that is still outstanding there does not keep it (R67). -/
def State.coreFree (s : State) (t : Task) (gone : List Nat) (c : Nat) : Bool :=
  let k := s.core c
  s.clusterUp (clusterOf c) && !(s.die (dieOf c)).clockLost &&
  (match k.task with
   | none => true
   | some x => gone.contains x) &&
  (match k.taint with
   | none => true
   | some j => j == t.casement) &&
  !s.tasks.any fun x => x.id != t.id && (x.holds.contains c || x.shadow.contains c)

/-- Whether the shadow of a group may be reserved: its clusters whole in service, untainted, free of tasks and other reservations (R338). -/
def State.shadowFree (s : State) (t : Task) (gone : List Nat) (cores : List Nat) : Bool :=
  let cs := (cores.map clusterOf).eraseDups
  mirrorShape cs && cs.all fun c => (clusterCores (partnerCluster c)).all (s.coreFree t gone)

/-- The hops of the tasks that hold cores, but for some: a saved task's reservations are returned with its cores (R228). -/
def State.hopsHeld (s : State) (gone : List Nat) : List (Nat × Nat) :=
  s.tasks.flatMap fun x =>
    if gone.contains x.id || !x.launched || !(x.cores.any fun c => (s.core c).task == some x.id) then [] else x.hops x.cores

/-- Whether a group's channels fit beside those of the tasks that hold cores (R228). -/
def State.ratesFit (s : State) (t : Task) (gone : List Nat) (cores : List Nat) : Bool :=
  !overRate (s.hopsHeld (t.id :: gone) ++ t.hops cores)

/-- Whether a group has the shape of R29 for a task, in rising order. -/
def Task.shapeOk (t : Task) (cores : List Nat) : Bool :=
  let cs := (cores.map clusterOf).eraseDups
  decide (cores.length = t.groupCores) && (cores.zip (cores.drop 1)).all (fun p => decide (p.1 < p.2)) &&
  cs.all (allowedClusters t.dkind t.pclu).contains && (decide (cs.length = 1) || cores == cs.flatMap clusterCores)

/-- The sixteenths that an action-class task on a group reserves on each of its dies, 75 for each core (R345). -/
def groupUnits (cores : List Nat) : List (Nat × Nat) :=
  (List.range 8).filterMap fun d =>
    let n := (cores.filter fun c => dieOf c == d).length
    if n = 0 then none else some (d, 75 * n)

/-- Whether the dies of a group hold the units that an action-class task reserves (R345). -/
def State.powerFits (s : State) (cores : List Nat) : Bool := (groupUnits cores).all fun e => decide (e.2 ≤ s.freeUnits e.1)

/-- Whether a group can be given to a task now. -/
def State.fits (s : State) (t : Task) (gone : List Nat) (cores : List Nat) : Bool :=
  t.shapeOk cores && cores.all (s.coreFree t gone) && (!t.mirr || s.shadowFree t gone cores) && s.ratesFit t gone cores

/-- The groups to try, lowest numbers first: the first free cores of a cluster, or whole clusters. -/
def State.candidates (s : State) (t : Task) (gone : List Nat) : List (List Nat) :=
  (clusterGroups t.coresAsked (allowedClusters t.dkind t.pclu)).map fun g =>
    if t.coresAsked ≤ 192 then (((g.flatMap clusterCores).filter (s.coreFree t gone))).take t.coresAsked else g.flatMap clusterCores

/-- A group for a task that waits for its launch: the one proposed, where it fits; else the first that does. R261 leaves the choice open (log
entry 6). -/
def State.place (s : State) (t : Task) (gone : List Nat) : Option (List Nat) :=
  let proposal := Config.placement s.fresh
  if s.fits t gone proposal then some proposal else (s.candidates t gone).find? (s.fits t gone)

/-- The dies on which the admission of an action-class task reserves its units, and how many: those of a group of its shape, whoever holds its cores
now; none where no such dies hold them (R25, R345). -/
def State.admitUnits (s : State) (t : Task) : Option (List (Nat × Nat)) :=
  if t.klass != 0 then some [] else
  let groups := (clusterGroups t.coresAsked (allowedClusters t.dkind t.pclu)).map fun g =>
    ((g.filter s.clusterUp).flatMap clusterCores).take t.groupCores
  (groups.find? fun g => decide (g.length = t.groupCores) && s.powerFits g).map groupUnits

/-- Whether the cores that a task has saved may come back: its save is over, or a fault has cancelled it on the cores that it still holds (R261,
R264). -/
def State.resumable (s : State) (t : Task) : Bool :=
  t.st == .saved && t.park.isNone && !t.savedCores.isEmpty &&
  !t.cores.any fun c => (s.core c).task == some t.id && ((s.core c).phase == .saving || (s.core c).preempt.isSome)

/-- Where a task goes: a saved task to its own cores, with those of them that it still needs free (R30, R261). -/
def State.placeAny (s : State) (t : Task) (gone : List Nat) : Option (List Nat) :=
  if t.st == .saved then
    let need := t.savedCores.map fun x => t.cores.getD x.rank 0
    if s.resumable t && need.all (s.coreFree t gone) && s.ratesFit t gone t.cores then some t.cores else none
  else s.place t gone

end Sys2Proof.Machine
end

