-- ==== Sys2Proof/Machine/Casement.lean ====
section
/-! DEFINITION. The life of a casement (R297, R309 to R311): CREATE, DRAIN, RESUME, TEARDOWN, CLRSAVE, the entry to ERASING, and the scrub
(SCRUB_UNIT_DONE). -/

namespace Sys2Proof.Machine

/-! ### Taint (R310) -/

/-- The cores that a casement has tainted. -/
def State.taintedCores (s : State) (k : Nat) : List Nat :=
  s.cores.filterMap fun (c, x) => if x.taint == some k then some c else none

/-- The ways that a casement has tainted: memory die and way. -/
def State.taintedWays (s : State) (k : Nat) : List (Nat × Nat) :=
  s.wayTaint.filterMap fun (d, w, j) => if j == k then some (d, w) else none

/-- The ways of a memory die that no casement has tainted. -/
def State.cleanWays (s : State) (d : Nat) : List Nat :=
  (List.range 16).filter fun w => !s.wayTaint.any fun e => e.1 == d && e.2.1 == w

/-- Ways given to a casement until it has MINW of its own on every memory die in service (R299, R310). -/
def State.allotWays (s : State) (k : Nat) : State :=
  ([4, 5, 6, 7].filter fun d => (s.die d).live && !(s.die d).retired).foldl (fun s d =>
    let have_ := (s.taintedWays k).filter fun e => e.1 == d
    let want := (s.casement k).inForce.getD 10 0 - have_.length
    { s with wayTaint := s.wayTaint ++ ((s.cleanWays d).take want).map fun w => (d, w, k) }) s

/-- Whether another casement's taint leaves too little for a casement's minima, or the scrub of the boot has not finished (R297, R310, R311, log
entry 39). -/
def State.taintBlocks (s : State) (k : Nat) : Bool :=
  let x := s.casement k
  let foreign := (s.cores.filter fun (c, y) => s.clusterUp (clusterOf c) && (match y.taint with
    | some j => j != k
    | none => false)).length
  let ways (d : Nat) : Nat := (s.wayTaint.filter fun e => e.1 == d && e.2.2 != k).length
  !s.scrubbed || decide (s.coresUp - foreign < ceilDiv x.coreMinima 1250000) ||
  ([4, 5, 6, 7].filter fun d => (s.die d).live && !(s.die d).retired).any fun d => decide (16 - ways d < x.q 10)

/-! ### Commands (R297) -/

/-- A command refused: ERR set. -/
def State.refuseCommand (s : State) (k : Nat) : State := s.modCasement k fun x => { x with err := true }

/-- CREATE carried out. -/
def State.createCasement (s : State) (k : Nat) : State :=
  let s := s.modCasement k fun x =>
    { x with
      st := .active, err := false, inForce := x.quota, keyValid := true, keyGen := x.keyGen + 1, chains := []
      offsets := (List.range 9).map fun d => ((s.die d).zero : Int) - (s.die 8).zero, coming := []
      usage := Usage.open_ true 0 (List.replicate 48 0) (s.ftime / 10000000), lost := false, actedSince := [] }
  s.allotWays k

/-- CREATE: the checks of R298, the first lock of fleet time, no foreign taint. -/
def State.create (s : State) (k : Nat) : State :=
  if (s.casement k).st != .free || s.quotasBad k || !s.fleet.everLocked || s.taintBlocks k then s.refuseCommand k
  else s.createCasement k

/-- Every queue of a casement sent STOP (R251). -/
def State.stopQueues (s : State) (k : Nat) : State :=
  (s.queues.filter fun e => e.2.owner == k).foldl (fun s e => s.queueStop e.1) s

/-- The sessions of a casement closed by the endpoint (R309). -/
def State.closeSessions (s : State) (k : Nat) : State :=
  { s with sessions := s.sessions.map fun (n, x) => if x.owner == k then (n, { x with isOpen := false }) else (n, x) }

/-- A DRAINING casement whose tasks have all retired is DRAINED. -/
def State.maybeDrained (s : State) (k : Nat) : State :=
  if (s.casement k).st == .draining && !s.tasks.any (fun t => t.casement == k)
  then s.modCasement k fun x => { x with st := .drained } else s

/-- DRAIN. -/
def State.drainCasement (s : State) (k : Nat) : State :=
  if (s.casement k).st != .active then s.refuseCommand k
  else ((s.modCasement k fun x => { x with st := .draining, err := false }).stopQueues k).maybeDrained k

/-- RESUME. -/
def State.resumeCasement (s : State) (k : Nat) : State :=
  if (s.casement k).st != .drained then s.refuseCommand k
  else s.modCasement k fun x => { x with st := .active, err := false }

/-- CLRSAVE. -/
def State.clearSaveErr (s : State) (k : Nat) : State :=
  if (s.casement k).st == .free then s.refuseCommand k
  else s.modCasement k fun x => { x with saveErr := false, err := false }

/-! ### Erasing (R309, R310) -/

/-- A finished scrub: the casement is FREE. -/
def State.scrubEnd (s : State) (k : Nat) : State :=
  s.modCasement k fun x => { x with st := .free, scrubPhase := 2, scrubDue := 0 }

/-- Cycles in which the scrub zeroes a core: its W, A and C spaces, tiles and table registers, shape records, masks and codebook, at 64 bytes per
cycle (R310). -/
def scrubCycles : Nat := 480 * 1024 / 64 + 16 + 1 + 1

/-- The scrub begun from its first unit (R310, R311). -/
def State.startScrub (s : State) (k : Nat) : State :=
  let cores := (s.taintedCores k).length
  let ways := (s.taintedWays k).length
  let (d, s) := s.drawDue
  let s := s.modCasement k fun x =>
    { x with
      scrubDone := 0, scrubTotal := cores + ways, scrubPhase := if cores = 0 then 1 else 0
      scrubDue := if cores = 0 then d else s.now + scrubCycles }
  if cores + ways = 0 then s.scrubEnd k else s

/-- The entry to ERASING, in the order of R309. -/
def State.eraseCasement (s : State) (k : Nat) : State :=
  let s := s.modCasement k fun x => { x with st := .erasing, keyValid := false }
  let s := { s with buffer := s.buffer.filter fun b => b.key != k }
  let s := s.closeWindow k s.ftime true
  s.startScrub k

/-- A STOPPING casement whose tasks have all failed, and whose tracker entries have all freed, is ERASING (R297). -/
def State.maybeErase (s : State) (k : Nat) : State :=
  let mine (t : Nat) : Bool := ((s.task? t).map Task.casement) == some k
  if (s.casement k).st == .stopping && (s.tasks.all fun t => t.casement != k || t.st == .ending) &&
      s.cores.all fun (_, x) => x.tracker.all fun e => !mine e.task
  then s.eraseCasement k else s

/-- TEARDOWN: every task fails, the sessions close, the queues stop (R309). -/
def State.teardown (s : State) (k : Nat) : State :=
  match (s.casement k).st with
  | .free => s.refuseCommand k
  | .stopping => s.refuseCommand k
  | .erasing => s.refuseCommand k
  | _ =>
    let s := s.modCasement k fun x => { x with st := .stopping, err := false }
    let s := (s.tasks.filter fun t => t.casement == k).foldl (fun s t => s.failTask t.id 0) s
    ((s.closeSessions k).stopQueues k).maybeErase k

/-- A command of a casement, by its code (R296). -/
def State.casementCommand (s : State) (k code : Nat) : State :=
  match code with
  | 1 => s.create k
  | 2 => s.teardown k
  | 3 => s.drainCasement k
  | 4 => s.resumeCasement k
  | 5 => s.clearSaveErr k
  | _ => s.refuseCommand k

/-- A command that the partition manager gives while the blocks stand (R321, R342, R459). -/
def State.managerCommand (s : State) (k : Nat) (t : State) : Host.Outcome State Fault Refusal :=
  if 16 ≤ k then .refused .eventNotEnabled else .next (if s.boot.ready then t else s)

/-- CREATE. -/
def execCreate (casement : Nat) (s : State) : Host.Outcome State Fault Refusal := s.managerCommand casement (s.create casement)

/-- TEARDOWN. -/
def execTeardown (casement : Nat) (s : State) : Host.Outcome State Fault Refusal := s.managerCommand casement (s.teardown casement)

/-- DRAIN. -/
def execDrain (casement : Nat) (s : State) : Host.Outcome State Fault Refusal := s.managerCommand casement (s.drainCasement casement)

/-- RESUME. -/
def execResume (casement : Nat) (s : State) : Host.Outcome State Fault Refusal := s.managerCommand casement (s.resumeCasement casement)

/-- CLRSAVE. -/
def execClrsave (casement : Nat) (s : State) : Host.Outcome State Fault Refusal := s.managerCommand casement (s.clearSaveErr casement)

/-! ### The scrub (R310, R311) -/

/-- A core scrubbed: its spaces, banks, tiles, table registers, shape records, masks and codebook zero, its mark cleared. The block counters are
never reset (R182). -/
def Core.scrubbed (k : Core) : Core :=
  { k with
    wspace := [], aspace := [], banks := [Bank.zero, Bank.zero], tiles := [], masks := List.replicate 8 0
    tables := List.replicate 4 Table.none, shapes := List.replicate 16 0, codebook := List.replicate 16 0, taint := none }

/-- After a unit: the next one's cycle, the next phase, or the end. -/
def State.scrubNext (s : State) (k : Nat) : State :=
  let x := s.casement k
  let cores := (s.taintedCores k).length
  let ways := (s.taintedWays k).length
  let done := x.scrubDone + 1
  let (d, s) := s.drawDue
  let due := if cores = 0 then d else if done % 16 = 0 then x.scrubDue + scrubCycles else x.scrubDue
  let s := s.modCasement k fun y => { y with scrubDone := done, scrubDue := due, scrubPhase := if cores = 0 then 1 else 0 }
  if cores + ways = 0 then s.scrubEnd k else s

/-- SCRUB_UNIT_DONE: the scrub engine has zeroed a core, or a way, and clears its mark. Sixteen cores are scrubbed at once. -/
def execScrubUnitDone (casement : Nat) (s : State) : Host.Outcome State Fault Refusal :=
  let x := s.casement casement
  if x.st != .erasing || decide (s.now < x.scrubDue) || s.boot.hingeLost || !s.boot.ready then .refused .eventNotEnabled else
  match s.taintedCores casement with
  | c :: _ => .next ((s.modCore c Core.scrubbed).scrubNext casement)
  | [] =>
    match s.taintedWays casement with
    | (d, w) :: _ =>
      .next ({ s with wayTaint := s.wayTaint.filter fun e => e.1 != d || e.2.1 != w }.scrubNext casement)
    | [] => .refused .eventNotEnabled

end Sys2Proof.Machine
end

