-- ==== Sys2Proof/Machine/Retire.lean ====
section
/-! DEFINITION. How a task leaves (R66 to R68, R269): the retirement tracker's entries (TRACKER_ENTRY_FREE), what retiring does, the safe chunk of a
held or missed action task (R331). -/

namespace Sys2Proof.Machine

/-! ### The retirement tracker (R67, R282, R309) -/

/-- Whether nothing of a task is outstanding on a core: held effects, copies, sends, emits, mirrors, epilogues, accesses sent, stores that wait under
a page's lock (R223). -/
def State.noneOut (s : State) (c t : Nat) : Bool :=
  let k := s.core c
  k.held.all (fun h => h.task != t) && k.copies.all (fun cp => cp.task != t) && k.epi.all (fun e => e.task != t) &&
  s.reqs.all (fun r => r.core != c || r.task != t) && s.groups.all (fun g => g.sender != c || g.task != t) &&
  s.chunks.all (fun x => x.core != c || x.task != t) && s.mirrors.all (fun m => m.core != c || m.task != t || m.due == 0) &&
  (match s.migration with
   | some m => m.held.all fun r => r.core != c || r.task != t
   | none => true)

/-- A core whose task was stopped while all 16 entries were in use takes the entry that has freed (R67, R282). -/
def State.takeWaiting (s : State) (c : Nat) : State :=
  match s.taskOf c with
  | some t => if t.st == .ending then s.modCore c fun k => k.closeEntry t.id else s
  | none => s

/-- TRACKER_ENTRY_FREE: the fourth TAIL has issued, or the task was stopped, and nothing is outstanding; the task's pushes there have drained, the entry frees, a failed
task's core is freed with it (R67, R68, R206, R282). -/
def execTrackerEntryFree (core task : Nat) (s : State) : Host.Outcome State Fault Refusal :=
  if !((s.core core).tracker.any fun e => e.task == task && e.closed) || !s.noneOut core task || s.boot.hingeLost then
    .refused .eventNotEnabled
  else
    let k := ((s.task? task).map Task.casement).getD 16
    let s := s.modCore core fun x =>
      let x := x.drainMust fun p => p.task == task
      let x := { x with tracker := x.tracker.filter fun e => e.task != task }
      if x.task == some task then x.free else x
    let s := s.modTask task fun t => { t with freed := if t.freed.contains core then t.freed else t.freed ++ [core] }
    .next ((s.takeWaiting core).maybeErase k)

/-! ### Reading a casement's memory from the hinge die -/

/-- Bytes of a casement's space read page by page by the hinge die, with an acquire. -/
def State.readVa (s : State) (k va len : Nat) : Nat → Dev (List W8)
  | 0 => .ok s []
  | fuel + 1 =>
    if len = 0 then .ok s [] else
    let n := Min.min len (4096 - va % 4096)
    (s.devReach k va n .load).bind fun s e =>
      let (s, bs) := s.acquireRead e.key (e.paOf va) n
      (State.readVa s k (va + n) (len - n) fuel).bind fun s rest => .ok s (bs ++ rest)

/-- A range read whole. -/
def State.readRange (s : State) (k va len : Nat) : Dev (List W8) := s.readVa k va len (len / 4096 + 2)

/-! ### The safe chunk (R331) -/

/-- A chunk handed to the wire: bytes 0 to 23 of its header and its payload (R330). -/
def State.sendChunk (s : State) (session : Nat) (header payload : List W8) : State :=
  let bytes := header.take 24 ++ payload
  (s.emitOut (.chunk session bytes)).countBytes (s.session session).owner bytes.length

/-- The session's standing safe chunk, header and payload, where a held or missed action task sends one. -/
def State.safeChunk (s : State) (k session : Nat) : Dev (Option (List W8 × List W8)) :=
  let x := s.session session
  if x.safeva = 0 || !x.isOpen || x.owner != k then .ok s none else
  (s.readRange k x.safeva 64).bind fun s h => (s.readRange k (x.safeva + 64) (fieldLE h 8 2)).bind fun s p => .ok s (some (h, p))

/-- The standing safe chunk sent, under the next number. -/
def State.sendSafe (s : State) (session : Nat) (h p : List W8) : State :=
  let seq := (s.session session).lastseq + 1
  let header := leBytes 8 seq.toNat ++ (h.drop 8).take 2 ++ [(h.getD 10 0) ||| 1] ++ h.drop 11
  (s.sendChunk session header p).modSession session fun y => { y with lastseq := seq }

/-! ### Retiring (R257, R269, R305) -/

/-- The code of a status (R269). -/
def TStatus.code : TStatus → Nat
  | .done => 0
  | .failed => 1
  | .held => 2
  | .missed => 3
  | .refused => 4

/-- The level a task runs at, or would be launched at (R266). -/
def State.levelNow (s : State) (t : Task) : Nat := if t.launched then t.level else s.streamLevel t

/-- A hit or a miss counted in the casement's window (R305). -/
def Usage.count (u : Usage) (klass level : Nat) (hit marked : Bool) : Usage :=
  if !hit && marked then { u with thmiss := u.thmiss + 1 }
  else { u with hm := u.hm.modify (8 * klass + 2 * level + flag (!hit)) (· + 1) }

/-- What a retirement counts (R305). -/
def State.countTask (s : State) (t : Task) (status : TStatus) : State :=
  let l := Min.min 2 (s.levelNow t)
  let book (level : Nat) (hit : Bool) : State :=
    s.modCasement t.casement fun x => { x with usage := x.usage.count t.klass level hit t.thermal }
  match status with
  | .done => book l (decide (s.ftime ≤ t.deadline))
  | .failed => book l false
  | .held => book 3 true
  | .missed => book 3 false
  | .refused => s

/-- A casement's chain counter. -/
def Casement.chainAt (x : Casement) (n : Nat) : Nat := (keyGet x.chains n).getD 0

/-- The stores of a task's cores, and what happens before them, applied at the hinge die, whose signal write then releases them (R221). -/
def State.gather (s : State) (cores : List Nat) : State :=
  s.catchUp 8 (s.stores.foldl (fun acc r =>
    if cores.contains r.core then joinCounts acc (joinCounts r.stamp ((List.replicate 9 0).set r.die r.num)) else acc)
    (List.replicate 9 0))

/-- The units that the admission of a task that was never launched reserved given back (R345). -/
def State.dropReserve (s : State) (t : Task) : State :=
  t.units.foldl (fun s e => s.modDie e.1 fun d => { d with reserved := d.reserved - e.2 }) s

/-- What a task holds beside its cores given back: its power reservation, channel ends, mirror areas and pool, session tokens, and the stream that a
batch task is (R228, R265, R329, R337, R345). -/
def State.release (s : State) (t : Task) : State :=
  let s := if t.launched && t.klass = 0 then
      t.cores.foldl (fun s c => s.modDie (dieOf c) fun d => { d with reserved := d.reserved - 75 }) s
    else s
  let s := { s with
    chanEnds := s.chanEnds.filter fun e => e.task != t.id
    mirrors := s.mirrors.filter fun m => m.task != t.id
    mirrorPool := if t.window = 0 then s.mirrorPool else s.mirrorPool - t.poolShare
    streams := if t.klass = 2 then s.streams.filter fun x => (x.casement, x.session, x.klass) != t.streamKey else s.streams }
  let s := s.dropReserve t
  if t.tokw then s.modSession t.session fun x => { x with tokRetired := x.tokRetired + 1 } else s

/-- A task retires with a status, and with the safe chunk it sends: it leaves the heap; its chain counter, its signal and its completion entry follow, in that
order (R269). -/
def State.retireWith (s : State) (t : Task) (status : TStatus) (code : Nat) (chunk : Option (List W8 × List W8)) : State :=
  let level := Min.min 3 (s.levelNow t)
  let s := (s.countTask t status).gather t.cores
  let s := { (s.release t) with tasks := s.tasks.filter fun x => x.id != t.id }
  let refused := status == .refused
  let s := if t.chain && !refused then
      s.modCasement t.casement fun x =>
        { x with chains := keySet x.chains t.chainId (Max.max (x.chainAt t.chainId) (t.chainOrder + 1)) }
    else s
  let s :=
    match chunk with
    | some (h, p) => s.sendSafe t.session h p
    | none => s
  let s := s.complete (s.queue t.queue).cqn
    { entry := completionEntry t.taskId status.code t.casement level code s.ftime t.queue t.session
      casement := t.casement, sig := if refused then 0 else t.sig, value := w64 (t.field 64 8), stalled := false }
  s.maybeDrained t.casement

/-- A task retires. A held or missed action task whose session's safe chunk cannot be read yet waits for a later decision (R318, R331). -/
def State.retire (s : State) (t : Task) (status : TStatus) (code : Nat) : State :=
  if t.klass != 0 || !(status == .held || status == .missed) then s.retireWith t status code none else
  match s.safeChunk t.casement t.session with
  | .wait s => s
  | .ok s c => s.retireWith t status code c
  | .fault s _ => s.retireWith t status code none
  | .check s => s.retireWith t status code none

end Sys2Proof.Machine
end

