-- ==== Sys2Proof/Machine/Admit.lean ====
section
/-! DEFINITION. From records to admitted tasks: QUEUE_RECORD_READ (R249, R250, R254), eligibility (R256), densities and the two tests (R258, R259), what
admission refuses (R227, R287, R294, R308, R337), and squall (R265 to R267). -/

namespace Sys2Proof.Machine

/-! ### Reading records (R249, R254) -/

/-- A task made of a record, before it is checked. DESIGN CHOICE, log entry 99: its retry count is set here from RETRY, since a launch that meets
PREDECESSOR_UNFINISHED already uses retries, and the launch does not set it again. -/
def newTask (id k q : Nat) (record : List W8) (ladder : List (List Nat)) : Task :=
  { id := id, casement := k, queue := q, record := record, ladder := ladder, chtab := [], st := .waiting, order := id, tok := 0
    window := 0, level := 0, cores := [], shadow := [], retries := bits (fieldLE record 3 1) 7 4, budget := 0
    counting := false, status := .done, code := 0, freed := [], thermal := false, saveFaults := 0, savedCores := []
    unmirrored := false, launched := false, readyAt := 0, holds := [], park := none, units := [] }

/-- Whether a record's demands on places and sessions break R254, R329 and R338. -/
def State.placesBad (s : State) (t : Task) : Bool :=
  let x := s.session t.session
  !((List.range 12).any fun c => (t.pclu == 0 || bit t.pclu c) && s.clusterUp c) ||
  (t.tokw && (!x.isOpen || x.owner != t.casement)) ||
  (t.mirr && (decide (1152 < t.coresAsked) ||
    !(clusterGroups t.coresAsked (allowedClusters t.dkind t.pclu)).any mirrorShape))

/-- A refused task reported; it never enters the heap (R254). DESIGN CHOICE, log entry 99: it was never launched, and its level-at-launch field is 0. -/
def State.reportRefused (s : State) (t : Task) : State :=
  s.complete (s.queue t.queue).cqn
    { entry := completionEntry t.taskId 4 t.casement 0 0 s.ftime t.queue t.session
      casement := t.casement, sig := 0, value := 0, stalled := false }

/-- A task record read: refused, or moved into the heap (R249, R254). While its ladder cannot be read the record waits (R318). -/
def State.readTask (s : State) (q : Nat) (record : List W8) : State :=
  let k := (s.queue q).owner
  let bare := newTask s.taskNo k q record []
  let taken (s : State) : State := { (s.advanceQueue q) with taskNo := s.taskNo + 1 }
  if recordBad record || s.placesBad bare then (taken s).reportRefused bare else
  match s.readRange k (fieldLE record 40 8) (40 * bare.nlev) with
  | .wait s => s.modQueue q fun x => { x with due := s.now + 1 }
  | .fault s _ => (taken s).reportRefused bare
  | .check s => (taken s).reportRefused bare
  | .ok s bytes =>
    let s := taken s
    let entries := (List.range bare.nlev).map fun i => (bytes.drop (40 * i)).take 40
    if entries.any ladderBad then s.reportRefused bare else
    let s := if bare.tokw then s.modSession bare.session fun x => { x with tokRead := x.tokRead + 1 } else s
    { s with tasks := s.tasks ++ [{ bare with ladder := entries.map ladderEntry, tok := (s.session bare.session).tokRead }] }

/-- A record that the read index has reached, by its type (R249). -/
def State.takeRecord (s : State) (q : Nat) (record : List W8) : State :=
  match fieldLE record 0 1 with
  | 0 =>
    let (due, s) := s.drawDue
    s.modQueue q fun x => { x with slot := false, due := due }
  | 1 => s.readTask q record
  | 2 =>
    if bits (fieldLE record 1 1) 1 0 = 3 then s.modQueue q fun x => x.errored 0x18
    else (s.modQueue q fun x => { x with reached := some record }).evalWait q true
  | 3 => s.modQueue q fun x => { x with reached := some record }
  | _ => s.modQueue q fun x => x.errored 0x18

/-- QUEUE_RECORD_READ: the record at the read index of a queue with a slot; a task record waits while the heap is full (R249). -/
def execQueueRecordRead (queue : Nat) (s : State) : Host.Outcome State Fault Refusal :=
  let x := s.queue queue
  if x.st != .active || !x.slot || x.unread = 0 || decide (s.now < x.due) || x.reached.isSome || s.boot.hingeLost || !s.boot.ready then
    .refused .eventNotEnabled
  else
    match s.devReach x.owner x.recordVa 128 .load with
    | .fault s _ => .next (s.modQueue queue fun y => y.errored 0x0E)
    | .check s => .next (s.modQueue queue fun y => y.errored 0x0E)
    | .wait s => .next (s.modQueue queue fun y => { y with due := s.now + 1 })
    | .ok s e =>
      let (s, bs) := s.acquireRead e.key (e.paOf x.recordVa) 128
      if fieldLE bs 0 1 == 1 && decide (8192 ≤ s.tasks.length) then .refused .eventNotEnabled
      else .next (s.takeRecord queue bs)

/-! ### Order and eligibility (R256, R260) -/

/-- Whether a task goes before another (R260). -/
def Task.before (a b : Task) : Bool :=
  decide (a.deadline < b.deadline) || (a.deadline == b.deadline &&
    (decide (a.casement < b.casement) || (a.casement == b.casement &&
      (decide (a.queue < b.queue) || (a.queue == b.queue && decide (a.order < b.order))))))

/-- A task put in its place in a list in deadline order. -/
def insertTask (t : Task) : List Task → List Task
  | [] => [t]
  | a :: rest => if t.before a then t :: a :: rest else a :: insertTask t rest

/-- Tasks in deadline order. -/
def byDeadline (ts : List Task) : List Task := ts.foldr insertTask []

/-- Whether a task of the heap is eligible (R256). -/
def State.eligible (s : State) (t : Task) : Bool :=
  decide (t.release ≤ s.ftime) &&
  (!t.tokw || decide (t.tok ≤ (s.session t.session).incnt.toNat)) &&
  (t.chain || (List.range t.npred).all fun i => !s.tasks.any fun x => x.casement == t.casement && x.taskId == t.pred i)

/-! ### Densities and the tests (R258, R259) -/

/-- The cores that a density counts: the group's, and the shadow's (R258). -/
def Task.weight (t : Task) : Nat := if t.mirr then 2 * t.groupCores else t.groupCores

/-- W of a task at a fleet time, in quarter cycles (R258). -/
def Task.windowAt (t : Task) (ftime : Nat) : Nat := 5 * (t.deadline - Max.max t.release ftime)

/-- The density of a task at a level, in cores; none at the hold (R258). -/
def Task.densityAt (t : Task) (window level : Nat) : Rat :=
  if t.nlev ≤ level ∨ window = 0 then 0 else (t.weight * t.ladderBudget level * 4 : Nat) / (window : Nat)

/-- Whether W falls short of the budget at every level from one on (R258). -/
def Task.infeasible (t : Task) (window level : Nat) : Bool :=
  ((List.range t.nlev).filter fun l => level ≤ l).all fun l => decide (window < 4 * t.ladderBudget l)

/-- U of a casement and class, with some streams taken one level higher where `up` names one (R259, R267). -/
def State.demand (s : State) (up : Option (Nat × Nat × Nat)) (k c : Nat) : Rat :=
  (s.tasks.filter fun t => t.casement == k && t.klass == c && t.window != 0).foldl (fun a t =>
    let l := s.levelNow t
    let l := if !t.launched && up == some t.streamKey then l - 1 else l
    a + t.densityAt t.window l) 0

/-- MIN(k, c) in cores. -/
def Casement.minOf (x : Casement) (c : Nat) : Rat := (x.inForce.getD (2 * c) 0 : Nat) / (1250000 : Nat)

/-- CAP(k, c) in cores. -/
def Casement.capOf (x : Casement) (c : Nat) : Rat := (x.inForce.getD (2 * c + 1) 0 : Nat) / (1250000 : Nat)

/-- The pairs of a casement and a class. -/
def classPairs : List (Nat × Nat) := (List.range 16).flatMap fun k => (List.range 3).map fun c => (k, c)

/-- The larger of two numbers of cores. -/
def ratMax (a b : Rat) : Rat := if a ≤ b then b else a

/-- Whether demands meet test 2 (R259). A casement between ERASING and CREATE guarantees nothing (log entry 40). -/
def State.test2 (s : State) (u : Nat → Nat → Rat) : Bool :=
  let sum := classPairs.foldl (fun (a : Rat) p =>
    let x := s.casement p.1
    a + (if x.guaranteed then ratMax (u p.1 p.2) (x.minOf p.2) else u p.1 p.2)) 0
  decide (sum ≤ (s.coresUp : Nat))

/-- A failed admission: the pairs of a casement and a class that R265 takes into the scope. -/
def State.failedScope (s : State) (t : Task) (window : Nat) : Option (List (Nat × Nat)) :=
  let mine (k c : Nat) : Bool := k == t.casement && c == t.klass
  let table := classPairs.map fun p =>
    (p, s.demand none p.1 p.2 + (if mine p.1 p.2 then t.densityAt window (s.streamLevel t) else 0))
  let u (k c : Nat) : Rat := ((table.find? fun e => e.1 == (k, c)).map Prod.snd).getD 0
  let x := s.casement t.casement
  if !decide (u t.casement t.klass ≤ x.capOf t.klass) then some [(t.casement, t.klass)]
  else if !s.test2 u then
    some (classPairs.filter fun p => !decide (u p.1 p.2 ≤ (s.casement p.1).minOf p.2))
  else none

/-! ### What admission refuses (R227, R287, R294, R308, R337) -/

/-- The ranges that an action-class task needs pinned (R294). -/
def Task.pinnedRanges (t : Task) : List (Nat × Nat) :=
  [(t.field 40 8, 40 * t.nlev)] ++ (if t.field 48 8 = 0 then [] else [(t.field 48 8, 64 * t.groupCores)]) ++
  (if t.sig = 0 then [] else [(t.sig, 8)]) ++ [(t.saveVa, t.coresAsked * 0x62000)] ++
  t.ladder.flatMap fun e => (e.take 4).map fun a => (a, 4)

/-- Ranges checked one after another. -/
def State.allPinned (s : State) (k : Nat) : List (Nat × Nat) → Dev Bool
  | [] => .ok s true
  | (va, n) :: rest => (s.rangePinned k va n .load).bind fun s ok => if ok then State.allPinned s k rest else .ok s false

/-- A task about to be admitted, with its channel table; none where admission refuses it. -/
def State.admissionCheck (s : State) (t : Task) : Dev (Option Task) :=
  let x := s.casement t.casement
  if !x.s1root.getLsbD 0 || !x.s2root.getLsbD 0 then .ok s none
  else if s.refuseAction && t.klass == 0 && !x.actedSince.contains t.session then .ok s none
  else if decide (48 * 2 ^ 20 < s.mirrorPool + t.poolShare) then .ok s none
  else
    (if t.field 48 8 = 0 then .ok s [] else s.readRange t.casement (t.field 48 8) (64 * t.groupCores)).bind fun s bs =>
      let tab : List W64 := (List.range (bs.length / 8)).map fun i => w64 (leNat ((bs.drop (8 * i)).take 8))
      let t := { t with chtab := tab }
      if channelsBad tab || !t.channelsFit then .ok s none
      else if t.klass = 0 then (s.allPinned t.casement t.pinnedRanges).bind fun s ok => .ok s (if ok then some t else none)
      else .ok s (some t)

/-- A task admitted: its density counts from here to its retirement (R259, R305). -/
def State.admitTask (s : State) (t : Task) (window : Nat) : State :=
  let s := s.modTask t.id fun x => { x with st := .admitted, window := window, chtab := t.chtab, units := t.units }
  let s := t.units.foldl (fun s e => s.modDie e.1 fun d => { d with reserved := d.reserved + e.2 }) s
  let s := { s with mirrorPool := s.mirrorPool + t.poolShare }
  s.modCasement t.casement fun x =>
    { x with
      usage := { x.usage with admits := x.usage.admits.modify t.klass (· + 1) }
      actedSince := if t.klass = 0 && !x.actedSince.contains t.session then x.actedSince ++ [t.session] else x.actedSince }

/-- Whether a task of the heap has come to the hold: its stream's level is 3 or beyond its ladder (R266). -/
def State.atHold (s : State) (t : Task) : Bool := decide (t.nlev ≤ s.streamLevel t) || decide (3 ≤ s.streamLevel t)

/-- Step 3 of a decision for one task: held, missed, refused, admitted, or failing a test; the scope of the first failure so far (R258, R259,
R265, R266). An action-class task whose units no dies hold waits for its admission (R25). -/
def State.tryAdmit (s : State) (t : Task) (scope : Option (List (Nat × Nat))) : State × Option (List (Nat × Nat)) :=
  let window := t.windowAt s.ftime
  if s.atHold t then (s.retire t .held 0, scope)
  else if t.st != .waiting then (s, scope)
  else if t.infeasible window (s.streamLevel t) then (s.retire t .missed 0, scope)
  else
    match s.failedScope t window with
    | some f => ({ s with squall := true }, some (scope.getD f))
    | none =>
      match s.admissionCheck t with
      | .ok s none => (s.retire t .refused 0, scope)
      | .fault s _ => (s.retire t .refused 0, scope)
      | .check s => (s.retire t .refused 0, scope)
      | .wait s => (s, scope)
      | .ok s (some t) =>
        match s.admitUnits t with
        | none => (s, scope)
        | some units => (s.admitTask { t with units := units } window, scope)

/-- Step 3: the eligible tasks that wait for admission or launch, in deadline order. -/
def State.admitAll (s : State) : State × Option (List (Nat × Nat)) :=
  (byDeadline (s.tasks.filter fun t => t.st == .admitted || (t.st == .waiting && s.eligible t))).foldl (fun acc t =>
    match acc.1.task? t.id with
    | some t => acc.1.tryAdmit t acc.2
    | none => acc) (s, none)

/-! ### Squall (R265, R267) -/

/-- The task whose stream is shed: in the scope, batch first, then reasoning, then action; the latest deadline of the tasks not launched. -/
def State.shedTask (s : State) (scope : List (Nat × Nat)) : Option Task :=
  let candidates := byDeadline (s.tasks.filter fun t =>
    (t.st == .admitted || (t.st == .waiting && s.eligible t)) && scope.contains (t.casement, t.klass) && !s.atHold t)
  [2, 1, 0].findSome? fun c => (candidates.filter fun t => t.klass == c).getLast?

/-- Whether both tests hold with a stream one level higher (R267). -/
def State.holdsHigher (s : State) (x : Stream) : Bool :=
  let table := classPairs.map fun p => (p, s.demand (some (x.casement, x.session, x.klass)) p.1 p.2)
  let u (k c : Nat) : Rat := ((table.find? fun e => e.1 == (k, c)).map Prod.snd).getD 0
  decide (u x.casement x.klass ≤ (s.casement x.casement).capOf x.klass) && s.test2 u

/-- Since when each stream's restoration would have held. -/
def State.watchStreams (s : State) : State :=
  { s with streams := s.streams.map fun x =>
      { x with since := if s.holdsHigher x then some (x.since.getD s.now) else none } }

/-- The earliest deadline of a stream's tasks. -/
def State.nextDeadline (s : State) (x : Stream) : Nat :=
  ((leastBy Task.deadline (s.tasks.filter fun t => t.streamKey == (x.casement, x.session, x.klass))).map Task.deadline).getD (2 ^ 64)

/-- The stream to restore: held for 1 ms, action first, then reasoning, then batch, the earliest next deadline (R267). DESIGN CHOICE, log entry 99: of
equal deadlines the stream first in State.streams, and a stream with no task left after every other of its class. -/
def State.restorable (s : State) : Option Stream :=
  let ready := s.streams.filter fun x =>
    match x.since with
    | some c => decide (c + 1250000 ≤ s.now)
    | none => false
  [0, 1, 2].findSome? fun c => leastBy s.nextDeadline (ready.filter fun x => x.klass == c)

/-- A stream raised by one level. -/
def State.restore (s : State) (x : Stream) : State :=
  let rest := s.streams.filter fun y => y != x
  { s with
    lastRestore := s.now
    streams := if x.level ≤ 1 then rest else rest ++ [{ x with level := x.level - 1, since := none }] }

/-- Step 4 of a decision: one level shed after a failed admission, or one restored, at most once in 1 ms (R260, R265, R267). -/
def State.shedOrRestore (s : State) (scope : Option (List (Nat × Nat))) : State :=
  let s := s.watchStreams
  let s :=
    match scope with
    | some sc =>
      (match s.shedTask sc with
       | some t => s.lowerStream t
       | none => s)
    | none =>
      (match s.restorable with
       | some x => if s.lastRestore = 0 || decide (s.lastRestore + 1250000 ≤ s.now) then s.restore x else s
       | none => s)
  { s with squall := scope.isSome || (s.squall && !s.streams.isEmpty) }

end Sys2Proof.Machine
end

