-- ==== Sys2Proof/Machine/Special.lean ====
section
/-! DEFINITION. The special functions of VSFN (R155, R156). The exact result is enclosed between two neighbouring
multiples of 2^−prec; the containers within the function's bound of it are listed, and the opaque `Config.sfnPick` takes one
(log entry 8). Exact cases and special values are as the table has them. -/

namespace Sys2Proof.Machine

/-- The bits after the binary point of the enclosure. -/
def sfnPrec : Nat := 640

/-- Guard bits of the series. -/
def sfnGuard : Nat := 64

/-- The working precision of the series. -/
def sfnWork : Nat := sfnPrec + sfnGuard

/-- The terms z^(2k+1) ÷ (2k+1) from the k-th on, `pw` being z^(2k+1), `z2` z², all times 2^sfnWork. -/
def atanhTerms (z2 : Nat) : Nat → Nat → Nat → Nat
  | 0, _, _ => 0
  | fuel + 1, k, pw => pw / (2 * k + 1) + atanhTerms z2 fuel (k + 1) (pw * z2 / 2 ^ sfnWork)

/-- atanh z for z at most 1/3, z times 2^sfnWork. -/
def atanhFix (z : Nat) : Nat := atanhTerms (z * z / 2 ^ sfnWork) 240 0 z

/-- ln 2 = 2 atanh (1/3), times 2^sfnWork. -/
def ln2Fix : Nat := 2 * atanhFix (2 ^ sfnWork / 3)

/-- The terms of the exponential series from the k-th on, `t` being the k-th. -/
def expTerms (y : Nat) : Nat → Nat → Nat → Nat
  | 0, _, _ => 0
  | fuel + 1, k, t => t + expTerms y fuel (k + 1) (t * y / 2 ^ sfnWork / (k + 1))

/-- e^y for y in [0, 1), times 2^sfnWork. -/
def expFix (y : Nat) : Nat := expTerms y 180 0 (2 ^ sfnWork)

/-- m × 2^e times 2^sfnWork, rounded down. -/
def toFix (m : Nat) (e : Int) : Nat :=
  let k := e + sfnWork
  if 0 ≤ k then m * 2 ^ k.toNat else m / 2 ^ (-k).toNat

/-- 2^x for x given times 2^sfnWork and of either sign, times 2^sfnWork; for x below −600 the least positive multiple. -/
def exp2Fix (x : Int) : Nat :=
  let one : Int := (2 ^ sfnWork : Nat)
  let n := x / one
  let f := (x % one).toNat
  let b := expFix (f * ln2Fix / 2 ^ sfnWork)
  if 0 ≤ n then b * 2 ^ n.toNat else Max.max (b / 2 ^ (-n).toNat) 1

/-- e^(−y) for y ≥ 0 given as m × 2^e, times 2^sfnWork and at least 1. -/
def expNegFix (m : Nat) (e : Int) : Nat :=
  if 10 < e + Nat.log2 m then 1
  else Max.max (exp2Fix (-((toFix m e * 2 ^ sfnWork / ln2Fix : Nat) : Int))) 1

/-- log2 of m × 2^e (m > 0), times 2^sfnWork, rounded down. -/
def log2Fix (m : Nat) (e : Int) : Int :=
  let l := Nat.log2 m
  let one := 2 ^ sfnWork
  let x := m * one / 2 ^ l
  let z := (x - one) * one / (x + one)
  (e + l) * (one : Int) + ((2 * atanhFix z * one / ln2Fix : Nat) : Int)

/-- From the working precision to that of the enclosure, rounded down. -/
def toEnclosure (v : Nat) : Nat := v / 2 ^ sfnGuard

/-- The containers, as FP32 magnitude codes, that lie within `ulps` of an exact result strictly between v and v + 1 in units
of 2^−sfnPrec, at most `top`. One ULP is the distance of the two FP32 values that bracket the result (R155). -/
def sfnCandidates (ulps top v : Nat) : List Nat :=
  let shift := sfnPrec - 149
  let units := v / 2 ^ shift
  let l := Nat.log2 units
  let floorCode := if units < 2 ^ 23 then units else (l - 22) * 2 ^ 23 + (units / 2 ^ (l - 23) - 2 ^ 23)
  let f := FloatFmt.fp32
  let ulp := f.magUnits (floorCode + 1) - f.magUnits floorCode
  ((List.range 13).filterMap fun k =>
    let c := floorCode + k - 6
    if floorCode + k < 6 || top < c then none
    else
      let x := f.magUnits c
      let hi := (x + ulps * ulp) * 2 ^ shift
      if v < hi && decide ((x : Int) - ulps * ulp ≤ (v / 2 ^ shift : Nat)) then some c else none)

/-- A result picked among the containers within the bound, and its status; where no code up to `top` is within it the result lies
beyond, and is `top`, an overflow unless the function is bounded (R137, R142, R155, R156). -/
def sfnInexact (op : Nat) (arg : W32) (fl neg : Bool) (ulps top v : Nat) : W32 × Status :=
  let cs := sfnCandidates ulps top v
  let c := cs.getD (Config.sfnPick op arg % cs.length) top
  let f := FloatFmt.fp32
  if f.maxCode < c then (BitVec.ofNat 32 (f.signed neg f.infCode), Status.of ||| Status.ix)
  else if c < 2 ^ 23 then
    if fl then (BitVec.ofNat 32 (f.signed neg 0), Status.flush ||| Status.uf ||| Status.ix)
    else (BitVec.ofNat 32 (f.signed neg c), Status.uf ||| Status.ix)
  else (BitVec.ofNat 32 (f.signed neg c), Status.ix)

/-- The container of an infinity. -/
def infW (neg : Bool) : W32 := if neg then 0xFF800000 else 0x7F800000

/-- The container of a zero. -/
def zeroW (neg : Bool) : W32 := if neg then 0x80000000 else 0

/-- No limit on the magnitude code but the first one beyond the largest finite. -/
def anyTop : Nat := 0x7F800000

/-- The magnitude code of 1.0. -/
def oneTop : Nat := 0x3F800000

/-- Whether m is a power of two. -/
def isPow2 (m : Nat) : Bool := m != 0 && m == 2 ^ Nat.log2 m

/-- EXP2 (R155). -/
def sfnExp2 (fl : Bool) (w : W32) : W32 × Status :=
  let (x, st) := fpIn fl w
  match x with
  | .nan => (qnan, st)
  | .inf neg => (if neg then 0 else infW false, st)
  | .fin neg m e =>
    if m = 0 then (0x3F800000, st)
    else if !neg && decide (6 < e + Nat.log2 m) then (infW false, st ||| Status.of ||| Status.ix)
    else if neg && decide (7 < e + Nat.log2 m) then
      let (r, s) := sfnInexact 0 w fl false 1 anyTop 1; (r, st ||| s)
    else
      let isInt := if 0 ≤ e then true else m % 2 ^ (-e).toNat == 0
      let i : Int := if 0 ≤ e then m * 2 ^ e.toNat else m / 2 ^ (-e).toNat
      let i := if neg then -i else i
      if isInt && decide (-149 ≤ i) then let (r, s) := rne32 fl (.fin false 1 i); (r, st ||| s)
      else
        let fx : Int := toFix m e
        let (r, s) := sfnInexact 0 w fl false 1 anyTop (Max.max (toEnclosure (exp2Fix (if neg then -fx else fx))) 1)
        (r, st ||| s)

/-- LOG2 (R155). -/
def sfnLog2 (fl : Bool) (w : W32) : W32 × Status :=
  let (x, st) := fpIn fl w
  match x with
  | .nan => (qnan, st)
  | .inf neg => if neg then (qnan, st ||| Status.nv) else (infW false, st)
  | .fin neg m e =>
    if m = 0 then (infW true, st ||| Status.dz)
    else if neg then (qnan, st ||| Status.nv)
    else if isPow2 m then let (r, s) := rne32 fl (Val.ofInt (e + Nat.log2 m)); (r, st ||| s)
    else
      let t := log2Fix m e / (2 ^ sfnGuard : Nat)
      let neg := decide (t < 0)
      let (r, s) := sfnInexact 1 w fl neg 1 anyTop (if neg then (-t - 1).toNat else t.toNat)
      (r, st ||| s)

/-- RCP (R155). -/
def sfnRcp (fl : Bool) (w : W32) : W32 × Status :=
  let (x, st) := fpIn fl w
  match x with
  | .nan => (qnan, st)
  | .inf neg => (zeroW neg, st)
  | .fin neg m e =>
    if m = 0 then (infW neg, st ||| Status.dz)
    else if isPow2 m then let (r, s) := rne32 fl (.fin neg 1 (-(e + Nat.log2 m))); (r, st ||| s)
    else
      let k : Int := sfnPrec - e
      let (r, s) := sfnInexact 2 w fl neg 1 anyTop (2 ^ k.toNat / m)
      (r, st ||| s)

/-- m × 2^e with an even exponent. -/
def evenExp (m : Nat) (e : Int) : Nat × Int := if e % 2 = 0 then (m, e) else (2 * m, e - 1)

/-- RSQRT (R155). -/
def sfnRsqrt (fl : Bool) (w : W32) : W32 × Status :=
  let (x, st) := fpIn fl w
  match x with
  | .nan => (qnan, st)
  | .inf neg => if neg then (qnan, st ||| Status.nv) else (0, st)
  | .fin neg m e =>
    if m = 0 then (infW neg, st ||| Status.dz)
    else if neg then (qnan, st ||| Status.nv)
    else
      let t := e + Nat.log2 m
      if isPow2 m && decide (t % 2 = 0) then let (r, s) := rne32 fl (.fin false 1 (-(t / 2))); (r, st ||| s)
      else
        let (m2, e2) := evenExp m e
        -- 1 ÷ √(m2 × 2^e2) = √(2^2P ÷ m2) × 2^(−P − e2/2), taken at P = 2 × sfnPrec
        let root := Nat.sqrt (2 ^ (4 * sfnPrec) / m2)
        let k : Int := 2 * sfnPrec - sfnPrec + e2 / 2
        let (r, s) := sfnInexact 3 w fl false 2 anyTop (root / 2 ^ k.toNat)
        (r, st ||| s)

/-- SQRT, correctly rounded (R155). -/
def sfnSqrt (fl : Bool) (w : W32) : W32 × Status :=
  let (x, st) := fpIn fl w
  match x with
  | .nan => (qnan, st)
  | .inf neg => if neg then (qnan, st ||| Status.nv) else (infW false, st)
  | .fin neg m e =>
    if m = 0 then (zeroW neg, st)
    else if neg then (qnan, st ||| Status.nv)
    else
      let (m2, e2) := evenExp m e
      let big := m2 * 2 ^ 128
      let root := Nat.sqrt big
      -- a sticky bit below the root keeps RNE exact
      let sticky := if root * root = big then 0 else 1
      let (r, s) := rne32 fl (.fin false (2 * root + sticky) (e2 / 2 - 65))
      (r, st ||| s)

/-- TANH (R155). -/
def sfnTanh (fl : Bool) (w : W32) : W32 × Status :=
  let (x, st) := fpIn fl w
  match x with
  | .nan => (qnan, st)
  | .inf neg => (if neg then 0xBF800000 else 0x3F800000, st)
  | .fin neg m e =>
    if m = 0 then (zeroW neg, st)
    else
      let one := 2 ^ sfnWork
      let t := expNegFix m (e + 1)
      let (r, s) := sfnInexact 5 w fl neg 2 oneTop (toEnclosure ((one - t) * one / (one + t)))
      (r, st ||| s)

/-- SIGM times 2^sfnWork of a value that is not zero. -/
def sigmFix (neg : Bool) (m : Nat) (e : Int) : Nat :=
  let one := 2 ^ sfnWork
  let t := expNegFix m e
  if neg then t * one / (one + t) else one * one / (one + t)

/-- SIGM (R155). -/
def sfnSigm (fl : Bool) (w : W32) : W32 × Status :=
  let (x, st) := fpIn fl w
  match x with
  | .nan => (qnan, st)
  | .inf neg => (if neg then 0 else 0x3F800000, st)
  | .fin neg m e =>
    if m = 0 then (0x3F000000, st)
    else
      let (r, s) := sfnInexact 6 w fl false 2 oneTop (toEnclosure (sigmFix neg m e))
      (r, st ||| s)

/-- SILU (R155). -/
def sfnSilu (fl : Bool) (w : W32) : W32 × Status :=
  let (x, st) := fpIn fl w
  match x with
  | .nan => (qnan, st)
  | .inf neg => (if neg then zeroW true else infW false, st)
  | .fin neg m e =>
    if m = 0 then (zeroW neg, st)
    else
      let p := m * sigmFix neg m e
      let v := if 0 ≤ e then p * 2 ^ e.toNat else p / 2 ^ (-e).toNat
      let (r, s) := sfnInexact 7 w fl neg 3 anyTop (toEnclosure v)
      (r, st ||| s)

end Sys2Proof.Machine
end

