-- ==== Sys2Proof/Machine/Epilogue.lean ====
section
/-! DEFINITION. The epilogue unit (R150, R171 to R174, R372 to R374): the word EPI, the arithmetic of an output row, and its writes. -/

namespace Sys2Proof.Machine

/-! ### The epilogue record (R171) -/

/-- OFMT. -/
def eFmt (r : BitVec 512) : Nat := bits (recordField r 0 1) 3 0
/-- BIAS. -/
def eBias (r : BitVec 512) : Bool := bit (recordField r 1 1) 4
/-- ASCL. -/
def eAscl (r : BitVec 512) : Bool := bit (recordField r 1 1) 3
/-- SAT. -/
def eSat (r : BitVec 512) : Bool := bit (recordField r 1 1) 2
/-- RND. -/
def eRnd (r : BitVec 512) : Rnd := Rnd.ofCode (BitVec.ofNat 2 (bits (recordField r 1 1) 1 0))
/-- ACT. -/
def eAct (r : BitVec 512) : Nat := bits (recordField r 2 1) 2 0
/-- ROWS. -/
def eRows (r : BitVec 512) : Nat := recordField r 4 2
/-- COLS. -/
def eCols (r : BitVec 512) : Nat := recordField r 6 2
/-- CBASE. -/
def eCbase (r : BitVec 512) : Nat := recordField r 8 4
/-- CSTRIDE. -/
def eCstride (r : BitVec 512) : Nat := recordField r 12 4
/-- OBASE. -/
def eObase (r : BitVec 512) : Nat := recordField r 16 4
/-- OSTRIDE. -/
def eOstride (r : BitVec 512) : Nat := recordField r 20 4
/-- BBASE. -/
def eBbase (r : BitVec 512) : Nat := recordField r 24 4
/-- OSCALE. -/
def eOscale (r : BitVec 512) : W32 := BitVec.ofNat 32 (recordField r 28 4)
/-- SBASE. -/
def eSbase (r : BitVec 512) : Nat := recordField r 32 4
/-- KB. -/
def eKb (r : BitVec 512) : Nat := recordField r 36 1
/-- NB. -/
def eNb (r : BitVec 512) : Nat := recordField r 37 1
/-- SSTRIDE. -/
def eSstride (r : BitVec 512) : Nat := recordField r 38 2

/-- EMAX of an output format (R150). -/
def emax (fmt : Nat) : Option Int :=
  match fmt with
  | 3 => some 7
  | 4 => some 15
  | 5 => some 4
  | 6 => some 2
  | 2 => some 15
  | 1 => some 127
  | 8 => some 6
  | 10 => some 2
  | _ => none

/-- Bytes of an output row. -/
def eRowBytes (r : BitVec 512) : Nat := eCols r * fmtWidth (eFmt r) / 8

/-- The offset of the status word (R173). -/
def eStatusAt (r : BitVec 512) : Nat := eObase r + eRows r * eOstride r

/-- The first fault of an epilogue record (R172). -/
def epiFault (r : BitVec 512) : Option Nat :=
  let size := 98304
  if 12 ≤ eFmt r || 5 ≤ eAct r || (eAscl r && (emax (eFmt r)).isNone) then some cIllegalOperand
  else if eCbase r % 4 != 0 || eCstride r % 4 != 0 || eObase r % 8 != 0 || eOstride r % 8 != 0 ||
      (eBias r && eBbase r % 4 != 0) then some cAlign
  else if eRows r == 0 || eCols r == 0 ||
      decide (0x8000 < eCbase r + (eRows r - 1) * eCstride r + 4 * eCols r) ||
      eCols r * fmtWidth (eFmt r) % 8 != 0 || decide (eOstride r < eRowBytes r) ||
      (eAscl r && (eKb r * eNb r != 32 || eRows r % eKb r != 0 || eCols r % eNb r != 0)) then some cShapeMismatch
  else if size < eObase r + (eRows r - 1) * eOstride r + eRowBytes r || size < eStatusAt r + 8 ||
      (eBias r && decide (size < eBbase r + 4 * eCols r)) ||
      (eAscl r && decide (size < eSbase r + (eRows r / eKb r - 1) * eSstride r + eCols r / eNb r)) then some cSpaceAccess
  else none

/-- The pieces of the bias vector by beat of the A-space: offset and length. -/
def biasPieces (r : BitVec 512) : List (Nat × Nat) :=
  let lo := eBbase r
  let hi := lo + 4 * eCols r
  (span (lo / 64) ((hi - 1) / 64 - lo / 64 + 1)).map fun b => (Max.max lo (64 * b), Min.min hi (64 * b + 64) - Max.max lo (64 * b))

/-- The bias vector's beats asked for, once no earlier EPI is left: each is read in a free bank cycle up to the read of the first chunk that uses it, at no
fixed cycle (R373, log entry 28). -/
def State.askBias (s : State) (c : Nat) : State :=
  match (s.core c).epi with
  | [] => s
  | e :: _ =>
    if !eBias e.record then s else
    let start := Max.max (e.issued + 2) (s.now + 1)
    (biasPieces e.record).foldl (fun s p =>
      let (v, s) := s.draw
      let last := start + (p.1 - eBbase e.record) / 256
      s.addAct c (s.now + 1 + v % (last - s.now)) e.issued .cm e.pc (.biasBeat p.1 p.2)) s

/-- EPI: the record is copied and the committed bank bound at issue (R168, R171, R372). -/
def execEpi (h : Hdr) (a : BitVec 5) (s : State) : Host.Outcome State Fault Refusal :=
  issue h (engineGate false [a])
    (fun x s =>
      let sa := x.reg a
      if 2 ≤ x.k.epi.length then .hold s else
      match recordFault sa 98304 with
      | some code => .trap code sa
      | none =>
        let r := recordOf (x.k.startA sa.toNat 64)
        match epiFault r with
        | some code => .trap code sa
        | none =>
          let e : EpiCmd :=
            { pc := x.x.pc, issued := s.now, task := x.k.task.getD 0, record := r, bank := !x.k.work
              committed := false, flushing := x.k.flushing, start := none, bias := [], sticky := 0, row := 0, st := 0
              todo := [], due := 0, kept := none }
          let s := s.modCore x.c fun k => { k with epi := k.epi ++ [e] }
          x.go (if x.k.epi.isEmpty then s.askBias x.c else s) 1) s

/-! ### Arithmetic (R150, R173) -/

/-- Act of R173. -/
def actValue (act : Nat) (fl : Bool) (v : W32) : W32 × Status :=
  match act with
  | 0 => (v, 0)
  | 1 =>
    if (FloatFmt.fp32.value v.toNat).isNan then (qnan, Status.nanin)
    else (if v.getLsbD 31 then 0 else v, 0)
  | 2 => sfnTanh fl v
  | 3 => sfnSigm fl v
  | _ => sfnSilu fl v

/-- The bank as chunk j / 64 of row i reads it at its cycle: as it stands, or as it stood before its contents were replaced (R373). -/
def EpiCmd.bankAt (e : EpiCmd) (b : Bank) (i j : Nat) : Bank :=
  match e.kept, e.start with
  | some (cycle, old), some start => if start + i * ceilDiv (eCols e.record) 64 + j / 64 ≤ cycle then old else b
  | _, _ => b

/-- w(i, j) of R173: scaled, biased and through the activation. A NaN that the unit has made is not an input of its later steps (R143), but
Act reports every NaN it is given (R173). -/
def EpiCmd.element (e : EpiCmd) (b : Bank) (i j : Nat) : W32 × Status :=
  let r := e.record
  let fl := e.flushing
  let (v, s1) := fpMul fl ((e.bankAt b i j).get (eCbase r + i * eCstride r + 4 * j)) (eOscale r)
  let (v, s2) :=
    if eBias r then
      let bj := (keyGet e.bias j).getD 0
      let (w, st) := fpAdd fl v bj
      (w, if (FloatFmt.fp32.value bj.toNat).isNan then st else st &&& ~~~Status.nanin)
    else (v, 0)
  let (v, s3) := actValue (eAct r) fl v
  (v, s1 ||| s2 ||| s3)

/-- Narrow of an exact value (R136 to R139). -/
def narrowVal (fmt : Nat) (rnd : Rnd) (sat fl : Bool) (v : Val) : Nat × Status :=
  match Fmt.ofCode fmt with
  | .float f => f.round rnd sat fl v
  | .int f => f.round rnd v
  | _ => (0, 0)

/-- The scale code of a block, and the exponent its elements take: none where every element code is 0 (R150). -/
def blockScale (fmt : Nat) (vs : List Val) : Nat × Option Int × Status :=
  if vs.any Val.isNan then (0xFF, none, Status.nanin)
  else if vs.all Val.isZero then (0, none, 0)
  else
    let top : Int := vs.foldl (fun m v =>
      match v with
      | .inf _ => 1000
      | .fin _ x e => if x = 0 then m else Max.max m (e + Nat.log2 x)
      | .nan => m) (-1000)
    let ex := top - (emax fmt).getD 0
    if ex < -126 then (1, some (-126), Status.sunf)
    else if 127 < ex then (254, some 127, Status.sovf)
    else ((ex + 127).toNat, some ex, 0)

/-- The values of a scale block after input flushing, and the flushing's status (R150). -/
def EpiCmd.block (e : EpiCmd) (b : Bank) (bi bj : Nat) : List Val × Status :=
  let r := e.record
  let cells := (span (bi * eKb r) (eKb r)).flatMap fun i => (span (bj * eNb r) (eNb r)).map fun j =>
    (FloatFmt.fp32.value (e.element b i j).1.toNat).input e.flushing
  (cells.map Prod.fst, (cells.foldl (fun a c => a ||| c.2) 0) &&& ~~~Status.nanin)

/-- One output row: its bytes and the status of its arithmetic (R150, R173). -/
def EpiCmd.outRow (e : EpiCmd) (b : Bank) (i : Nat) : List W8 × Status :=
  let r := e.record
  let w := fmtWidth (eFmt r)
  let scales := if eAscl r then
      (List.range (eCols r / eNb r)).map fun bj =>
        let (vs, _) := e.block b (i / eKb r) bj
        (blockScale (eFmt r) vs).2.1
    else []
  let cells := (List.range (eCols r)).map fun j =>
    let (v, st) := e.element b i j
    let (x, sx) := fpIn e.flushing v
    let sx := sx &&& ~~~Status.nanin
    if eAscl r then
      match scales.getD (j / eNb r) none with
      | none => (0, st ||| sx)
      | some ex =>
        let (c, sc) := narrowVal (eFmt r) (eRnd r) (eSat r) e.flushing (x.scale (-ex))
        (c, st ||| sx ||| sc)
    else
      let (c, sc) := narrowVal (eFmt r) (eRnd r) (eSat r) e.flushing x
      (c, st ||| sx ||| sc)
  let (v, _) := cells.foldl (fun (acc, p) c => (acc + c.1 * 2 ^ p, p + w)) (0, 0)
  (leBytes (eRowBytes r) v, cells.foldl (fun a c => a ||| c.2) 0)

/-- The scale codes of a row of blocks, and the status of their choice (R150). -/
def EpiCmd.codes (e : EpiCmd) (b : Bank) (bi : Nat) : List W8 × Status :=
  let cells := (List.range (eCols e.record / eNb e.record)).map fun bj =>
    let (vs, sf) := e.block b bi bj
    let (c, _, st) := blockScale (eFmt e.record) vs
    (BitVec.ofNat 8 c, sf ||| st)
  (cells.map Prod.fst, cells.foldl (fun a c => a ||| c.2) 0)

/-- Bytes cut at the 64-byte beats of the space, in increasing order. -/
def cutBeats (off : Nat) (bs : List W8) : List (Nat × List W8) :=
  let ends := (span (off / 64) ((off + bs.length - 1) / 64 - off / 64 + 1)).map fun b =>
    (Max.max off (64 * b), Min.min (off + bs.length) (64 * b + 64))
  ends.map fun (lo, hi) => (lo, (bs.drop (lo - off)).take (hi - lo))

/-- Whether row i is the last of its row of scale blocks. -/
def EpiCmd.lastOfBlock (e : EpiCmd) (i : Nat) : Bool := eAscl e.record && (i + 1) % eKb e.record == 0

/-- The command with its next row computed: the row's beats, and after a block's last row its codes (R173). -/
def EpiCmd.compute (e : EpiCmd) (b : Bank) : EpiCmd :=
  let i := e.row
  let r := e.record
  let (bytes, st) := e.outRow b i
  let (codes, sc) := if e.lastOfBlock i then e.codes b (i / eKb r) else ([], 0)
  let todo := cutBeats (eObase r + i * eOstride r) bytes ++
    (if codes.isEmpty then [] else cutBeats (eSbase r + i / eKb r * eSstride r) codes)
  { e with row := i + 1, st := e.st ||| st ||| sc, todo := todo }

/-- The first cycle in which a row may be written: one after the read of the last chunk that feeds it (R373). -/
def EpiCmd.rowReady (e : EpiCmd) (start i : Nat) : Nat :=
  let last := if eAscl e.record then (i / eKb e.record + 1) * eKb e.record else i + 1
  start + last * ceilDiv (eCols e.record) 64

/-! ### Start, writes and completion (R373, R374) -/

/-- The next write put at some cycle, at no fixed distance and not before `low`. -/
def State.nextEpi (s : State) (c low : Nat) (e : EpiCmd) : State :=
  let (due, s) := s.drawDue
  let due := Max.max low due
  let s := s.modCore c fun k => { k with epi := { e with due := due } :: k.epi.drop 1 }
  if e.todo.isEmpty then s else s.addAct c due e.issued .cm e.pc .epiBeat

/-- An EPI starts (R159, R373): the bank's sticky bits are sampled; its first row follows. None while it may not. -/
def State.startEpi (s : State) (c : Nat) : Option State :=
  let k := s.core c
  match k.epi with
  | [] => none
  | e :: _ =>
    if e.start.isSome || decide (s.now < e.issued + 2) then none else
    let s := s.modCore c fun k => { k with epi := { e with start := some s.now, sticky := (k.bank e.bank).sticky } :: k.epi.drop 1 }
    some (s.addAct c (e.rowReady s.now 0 - 1) e.issued .cm e.pc .epiBeat)

/-- A piece of the bias vector read, in a cycle in which its bank is free (R373). -/
def State.biasBeat (s : State) (c : Nat) (a : Act) (off n : Nat) : State :=
  let k := s.core c
  match k.epi with
  | [] => s.setCore c (k.dropAct a.id)
  | e :: rest =>
    if e.issued != a.issued then s.setCore c (k.dropAct a.id)
    else if !k.banksFree s.now true (banksOf off n) then s.setCore c (k.delayAct a.id (s.now + 1))
    else
      let values := (entriesOf (k.viewBuf true off n)).zipIdx.map fun (w, i) => ((off - eBbase e.record) / 4 + i, w)
      s.setCore c { ((k.dropAct a.id).claimFree s.now true (banksOf off n)) with epi := { e with bias := e.bias ++ values } :: rest }

/-- Whether every bias value of an EPI has been read. -/
def EpiCmd.biased (e : EpiCmd) : Bool := !eBias e.record || decide (eCols e.record ≤ e.bias.length)

/-- A beat of EPI's output written, in a cycle that no fixed-cycle access needs (R173, R174); before the first, its first row computed. -/
def State.epiBeat (s : State) (c : Nat) (a : Act) : State :=
  let k := s.core c
  match k.epi with
  | [] => s.setCore c (k.dropAct a.id)
  | e :: _ =>
    match e.start, e.todo with
    | some start, (off, bs) :: rest =>
      if !k.banksFree s.now true (banksOf off bs.length) then s.setCore c (k.delayAct a.id (s.now + 1)) else
      let s := s.setCore c (((k.dropAct a.id).claimFree s.now true (banksOf off bs.length)).writeEpi off bs)
      if !rest.isEmpty then s.nextEpi c 0 { e with todo := rest }
      else if e.row < eRows e.record then
        s.nextEpi c (e.rowReady start e.row) ({ e with todo := [] }.compute (k.bank e.bank))
      else s.nextEpi c 0 { e with todo := [] }
    | some start, [] =>
      if 0 < e.row then s.setCore c (k.dropAct a.id)
      else if !e.biased then s.setCore c (k.delayAct a.id (s.now + 1))
      else (s.setCore c (k.dropAct a.id)).nextEpi c (e.rowReady start 0) (e.compute (k.bank e.bank))
    | none, _ => s.setCore c (k.dropAct a.id)

/-- EPI_COMPLETE: the status word lands, last of all (R173, R373). -/
def execEpiComplete (core : Nat) (s : State) : Host.Outcome State Fault Refusal :=
  let k := s.core core
  match k.epi with
  | [] => .refused .eventNotEnabled
  | e :: rest =>
    let at_ := eStatusAt e.record
    if e.start.isNone || !e.todo.isEmpty || decide (e.row < eRows e.record) || decide (s.now < e.due) ||
        !k.banksFree s.now true (banksOf at_ 8) then .refused .eventNotEnabled
    else
      let st := e.st ||| e.sticky
      .next ((s.setCore core { ((k.claimFree s.now true (banksOf at_ 8)).writeEpi at_ (leBytes 8 st.toNat)) with epi := rest }).askBias core)

end Sys2Proof.Machine
end

