-- ==== Sys2Proof/Machine/Scalar.lean ====
section
/-! DEFINITION. The scalar words: the ALU, MULDIV and BITS groups, the immediate forms and the literals (R348, R349, R361, R368,
R378, R386, R387, R393, R398, R400, R407, R411, R414, R416, R421, R448). All run on every sequencer, in regions, gaps and handler
mode, and raise no fault of their own. -/

namespace Sys2Proof.Machine

/-! ### Forms -/

/-- A scalar word of two register operands: sd takes `f sa sb` after a latency. -/
def scalarR (h : Hdr) (d a b : BitVec 5) (lat : Nat) (f : W64 → W64 → W64) (s : State) : Host.Outcome State Fault Refusal :=
  issue h { uses := [d, a, b] } (fun x s => x.go (x.land s d (f (x.reg a) (x.reg b)) lat) lat) s

/-- A scalar word of one register operand: sd takes `f sa` after one cycle. -/
def scalarI (h : Hdr) (d a : BitVec 5) (f : W64 → W64) (s : State) : Host.Outcome State Fault Refusal :=
  issue h { uses := [d, a] } (fun x s => x.go (x.land s d (f (x.reg a)) 1) 1) s

/-- A two-word literal: sd takes `f sd` after one cycle, and the program goes on behind the pair (R74, R387). -/
def scalarLit (h : Hdr) (d : BitVec 5) (f : W64 → W64) (s : State) : Host.Outcome State Fault Refusal :=
  issue h { uses := [d] } (fun x s => .ok (x.land s d (f (x.reg d)) 1) (some 1) (x.x.pc + 8) 0) s

/-! ### Arithmetic -/

/-- The quotient of DIV (R368). -/
def divSigned (a b : W64) : W64 :=
  if b = 0 then BitVec.allOnes 64 else BitVec.ofInt 64 (a.toInt.tdiv b.toInt)

/-- The quotient of DIVU (R368). -/
def divUnsigned (a b : W64) : W64 := if b = 0 then BitVec.allOnes 64 else a / b

/-- The remainder of REM (R411). -/
def remSigned (a b : W64) : W64 := if b = 0 then a else BitVec.ofInt 64 (a.toInt.tmod b.toInt)

/-- The remainder of REMU (R411). -/
def remUnsigned (a b : W64) : W64 := if b = 0 then a else a % b

/-- The high half of the signed product (R398). -/
def mulHigh (a b : W64) : W64 := BitVec.ofInt 64 ((a.toInt * b.toInt) / 2 ^ 64)

/-- The high half of the unsigned product (R398). -/
def mulHighU (a b : W64) : W64 := BitVec.ofNat 64 (a.toNat * b.toNat / 2 ^ 64)

/-- The shift amount: the low six bits (R414). -/
def shiftBy (b : W64) : Nat := b.toNat % 64

/-- One or zero. -/
def boolW (b : Bool) : W64 := if b then 1 else 0

/-- The element width of a width code (R84). -/
def bitsWidth (w : BitVec 2) : Nat := 8 * 2 ^ w.toNat

/-- Every element of `width` bits of a number of 64 bits replaced (R154). -/
def mapElems (width total v : Nat) (f : Nat → Nat) : Nat :=
  ((List.range (total / width)).map fun e => f (v / 2 ^ (width * e) % 2 ^ width) * 2 ^ (width * e)).sum

/-- The leading zeros of an element; its width for 0 (R361). -/
def countLeading (width x : Nat) : Nat := if x = 0 then width else width - 1 - Nat.log2 x

/-- The index of the lowest set bit of an element; its width for 0 (R378). -/
def findFirst (width x : Nat) : Nat :=
  ((List.range width).find? fun i => x / 2 ^ i % 2 == 1).getD width

/-- The number of set bits of an element (R407). -/
def countOnes (width x : Nat) : Nat := ((List.range width).map fun i => x / 2 ^ i % 2).sum

/-- A BITS word: every element of sa replaced (R154). -/
def scalarBits (h : Hdr) (d a : BitVec 5) (w : BitVec 2) (f : Nat → Nat → Nat) (s : State) :
    Host.Outcome State Fault Refusal :=
  scalarI h d a (fun v => w64 (mapElems (bitsWidth w) 64 v.toNat (f (bitsWidth w)))) s

/-! ### The ALU group -/

/-- ADD (R348). -/
def execAdd (h : Hdr) (d a b : BitVec 5) (s : State) : Host.Outcome State Fault Refusal :=
  scalarR h d a b 1 (fun x y => x + y) s

/-- SUB (R421). -/
def execSub (h : Hdr) (d a b : BitVec 5) (s : State) : Host.Outcome State Fault Refusal :=
  scalarR h d a b 1 (fun x y => x - y) s

/-- AND (R348). -/
def execAnd (h : Hdr) (d a b : BitVec 5) (s : State) : Host.Outcome State Fault Refusal :=
  scalarR h d a b 1 (fun x y => x &&& y) s

/-- OR (R400). -/
def execOr (h : Hdr) (d a b : BitVec 5) (s : State) : Host.Outcome State Fault Refusal :=
  scalarR h d a b 1 (fun x y => x ||| y) s

/-- XOR (R448). -/
def execXor (h : Hdr) (d a b : BitVec 5) (s : State) : Host.Outcome State Fault Refusal :=
  scalarR h d a b 1 (fun x y => x ^^^ y) s

/-- SHL (R414). -/
def execShl (h : Hdr) (d a b : BitVec 5) (s : State) : Host.Outcome State Fault Refusal :=
  scalarR h d a b 1 (fun x y => x <<< shiftBy y) s

/-- SHR (R414). -/
def execShr (h : Hdr) (d a b : BitVec 5) (s : State) : Host.Outcome State Fault Refusal :=
  scalarR h d a b 1 (fun x y => x >>> shiftBy y) s

/-- SRA (R414). -/
def execSra (h : Hdr) (d a b : BitVec 5) (s : State) : Host.Outcome State Fault Refusal :=
  scalarR h d a b 1 (fun x y => x.sshiftRight (shiftBy y)) s

/-- SLT (R416). -/
def execSlt (h : Hdr) (d a b : BitVec 5) (s : State) : Host.Outcome State Fault Refusal :=
  scalarR h d a b 1 (fun x y => boolW (x.slt y)) s

/-- SLTU (R416). -/
def execSltu (h : Hdr) (d a b : BitVec 5) (s : State) : Host.Outcome State Fault Refusal :=
  scalarR h d a b 1 (fun x y => boolW (x.ult y)) s

/-- MIN (R393). -/
def execMin (h : Hdr) (d a b : BitVec 5) (s : State) : Host.Outcome State Fault Refusal :=
  scalarR h d a b 1 (fun x y => if x.slt y then x else y) s

/-- MAX (R393). -/
def execMax (h : Hdr) (d a b : BitVec 5) (s : State) : Host.Outcome State Fault Refusal :=
  scalarR h d a b 1 (fun x y => if x.slt y then y else x) s

/-- MINU (R393). -/
def execMinu (h : Hdr) (d a b : BitVec 5) (s : State) : Host.Outcome State Fault Refusal :=
  scalarR h d a b 1 (fun x y => if x.ult y then x else y) s

/-- MAXU (R393). -/
def execMaxu (h : Hdr) (d a b : BitVec 5) (s : State) : Host.Outcome State Fault Refusal :=
  scalarR h d a b 1 (fun x y => if x.ult y then y else x) s

/-! ### The MULDIV group -/

/-- MUL (R398). -/
def execMul (h : Hdr) (d a b : BitVec 5) (s : State) : Host.Outcome State Fault Refusal :=
  scalarR h d a b 3 (fun x y => x * y) s

/-- MULH (R398). -/
def execMulh (h : Hdr) (d a b : BitVec 5) (s : State) : Host.Outcome State Fault Refusal :=
  scalarR h d a b 3 mulHigh s

/-- MULHU (R398). -/
def execMulhu (h : Hdr) (d a b : BitVec 5) (s : State) : Host.Outcome State Fault Refusal :=
  scalarR h d a b 3 mulHighU s

/-- DIV (R368, R369). -/
def execDiv (h : Hdr) (d a b : BitVec 5) (s : State) : Host.Outcome State Fault Refusal :=
  scalarR h d a b 20 divSigned s

/-- DIVU (R368, R369). -/
def execDivu (h : Hdr) (d a b : BitVec 5) (s : State) : Host.Outcome State Fault Refusal :=
  scalarR h d a b 20 divUnsigned s

/-- REM (R411). -/
def execRem (h : Hdr) (d a b : BitVec 5) (s : State) : Host.Outcome State Fault Refusal :=
  scalarR h d a b 20 remSigned s

/-- REMU (R411). -/
def execRemu (h : Hdr) (d a b : BitVec 5) (s : State) : Host.Outcome State Fault Refusal :=
  scalarR h d a b 20 remUnsigned s

/-! ### The BITS group -/

/-- CLZ (R361). -/
def execClz (h : Hdr) (d a : BitVec 5) (w : BitVec 2) (s : State) : Host.Outcome State Fault Refusal :=
  scalarBits h d a w countLeading s

/-- FFS (R378). -/
def execFfs (h : Hdr) (d a : BitVec 5) (w : BitVec 2) (s : State) : Host.Outcome State Fault Refusal :=
  scalarBits h d a w findFirst s

/-- POPC (R407). -/
def execPopc (h : Hdr) (d a : BitVec 5) (w : BitVec 2) (s : State) : Host.Outcome State Fault Refusal :=
  scalarBits h d a w countOnes s

/-! ### Immediate forms -/

/-- ADDI (R349). -/
def execAddi (h : Hdr) (d a : BitVec 5) (k : BitVec 9) (s : State) : Host.Outcome State Fault Refusal :=
  scalarI h d a (fun x => x + k.signExtend 64) s

/-- ANDI (R349). -/
def execAndi (h : Hdr) (d a : BitVec 5) (k : BitVec 9) (s : State) : Host.Outcome State Fault Refusal :=
  scalarI h d a (fun x => x &&& k.signExtend 64) s

/-- ORI (R400). -/
def execOri (h : Hdr) (d a : BitVec 5) (k : BitVec 9) (s : State) : Host.Outcome State Fault Refusal :=
  scalarI h d a (fun x => x ||| k.signExtend 64) s

/-- XORI (R448). -/
def execXori (h : Hdr) (d a : BitVec 5) (k : BitVec 9) (s : State) : Host.Outcome State Fault Refusal :=
  scalarI h d a (fun x => x ^^^ k.signExtend 64) s

/-- SLTI (R416). -/
def execSlti (h : Hdr) (d a : BitVec 5) (k : BitVec 9) (s : State) : Host.Outcome State Fault Refusal :=
  scalarI h d a (fun x => boolW (x.slt (k.signExtend 64))) s

/-- SHLI (R414). -/
def execShli (h : Hdr) (d a : BitVec 5) (n : BitVec 6) (s : State) : Host.Outcome State Fault Refusal :=
  scalarI h d a (fun x => x <<< n.toNat) s

/-- SHRI (R414). -/
def execShri (h : Hdr) (d a : BitVec 5) (n : BitVec 6) (s : State) : Host.Outcome State Fault Refusal :=
  scalarI h d a (fun x => x >>> n.toNat) s

/-- SRAI (R414). -/
def execSrai (h : Hdr) (d a : BitVec 5) (n : BitVec 6) (s : State) : Host.Outcome State Fault Refusal :=
  scalarI h d a (fun x => x.sshiftRight n.toNat) s

/-! ### Literals -/

/-- LI (R386). -/
def execLi (h : Hdr) (d : BitVec 5) (k : BitVec 14) (s : State) : Host.Outcome State Fault Refusal :=
  issue h { uses := [d] } (fun x s => x.go (x.land s d (k.signExtend 64) 1) 1) s

/-- LIT (R387). -/
def execLit (h : Hdr) (d : BitVec 5) (k : W32) (s : State) : Host.Outcome State Fault Refusal :=
  scalarLit h d (fun _ => k.signExtend 64) s

/-- LITH (R387). -/
def execLith (h : Hdr) (d : BitVec 5) (k : W32) (s : State) : Host.Outcome State Fault Refusal :=
  scalarLit h d (fun x => k ++ x.extractLsb' 0 32) s

end Sys2Proof.Machine
end

