-- ==== Sys2Proof/Machine/Tile.lean ====
section
/-! DEFINITION. The tile pipeline (R427 to R429): a tile word at its issue, its rows read one a cycle, and each row's result on its way to a
tile, a port or a mask; then the words of OP 0x21 to 0x2D (R401 to R404, R430 to R444). -/

namespace Sys2Proof.Machine

/-! ### What one lane of a row becomes -/

/-- VMIN and VMAX, VADD, IADD as reductions take them (R149). -/
def RedOp.op (r : RedOp) (fl : Bool) (a b : W32) : W32 × Status :=
  match r with
  | .add => fpAdd fl a b
  | .max => fpMinMax fl true a b
  | .min => fpMinMax fl false a b
  | .iadd => (a + b, 0)

/-- A comparison of two containers (R437). -/
def CmpOp.holds (c : CmpOp) (fl : Bool) (a b : W32) : Bool × Status :=
  match c with
  | .feq => let (o, st) := fpOrder fl a b; (o == .eq, st)
  | .flt => let (o, st) := fpOrder fl a b; (o == .lt, st)
  | .fle => let (o, st) := fpOrder fl a b; (o == .lt || o == .eq, st)
  | .fun_ => let (o, st) := fpOrder fl a b; (o == .un, st)
  | .ieq => (a == b, 0)
  | .ilt => (a.slt b, 0)
  | .iltu => (a.ult b, 0)

/-- A special function of a container (R155, R443). -/
def SfnOp.value (f : SfnOp) (fl : Bool) (w : W32) : W32 × Status :=
  match f with
  | .exp2 => sfnExp2 fl w
  | .log2 => sfnLog2 fl w
  | .rcp => sfnRcp fl w
  | .rsqrt => sfnRsqrt fl w
  | .sqrt => sfnSqrt fl w
  | .tanh => sfnTanh fl w
  | .sigm => sfnSigm fl w
  | .silu => sfnSilu fl w

/-- The shift amount of VSH: bits [4:0] (R444). -/
def vshAmount (y : W32) : Nat := y.toNat % 32

/-- A container with its elements counted (R154, R436). -/
def bitLanes (width : Nat) (f : Nat → Nat → Nat) (x : W32) : W32 :=
  BitVec.ofNat 32 (mapElems width 32 x.toNat (f width))

/-- The width of a VBIT code (R79). -/
def vbitWidth (code : Nat) : Nat := 8 * 2 ^ code

/-- The result of one lane for the operations that act lane by lane: `sel` is the active mask's bit, `z` the destination's container
(R427, R430 to R432, R436 to R438, R440, R443, R444). -/
def TileFn.lane (fn : TileFn) (fl sel : Bool) (x y z : W32) : W32 × Status :=
  match fn with
  | .add => fpAdd fl x y
  | .sub => fpSub fl x y
  | .mul => fpMul fl x y
  | .min => fpMinMax fl false x y
  | .max => fpMinMax fl true x y
  | .absd => fpAbsDiff fl x y
  | .mov => (x, 0)
  | .sel => (if sel then x else y, 0)
  | .fma => fpFma fl false false x y z
  | .fms => fpFma fl false true x y z
  | .fnma => fpFma fl true false x y z
  | .iadd => (x + y, 0)
  | .isub => (x - y, 0)
  | .imul => (x * y, 0)
  | .imin => (if x.slt y then x else y, 0)
  | .imax => (if x.slt y then y else x, 0)
  | .and => (x &&& y, 0)
  | .or => (x ||| y, 0)
  | .xor => (x ^^^ y, 0)
  | .shl => (x <<< vshAmount y, 0)
  | .shr => (x >>> vshAmount y, 0)
  | .sra => (x.sshiftRight (vshAmount y), 0)
  | .clz w => (bitLanes (vbitWidth w) countLeading x, 0)
  | .ffs w => (bitLanes (vbitWidth w) findFirst x, 0)
  | .popc w => (bitLanes (vbitWidth w) countOnes x, 0)
  | .cmp c => let (b, st) := c.holds fl x y; (if b then 1 else 0, st)
  | .narrow fmt sat rnd => let (c, st) := Sys2Proof.Machine.narrow fmt (Rnd.ofCode rnd) sat fl x; (BitVec.ofNat 32 c, st)
  | .widen fmt => Sys2Proof.Machine.widen fmt fl x.toNat
  | .sfn f => f.value fl x
  | _ => (x, 0)

/-! ### Rows -/

/-- NANIN where a value among the inputs is a NaN (R143). -/
def nanAmong (vals : List W32) : Status :=
  if vals.any fun v => (FloatFmt.fp32.value v.toNat).isNan then Status.nanin else 0

/-- A list of one in a reduction: it passes with input flushing only, so a NaN keeps its bits, and as an input of the word it sets
NANIN (R143, R442; log entry 25). -/
def reduceOne (fl : Bool) (v : W32) : W32 × Status :=
  let (x, st) := fpIn fl v
  if x.isNan then (v, st) else ((rne32 false x).1, st)

/-- The value of a reduction over a list, by the tree of R149, and the status of its steps; a NaN made at one level and read at the
next is no input and sets no NANIN (R143). -/
def reduce (op : RedOp) (fl : Bool) (vals : List W32) : W32 × Status :=
  match vals with
  | [v] => if op = .iadd then (v, 0) else reduceOne fl v
  | _ =>
    let tree := pairTree (fun (a b : W32 × Status) => let (w, st) := op.op fl a.1 b.1; (w, a.2 ||| b.2 ||| st)) 7
      (vals.map fun v => (v, (0 : Status)))
    let (w, st) := tree.getD 0 (0, 0)
    (w, if op = .iadd then st else (st &&& ~~~Status.nanin) ||| nanAmong vals)

/-- Lane `j` of a row. -/
def Row.lane (r : Row) (j : Nat) : W32 := r.getD j 0

/-- A whole row of one value. -/
def splat (v : W32) : Row := List.replicate 64 v

/-- The result row of an operation whose rows are independent, and the status of each lane (R427). -/
def TileJob.result (job : TileJob) (x y z : Row) : Row × List Status :=
  match job.fn with
  | .rotr n => ((List.range 64).map fun j => x.lane ((j + 64 - n % 64) % 64), List.replicate 64 0)
  | .bcr c => (splat (x.lane c), List.replicate 64 0)
  | .redr op => let (v, st) := reduce op job.flushing x; (splat v, List.replicate 64 st)
  | .bcs => (splat (job.scalar.setWidth 32), List.replicate 64 0)
  | .osmf _ => let (v, st) := sfnRcp job.flushing (z.lane 0); (splat v, List.replicate 64 st)
  | fn =>
    let cells := (List.range 64).map fun j =>
      fn.lane job.flushing (job.active.getLsbD j) (x.lane j) (y.lane j) (z.lane j)
    (cells.map Prod.fst, cells.map Prod.snd)

/-- All result rows of an operation that reads every row first (R434, R442). -/
def TileJob.gathered_ (job : TileJob) (rows : List Row) : List Row × List Status :=
  let n := rows.length
  let row (i : Nat) : Row := rows.getD i zeroRow
  match job.fn with
  | .rotc m => ((List.range n).map fun i => row ((i + n - m % n) % n), List.replicate 64 0)
  | .bcc r => (List.replicate n (row r), List.replicate 64 0)
  | .redc op =>
    let cells := (List.range 64).map fun j => reduce op job.flushing (rows.map fun r => Row.lane r j)
    (List.replicate n (cells.map Prod.fst), cells.map Prod.snd)
  | _ => (rows, List.replicate 64 0)

/-- Whether an operation reads all rows before any result lands. -/
def TileFn.gathers : TileFn → Bool
  | .rotc _ => true
  | .bcc _ => true
  | .redc _ => true
  | _ => false

/-- The latency of a tile word (R122). -/
def TileFn.latency : TileFn → Nat
  | .fma => 5
  | .fms => 5
  | .fnma => 5
  | .narrow _ _ _ => 3
  | .widen _ => 3
  | .sfn _ => 8
  | .rotr _ => 2
  | .bcr _ => 2
  | .redr _ => 7
  | .rotc _ => 17
  | .bcc _ => 17
  | .redc _ => 20
  | .osmx _ => 12
  | .osmf _ => 8
  | .rand => 10
  | .ext _ => 3
  | _ => 4

/-- The status bits of the enabled lanes (R112, R153). -/
def laneStatus (lanes : W64) (sts : List Status) : Status :=
  (List.range 64).foldl (fun acc j => if lanes.getLsbD j then acc ||| sts.getD j 0 else acc) 0

/-! ### Philox (R157) -/

/-- One round of Philox-4×32, with the keys it uses. -/
def philoxRound (k0 k1 : Nat) (c : Nat × Nat × Nat × Nat) : Nat × Nat × Nat × Nat :=
  let (c0, c1, c2, c3) := c
  let p := 0xD2511F53 * c0
  let q := 0xCD9E8D57 * c2
  ((q / 2 ^ 32) ^^^ c1 ^^^ k0, q % 2 ^ 32, (p / 2 ^ 32) ^^^ c3 ^^^ k1, p % 2 ^ 32)

/-- `n` more rounds, the keys advanced before each of them but the first (R157). -/
def philoxRounds (n k0 k1 : Nat) (c : Nat × Nat × Nat × Nat) : Nat × Nat × Nat × Nat :=
  match n with
  | 0 => c
  | m + 1 =>
    philoxRounds m ((k0 + 0x9E3779B9) % 2 ^ 32) ((k1 + 0xBB67AE85) % 2 ^ 32) (philoxRound k0 k1 c)

/-- The four numbers of a lane (R157). -/
def philox (c row : Nat) (rctr : W64) (key0 key1 : W32) : List W32 :=
  let (x0, x1, x2, x3) := philoxRounds 10 key0.toNat key1.toNat (c, row, bits rctr.toNat 31 0, bits rctr.toNat 63 32)
  [BitVec.ofNat 32 x0, BitVec.ofNat 32 x1, BitVec.ofNat 32 x2, BitVec.ofNat 32 x3]

/-! ### OSMX (R402) -/

/-- A row of the online softmax: from the scores and the running maximum and sum, the new maximum, α, the new sum, the probabilities,
and the status (R402). -/
def osmxRow (fl : Bool) (x : Row) (mo lo : W32) : W32 × W32 × W32 × Row × Status :=
  let ins := (x ++ [mo, lo]).map (fpIn fl)
  let insSt := ins.foldl (fun a v => a ||| v.2) 0
  if ins.any (fun v => v.1.isNan) then (qnan, qnan, qnan, splat qnan, insSt) else
  let (mt, s1) := reduce .max fl x
  let (mn, s2) := fpMinMax fl true mo mt
  let exp2Of (v : W32) : W32 × Status :=
    let (d, t1) := fpSub fl v mn
    let (e, t2) := sfnExp2 fl d
    (e, t1 ||| t2)
  let negInf := mn == 0xFF800000
  let (alpha, s3) := if negInf then ((0x3F800000 : W32), (0 : Status)) else exp2Of mo
  let ps := x.map fun v => if negInf then ((0 : W32), (0 : Status)) else exp2Of v
  let p := ps.map Prod.fst
  let s4 := ps.foldl (fun a v => a ||| v.2) 0
  let (sum, s5) := reduce .add fl p
  let (prod, s6) := fpMul fl alpha lo
  let (ln, s7) := fpAdd fl prod sum
  (mn, alpha, ln, p, (insSt ||| s1 ||| s2 ||| s3 ||| s4 ||| s5 ||| s6 ||| s7) &&& ~~~Status.nanin)

/-! ### Rows under way -/

/-- Status bits that a landing at a cycle raises (R153). -/
def State.raisesAt (s : State) (c : Nat) (a : Act) (due : Nat) (st : Status) : State :=
  if st = 0 then s else s.addAct c due a.issued a.by_ a.pc (.status st)

/-- A result row on its way to a tile or a port (R427). -/
def State.rowOut (s : State) (c : Nat) (a : Act) (job : TileJob) (i due : Nat) (vals : Row) (sts : List Status) : State :=
  let st := laneStatus job.lanes sts
  match writePort? job.d with
  | some n => s.addAct c due a.issued a.by_ a.pc (.pushRow n job.lanes vals st)
  | none => (s.addAct c due a.issued a.by_ a.pc (.tileRow job.d (job.first + i) job.lanes vals)).raisesAt c a due st

/-- What a row that has been read gives, and when it lands (R427 to R444). -/
def State.rowDone (s : State) (c : Nat) (a : Act) (job : TileJob) (i : Nat) (x y : Row) (stIn : List Status) : State :=
  let k := s.core c
  let r := job.first + i
  let lat := job.fn.latency
  let join (sts : List Status) : List Status := (List.range 64).map fun j => sts.getD j 0 ||| stIn.getD j 0
  match job.fn with
  | .cmp _ =>
    let (row, sts) := job.result x y zeroRow
    let bs : W64 := BitVec.ofNat 64 ((List.range 64).foldl (fun acc j => if Row.lane row j = 0 then acc else acc + 2 ^ j) 0)
    s.addAct c (s.now + lat) a.issued a.by_ a.pc (.maskRow job.d job.lanes bs (laneStatus job.lanes (join sts)))
  | .ext col =>
    let s := s.raisesAt c a (s.now + lat) (laneStatus (BitVec.allOnes 64) stIn)
    s.addAct c (s.now + lat) a.issued a.by_ a.pc (.reg .cm job.d ((x.lane col).signExtend 64) false)
  | .rand =>
    let rows := x.map fun v => philox v.toNat r job.scalar job.key0 job.key1
    let due := s.now - i + lat + 4 * i
    (List.range 4).foldl (fun s n =>
      s.addAct c (due + n) a.issued a.by_ a.pc
        (.tileRow job.d (job.first + 4 * i + n) job.lanes (rows.map fun l => l.getD n 0)))
      (s.raisesAt c a due (laneStatus job.lanes stIn))
  | .osmx te =>
    let mo := Row.lane (k.tileRow te r) 0
    let lo := Row.lane (k.tileRow (te + 1) r) 0
    let (mn, alpha, ln, p, st) := osmxRow job.flushing x mo lo
    let due := s.now + lat
    let s := (s.addAct c due a.issued a.by_ a.pc (.tileRow te r 3 [mn, alpha])).raisesAt c a due (st ||| laneStatus job.lanes stIn)
    let s := s.addAct c due a.issued a.by_ a.pc (.tileRow (te + 1) r 1 [ln])
    s.rowOut c a job i due p []
  | fn =>
    if fn.gathers then
      if i + 1 < job.count then s else
      let (rows, sts) := job.gathered_ (job.rows ++ [x])
      let start := s.now - (job.count - 1)
      let sts := join (sts.map fun t => t ||| job.gathered)
      (List.range rows.length).foldl (fun s n =>
        s.rowOut c a job n (start + lat + if (writePort? job.d).isSome then n else 0) (rows.getD n zeroRow) sts) s
    else
      let z :=
        match fn with
        | .osmf te => k.tileRow (te + 1) r
        | _ => k.tileRow job.d r
      let (row, sts) := job.result x y z
      s.rowOut c a job i (s.now + lat) row (join sts)

/-- Row `i` of a tile instruction at its read (R118, R122, R124): its sources, then the row after it. A row whose port or bank is not free
waits for the next cycle in a tokened region. -/
def State.readRow (s : State) (c : Nat) (a : Act) (job : TileJob) (i : Nat) : State :=
  match (s.core c).sources s.now job.a job.b job.gotA job.gotB (job.first + i) a.issued a.by_ job.flushing with
  | .fault code ta => (s.modCore c fun k => k.dropAct a.id).raise c (a.fault code ta)
  | .wait k gotA gotB => s.setCore c (k.putOff { a with pay := .rowRead { job with gotA := gotA, gotB := gotB } i } s.now)
  | .both k (x, stA) (y, stB) =>
    let s := s.setCore c (k.dropAct a.id)
    let job := { job with gotA := none, gotB := none }
    let st := (List.range 64).map fun j => stA.getD j 0 ||| stB.getD j 0
    let s := s.rowDone c a job i x y st
    let once : Bool :=
      match job.fn with
      | .ext _ => true
      | _ => false
    if once || decide (job.count ≤ i + 1) then s else
    let job := if job.fn.gathers then
        { job with rows := job.rows ++ [x], gathered := job.gathered ||| laneStatus job.lanes st } else job
    s.addAct c (s.now + 1) a.issued a.by_ a.pc (.rowRead job (i + 1))

/-! ### A tile word at its issue (R428) -/

/-- Whether every port a tile word names has been configured (R115). -/
def Core.portsSet (k : Core) (vs : List Nat) : Bool :=
  vs.all fun v => !(decide (16 ≤ v) && decide (v < 24)) || k.portSet (v - 16)

/-- Whether every read port a tile word names can serve a row in this cycle (R118, R428). -/
def Core.sourcesReady (k : Core) (now : Nat) (vs : List Nat) : Bool :=
  vs.all fun v =>
    match readPort? v with
    | some n => (k.ports.getD n Port.none).canServe now
    | none => true

/-- FIRST of the row window (R110). -/
def Core.winFirst (k : Core) : Nat := bits k.rwin.toNat 3 0
/-- COUNT of the row window (R110). -/
def Core.winCount (k : Core) : Nat := bits k.rwin.toNat 8 4

/-- A tile word: `d` its destination designator, `a` and `b` its sources, `tiles` the tiles it writes, `ok` whether its operand fields are in
range (R427, R428). That its ports have been configured is tested with its operands; in a tokened region, where it may wait by its SYNC for the PCFG, once its
waits are met (DEDUCED, log entry 60). -/
def tileWord (h : Hdr) (fn : TileFn) (d : Nat) (a b : Option Nat) (m : Bool) (tiles : List Nat) (uses : List (BitVec 5))
    (ok : Ctx → Bool) (scalar : Ctx → W64) (s : State) : Host.Outcome State Fault Refusal :=
  let desig := a.toList ++ b.toList
  let dest : List Nat :=
    match fn with
    | .cmp _ => []
    | .ext _ => []
    | _ => [d]
  issueAt h
    (fun x =>
      { Gate.regionOnly [.cm] with
        operandBad := !ok x || ((tiles.any x.k.liveInTile || x.k.place x.q != .tokened) && !x.k.portsSet (desig ++ dest))
        ruleBad := tiles.any x.k.liveInTile
        uses := uses })
    (fun x s =>
      if !x.k.portsSet (desig ++ dest) then .trap cIllegalOperand (x.x.curWord.setWidth 64)
      else if decide (s.now < x.k.vuFree) || !x.k.sourcesReady s.now desig then .hold s else
      let n := x.k.winCount
      let occ :=
        match fn with
        | .ext _ => 1
        | .rand => 4 * n
        | _ => n
      let job : TileJob :=
        { fn := fn, d := d, a := a, b := b, lanes := x.k.laneMask m, active := x.k.activeMask
          first := x.k.winFirst, count := n, flushing := x.k.flushing, scalar := scalar x
          key0 := x.k.rkey0.setWidth 32, key1 := x.k.rkey1.setWidth 32, rows := [], gathered := 0, gotA := none, gotB := none }
      let s := s.modCore x.c fun k => { k with vuFree := s.now + occ }
      x.go (s.addAct x.c s.now s.now x.q x.x.pc (.rowRead job 0)) fn.latency) s

/-- A tile word of two sources (R90). -/
def tileBinary (h : Hdr) (fn : TileFn) (d a b : BitVec 5) (m : Bool) (s : State) : Host.Outcome State Fault Refusal :=
  tileWord h fn d.toNat (some a.toNat) (some b.toNat) m [d.toNat] []
    (fun _ => dstOk d && srcOk a && srcOk b && portsApart a b) (fun _ => 0) s

/-- A tile word of one source (R90); `ok` is the range of its literal. -/
def tileUnary (h : Hdr) (fn : TileFn) (d a : BitVec 5) (m : Bool) (ok : Bool) (s : State) : Host.Outcome State Fault Refusal :=
  tileWord h fn d.toNat (some a.toNat) none m [d.toNat] [] (fun _ => dstOk d && srcOk a && ok) (fun _ => 0) s

/-- A comparison into a mask (R437). -/
def tileCompare (h : Hdr) (c : CmpOp) (d a b : BitVec 5) (m : Bool) (s : State) : Host.Outcome State Fault Refusal :=
  tileWord h (.cmp c) d.toNat (some a.toNat) (some b.toNat) m [] []
    (fun _ => decide (d.toNat ≤ 7) && srcOk a && srcOk b && portsApart a b) (fun _ => 0) s

/-- A fused multiply-add: its destination is a tile and its third source (R440). -/
def tileFused (h : Hdr) (fn : TileFn) (d a b : BitVec 5) (m : Bool) (s : State) : Host.Outcome State Fault Refusal :=
  tileWord h fn d.toNat (some a.toNat) (some b.toNat) m [d.toNat] []
    (fun _ => tileOk d && srcOk a && srcOk b && portsApart a b) (fun _ => 0) s

/-! ### VFA (R430, R431) -/

/-- VADD -/
def execVadd (h : Hdr) (d a b : BitVec 5) (m : Bool) (s : State) : Host.Outcome State Fault Refusal := tileBinary h .add d a b m s
/-- VSUB -/
def execVsub (h : Hdr) (d a b : BitVec 5) (m : Bool) (s : State) : Host.Outcome State Fault Refusal := tileBinary h .sub d a b m s
/-- VMUL -/
def execVmul (h : Hdr) (d a b : BitVec 5) (m : Bool) (s : State) : Host.Outcome State Fault Refusal := tileBinary h .mul d a b m s
/-- VMIN -/
def execVmin (h : Hdr) (d a b : BitVec 5) (m : Bool) (s : State) : Host.Outcome State Fault Refusal := tileBinary h .min d a b m s
/-- VMAX -/
def execVmax (h : Hdr) (d a b : BitVec 5) (m : Bool) (s : State) : Host.Outcome State Fault Refusal := tileBinary h .max d a b m s
/-- VABSD -/
def execVabsd (h : Hdr) (d a b : BitVec 5) (m : Bool) (s : State) : Host.Outcome State Fault Refusal := tileBinary h .absd d a b m s
/-- VMOV -/
def execVmov (h : Hdr) (d a : BitVec 5) (m : Bool) (s : State) : Host.Outcome State Fault Refusal := tileUnary h .mov d a m true s
/-- VSEL: every lane is written; the active mask chooses the source (R431). -/
def execVsel (h : Hdr) (d a b : BitVec 5) (s : State) : Host.Outcome State Fault Refusal := tileBinary h .sel d a b false s

/-! ### VFMA (R440) -/

/-- VFMA -/
def execVfma (h : Hdr) (d a b : BitVec 5) (m : Bool) (s : State) : Host.Outcome State Fault Refusal := tileFused h .fma d a b m s
/-- VFMS -/
def execVfms (h : Hdr) (d a b : BitVec 5) (m : Bool) (s : State) : Host.Outcome State Fault Refusal := tileFused h .fms d a b m s
/-- VFNMA -/
def execVfnma (h : Hdr) (d a b : BitVec 5) (m : Bool) (s : State) : Host.Outcome State Fault Refusal := tileFused h .fnma d a b m s

/-! ### VIA (R432) and VSH (R444) -/

/-- VIADD -/
def execViadd (h : Hdr) (d a b : BitVec 5) (m : Bool) (s : State) : Host.Outcome State Fault Refusal := tileBinary h .iadd d a b m s
/-- VISUB -/
def execVisub (h : Hdr) (d a b : BitVec 5) (m : Bool) (s : State) : Host.Outcome State Fault Refusal := tileBinary h .isub d a b m s
/-- VIMUL -/
def execVimul (h : Hdr) (d a b : BitVec 5) (m : Bool) (s : State) : Host.Outcome State Fault Refusal := tileBinary h .imul d a b m s
/-- VIMIN -/
def execVimin (h : Hdr) (d a b : BitVec 5) (m : Bool) (s : State) : Host.Outcome State Fault Refusal := tileBinary h .imin d a b m s
/-- VIMAX -/
def execVimax (h : Hdr) (d a b : BitVec 5) (m : Bool) (s : State) : Host.Outcome State Fault Refusal := tileBinary h .imax d a b m s
/-- VAND -/
def execVand (h : Hdr) (d a b : BitVec 5) (m : Bool) (s : State) : Host.Outcome State Fault Refusal := tileBinary h .and d a b m s
/-- VOR -/
def execVor (h : Hdr) (d a b : BitVec 5) (m : Bool) (s : State) : Host.Outcome State Fault Refusal := tileBinary h .or d a b m s
/-- VXOR -/
def execVxor (h : Hdr) (d a b : BitVec 5) (m : Bool) (s : State) : Host.Outcome State Fault Refusal := tileBinary h .xor d a b m s
/-- VSHL -/
def execVshl (h : Hdr) (d a b : BitVec 5) (m : Bool) (s : State) : Host.Outcome State Fault Refusal := tileBinary h .shl d a b m s
/-- VSHR -/
def execVshr (h : Hdr) (d a b : BitVec 5) (m : Bool) (s : State) : Host.Outcome State Fault Refusal := tileBinary h .shr d a b m s
/-- VSRA -/
def execVsra (h : Hdr) (d a b : BitVec 5) (m : Bool) (s : State) : Host.Outcome State Fault Refusal := tileBinary h .sra d a b m s

/-! ### VBIT (R436) -/

/-- VCLZ -/
def execVclz (h : Hdr) (d a w : BitVec 5) (m : Bool) (s : State) : Host.Outcome State Fault Refusal :=
  tileUnary h (.clz w.toNat) d a m (decide (w.toNat ≤ 2)) s
/-- VFFS -/
def execVffs (h : Hdr) (d a w : BitVec 5) (m : Bool) (s : State) : Host.Outcome State Fault Refusal :=
  tileUnary h (.ffs w.toNat) d a m (decide (w.toNat ≤ 2)) s
/-- VPOPC -/
def execVpopc (h : Hdr) (d a w : BitVec 5) (m : Bool) (s : State) : Host.Outcome State Fault Refusal :=
  tileUnary h (.popc w.toNat) d a m (decide (w.toNat ≤ 2)) s

/-! ### VCMP (R437) -/

/-- VCMP.FEQ -/
def execVcmpFeq (h : Hdr) (d a b : BitVec 5) (m : Bool) (s : State) : Host.Outcome State Fault Refusal := tileCompare h .feq d a b m s
/-- VCMP.FLT -/
def execVcmpFlt (h : Hdr) (d a b : BitVec 5) (m : Bool) (s : State) : Host.Outcome State Fault Refusal := tileCompare h .flt d a b m s
/-- VCMP.FLE -/
def execVcmpFle (h : Hdr) (d a b : BitVec 5) (m : Bool) (s : State) : Host.Outcome State Fault Refusal := tileCompare h .fle d a b m s
/-- VCMP.FUN -/
def execVcmpFun (h : Hdr) (d a b : BitVec 5) (m : Bool) (s : State) : Host.Outcome State Fault Refusal := tileCompare h .fun_ d a b m s
/-- VCMP.IEQ -/
def execVcmpIeq (h : Hdr) (d a b : BitVec 5) (m : Bool) (s : State) : Host.Outcome State Fault Refusal := tileCompare h .ieq d a b m s
/-- VCMP.ILT -/
def execVcmpIlt (h : Hdr) (d a b : BitVec 5) (m : Bool) (s : State) : Host.Outcome State Fault Refusal := tileCompare h .ilt d a b m s
/-- VCMP.ILTU -/
def execVcmpIltu (h : Hdr) (d a b : BitVec 5) (m : Bool) (s : State) : Host.Outcome State Fault Refusal := tileCompare h .iltu d a b m s

/-! ### VCVT (R438) and VSFN (R443) -/

/-- VCVT.NAR -/
def execVcvtNar (h : Hdr) (d a : BitVec 5) (t : BitVec 4) (m sat : Bool) (r : BitVec 2) (s : State) :
    Host.Outcome State Fault Refusal :=
  tileUnary h (.narrow t.toNat sat r) d a m (decide (t.toNat ≤ 11)) s
/-- VCVT.WID -/
def execVcvtWid (h : Hdr) (d a : BitVec 5) (t : BitVec 4) (m : Bool) (s : State) : Host.Outcome State Fault Refusal :=
  tileUnary h (.widen t.toNat) d a m (decide (t.toNat ≤ 11)) s
/-- VSFN.EXP2 -/
def execVsfnExp2 (h : Hdr) (d a : BitVec 5) (m : Bool) (s : State) : Host.Outcome State Fault Refusal := tileUnary h (.sfn .exp2) d a m true s
/-- VSFN.LOG2 -/
def execVsfnLog2 (h : Hdr) (d a : BitVec 5) (m : Bool) (s : State) : Host.Outcome State Fault Refusal := tileUnary h (.sfn .log2) d a m true s
/-- VSFN.RCP -/
def execVsfnRcp (h : Hdr) (d a : BitVec 5) (m : Bool) (s : State) : Host.Outcome State Fault Refusal := tileUnary h (.sfn .rcp) d a m true s
/-- VSFN.RSQRT -/
def execVsfnRsqrt (h : Hdr) (d a : BitVec 5) (m : Bool) (s : State) : Host.Outcome State Fault Refusal := tileUnary h (.sfn .rsqrt) d a m true s
/-- VSFN.SQRT -/
def execVsfnSqrt (h : Hdr) (d a : BitVec 5) (m : Bool) (s : State) : Host.Outcome State Fault Refusal := tileUnary h (.sfn .sqrt) d a m true s
/-- VSFN.TANH -/
def execVsfnTanh (h : Hdr) (d a : BitVec 5) (m : Bool) (s : State) : Host.Outcome State Fault Refusal := tileUnary h (.sfn .tanh) d a m true s
/-- VSFN.SIGM -/
def execVsfnSigm (h : Hdr) (d a : BitVec 5) (m : Bool) (s : State) : Host.Outcome State Fault Refusal := tileUnary h (.sfn .sigm) d a m true s
/-- VSFN.SILU -/
def execVsfnSilu (h : Hdr) (d a : BitVec 5) (m : Bool) (s : State) : Host.Outcome State Fault Refusal := tileUnary h (.sfn .silu) d a m true s

/-! ### VAXIS (R433, R434) -/

/-- VROTR by 0 to 31 -/
def execVrotr (h : Hdr) (d a n : BitVec 5) (m : Bool) (s : State) : Host.Outcome State Fault Refusal := tileUnary h (.rotr n.toNat) d a m true s
/-- VROTR by 32 to 63 -/
def execVrotrHi (h : Hdr) (d a n : BitVec 5) (m : Bool) (s : State) : Host.Outcome State Fault Refusal :=
  tileUnary h (.rotr (n.toNat + 32)) d a m true s
/-- VROTC -/
def execVrotc (h : Hdr) (d a n : BitVec 5) (m : Bool) (s : State) : Host.Outcome State Fault Refusal :=
  tileUnary h (.rotc n.toNat) d a m (decide (n.toNat ≤ 15)) s
/-- VBCR of columns 0 to 31 -/
def execVbcr (h : Hdr) (d a c : BitVec 5) (m : Bool) (s : State) : Host.Outcome State Fault Refusal := tileUnary h (.bcr c.toNat) d a m true s
/-- VBCR of columns 32 to 63 -/
def execVbcrHi (h : Hdr) (d a c : BitVec 5) (m : Bool) (s : State) : Host.Outcome State Fault Refusal :=
  tileUnary h (.bcr (c.toNat + 32)) d a m true s
/-- VBCC: a row at or beyond COUNT is ILLEGAL_OPERAND (R433). -/
def execVbcc (h : Hdr) (d a r : BitVec 5) (m : Bool) (s : State) : Host.Outcome State Fault Refusal :=
  tileWord h (.bcc r.toNat) d.toNat (some a.toNat) none m [d.toNat] []
    (fun x => dstOk d && srcOk a && decide (r.toNat ≤ 15) && decide (r.toNat < x.k.winCount)) (fun _ => 0) s

/-! ### VRED (R442) -/

/-- VREDR.ADD -/
def execVredrAdd (h : Hdr) (d a : BitVec 5) (m : Bool) (s : State) : Host.Outcome State Fault Refusal := tileUnary h (.redr .add) d a m true s
/-- VREDR.MAX -/
def execVredrMax (h : Hdr) (d a : BitVec 5) (m : Bool) (s : State) : Host.Outcome State Fault Refusal := tileUnary h (.redr .max) d a m true s
/-- VREDR.MIN -/
def execVredrMin (h : Hdr) (d a : BitVec 5) (m : Bool) (s : State) : Host.Outcome State Fault Refusal := tileUnary h (.redr .min) d a m true s
/-- VREDR.IADD -/
def execVredrIadd (h : Hdr) (d a : BitVec 5) (m : Bool) (s : State) : Host.Outcome State Fault Refusal := tileUnary h (.redr .iadd) d a m true s
/-- VREDC.ADD -/
def execVredcAdd (h : Hdr) (d a : BitVec 5) (m : Bool) (s : State) : Host.Outcome State Fault Refusal := tileUnary h (.redc .add) d a m true s
/-- VREDC.MAX -/
def execVredcMax (h : Hdr) (d a : BitVec 5) (m : Bool) (s : State) : Host.Outcome State Fault Refusal := tileUnary h (.redc .max) d a m true s
/-- VREDC.MIN -/
def execVredcMin (h : Hdr) (d a : BitVec 5) (m : Bool) (s : State) : Host.Outcome State Fault Refusal := tileUnary h (.redc .min) d a m true s
/-- VREDC.IADD -/
def execVredcIadd (h : Hdr) (d a : BitVec 5) (m : Bool) (s : State) : Host.Outcome State Fault Refusal := tileUnary h (.redc .iadd) d a m true s

/-! ### VSCL (R435), VRAND (R441), OSM (R401 to R404) -/

/-- VBCS -/
def execVbcs (h : Hdr) (d a : BitVec 5) (m : Bool) (s : State) : Host.Outcome State Fault Refusal :=
  tileWord h .bcs d.toNat none none m [d.toNat] [a] (fun _ => dstOk d) (fun x => x.reg a) s
/-- VEXT of columns 0 to 31 -/
def execVext (h : Hdr) (d a c : BitVec 5) (s : State) : Host.Outcome State Fault Refusal :=
  tileWord h (.ext c.toNat) d.toNat (some a.toNat) none false [] [d] (fun _ => srcOk a) (fun _ => 0) s
/-- VEXT of columns 32 to 63 -/
def execVextHi (h : Hdr) (d a c : BitVec 5) (s : State) : Host.Outcome State Fault Refusal :=
  tileWord h (.ext (c.toNat + 32)) d.toNat (some a.toNat) none false [] [d] (fun _ => srcOk a) (fun _ => 0) s
/-- VRAND -/
def execVrand (h : Hdr) (d a : BitVec 5) (m : Bool) (s : State) : Host.Outcome State Fault Refusal :=
  tileWord h .rand d.toNat (some a.toNat) none m [d.toNat] []
    (fun x => tileOk d && srcOk a && decide (x.k.winFirst + 4 * x.k.winCount ≤ 16)) (fun x => x.k.rctr) s
/-- OSMX: `b` is its destination (R401, R402). -/
def execOsmx (h : Hdr) (e a b : BitVec 5) (s : State) : Host.Outcome State Fault Refusal :=
  tileWord h (.osmx e.toNat) b.toNat (some a.toNat) none false [e.toNat, e.toNat + 1, b.toNat] []
    (fun _ => evenTileOk e && srcOk a && dstOk b && b.toNat != e.toNat && b.toNat != e.toNat + 1) (fun _ => 0) s
/-- OSMF (R401, R403). -/
def execOsmf (h : Hdr) (d e : BitVec 5) (s : State) : Host.Outcome State Fault Refusal :=
  tileWord h (.osmf e.toNat) d.toNat none none false [d.toNat] [] (fun _ => dstOk d && evenTileOk e) (fun _ => 0) s

end Sys2Proof.Machine
end

