-- ==== Sys2Proof/Machine/Scatter.lean ====
section
/-! DEFINITION. The scatter-accumulate engine (R198, R199, R413): the four words of SACC, the pops of their row pairs, and the row updates. -/

namespace Sys2Proof.Machine

/-- SACC with any operation (R198, R413): what its issue checks and samples; the pairs are popped one a cycle from the issue on. That its ports have been
configured is no field of the word (R93): it is tested once the SYNC waits are met (DEDUCED, log entry 60). -/
def saccWord (h : Hdr) (op : RedOp) (d x v : BitVec 5) (s : State) : Host.Outcome State Fault Refusal :=
  issue h (engineGate (15 < d.toNat || !readPortOk x || !readPortOk v || x == v) [])
    (fun c s =>
      if !c.k.portsSet [x.toNat, v.toNat] then .trap cIllegalOperand (c.x.curWord.setWidth 64)
      else if 2 ≤ c.k.sacc.length || !c.k.sourcesReady s.now [x.toNat, v.toNat] then .hold s else
      let r := c.k.shape d.toNat
      if hSpace r != 0 then .trap cSpaceAccess (w64 d.toNat)
      else if hFmt r != 0 || hScl r then .trap cShapeMismatch (w64 d.toNat)
      else
        let (id, s) := s.newId
        let m : SaccCmd :=
          { id := id, pc := c.x.pc, issued := s.now, op := op, hd := d.toNat, record := r
            window := bits c.k.sacw.toNat 4 0, count := c.k.winCount, flushing := c.k.flushing, start := none, pairs := [], popSt := []
            applied := 0, todo := [], made := [], due := 0 }
        let s := s.modCore c.c fun k => { k with sacc := k.sacc ++ [m] }
        c.go (s.addAct c.c s.now s.now c.q c.x.pc (.saccPop id (x.toNat - 16) (v.toNat - 16) 0 none none)) 1) s

/-- SACC.FADD -/
def execSaccFadd (h : Hdr) (d x v : BitVec 5) (s : State) : Host.Outcome State Fault Refusal := saccWord h .add d x v s
/-- SACC.FMAX -/
def execSaccFmax (h : Hdr) (d x v : BitVec 5) (s : State) : Host.Outcome State Fault Refusal := saccWord h .max d x v s
/-- SACC.FMIN -/
def execSaccFmin (h : Hdr) (d x v : BitVec 5) (s : State) : Host.Outcome State Fault Refusal := saccWord h .min d x v s
/-- SACC.IADD -/
def execSaccIadd (h : Hdr) (d x v : BitVec 5) (s : State) : Host.Outcome State Fault Refusal := saccWord h .iadd d x v s

/-- Every status bit of a row's lanes. -/
def rowStatus (st : List Status) : Status := st.foldl (· ||| ·) 0

/-- Pair `i` of a SACC popped: lane 0 of the index row, and the value row (R198). What the pops flush is kept for the landing of an update
(R153, R199). -/
def State.saccPop (s : State) (c : Nat) (a : Act) (cmd ix vl i : Nat) (gotX gotV : Option (Row × List Status)) : State :=
  let k := s.core c
  match k.sacc.find? fun m => m.id == cmd with
  | none => s.setCore c (k.dropAct a.id)
  | some m =>
    match k.sources s.now (some (16 + ix)) (some (16 + vl)) gotX gotV 0 a.issued a.by_ m.flushing with
    | .fault code ta => (s.setCore c (k.delayAct a.id (s.now + 1))).raise c (a.fault code ta)
    | .wait k gotX gotV =>
      let put (x : Act) : Act := if x.id == a.id then { x with due := s.now + 1, pay := .saccPop cmd ix vl i gotX gotV } else x
      s.setCore c { k with acts := k.acts.map put }
    | .both k (x, stX) (v, stV) =>
      let k := k.dropAct a.id
      let k := { k with sacc := k.sacc.map fun y =>
        if y.id == cmd then { y with pairs := y.pairs ++ [(x.lane 0, v)], popSt := y.popSt ++ [rowStatus stX ||| rowStatus stV] } else y }
      let s := s.setCore c k
      if i + 1 < m.count then s.addAct c (s.now + 1) a.issued a.by_ a.pc (.saccPop cmd ix vl (i + 1) none none) else s

/-- A SACC starts (R159, R199). None while it may not. -/
def State.startSacc (s : State) (c : Nat) : Option State :=
  let k := s.core c
  match k.sacc with
  | [] => none
  | m :: rest =>
    if m.start.isSome || decide (s.now < m.issued + 2) then none else
    let (due, s) := s.drawDue
    some (s.modCore c fun k => { k with sacc := { m with start := some s.now, due := due } :: rest })

/-- The pairs of the current window, once all are popped (R199). -/
def SaccCmd.pairsNow (m : SaccCmd) : Option (List (W32 × Row)) :=
  let n := Min.min m.window (m.count - m.applied)
  if m.pairs.length < m.applied + n then none else some ((m.pairs.drop m.applied).take n)

/-- One column of an update: the inputs' values combined in pair order, then into the destination `d`, with the status of all steps (R199). A NaN
that a step makes and the next one reads is no input and sets no NANIN, nor is one that an earlier update of the command left in `d`, of which `own`
says (R143). -/
def SaccCmd.column (m : SaccCmd) (own : Bool) (d : W32) (ins : List W32) : W32 × Status :=
  let step (acc : W32 × Status) (w : W32) : W32 × Status :=
    let (v, st) := m.op.op m.flushing acc.1 w
    (v, acc.2 ||| st)
  match ins with
  | [] => (d, 0)
  | v :: rest =>
    let merged := rest.foldl step (v, (0 : Status))
    let (w, st) := m.op.op m.flushing d merged.1
    let st := merged.2 ||| st
    (w, if m.op = .iadd then st else (st &&& ~~~Status.nanin) ||| nanAmong (if own then ins else d :: ins))

/-- A destination row updated by the value rows of one index: every column up to the 64 lanes a row has takes the operation; a column beyond them
takes a value the spec does not state (log entry 29). -/
def SaccCmd.updateRow (m : SaccCmd) (k : Core) (off : Nat) (vs : List Row) (fresh : Nat) : List W8 × Status :=
  let cells := (List.range (hCols m.record)).map fun j =>
    let d : W32 := BitVec.ofNat 32 (leNat (k.viewBuf true (off + 4 * j) 4))
    m.column (d == qnan && m.made.contains (off + 4 * j)) d
      (if j < 64 then vs.map fun v => v.lane j else [BitVec.ofNat 32 (Config.freeNat (fresh + j))])
  (cells.flatMap fun c => leBytes 4 c.1.toNat, cells.foldl (fun t c => t ||| c.2) 0)

/-- The command, with the elements noted that an update has made a NaN (R143). -/
def SaccCmd.noteMade (m : SaccCmd) (off : Nat) (bytes : List W8) : SaccCmd :=
  { m with made := m.made ++ (((entriesOf bytes).zipIdx.filter fun e => e.1 == qnan).map fun e => off + 4 * e.2) }

/-- A row written by the beats of its space, each a write access (R182). -/
def Core.writeRow (k : Core) (off : Nat) (bs : List W8) : Core :=
  (cutBeats off bs).foldl (fun k b => k.writeBuf true b.1 b.2) k

/-- Status of an update that lands in this cycle: a CSRR of VSTAT that issues in the cycle sees it too (R123, R199). -/
def Core.landStatus (k : Core) (now : Nat) (st : Status) : Core :=
  let reads (a : Act) : Bool := a.issued == now && a.by_ == .cm &&
    (match ((k.seq .cm).wordAt a.pc).map fun f => decodeWords f.word 0 with
     | some (.ok (.csrr _ _ c)) => c == 0x13
     | _ => false)
  let see (a : Act) : Act :=
    match a.pay with
    | .reg q r v tc => if reads a then { a with pay := .reg q r (v ||| st.setWidth 64) tc } else a
    | _ => a
  { (k.addStatus st) with acts := k.acts.map see }

/-- The value rows of the pairs with one index, in pair order (R199). -/
def rowsFor (ps : List (W32 × Row)) (r : W32) : List Row := (ps.filter fun p => p.1 == r).map Prod.snd

/-- What the pops of the current window's pairs of one index flushed (R116, R153, R199). -/
def SaccCmd.popStatus (m : SaccCmd) (ps : List (W32 × Row)) (r : W32) : Status :=
  (ps.zip (m.popSt.drop m.applied)).foldl (fun t e => if e.1.1 == r then t ||| e.2 else t) 0

/-- The command with the next window opened: its distinct indices in order of first appearance, −1 left out; or past the window. -/
def SaccCmd.openWindow (m : SaccCmd) (ps : List (W32 × Row)) : SaccCmd :=
  { m with todo := ((ps.map Prod.fst).eraseDups).filter fun r => r != 0xFFFFFFFF }

/-- SACC_UPDATE: the next row update of the running SACC, one indivisible read-modify-write in a free bank cycle; or its end (R199). -/
def execSaccUpdate (core : Nat) (s : State) : Host.Outcome State Fault Refusal :=
  let k := s.core core
  match k.sacc with
  | [] => .refused .eventNotEnabled
  | m :: rest =>
    if m.start.isNone || decide (s.now < m.due) then .refused .eventNotEnabled else
    if m.applied = m.count then .next (s.setCore core { k with sacc := rest }) else
    match m.pairsNow with
    | none => .refused .eventNotEnabled
    | some ps =>
      let n := ps.length
      let m := if m.todo.isEmpty then m.openWindow ps else m
      let (due, s) := s.drawDue
      match m.todo with
      | [] =>
        let st := m.popStatus ps 0xFFFFFFFF
        let m := { m with applied := m.applied + n, due := s.now }
        .next (s.setCore core { (k.landStatus s.now st) with sacc := m :: rest })
      | r :: more =>
        if r.getLsbD 31 || decide (hRows m.record ≤ r.toNat) then
          let m := { m with due := s.now + 1 }
          .next ((s.setCore core { k with sacc := m :: rest }).raise core (commandFault m.pc m.issued cIndexRange (w64 m.hd)))
        else
          let off := hBase m.record + r.toNat * hStride m.record
          if !k.banksFree s.now true (banksOf off (4 * hCols m.record)) then
            .next (s.setCore core { k with sacc := { m with due := s.now + 1 } :: rest })
          else
            let (bytes, sd) := m.updateRow k off (rowsFor ps r) s.fresh
            let st := m.popStatus ps r ||| if more.isEmpty then m.popStatus ps 0xFFFFFFFF else 0
            let s := { s with fresh := s.fresh + hCols m.record }
            let m := { (m.noteMade off bytes) with todo := more, due := due, applied := if more.isEmpty then m.applied + n else m.applied }
            .next (s.setCore core { (((k.claimFree s.now true (banksOf off (4 * hCols m.record))).writeRow off bytes).landStatus s.now (st ||| sd)) with sacc := m :: rest })

/-- ENGINE_COMMAND_START's scatter unit and the end of a window share this: whether the running SACC has a row update to make now. -/
def Core.saccReady (k : Core) (now : Nat) : Bool :=
  match k.sacc with
  | [] => false
  | m :: _ => m.start.isSome && decide (m.due ≤ now) && (m.applied == m.count || m.pairsNow.isSome)

end Sys2Proof.Machine
end

