-- ==== Sys2Proof/Machine/System.lean ====
section
/-! DEFINITION. The SYS group but MSEL, IDLE and RGN: NOP (R399), TRAP, ERET, BRK (R279, R358, R375, R425), the fences (R214, R215, R376,
R377, R445), STEP (R63, R420), REALIGN (R410), RCMT (R50, R409), TAIL (R66, R422), IDLE (R379) and RGN (R41, R412). -/

namespace Sys2Proof.Machine

/-- NOP: only its SYNC bits act (R399). -/
def execNop (h : Hdr) (s : State) : Host.Outcome State Fault Refusal :=
  issue h {} (fun x s => x.go s 1) s

/-- IDLE: the next word issues n cycles later (R379). -/
def execIdle (h : Hdr) (n : BitVec 14) (s : State) : Host.Outcome State Fault Refusal :=
  issue h {} (fun x s => .ok s (some 1) x.next n.toNat) s

/-! ### Traps and returns -/

/-- TRAP: TRAP_INSN with sa (R425). -/
def execTrap (h : Hdr) (a : BitVec 5) (s : State) : Host.Outcome State Fault Refusal :=
  issue h { seqs := [.ct], uses := [a] } (fun x _ => .trap cTrapInsn (x.reg a)) s

/-- BRK: BREAK (R358). -/
def execBrk (h : Hdr) (s : State) : Host.Outcome State Fault Refusal :=
  issue h {} (fun _ _ => .trap cBreak 0) s

/-- ERET outside handler mode is ILLEGAL_OP, and its SYNC bits are ignored (R375). -/
def eretGate (uses : List (BitVec 5)) (x : Ctx) : Gate :=
  { seqs := [.ct], illegalOp := x.k.place x.q != .handler, uses := uses }

/-- ERET: every sequencer released at its restart point (R279, R375). -/
def execEret (_h : Hdr) (s : State) : Host.Outcome State Fault Refusal :=
  issueAt Hdr.none (eretGate [])
    (fun x s =>
      let s := s.returnToRestart x.c
      .ok s none ((s.core x.c).seq .ct).pc 0) s

/-- ERET sa: CT goes on in a gap at sa (R279, R375). -/
def execEretSa (_h : Hdr) (a : BitVec 5) (s : State) : Host.Outcome State Fault Refusal :=
  issueAt Hdr.none (eretGate [a])
    (fun x s =>
      let t := x.reg a
      if t.toNat % 4 != 0 then .trap cAlign t else .ok (s.returnTo x.c t.toNat) none t.toNat 0) s

/-! ### Fences -/

/-- The fence record of a region after one more FENCE.REL or FENCE.FULL (R216): the widest scope, and whether one was a FULL. -/
def joinFence (old : Option (Nat × Bool)) (scope : Nat) (full : Bool) : Option (Nat × Bool) :=
  match old with
  | none => some (scope, full)
  | some (s, f) => some (Max.max s scope, f || full)

/-- A FENCE of a kind (0 FULL, 1 ACQ, 2 REL) at a scope; scopes 101 to 111 are ILLEGAL_OP (R82). In a timed region it completes at issue + 1, and a FULL discards the words fetched
outside its sequencer's windows (R225, R357, log entry 85); elsewhere its sequencer waits until R214 is met, and its signals come then (R215, R376, R377). -/
def fenceWord (h : Hdr) (kind : Nat) (scope : BitVec 3) (s : State) : Host.Outcome State Fault Refusal :=
  issue h { illegalOp := 4 < scope.toNat }
    (fun x s =>
      let timed := x.k.place x.q == .timed
      let keep := x.k.windows x.q
      let s := s.modCore x.c fun k => k.modSeq x.q fun y =>
        { (if timed && kind == 0 then y.keepWords keep.contains else y) with
          fenced := if kind = 1 then y.fenced else joinFence y.fenced scope.toNat (kind == 0)
          lastHeld := if kind = 1 then y.lastHeld else none
          st := if timed then y.st else .atFence scope.toNat kind (s.now + 1) h.sp h.sn }
      .ok s (if timed then some 1 else none) x.next 0) s

/-- FENCE.FULL -/
def execFenceFull (h : Hdr) (sc : BitVec 3) (s : State) : Host.Outcome State Fault Refusal := fenceWord h 0 sc s

/-- FENCE.ACQ -/
def execFenceAcq (h : Hdr) (sc : BitVec 3) (s : State) : Host.Outcome State Fault Refusal := fenceWord h 1 sc s

/-- FENCE.REL -/
def execFenceRel (h : Hdr) (sc : BitVec 3) (s : State) : Host.Outcome State Fault Refusal := fenceWord h 2 sc s

/-- XFENCE: CM only, in a region; it holds back no later word and completes when every push of an earlier CM word has landed (R220). -/
def execXfence (h : Hdr) (s : State) : Host.Outcome State Fault Refusal :=
  issue h (Gate.regionOnly [.cm])
    (fun x s => .ok (s.addAct x.c (s.now + 1) s.now x.q x.x.pc (.xfenceDone h.sp h.sn)) none x.next 0) s

/-! ### Barriers, regions and the end of a task -/

/-- The gate of a word that only a gap may hold (R58, R59, R392). -/
def Gate.gapOnly : Gate := { region := false, handler := false }

/-- The scope at which STEP orders accesses at a level (R61): 0 CORE, 1 CLUSTER, 2 DIE, 3 DEVICE. -/
def stepScope (level : Nat) : Nat := [0, 1, 1, 1, 2].getD level 3

/-- STEP: the sequencer arrives at the barrier of its level and waits (R63, R64, R420). Its arrival releases its accesses at the scope of the level: it
issues once they are performed there (R61, R64, log entry 19). -/
def execStep (h : Hdr) (l : BitVec 5) (s : State) : Host.Outcome State Fault Refusal :=
  issue h { Gate.gapOnly with illegalOp := 5 < l.toNat }
    (fun x s =>
      if !s.releaseMet x.c x.q s.now (stepScope l.toNat) (x.acquired h) then .hold s else
      let s := s.modCore x.c fun k => k.modSeq x.q fun y =>
        { y with st := .atStep l.toNat, rgnSp := h.sp, rgnSn := h.sn }
      .ok s none x.next 0) s

/-- REALIGN: the count recorded for the closing alignment (R231, R410). -/
def execRealign (h : Hdr) (a : BitVec 5) (s : State) : Host.Outcome State Fault Refusal :=
  issue h { Gate.regionOnly [.ct] with uses := [a] }
    (fun x s => x.go (s.modCore x.c fun k => { k with realign := some (x.reg a) }) 1) s

/-- RCMT: the sequencer arrives at the closing alignment; CT's operands bind (R50, R52, R409). -/
def execRcmt (h : Hdr) (a b : BitVec 5) (s : State) : Host.Outcome State Fault Refusal :=
  issueAt h (fun x => { Gate.regionOnly allSeqs with uses := if x.q = .ct then [a, b] else [] })
    (fun x s =>
      let s := s.modCore x.c fun k =>
        let k := k.modSeq x.q fun y => { y with st := .atRcmt, rgnSp := h.sp, rgnSn := h.sn }
        if x.q = .ct then { k with rcmtA := x.reg a, rcmtB := x.reg b } else k
      .ok s none x.next 0) s

/-- RGN in either mode: the sequencer arrives; CT's budget, stamp and live-in mask are read (R41 to R43, R412). -/
def rgnWord (h : Hdr) (b st m : BitVec 5) (timed : Bool) (s : State) : Host.Outcome State Fault Refusal :=
  issueAt h (fun x => { Gate.gapOnly with uses := if x.q = .ct then [b, st, m] else [] })
    (fun x s =>
      let s := s.modCore x.c fun k =>
        let k := k.modSeq x.q fun y =>
          { y with st := .atRgn, reentered := false, rgnTimed := timed, rgnSp := h.sp, rgnSn := h.sn }
        let k := if x.q = .ct then
            { k with budget := bits (x.reg b).toNat 31 0, stamp := x.reg st, liveIn := x.reg m, rgnAddr := x.x.pc } else k
        { k with phase := .align, alignFrom := s.now + 1 }
      .ok s none x.next 0) s

/-- RGN.T: a timed region. -/
def execRgnT (h : Hdr) (b st m : BitVec 5) (s : State) : Host.Outcome State Fault Refusal := rgnWord h b st m true s

/-- RGN: a tokened region. -/
def execRgn (h : Hdr) (b st m : BitVec 5) (s : State) : Host.Outcome State Fault Refusal := rgnWord h b st m false s

/-- The core after its fourth TAIL (R60, R66 to R68): the entry is closed, the core is free. Its pushes drain by the time the entry frees (R206). -/
def Core.retire (k : Core) (t : Nat) : Core :=
  { (k.closeEntry t) with
    task := none, phase := .idle, preempt := none }

/-- TAIL: the sequencer leaves the task; the first TAIL of a core takes a tracker entry, and waits in place while all 16 are in use; the
fourth frees the core (R66 to R68, R422). Its SYNC bits are ignored. -/
def execTail (_h : Hdr) (s : State) : Host.Outcome State Fault Refusal :=
  issue Hdr.none Gate.gapOnly
    (fun x s =>
      let t := x.k.task.getD 0
      let has := x.k.tracker.any fun e => e.task == t
      if !has && decide (16 ≤ x.k.tracker.length) then .hold s else
      let s := s.modCore x.c fun k =>
        let k := if has then k else { k with tracker := k.tracker ++ [{ task := t, closed := false }] }
        let k := k.modSeq x.q fun y => { y with st := .off, pend := [], fetched := [], fetching := [], link := none }
        let k := { k with snaps := k.snaps.modify (seqIdx x.q) fun y => { y with off := true } }
        if k.seqs.all (fun y => y.st == .off) then k.retire t else k
      .ok s none x.next 0) s

end Sys2Proof.Machine
end

