-- ==== Sys2Proof/Machine/Landing.lean ====
section
/-! DEFINITION. What lands or is read at a fixed cycle after its word (RESULT_LANDS, R36, R122 to R125), the invalidations of a core (TLBI_CASEMENT,
TLBI_PAGE, R289), the starts of engine commands (ENGINE_COMMAND_START, R159), and the drain of pushed rows (PORT_DRAIN, R206). -/

namespace Sys2Proof.Machine

/-! ### Landings -/

/-- A value of `size` bytes as a load delivers it (R383). -/
def extendLoad (size : Nat) (sext : Bool) (bs : List W8) : W64 :=
  if sext then BitVec.ofInt 64 (toSigned (8 * size) (leNat bs)) else w64 (leNat bs)

/-- A scalar register landed (R122, R123); the value of TCAUSE ends the cause-unread state (R277). -/
def Core.landReg (k : Core) (q : SeqId) (r : Nat) (v : W64) (tc : Bool) : Core :=
  let k := k.modSeq q fun x => x.setReg r v
  if tc then { k with causeUnread := false } else k

/-- A scalar load's bank access, two cycles before its value lands (R122, R383 to R385). -/
def State.loadBank (s : State) (c : Nat) (a : Act) (q : SeqId) (r : Nat) (isA : Bool) (off size : Nat) (sext aq sp sn : Bool) :
    State :=
  match s.actRead c a isA off size with
  | .error s => s
  | .ok (s, bs) =>
    let s := s.modCore c fun k => k.dropAct a.id
    let due := s.now + 3
    let s := s.addAct c due a.issued a.by_ a.pc (.reg q r (extendLoad size sext bs) false)
    let s := if sp || sn then s.addAct c due a.issued a.by_ a.pc (.signal q sp sn) else s
    let s := if aq then s.addAct c due a.issued a.by_ a.pc (.acquired q) else s
    (s.noteBuffer c q c).addAct c due a.issued a.by_ a.pc (.loaded q)

/-- A scalar store's bank access, at which it lands (R122, R417). -/
def State.storeBank (s : State) (c : Nat) (a : Act) (q : SeqId) (isA : Bool) (off : Nat) (bytes : List W8) (sp sn : Bool) :
    State :=
  match s.actRead c a isA off bytes.length with
  | .error s => s
  | .ok (s, _) => s.modCore c fun k => ((k.dropAct a.id).writeBuf isA off bytes).giveSignals q s.now sp sn

/-- PCFG's read, with the checks made on it (R114, R405). -/
def State.paramRead (s : State) (c : Nat) (a : Act) (port sa : Nat) : State :=
  match s.actRead c a true sa 64 with
  | .error s => s
  | .ok (s, bs) =>
    let s := s.modCore c fun k => k.dropAct a.id
    match pFault port (recordOf bs) with
    | some code => s.raise c (a.fault code (w64 sa))
    | none => s.addAct c (s.now + 3) a.issued a.by_ a.pc (.portLand port (recordOf bs))

/-- SHLD's read, with the checks made on it (R121, R415). -/
def State.shapeRead (s : State) (c : Nat) (a : Act) (n sa : Nat) : State :=
  match s.actRead c a true sa 64 with
  | .error s => s
  | .ok (s, bs) =>
    let s := s.modCore c fun k => k.dropAct a.id
    if hMismatch (recordOf bs) then s.raise c (a.fault cShapeMismatch (w64 sa))
    else s.addAct c (s.now + 3) a.issued a.by_ a.pc (.shapeLand n (recordOf bs))

/-- The 16 entries of a codebook (R178). -/
def codebookOf (bs : List W8) : List W16 := (List.range 16).map fun j => BitVec.ofNat 16 (leNat ((bs.drop (2 * j)).take 2))

/-- CBLD's read (R178, R360). -/
def State.codebookRead (s : State) (c : Nat) (a : Act) (sa : Nat) : State :=
  match s.actRead c a false sa 32 with
  | .error s => s
  | .ok (s, bs) =>
    (s.modCore c fun k => k.dropAct a.id).addAct c (s.now + 3) a.issued a.by_ a.pc (.codebookLand (codebookOf bs))

/-- A row's landing at a write port: the push, its status, and its drain to come (R117, R118, R153, R206). -/
def State.landPush (s : State) (c : Nat) (a : Act) (port : Nat) (lanes : W64) (vals : Row) (st : Status) : State :=
  let k := s.core c
  let (id, s1) := s.newId
  let (due, s1) := s1.drawDue
  match k.pushOne s.now port a.issued a.by_ k.flushing lanes vals id (due - 1) with
  | .wait => s.setCore c (k.putOff a s.now)
  | .fault code ta => (s.setCore c (k.dropAct a.id)).raise c (a.fault code ta)
  | .got (k, cst) => s1.setCore c ((k.dropAct a.id).addStatus (st ||| cst))

/-- A row of compare bits landed: the enabled lanes of the mask take them (R437). -/
def Core.landMask (k : Core) (m : Nat) (lanes bits_ : W64) : Core :=
  { k with masks := putAt k.masks 0 m ((k.masks.getD m 0 &&& ~~~lanes) ||| (bits_ &&& lanes)) }

/-- Whether a push of a CM word that issued before a cycle is still to land (R220). -/
def Core.pushBefore (k : Core) (cycle : Nat) : Bool :=
  k.acts.any fun a => decide (a.issued < cycle) &&
    match a.pay with
    | .pushRow _ _ _ _ => true
    | .rowRead job _ =>
      (match job.fn with
       | .ext _ => false
       | _ => decide (20 ≤ job.d) && decide (job.d < 24))
    | _ => false

/-- What an act does when its cycle has come. An access of a bank that is taken puts it off (R124). -/
def State.perform (s : State) (c : Nat) (a : Act) : State :=
  let drop : State := s.modCore c fun k => k.dropAct a.id
  let on (f : Core → Core) : State := s.modCore c fun k => f (k.dropAct a.id)
  match a.pay with
  | .reg q r v tc => on fun k => k.landReg q r v tc
  | .signal q sp sn => on fun k => k.giveSignals q s.now sp sn
  | .csr n v => on fun k => k.csrWrite n v
  | .loadBank q r isA off size sext aq sp sn => s.loadBank c a q r isA off size sext aq sp sn
  | .acquired q => on fun k => k.modSeq q fun x =>
      match x.st with
      | .atAcquire _ => { x with st := .run, base := s.now + 1 }
      | _ => x
  | .loaded _ => drop
  | .storeBank q isA off bytes sp sn => s.storeBank c a q isA off bytes sp sn
  | .hold kind => drop.takeEntry c a kind
  | .rowRead job i => s.readRow c a job i
  | .tileRow tile row lanes vals => on fun k => k.setTileRow tile row lanes vals
  | .status st => on fun k => k.addStatus st
  | .pushRow port lanes vals st => s.landPush c a port lanes vals st
  | .maskRow m lanes bs st => on fun k => (k.landMask m lanes bs).addStatus st
  | .paramRead port sa => s.paramRead c a port sa
  | .portLand port p => on fun k =>
      { k with ports := putAt k.ports Port.none port { (k.ports.getD port Port.none) with set := some p, idx := [0, 0, 0, 0] } }
  | .rewindLand port => on fun k =>
      { k with ports := putAt k.ports Port.none port { (k.ports.getD port Port.none) with idx := [0, 0, 0, 0] } }
  | .shapeRead n sa => s.shapeRead c a n sa
  | .shapeLand n r => on fun k => { k with shapes := putAt k.shapes 0 n r }
  | .codebookRead sa => s.codebookRead c a sa
  | .codebookLand cb => on fun k => { k with codebook := cb }
  | .armLand off target => on fun k => k.armLand off target
  | .arriveLand off count => on fun k => k.arriveLand off count
  | .grantRead ch slot sb => s.grantRead c a ch slot sb
  | .sendRead ch slot sb => s.sendRead c a ch slot sb
  | .emitRead _ session sb => s.emitRead c a session sb
  | .recordRead queue sb => s.recordRead c a queue sb
  | .recordRest entry sb => s.recordRest c a entry sb
  | .xfenceDone sp sn =>
    if (s.core c).pushBefore a.issued then s.modCore c fun k => k.delayAct a.id (s.now + 1)
    else on fun k => (k.drainMust fun p => decide (p.issued < a.issued)).giveSignals a.by_ s.now sp sn
  | .saccPop cmd ix vl i gotX gotV => s.saccPop c a cmd ix vl i gotX gotV
  | .tbuildRow i => s.tbuildRow c a i
  | .spillBeat i => s.spillBeat c a i
  | .fillBeat i => s.fillBeat c a i
  | .epiBeat => s.epiBeat c a
  | .biasBeat off n => s.biasBeat c a off n
  | .command q code index => drop.modQueue q fun y => { y with cmds := y.cmds ++ [(code, index)] }

/-- RESULT_LANDS (R122). -/
def execResultLands (core id : Nat) (s : State) : Host.Outcome State Fault Refusal :=
  match (s.core core).acts.find? fun a => a.id == id with
  | none => .refused .eventNotEnabled
  | some a =>
    if s.now < a.due || a.isTlbi then .refused .eventNotEnabled
    else .next ((s.perform core a).modCore core fun k => k.blame (s.core core).overflowed.length a.pc)

/-! ### TLBI (R289) -/

/-- The value of a TLBI that is due on a core, with its act. -/
def State.tlbiDue (s : State) (c : Nat) : Option (Act × Nat) :=
  match (s.core c).acts.find? fun a => a.isTlbi && decide (a.due ≤ s.now) with
  | none => none
  | some a =>
    match a.pay with
    | .csr _ v => some (a, v.toNat)
    | _ => none

/-- The cores of the instance of a scope that holds a core (R61): 0 the core, 1 its cluster, 2 its die, 3 every core. -/
def inScope (scope core other : Nat) : Bool :=
  match scope with
  | 0 => other == core
  | 1 => clusterOf other == clusterOf core
  | 2 => dieOf other == dieOf core
  | _ => true

/-- Kept translations dropped from the L1 TLBs of the cores of a scope's instance, and from their dies' caches (R289). -/
def State.dropTranslations (s : State) (core scope : Nat) (gone : TlbEntry → Bool) : State :=
  { s with
    cores := s.cores.map fun (n, k) => if inScope scope core n then (n, { k with tlb := k.tlb.filter fun e => !gone e }) else (n, k)
    dies := s.dies.zipIdx.map fun (d, i) =>
      if 3 ≤ scope || i == dieOf core then { d with cache := d.cache.filter fun e => !gone e } else d }

/-- Whether a kept translation of virtual addresses covers the page of one. -/
def TlbEntry.covers (e : TlbEntry) (va : Nat) : Bool := !e.stage2 && decide (e.va ≤ va) && decide (va < e.va + e.size)

/-- A TLBI of a kind performed. -/
def State.tlbi (s : State) (core kind : Nat) : Host.Outcome State Fault Refusal :=
  match s.tlbiDue core with
  | none => .refused .eventNotEnabled
  | some (a, v) =>
    if bits v 3 0 != kind then .refused .eventNotEnabled else
    let k := s.casementOf core
    let va := bits v 47 12 * 4096
    let s := s.dropTranslations core (bits v 6 4) fun e => e.casement == k && (kind == 0 || e.covers va)
    .next (s.modCore core fun k => k.dropAct a.id)

/-- TLBI_CASEMENT: KIND 0, every entry of the executing casement in the scope (R289). -/
def execTlbiCasement (core : Nat) (s : State) : Host.Outcome State Fault Refusal := s.tlbi core 0

/-- TLBI_PAGE: KIND 1, the entries that cover the address (R289). -/
def execTlbiPage (core : Nat) (s : State) : Host.Outcome State Fault Refusal := s.tlbi core 1

/-! ### Starts and drains -/

/-- The start of the oldest waiting command of an engine, where it can start in this cycle (R159). -/
def State.startEngine (s : State) (core : Nat) (u : EngineUnit) : Option State :=
  match u with
  | .matrix => s.startMatrix core
  | .lookup => s.startLookup core
  | .epilogue => s.startEpi core
  | .scatter => s.startSacc core

/-- ENGINE_COMMAND_START (R159). -/
def execEngineCommandStart (core : Nat) (u : EngineUnit) (s : State) : Host.Outcome State Fault Refusal :=
  match s.startEngine core u with
  | none => .refused .eventNotEnabled
  | some s => .next s

/-- The pieces that a copy has read of a core's A-space, and whether it has more of it to read. -/
def Copy.readFrom (cp : Copy) (c : Nat) : List (Nat × Nat) × Bool :=
  let mine (e : CopyEnd × Nat) : Option (Nat × Nat) :=
    match e.1 with
    | .buf d isA off => if d = c && isA then some (off, e.2) else none
    | .mem _ _ => none
  ((cp.beats.flatMap fun b => (b.srcs.take b.read).filterMap mine) ++ (cp.past.filterMap mine),
    cp.beats.any fun b => (b.srcs.drop b.read).any fun e => (mine e).isSome)

/-- Whether a write port's next drain would show a copy under way a row new after an earlier row of the port old, which no drain does (R206, R218, R456). -/
def State.drainHeld (s : State) (c port : Nat) : Bool :=
  let rows := (s.core c).pushes.filter fun p => p.port == port
  s.cores.any fun e => e.2.copies.any fun cp =>
    let r := cp.readFrom c
    r.2 && rows.any fun p => p.offs.any fun o => r.1.any fun x => decide (x.1 ≤ o) && decide (o < x.1 + x.2)

/-- PORT_DRAIN: the oldest pushed row of a write port drains (R206). -/
def execPortDrain (core port : Nat) (s : State) : Host.Outcome State Fault Refusal :=
  match (s.core core).pushes.find? fun (p : Push) => p.port == port with
  | none => .refused .eventNotEnabled
  | some p => if s.now < p.due || s.drainHeld core port then .refused .eventNotEnabled else .next (s.modCore core fun k => k.drainPush port)

end Sys2Proof.Machine
end

