-- ==== Sys2Proof/Machine/Launch.lean ====
section
/-! DEFINITION. Launching, resuming and choosing victims (R32, R33, R62, R226, R257, R261 to R263), and the decision of the dispatch unit
(DISPATCH_DECISION, R260). -/

namespace Sys2Proof.Machine

/-! ### Launch (R32, R33, R62, R226) -/

/-- The number of a group's cores that satisfy a condition. -/
def countCores (cores : List Nat) (p : Nat → Bool) : Nat := (cores.filter p).length

/-- The membership record of a core of a group (R62). -/
def membership (cores : List Nat) (rank c : Nat) : W64 :=
  let quad (x : Nat) : Bool := clusterOf x == clusterOf c && localOf x / 4 == localOf c / 4
  let spn (x : Nat) : Bool := clusterOf x == clusterOf c && localOf x / 16 == localOf c / 16
  w64 (cores.length * 2 ^ 52 + countCores cores (fun x => dieOf x == dieOf c) * 2 ^ 42 +
    countCores cores (fun x => clusterOf x == clusterOf c) * 2 ^ 34 + countCores cores spn * 2 ^ 29 + countCores cores quad * 2 ^ 26 +
    rank * 2 ^ 14)

/-- A sequencer at launch (R33): at its entry point, the argument word in s1. -/
def Seq.launched (entry arg start : Nat) : Seq :=
  { Seq.idle with regs := (List.replicate 32 0).set 1 (w64 arg), pc := entry, st := .run, base := start, gapStart := entry }

/-- A core at launch (R33): everything at its value there, but for what outlives a task on a core: its tracker, TLB, block counters, epoch,
taint and error count, and work of earlier tasks that has left the sequencers. -/
def Core.launch (old : Core) (t : Task) (entries : List Nat) (cores : List Nat) (rank c start now : Nat) : Core :=
  let k : Core :=
    { Core.idle with
      task := some t.id, rank := rank, phase := .gap, domm := membership cores rank c
      seqs := (List.range 4).map fun i => Seq.launched (entries.getD i 0) (t.field 32 8) start
      epoch := (old.epoch + 1) % 65536, softCount := old.softCount, tracker := old.tracker, tlb := old.tlb
      blocks := old.blocks, taint := some t.casement, acts := old.acts.filter Act.outlives, held := old.held, copies := old.copies, epi := (old.keepBanks now).epi }
  k.snapGap

/-- A slot of a send end at launch (R234). -/
def Slot.fresh : Slot := { granted := false, reserved := false, nseq := 0, off := 0, len := 0, darv := 0 }

/-- The channel ends that a table binds (R226). -/
def Task.channelEnds (t : Task) : List ChanEnd :=
  (t.chtab.zipIdx).filterMap fun (e, i) =>
    if chValid e then
      some { task := t.id, rank := i / 8, ch := i % 8, receive := chReceive e, nslot := chSlots e, peerRank := chPeer e
             peerCh := chPeerCh e, slots := List.replicate (chSlots e + 1) Slot.fresh, gerr := false, offered := [], free := 0 }
    else none

/-- A start cycle for each core of a list, none at a fixed distance (R32). -/
def State.drawStarts (s : State) (n : Nat) : State × List Nat :=
  (List.range n).foldl (fun (acc : State × List Nat) _ =>
    let (d, s) := acc.1.drawDue
    (s, acc.2 ++ [d])) (s, [])

/-- The least of some start cycles. -/
def firstStart (starts : List Nat) : Nat := (leastBy id starts).getD 0

/-- The units that an action-class task's admission has reserved brought to the dies of its group, so that it never waits for them; those of a die lost since
then come from the hinge die's pool (R25, R345, R346, log entry 43). -/
def State.bringUnits (s : State) (t : Task) (cores : List Nat) : State :=
  if t.klass != 0 then s else
  let gone := ((t.units.filter fun e => !(s.die e.1).live).map Prod.snd).sum
  let short := gone - s.pool
  let s := { s with pool := s.pool - gone }
  let s := t.units.foldl (fun s e => s.modDie e.1 fun d => { d with units := d.units - e.2, reserved := d.reserved - e.2 }) s
  ((groupUnits cores).foldl (fun (acc : State × Nat) e =>
    (acc.1.modDie e.1 fun d => { d with units := d.units + (e.2 - acc.2), reserved := d.reserved + e.2 }, acc.2 - e.2)) (s, short)).1

/-- A task launched on a group (R32, R33). The launch acquires what its submitter released (R221). -/
def State.launch (s : State) (t : Task) (cores : List Nat) : State :=
  let level := s.streamLevel t
  let entries := t.ladder.getD level []
  let s := s.bringUnits t cores
  let (s, starts) := s.drawStarts cores.length
  let s := cores.zipIdx.foldl (fun (s : State) (c, i) =>
    let s := s.catchUp (dieOf c) (s.die 8).vc
    s.modCore c fun k => k.launch t entries cores i c (starts.getD i 0) s.now) s
  let s := { s with chanEnds := s.chanEnds ++ t.channelEnds }
  s.modTask t.id fun x =>
    { x with
      st := .running, level := level, cores := cores, shadow := if t.mirr then cores.map partnerCore else []
      budget := (entries.getD 4 0), counting := true, launched := true, readyAt := firstStart starts, holds := [], units := [] }

/-! ### Resume (R263) -/

/-- Pages of a casement's space translated and reached one after another. -/
def State.pagesOf (s : State) (k : Nat) : List Nat → Dev (List (Nat × Nat))
  | [] => .ok s []
  | va :: rest =>
    (s.devReach k va 4096 .load).bind fun s e => (State.pagesOf s k rest).bind fun s l => .ok s ((e.paOf va, e.key) :: l)

/-- A byte of a block by its pages. -/
def State.blockByte (s : State) (pages : List (Nat × Nat)) (off : Nat) : W8 :=
  match pages[off / 4096]? with
  | some (pa, key) => s.readByte (some 8) key (pa + off % 4096)
  | none => 0

/-- The length of the block that a header begins (R263). -/
def blockLength (get : Nat → W8) : Nat :=
  blockSize (getLE get 2 2) (bit (get 4).toNat 0) ((blockMap get 32 0x100).getD [])

/-- The pages of a saved core's block: its first two, then as many as its header says. -/
def State.blockPages (s : State) (t : Task) (rank : Nat) : Dev (List (Nat × Nat)) :=
  let va := t.saveVa + rank * 0x62000
  (s.pagesOf t.casement [va, va + 4096]).bind fun s h =>
    let n := ceilDiv (blockLength (s.blockByte h)) 4096
    (s.pagesOf t.casement ((span 2 (n - 2)).map fun i => va + 4096 * i)).bind fun s rest => .ok s (h ++ rest)

/-- The blocks' pages of every saved core. -/
def State.allBlocks (s : State) (t : Task) : List SavedCore → Dev (List (SavedCore × List (Nat × Nat)))
  | [] => .ok s []
  | x :: rest => (s.blockPages t x.rank).bind fun s p => (State.allBlocks s t rest).bind fun s l => .ok s ((x, p) :: l)

/-- A saved task resumed on its own cores (R30, R263); after a cancelled save, those of its cores that had been saved (R264). While some page of its blocks
cannot be read it waits; memory that fails its reading ends it (R315, R316, R336). -/
def State.resume (s : State) (t : Task) : State :=
  match s.allBlocks t t.savedCores with
  | .fault s _ => s
  | .wait s => s
  | .check s => (s.faultPolicy t.id cMachineCheck true).1
  | .ok s blocks =>
    let (s, starts) := s.drawStarts blocks.length
    let s := blocks.zipIdx.foldl (fun (s : State) (b, i) =>
      let c := t.cores.getD b.1.rank 0
      let s := s.catchUp (dieOf c) (s.die 8).vc
      let get := s.blockByte b.2
      s.modCore c fun old =>
        { (Core.fromBlock get old b.1 (starts.getD i 0 - 1)) with
          task := some t.id, rank := b.1.rank, domm := membership t.cores b.1.rank c, epoch := (old.epoch + 1) % 65536
          taint := some t.casement }) s
    let alone := !t.cores.any fun c => (s.core c).task == some t.id && !(blocks.any fun b => t.cores.getD b.1.rank 0 == c)
    s.modTask t.id fun x =>
      { x with st := .running, savedCores := [], counting := true, readyAt := if alone then firstStart starts else x.readyAt, holds := [] }

/-! ### Pre-emption (R261, R262) -/

/-- The bound of a pre-empting class, in cycles (R262). -/
def preemptBound (klass : Nat) : Nat := [25000, 250000, 2500000].getD klass 2500000

/-- Whether a task may be chosen as a victim of another: it runs, its deadline is later, nothing pre-empts it yet, its casement's save area is not in
error (R261, R264). -/
def State.mayPreempt (s : State) (t v : Task) : Bool :=
  v.st == .running && decide (t.deadline < v.deadline) && !(s.casement v.casement).saveErr &&
  !v.cores.any fun c => (s.core c).task == some v.id && ((s.core c).preempt.isSome || (s.core c).phase == .saving)

/-- The victims: latest deadline first, as many as it takes; none where no set suffices (R261). -/
def State.victims (s : State) (t : Task) : List Task → List Task → Option (List Task)
  | _, [] => none
  | chosen, v :: rest =>
    let chosen := v :: chosen
    if (s.placeAny t (chosen.map Task.id)).isSome then some chosen else State.victims s t chosen rest

/-- The request sent to a victim's cores (R262); it arrives at no fixed cycle. -/
def State.sendPreempt (s : State) (v : Task) (bound : Nat) : State :=
  let (due, s) := s.drawDue
  v.cores.foldl (fun s c =>
    if (s.core c).task == some v.id then s.modCore c fun k => { k with preempt := some { at_ := due, bound := bound, mask := none } } else s) s

/-- Pre-emptions started for a task that cannot be placed, if some set of running tasks suffices; the cores they free are held for it. -/
def State.preemptFor (s : State) (t : Task) : State :=
  if !t.holds.isEmpty then s else
  match s.victims t [] (byDeadline (s.tasks.filter (s.mayPreempt t))).reverse with
  | none => s
  | some vs =>
    let s := vs.foldl (fun s v => s.sendPreempt v (preemptBound t.klass)) s
    s.modTask t.id fun x => { x with holds := vs.flatMap fun v => v.cores.filter fun c => (s.core c).task == some v.id }

/-- Whether a core held for a task is still on its way to it: free, or about to be. -/
def State.stillHeld (s : State) (c : Nat) : Bool :=
  let k := s.core c
  k.task.isNone || k.preempt.isSome || k.phase == .saving

/-- Holdings lost with a cancelled save are given up (R264). -/
def State.checkHolds (s : State) : State :=
  { s with tasks := s.tasks.map fun t => if t.holds.all s.stillHeld then t else { t with holds := [] } }

/-! ### The decision (R260) -/

/-- Both roots that bind have EN: only then may a task of the casement run (R287). -/
def Casement.enabled (x : Casement) : Bool := x.s1bound.getLsbD 0 && x.s2bound.getLsbD 0

/-- Step 5 for one task: launched or resumed where it can be placed and its casement's roots allow it to run (R287); `first` while no task before it failed to be. One whose stream this decision has
lowered to the hold is held (R266). -/
def State.tryLaunch (s : State) (t : Task) (first : Bool) : State × Bool :=
  if !(s.casement t.casement).enabled then (s, first) else
  match s.placeAny t [] with
  | none => (if first && t.park.isNone then s.preemptFor t else s, false)
  | some cores =>
    let s := { s with fresh := s.fresh + 1 }
    if t.st == .admitted && s.atHold t then (s.retire t .held 0, first)
    else if t.st == .saved then (s.resume t, first)
    else if t.chain && decide ((s.casement t.casement).chainAt t.chainId < t.chainOrder) then
      ((s.faultPolicy t.id cPredecessor false).1, first)
    else (s.launch t cores, first)

/-- Whether a task waits for its launch or its resume. -/
def State.waitsLaunch (s : State) (t : Task) : Bool := t.st == .admitted || s.resumable t

/-- Step 5: every task that waits, in deadline order (R261). -/
def State.launchAll (s : State) : State :=
  ((byDeadline (s.tasks.filter s.waitsLaunch)).foldl (fun (acc : State × Bool) t =>
    match acc.1.task? t.id with
    | some t => acc.1.tryLaunch t acc.2
    | none => acc) (s, true)).1

/-- A task whose cores have all been saved, or left, is saved. -/
def State.markSaved (s : State) : State :=
  { s with tasks := s.tasks.map fun t =>
      if t.st == .running && !t.savedCores.isEmpty && !t.cores.any (fun c => (s.core c).task == some t.id)
      then { t with st := .saved } else t }

/-- Whether a task retires: every entry it held has freed (R68), or it failed before its launch. -/
def Task.retires (t : Task) : Bool :=
  (t.launched && t.savedCores.isEmpty && t.cores.all t.freed.contains) || (!t.launched && t.st == .ending) ||
  (t.st == .ending && t.cores.all fun c => t.freed.contains c || t.savedCores.any fun x => t.cores.getD x.rank 0 == c)

/-- Step 2: the tasks whose entries have freed retire. -/
def State.retireAll (s : State) : State :=
  (byDeadline (s.tasks.filter Task.retires)).foldl (fun s t => s.retire t t.status t.code) s

/-- Step 1: the commands that wait at the queues, and the quotas written (R260, R298). -/
def State.takeAllCommands (s : State) : State :=
  let s := (s.queues.filter fun e => !e.2.cmds.isEmpty).foldl (fun s e => s.takeCommands e.1) s
  let s := { s with casements := s.casements.map fun x => { x with inForce := x.quota } }
  ((List.range 16).filter fun k => (s.casement k).guaranteed).foldl State.allotWays s

/-- DISPATCH_DECISION: commands, retirements, admissions, one level shed or restored, launches and resumes, in that order (R260). -/
def State.decision (s : State) : State :=
  let s := s.takeAllCommands.markSaved.checkHolds.retireAll
  let (s, scope) := s.admitAll
  { (s.shedOrRestore scope).launchAll with nextDecision := s.now + 32 }

/-- DISPATCH_DECISION, every 32 cycles. -/
def execDispatchDecision (s : State) : Host.Outcome State Fault Refusal :=
  if s.now < s.nextDecision || !s.boot.ready || s.boot.hingeLost then .refused .eventNotEnabled else .next s.decision

end Sys2Proof.Machine
end

