-- ==== Sys2Proof/Machine/Hbm.lean ====
section
/-! DEFINITION. HBM4E (R313 to R319): the slots of a channel's frame, HBM_SLOT_SERVICE, and the thermal holds of a stack (THERMAL_HOLD_ENTER,
THERMAL_HOLD_EXIT). -/

namespace Sys2Proof.Machine

/-! ### The frame (R299, R313) -/

/-- The largest power of two at most n, for n from 1 to 256. -/
def floorPow (n : Nat) : Nat := ((List.range 9).map fun i => 2 ^ i).foldl (fun a p => if p ≤ n then p else a) 1

/-- The numbers 0 to 255 in bit-reversed order. -/
def reversedSlots : List Nat :=
  (List.range 256).map fun n => ((List.range 8).map fun i => if bit n i then 2 ^ (7 - i) else 0).sum

/-- The reservations on a channel: casement, class and share, where the share is not 0 (R299). -/
def State.reservations (s : State) : List (Nat × Nat × Nat) :=
  let c := s.channelsUp
  classPairs.filterMap fun p =>
    let r := ceilDiv ((s.casement p.1).inForce.getD (hbmPlace p.2) 0) c
    if (s.casement p.1).guaranteed && r != 0 then some (p.1, p.2, r) else none

/-- Slots of a frame still free of any entry of a table of owners. -/
def slotFree (owners : List (Nat × Nat × Nat)) (n : Nat) : Bool := n % 16 != 0 && (keyGet owners n).isNone

/-- A reservation's largest power of two placed at its stride, at the first offset in bit-reversed order whose slots are free. -/
def placeStride (owners : List (Nat × Nat × Nat)) (r : Nat × Nat × Nat) : List (Nat × Nat × Nat) :=
  let p := floorPow r.2.2
  let stride := 256 / p
  let slots (o : Nat) : List Nat := (List.range p).map fun i => o + stride * i
  match reversedSlots.find? fun o => decide (o < stride) && (slots o).all (slotFree owners) with
  | none => owners
  | some o => owners ++ (slots o).map fun n => (n, r.1, r.2.1)

/-- The rest of a reservation placed in slots still free. -/
def placeRest (owners : List (Nat × Nat × Nat)) (r : Nat × Nat × Nat) : List (Nat × Nat × Nat) :=
  owners ++ ((reversedSlots.filter (slotFree owners)).take (r.2.2 - floorPow r.2.2)).map fun n => (n, r.1, r.2.1)

/-- The owners of a frame's slots: slot, casement, class; every sixteenth slot is kept for walks, shutter traffic, scrubbing and the host. -/
def State.frameOwners (s : State) : List (Nat × Nat × Nat) :=
  let rs := s.reservations
  let sorted := (List.range 9).reverse.flatMap fun i => rs.filter fun r => floorPow r.2.2 == 2 ^ i
  sorted.foldl placeRest (sorted.foldl placeStride [])

/-! ### Which request a slot serves -/

/-- The casement and class of a request: its key slot, and its task's class. The write-back of a line that has left a die buffer, which R313 names no class for, goes as the batch class
of its key's casement, within that casement's CAPH (DESIGN CHOICE, log entry 98). -/
def State.groupOf (s : State) (r : Req) : Nat × Nat :=
  let k : Nat := match r.st with
    | .queued _ key _ => key
    | _ => 16
  (k, ((s.task? r.task).map Task.klass).getD 2)

/-- The requests queued at a channel, in their arrival order. -/
def State.queuedAt (s : State) (n : Nat) : List Req := (s.channel n).queue.filterMap fun id => s.reqs.find? fun r => r.id == id

/-- The requests queued at a channel that can be performed now, in their arrival order. -/
def State.readyAt (s : State) (n : Nat) : List Req := (s.queuedAt n).filter s.reqReady

/-- The channels' queues at the end of a cycle: a request that its order still keeps back arrives, for R313, when it is let go, behind those that may be served
(log entry 87). -/
def State.orderQueues (s : State) : State :=
  { s with channels := s.channels.map fun (n, c) =>
      if c.queue.length < 2 then (n, c) else
      let ready := (s.readyAt n).map Req.id
      (n, { c with queue := ready ++ c.queue.filter fun id => !ready.contains id }) }

/-- A channel with its frame begun, when the cycle lies in a new one. -/
def Channel.inFrame (c : Channel) (now : Nat) : Channel :=
  if c.frame = now / 256 then c else { c with frame := now / 256, frameUse := List.replicate 16 0 }

/-- Slots of a frame that a casement may use on one channel: CAPH, raised to its reserved share (R299). -/
def State.capH (s : State) (k : Nat) : Nat :=
  Max.max ((s.casement k).inForce.getD 9 0) ((s.reservations.filter fun r => r.1 == k).map fun r => r.2.2).sum

/-- The requests of a channel's backlog of a thermal hold that are still queued (R318). -/
def Channel.waited (c : Channel) : List Nat := c.backlog.filter c.queue.contains

/-- Whether a stack still serves the backlog of a thermal hold: its reservations are suspended (R318). -/
def State.recovering (s : State) (stack : Nat) : Bool := s.channels.any fun e => e.1 / 32 == stack && !e.2.waited.isEmpty

/-- The request that a slot of a channel serves: the backlog of a thermal hold in arrival order; else of the slot's owner, else in rotation over casements and classes within each
CAPH, where a shared slot leaves room for the casement's reserved slots that the frame still has (R299, R313, R314, R318; DESIGN CHOICE, log entry 98). -/
def State.slotRequest (s : State) (n : Nat) : Option Req :=
  let slot := s.now % 256
  let ready := s.readyAt n
  let ch := (s.channel n).inFrame s.now
  let owners := if s.recovering (n / 32) then [] else s.frameOwners
  let still (k : Nat) : Nat := (owners.filter fun e => decide (slot < e.1) && e.2.1 == k).length
  let room (k : Nat) : Bool := decide (ch.frameUse.getD k 0 + still k < s.capH k)
  let of (p : Nat × Nat) : Option Req := ready.find? fun r => s.groupOf r == p
  if slot % 16 = 0 then none
  else if !ch.waited.isEmpty then ready.find? fun r => ch.waited.contains r.id
  else
    match (keyGet owners slot).bind of with
    | some r => some r
    | none => ((List.range 48).map fun i => (ch.rotate + 1 + i) % 48).findSome? fun g => if room (g / 3) then of (g / 3, g % 3) else none

/-! ### Service (R313 to R317) -/

/-- A copy whose transfer has failed taken off its core, with its requests. -/
def State.endCopy (s : State) (c id : Nat) : State :=
  let mine (r : Req) : Bool :=
    r.core == c && (match r.kind with
      | .copyRead i _ _ => i == id
      | .copyWrite i _ _ => i == id
      | _ => false)
  (s.dropReqs mine).modCore c fun k => { k with copies := k.copies.filter fun cp => cp.id != id }

/-- MACHINE_CHECK of a request (R272, R315, R316, R336); a copy ends with it. -/
def State.failReq (s : State) (r : Req) (pa : Nat) : State :=
  let s := s.dropReq r.id
  if r.orphan then s.emitOut (.machineCheck r.core pa) else
  let committed (id : Nat) : Bool := ((s.core r.core).copy? id).all Copy.committed
  let fails (s : State) (late : Bool) : State := s.memoryFails r.core r.task late r.by_ r.issued r.pc r.kind.code pa
  match r.kind with
  | .copyRead id _ _ => fails (s.endCopy r.core id) (committed id)
  | .copyWrite id _ _ => fails (s.endCopy r.core id) (committed id)
  | _ => fails s r.drained

/-- A request taken from its channel and performed; its line enters the die buffer (R12), and its transfer counts 64 bytes for the casement of its key (R305; DESIGN CHOICE, log entry 98). -/
def State.serveAt (s : State) (n : Nat) (r : Req) (pa key : Nat) : State :=
  let s := (s.modChannel n fun c => { c with queue := c.queue.filter fun id => id != r.id }).countBytes key 64
  let s := s.markIfHot r.task r.heldHot
  (if r.kind == .evict then s else s.fillBuffer pa key (r.kind.access == .store)).serveMem r pa key

/-- The accounting of a served slot: the frame's use, the rotation, the die's draw. -/
def State.useSlot (s : State) (n : Nat) (p : Nat × Nat) : State :=
  (s.modChannel n fun c =>
    let c := c.inFrame s.now
    { c with frameUse := c.frameUse.modify p.1 (· + 1), rotate := 3 * p.1 + p.2, lastServed := s.now + 1 }).drawSlot (4 + n / 128)

/-- A request in its slot, with what its link and the array ECC do (R315 to R317). -/
def State.transfer (s : State) (n : Nat) (r : Req) (pa key : Nat) (link : LinkResult) : State :=
  let s := (s.useSlot n (s.groupOf r)).modChannel n fun c => c.noteLink link key (s.lineOf pa * 64)
  if !linkFails link then s.serveAt n r pa key
  else if link == .failed then (s.failReq r pa).rescaleAll
  else s.failReq r pa

/-- HBM_SLOT_SERVICE: a channel serves one request in a slot of its frame; how its transfer goes, and what the array ECC finds, comes from outside
(R313, R315, R316). Where no request is to be served, that is how the channel's next transfer of a walk, a fetch or the device itself goes. Requests of a channel
that cannot be reached end in MACHINE_CHECK. -/
def execHbmSlotService (channel : Nat) (link : LinkResult) (s : State) : Host.Outcome State Fault Refusal :=
  let ch := s.channel channel
  if s.boot.hingeLost || decide (512 ≤ channel) then .refused .eventNotEnabled
  else if !s.channelUp channel then
    match ch.queue.findSome? fun id => s.reqs.find? fun r => r.id == id with
    | none => .refused .eventNotEnabled
    | some r =>
      (match r.st with
       | .queued pa _ _ => .next (s.failReq r pa)
       | _ => .refused .eventNotEnabled)
  else if ch.lastServed == s.now + 1 || (s.hbm.getD (channel / 32) Stack.reset).hold then .refused .eventNotEnabled
  else
    match (if s.slotPower (4 + channel / 128) then s.slotRequest channel else none) with
    | none => if link == .clean then .refused .eventNotEnabled else .next (s.modChannel channel fun c => { c with nextLink := some link })
    | some r =>
      (match r.st with
       | .queued pa key _ => .next (s.transfer channel r pa key link)
       | _ => .refused .eventNotEnabled)

/-! ### Thermal holds (R318, R319) -/

/-- The tasks with a request queued on a stack. -/
def State.hotTasks (s : State) (stack : Nat) : List Nat :=
  s.reqs.filterMap fun r =>
    match r.st with
    | .queued pa key (some ch) => if ch / 32 == stack && s.waitsHot pa && !s.inBuffer pa key then some r.task else none
    | _ => none

/-- The marks of the requests that wait on a stack (R319). -/
def State.markStack (s : State) (stack : Nat) : State :=
  let s := (s.hotTasks stack).eraseDups.foldl State.markHot s
  { s with reqs := s.reqs.map fun (r : Req) =>
      match r.st with
      | .queued pa key (some ch) => if ch / 32 == stack && s.waitsHot pa && !s.inBuffer pa key then { r with heldHot := true } else r
      | _ => r }

/-- THERMAL_HOLD_ENTER: a stack's critical-temperature signal; its accepted requests stay queued until the exit (R318). -/
def execThermalHoldEnter (stack : Nat) (s : State) : Host.Outcome State Fault Refusal :=
  let x := s.hbm.getD stack Stack.reset
  if 16 ≤ stack || !x.live || s.boot.hingeLost then .refused .eventNotEnabled
  else .next ({ s with hbm := s.hbm.set stack { x with hold := true, since := s.now } }.markStack stack)

/-- THERMAL_HOLD_EXIT: the signal has been clear for 100 µs, so at least 125,000 cycles have passed since it was last raised; what waits is served first (R318). -/
def execThermalHoldExit (stack : Nat) (s : State) : Host.Outcome State Fault Refusal :=
  let x := s.hbm.getD stack Stack.reset
  if !x.hold || decide (s.now < x.since + 125000) || s.boot.hingeLost then .refused .eventNotEnabled
  else
    let s := s.markStack stack
    .next { s with
      hbm := s.hbm.set stack { x with hold := false }
      channels := s.channels.map fun (n, c) => (n, if n / 32 == stack then { c with backlog := c.queue } else c) }

end Sys2Proof.Machine
end

