-- ==== Sys2Proof/Machine/Power.lean ====
section
/-! DEFINITION. Power units between dies (R346): POWER_OFFER_TICK, POWER_REBALANCE, and the arrival of units on their way. -/

namespace Sys2Proof.Machine

/-- The sixteenths that the commands which come next at a tokened region's engines wait for at their start, by their classes (R345). -/
def Core.commandWants (k : Core) : Nat :=
  if k.phase != .run || k.timed then 0 else
  ((k.mma.find? fun m => m.start.isNone).map MmaCmd.extra).getD 0 + ((k.lookup.find? fun m => m.start.isNone).map fun m => m.kind.extra).getD 0

/-- Whether a walk or a fetch is due that a memory die may have to serve. -/
def State.walksWait (s : State) : Bool :=
  !s.walkItems.isEmpty || s.cores.any fun e => e.2.seqs.any fun x => x.fetching.any fun r => !r.stalled && decide (r.due ≤ s.now)

/-- Sixteenths that a die's waiting work wants beyond what it holds in use: regions at their alignment, commands at their start, requests queued at
its channels, transfers still to be carried, a walk or a fetch that is due (R345, R346). -/
def State.wants (s : State) (d : Nat) : Nat :=
  (s.cores.map fun (c, k) =>
    if dieOf c != d || s.actionCore c then 0 else
    (if k.phase == .align && !k.powered && k.allAtRgn then k.regionUnits else 0) + k.commandWants).sum +
  sixteenths ((s.channels.map fun (n, x) => if 4 + n / 128 = d && (!x.queue.isEmpty || x.kept != 0) then slotUnits else 0).sum +
    (if 4 ≤ d && s.walksWait then slotUnits else 0))

/-- What a die can offer. -/
def State.surplus (s : State) (d : Nat) : Nat := s.freeUnits d - s.wants d

/-- What a die lacks. -/
def State.lack (s : State) (d : Nat) : Nat := s.wants d - s.freeUnits d

/-- The spoke dies in service. -/
def State.spokes (s : State) : List Nat := (List.range 8).filter fun d => (s.die d).live && !(s.die d).clockLost

/-- The spoke dies that exchange units over the sideband: those whose exchange has not failed (R346). -/
def State.exchanging (s : State) : List Nat := s.spokes.filter fun d => !(s.die d).bandFailed

/-- Which dies' sideband exchange fails at a tick, which nothing in the spec says (R346, log entry 43). -/
def State.failBands (s : State) : State :=
  (List.range 8).foldl (fun s d =>
    let (v, s) := s.draw
    s.modDie d fun x => { x with bandFailed := v % 2 == 1 }) s

/-- Units sent from one die to another: deducted at once, added when they arrive (R346). -/
def State.sendUnits (s : State) (d e n : Nat) (loan : Bool) : State :=
  if n = 0 then s else
  let (due, s) := s.drawDue
  let s := s.modDie d fun x => { x with units := x.units - n }
  s.modDie e fun x =>
    { x with
      incoming := x.incoming ++ [(d, n, due)]
      borrowed := if loan then keySet x.borrowed d ((keyGet x.borrowed d).getD 0 + n) else x.borrowed }

/-- A die repays what it no longer needs. -/
def State.repay (s : State) (d : Nat) : State :=
  (s.die d).borrowed.foldl (fun s (e, owed) =>
    let n := Min.min owed (s.surplus d)
    if n = 0 || !s.exchanging.contains e then s else
    let s := s.sendUnits d e n false
    s.modDie d fun x => { x with borrowed := if n = owed then keyDel x.borrowed e else keySet x.borrowed e (owed - n) }) s

/-- A die with unmet demand borrows from the offers of the others. -/
def State.borrow (s : State) (d : Nat) : State :=
  (s.exchanging.filter fun e => e != d).foldl (fun (acc : State × Nat) e =>
    let n := Min.min acc.2 (acc.1.surplus e)
    (acc.1.sendUnits e d n true, acc.2 - n)) (s, s.lack d) |>.1

/-- POWER_OFFER_TICK: every 1 µs, the spoke dies whose sideband exchange works repay, offer and borrow. -/
def execPowerOfferTick (s : State) : Host.Outcome State Fault Refusal :=
  if s.now < (s.die 8).nextOffer || s.boot.hingeLost then .refused .eventNotEnabled
  else
    let s := s.failBands
    let s := s.exchanging.foldl State.repay s
    let s := s.exchanging.foldl State.borrow s
    .next { s with dies := s.dies.map fun d => { d with nextOffer := s.now + 1250 } }

/-- POWER_REBALANCE: every 10 µs the hinge die moves free units between dies by their activity counters, which the spec does not give: the amounts
are free (R346, log entry 43). -/
def execPowerRebalance (s : State) : Host.Outcome State Fault Refusal :=
  if s.now < s.nextRebalance || s.boot.hingeLost then .refused .eventNotEnabled
  else
    let s := s.spokes.foldl (fun (s : State) d =>
      let (v, s) := s.draw
      let n := v % (s.freeUnits d + 1)
      { (s.modDie d fun x => { x with units := x.units - n }) with pool := s.pool + n }) s
    let s := s.spokes.foldl (fun (s : State) d =>
      let (v, s) := s.draw
      let n := v % (s.pool + 1)
      { (s.modDie d fun x => { x with units := x.units + n }) with pool := s.pool - n }) s
    .next { s with nextRebalance := s.now + 12500 }

/-- Units on their way that have arrived. -/
def State.powerArrivals (s : State) : State :=
  { s with dies := s.dies.map fun (d : Die) =>
      if d.incoming.isEmpty then d else
      let here := d.incoming.filter fun e => decide (e.2.2 ≤ s.now)
      { d with units := d.units + (here.map fun e => e.2.1).sum, incoming := d.incoming.filter fun e => !decide (e.2.2 ≤ s.now) } }

end Sys2Proof.Machine
end

