-- ==== Sys2Proof/Machine/Answer.lean ====
section
/-! DEFINITION. The partition manager's and the runtime's answers and invalidations: RETRY and ABORT (R290 to R293, R461), HTLBI and S2INV (R287), and page
migration (R223, R295). -/

namespace Sys2Proof.Machine

/-! ### RETRY and ABORT -/

/-- A stalled translation to be walked again. -/
def XlState.again (x : XlState) (due : Nat) : XlState :=
  match x with
  | .stalled _ => .pending due
  | x => x

/-- The fault-entry KIND of a held effect's walk (R291). -/
def HeldKind.walkKind (k : HeldKind) : Nat :=
  match k with
  | .copy _ => 3
  | _ => 2

/-- A held effect with its stalled translations to be walked again. -/
def HeldKind.again (k : HeldKind) (due : Nat) : HeldKind :=
  match k with
  | .store va bytes x rl => .store va bytes (x.again due) rl
  | .copy cp => .copy (cp.retry due)
  | .spill va bytes xl => .spill va bytes (xl.map fun x => x.again due)
  | .submit q record _ => .submit q record none
  | k => k

/-- Whether a held effect is a submission. -/
def HeldKind.isSubmit : HeldKind → Bool
  | .submit _ _ _ => true
  | _ => false

/-- A report with its stalled signal write changed. -/
def State.signalAnswer (s : State) (q : Nat) (f : Report → Report) : State :=
  let s := s.modCq q fun x => { x with waiting := mapFirst (fun (r : Report) => r.stalled) f x.waiting }
  s.flushSignals q (s.cq q).waiting.length

/-- RETRY: what waited walks again (R292, R293, R461). An answer to something that is gone is ignored. -/
def State.retryWait (s : State) (w : RingWait) : State :=
  match w with
  | .nothing => s
  | .request id => { s with reqs := s.reqs.map fun (r : Req) =>
      if r.id == id then
        (match r.st with
         | .stalled _ => { r with st := .walking, arrived := s.now }
         | _ => r)
      else r }
  | .heldEntry c id => s.modCore c fun k =>
      { k with held := k.held.map fun (h : Held) => if h.id == id then { h with kind := h.kind.again s.now } else h }
  | .copyOf c id => s.modCore c fun k =>
      { k with copies := k.copies.map fun (cp : Copy) => if cp.id == id then cp.retry s.now else cp }
  | .command c => s.modCore c fun k =>
      { k with lookup := k.lookup.map fun (m : LookupCmd) => { m with xl := m.xl.map fun x => x.again s.now } }
  | .fetch c q a => s.modCore c fun k => k.modSeq q fun x =>
      { x with fetching := x.fetching.map fun (r : FetchReq) => if r.addr == a && r.stalled then { r with stalled := false, due := s.now } else r }
  | .queueWait q => if (s.queue q).st == .waitFault then s.evalWait q true else s
  | .markWrite q =>
    let x := s.queue q
    (match x.reached with
     | some r => if x.stalled then (s.modQueue q fun y => { y with stalled := false }).markWrite q r else s
     | none => s)
  | .signal q => s.signalAnswer q fun r => { r with stalled := false }
  | .parked t => s.modTask t fun x => if x.st == .parked then { x with st := .saved, park := none } else x
  | .handlerEntry c => if (s.core c).entryWaits then s.handlerStart c else s

/-- PERMISSION of an aborted access whose region still runs, MACHINE_CHECK of another (R292). -/
def State.abortAccess (s : State) (c task : Nat) (committed : Bool) (q : SeqId) (pc va kind : Nat) : State :=
  let f : FaultRec :=
    { code := cPermission, by_ := q, issued := s.now, pc := pc, taddr := w64 va, xkind := kind, xcode := 0 }
  s.lateFault c task committed f

/-- ABORT: what waited fails (R250, R292, R293, R461). -/
def State.abortWait (s : State) (w : RingWait) : State :=
  match w with
  | .nothing => s
  | .request id =>
    (match s.reqs.find? fun (r : Req) => r.id == id with
     | some r =>
       (match r.st with
        | .stalled _ => (s.dropReq id).abortAccess r.core r.task r.orphan r.by_ r.pc r.va r.kind.code
        | _ => s)
     | none => s)
  | .heldEntry c id =>
    (match (s.core c).held.find? fun (h : Held) => h.id == id with
     | some h =>
       (match h.kind.stalledAt with
        | none => s
        | some va =>
          if h.kind.isSubmit then s.submitFails c h va
          else if h.released.isSome then (s.modCore c fun k => k.freeHeld id).abortAccess c h.task true h.by_ h.pc va h.kind.walkKind
          else s.abortAccess c h.task false h.by_ h.pc va h.kind.walkKind)
     | none => s)
  | .copyOf c id =>
    (match (s.core c).copies.find? fun (cp : Copy) => cp.id == id with
     | some cp =>
       (match cp.stalledAt with
        | none => s
        | some va =>
          if cp.committed then
            (s.modCore c fun k => { k with copies := k.copies.filter fun x => x.id != id }).abortAccess c cp.task true cp.by_ cp.pc va 3
          else s.abortAccess c cp.task false cp.by_ cp.pc va 3)
     | none => s)
  | .command c =>
    (match (s.core c).lookup.findSome? fun (m : LookupCmd) => (m.xl.findSome? XlState.stalledAt).map fun va => (m.pc, va) with
     | some (pc, va) => s.abortAccess c ((s.core c).task.getD 0) false .cm pc va 1
     | none => s)
  | .fetch c q a =>
    if (((s.core c).seq q).fetching.any fun r => r.addr == a && r.stalled) then
      s.setFetched c q { addr := a, word := 0, fault := cPermission, xcode := 0 }
    else s
  | .queueWait q => if (s.queue q).st == .waitFault then s.modQueue q fun y => y.errored 0x0E else s
  | .markWrite q => if (s.queue q).stalled then s.advanceQueue q else s
  | .signal q => s.signalAnswer q fun r => { r with stalled := false, sig := 0 }
  | .parked t => if ((s.task? t).map Task.st) == some .parked then s.failTask t cXlateS1 else s
  | .handlerEntry c => if (s.core c).entryWaits then s.doubleTrap c cPermission else s

/-- What an entry of a ring waits for, taken out of the ring's open entries. -/
def State.takeAnswer (s : State) (ring index : Nat) : Option (State × RingWait) :=
  let x := s.ring ring
  let i := index % 2 ^ x.size
  (x.open_.find? fun e => e.1 == i).map fun e =>
    ({ s with rings := s.rings.set ring { x with open_ := x.open_.filter fun o => o.1 != i } }, e.2)

/-- RETRY. -/
def execRetry (ring index : Nat) (s : State) : Host.Outcome State Fault Refusal :=
  if 17 ≤ ring then .refused .eventNotEnabled else
  match s.takeAnswer ring index with
  | none => .next s
  | some (t, w) => .next (if s.boot.ready then t.retryWait w else s)

/-- ABORT. -/
def execAbort (ring index : Nat) (s : State) : Host.Outcome State Fault Refusal :=
  if 17 ≤ ring then .refused .eventNotEnabled else
  match s.takeAnswer ring index with
  | none => .next s
  | some (t, w) => .next (if s.boot.ready then t.abortWait w else s)

/-! ### Host invalidations (R287) -/

/-- A casement's kept translations dropped on every core and die. -/
def State.dropAll (s : State) (gone : TlbEntry → Bool) : State :=
  { s with
    cores := s.cores.map fun (n, k) => (n, { k with tlb := k.tlb.filter fun e => !gone e })
    dies := s.dies.map fun (d : Die) => { d with cache := d.cache.filter fun e => !gone e } }

/-- An HTLBI of every entry of a casement, or of a VA's page: BUSY until every one has ended (R287, log entry 97). -/
def State.htlbi (s : State) (k : Nat) (page : Option Nat) : State :=
  let (due, s) := s.drawDue
  s.modCasement k fun x => { x with htlbi := x.htlbi ++ [(due, page)] }

/-- An S2INV of every stage-2 entry of a casement, or by IPA: BUSY until every one has ended (R287, log entry 97). -/
def State.s2inv (s : State) (k : Nat) (ipa : Option Nat) : State :=
  let (due, s) := s.drawDue
  s.modCasement k fun x => { x with s2inv := x.s2inv ++ [(due, ipa)] }

/-- HTLBI of a casement. -/
def execHtlbiCasement (casement : Nat) (s : State) : Host.Outcome State Fault Refusal :=
  s.managerCommand casement (s.htlbi casement none)

/-- HTLBI by VA. -/
def execHtlbiPage (casement va : Nat) (s : State) : Host.Outcome State Fault Refusal :=
  s.managerCommand casement (s.htlbi casement (some va))

/-- S2INV of every stage-2 entry. -/
def execS2invAll (casement : Nat) (s : State) : Host.Outcome State Fault Refusal := s.managerCommand casement (s.s2inv casement none)

/-- S2INV by IPA. -/
def execS2invIpa (casement ipa : Nat) (s : State) : Host.Outcome State Fault Refusal :=
  if 2 ^ 48 ≤ ipa then .refused .eventNotEnabled else s.managerCommand casement (s.s2inv casement (some ipa))

/-- Whether a kept translation rests on the stage-2 translation of an IPA: its own, or that of the page that a VA translation leads to (R287, R288). -/
def TlbEntry.usesIpa (e : TlbEntry) (ipa : Nat) : Bool := decide (e.ipa ≤ ipa) && decide (ipa < e.ipa + e.size)

/-- The roots of a casement as its registers hold them bind (R287). -/
def Casement.bindRoots (x : Casement) : Casement := { x with s1bound := x.s1root, s2bound := x.s2root }

/-- A casement with an invalidation ended; one that covers all its entries lets the roots bind (R287). -/
def Casement.ended (x : Casement) (page : Option Nat) : Casement := if page.isNone then x.bindRoots else x

/-- The end of one casement's invalidations that are due. -/
def State.endInvalidation (s : State) (k : Nat) : State :=
  let s := (s.casement k).htlbi.foldl (fun (s : State) e =>
    if s.now < e.1 then s
    else
      let s := s.dropAll fun t => t.casement == k && (match e.2 with
        | some va => t.covers va
        | none => true)
      s.modCasement k fun y => { (y.ended e.2) with htlbi := y.htlbi.erase e }) s
  (s.casement k).s2inv.foldl (fun (s : State) e =>
    if s.now < e.1 then s
    else
      let s := s.dropAll fun t => t.casement == k && (match e.2 with
        | some a => t.usesIpa a
        | none => true)
      s.modCasement k fun y => { (y.ended e.2) with s2inv := y.s2inv.erase e }) s

/-- Every invalidation that ends. -/
def State.endInvalidations (s : State) : State := (List.range 16).foldl State.endInvalidation s

/-! ### Migration (R223, R295) -/

/-- MIGRATION_START: the page's lock bit is set and its copy begins. One page migrates at a time; addresses and sizes that name no page are
discarded. -/
def execMigrationStart (oldPa newPa size : Nat) (s : State) : Host.Outcome State Fault Refusal :=
  let o := bits oldPa 47 0
  let n := bits newPa 47 0
  let page := size == 4096 || size == 2 ^ 21 || size == 2 ^ 30
  if !s.boot.ready || s.migration.isSome || !page || o % size != 0 || n % size != 0 || regionOf o != .hbm || regionOf n != .hbm ||
      bits oldPa 51 48 != bits newPa 51 48 then .next s
  else
    let (due, s) := s.drawDue
    .next { s with migration := some { old := o, new_ := n, size := size, switched := false, due := due, left := size / 64, held := [] } }

/-- A page's contents and keys made those of another page. -/
def State.copyPage (s : State) (o n size : Nat) : State :=
  let within (base a : Nat) : Bool := decide (base ≤ a) && decide (a < base + size)
  let moved := (s.mem.filter fun e => within o e.1).map fun e => (e.1 - o + n, e.2)
  let keys := (s.lineKeys.filter fun e => within o (64 * e.1)).map fun e => ((64 * e.1 - o + n) / 64, e.2)
  { s with
    mem := Cells.writeAll (s.mem.filter fun e => !within n e.1) moved
    lineKeys := keys.foldl (fun l e => keySet l e.1 e.2) (s.lineKeys.filter fun e => !within n (64 * e.1))
    buffer := s.buffer.filter fun b => !within o (64 * b.line) && !within n (64 * b.line)
    stores := s.stores.map fun (r : StoreRec) => { r with bytes := r.bytes.map fun b => if within o b.1 then (b.1 - o + n, b.2) else b } }

/-- What a page's lock held: an AMOC performed, a write applied to the new copy (R223). -/
def State.applyHeldWrite (s : State) (r : StoreRec) (o n : Nat) : State :=
  match r.amoc with
  | some id =>
    (match s.reqs.find? fun (x : Req) => x.id == id with
     | some x =>
       (match x.st with
        | .queued pa key _ => s.serveMem x pa key
        | _ => s)
     | none => s)
  | none =>
  let num := s.sent.getD r.die 0 + 1
  let bytes := r.bytes.map fun b => (b.1 - o + n, b.2)
  let r := { r with num := num, stamp := (s.die r.die).vc, bytes := bytes }
  let s := { s with sent := s.sent.set r.die num, stores := s.stores ++ [r] }
  let s := (s.modDie r.die fun x => { x with vc := x.vc.set r.die num }).notifyLines bytes
  let s := s.countBytes ((r.key.map Prod.fst).getD 16) 64
  s.foldStores s.stores.length

/-- The next line of a page's copy, read and written once both dies have the units for it and neither stack is in thermal hold (R318, R344, R345; DESIGN CHOICE, log entry 86). -/
def State.carryPage (s : State) : State :=
  match s.migration with
  | none => s
  | some m =>
    if m.switched || m.left = 0 then s else
    let from_ := m.old + 64 * (m.left - 1)
    let to_ := m.new_ + 64 * (m.left - 1)
    if s.hotPage from_ || s.hotPage to_ || !s.slotPower (hbmDie from_) then s else
    let t := s.drawSlot (hbmDie from_)
    if !t.slotPower (hbmDie to_) then s
    else { (t.drawSlot (hbmDie to_)) with migration := some { m with left := m.left - 1 } }

/-- MIGRATION_SWITCH: the new copy becomes current, and the held writes are applied to it in their order, in one step (R223). -/
def execMigrationSwitch (s : State) : Host.Outcome State Fault Refusal :=
  match s.migration with
  | none => .refused .eventNotEnabled
  | some m =>
    if m.switched || m.left != 0 || decide (s.now < m.due) || s.boot.hingeLost || s.hotPage m.old || s.hotPage m.new_ then .refused .eventNotEnabled
    else
      let s := { (s.copyPage m.old m.new_ m.size) with migration := some { m with switched := true, held := [] } }
      .next (m.held.foldl (fun s r => s.applyHeldWrite r m.old m.new_) s)

/-- MIGRATION_RELEASE: forwarding from the old page ends (R295). -/
def execMigrationRelease (s : State) : Host.Outcome State Fault Refusal :=
  match s.migration with
  | none => .next s
  | some m => .next (if m.switched && s.boot.ready then { s with migration := none } else s)

end Sys2Proof.Machine
end

