-- ==== Sys2Proof/Machine/Endpoint.lean ====
section
/-! DEFINITION. The Ultra Ethernet endpoint and the scale-up ports: sessions (R328; SESSION_OPEN, SESSION_CLOSE), ingress (R329; SESSION_INGRESS),
chunks (R330; CHUNK_AT_ENDPOINT), the sub-link tables (R333; SUBLINK_TABLE_WRITE, SUBLINK_RETIRE), and fleet time (R323 to R326; PTP_SYNC, HOLDOVER,
PTP_PORT_REBIND, ETHERNET_PORT_STATE_CHANGE, FLEET_ANCHOR_REWRITE). -/

namespace Sys2Proof.Machine

/-! ### Sessions (R328) -/

/-- Whether a session's ingress ring and safe chunk are valid and pinned. -/
def State.sessionPinned (s : State) (x : Session) : Dev Bool :=
  (s.rangePinned x.owner x.ibase (64 * x.isz * x.inslot) .store).bind fun s ring =>
    if !ring then .ok s false
    else if x.safeva = 0 then .ok s true
    else (s.readRange x.owner x.safeva 64).bind fun s h => s.rangePinned x.owner x.safeva (64 + fieldLE h 8 2) .load

/-- A write of 1 to OPEN: the session opens when its conditions hold; while its tables or its chunk cannot be read the write waits (R318). -/
def State.openSession (s : State) (n : Nat) : State :=
  let x := s.session n
  if x.isOpen || (s.casement x.owner).st != .active || x.inslot = 0 || x.isz = 0 || s.refuseAction then s else
  match s.sessionPinned x with
  | .ok s true =>
    { s with arriving := s.arriving.filter fun e => e.1 != n }.modSession n fun y =>
      { y with isOpen := true, incnt := 0, dup := 0, dropin := 0, tokRead := 0, tokRetired := 0 }
  | .ok s false => s
  | .fault s _ => s
  | .check s => s
  | .wait s => { s with opening := s.opening ++ [n] }

/-- The writes of OPEN that waited, tried again. -/
def State.openWaiting (s : State) : State := s.opening.foldl State.openSession { s with opening := [] }

/-- SESSION_OPEN. -/
def execSessionOpen (session : Nat) (s : State) : Host.Outcome State Fault Refusal :=
  if 65536 ≤ session then .refused .eventNotEnabled else .next (if s.boot.ready then s.openSession session else s)

/-- SESSION_CLOSE. -/
def execSessionClose (session : Nat) (s : State) : Host.Outcome State Fault Refusal :=
  if 65536 ≤ session then .refused .eventNotEnabled
  else .next (if s.boot.ready then s.modSession session fun y => { y with isOpen := false } else s)

/-! ### Ingress (R329) -/

/-- A 16-bit counter that saturates. -/
def satInc (c : W16) : W16 := if c = BitVec.allOnes 16 then c else c + 1

/-- Why a landing write of a message drops it: the stage (true for stage 2), the address that the entry shows, the write's VA and the CODE of R291. -/
structure IngressFault where
  stage2 : Bool
  shown : Nat
  va : Nat
  code : Nat

/-- The cause that a failed translation of a landing write is. -/
def XFault.ingress (f : XFault) (va : Nat) : IngressFault :=
  match f with
  | .s1by2 ipa code => { stage2 := true, shown := ipa, va := va, code := code }
  | .s2 ipa code => { stage2 := true, shown := ipa, va := va, code := code }
  | f => { stage2 := false, shown := va, va := va, code := f.entryCode }

/-- The pieces of a range by 4 KiB page: address and length. -/
def pagePieces (va : Nat) : Nat → Nat → List (Nat × Nat)
  | 0, _ => []
  | fuel + 1, len =>
    if len = 0 then [] else
    let n := Min.min len (4096 - va % 4096)
    (va, n) :: pagePieces (va + n) fuel (len - n)

/-- The landing writes of a message translated and their memory reached, piece by piece: where each goes, its key and length, or why the message is dropped. -/
def State.reachPieces (s : State) (k : Nat) : List (Nat × Nat) → Dev (List (Nat × Nat × Nat) × Option IngressFault)
  | [] => .ok s ([], none)
  | (va, n) :: rest =>
    match s.devTranslate k va .store with
    | .wait s => .wait s
    | .check s => .check s
    | .fault s f => .ok s ([], some (f.ingress va))
    | .ok s e =>
      if !e.pin then .ok s ([], some ((e.unpinned va).ingress va)) else
      (s.devTouch k (e.paOf va) e.key n true).bind fun s _ =>
        (State.reachPieces s k rest).bind fun s r => .ok s ((e.paOf va, e.key, n) :: r.1, r.2)

/-- The bytes of a message landed, piece by piece. -/
def State.landMessage (s : State) (bytes : List W8) (pieces : List (Nat × Nat × Nat)) : State :=
  (pieces.foldl (fun (acc : State × List W8) p =>
    (acc.1.storeBytes 8 noCore .ct p.2.1 p.1 (acc.2.take p.2.2), acc.2.drop p.2.2)) (s, bytes)).1

/-- How far a casement's ingress runs ahead of CAPE, in units of 0.0008 bits: a Mb/s carries one unit a cycle (R332). -/
def State.ingressLevel (s : State) (k : Nat) : Nat :=
  let x := s.casement k
  x.inLevel - x.inForce.getD 13 0 * (s.now - x.inAt)

/-- A message counted against its casement's CAPE. -/
def State.countIngress (s : State) (k bytes : Nat) : State :=
  s.modCasement k fun x => { x with inLevel := s.ingressLevel k + 10000 * bytes, inAt := s.now }

/-- A message that arrives from a session's peer (R329, R332). -/
def State.ingress (s : State) (n : Nat) (payload : List W8) : Dev Unit :=
  let x := s.session n
  let drop (s : State) : Dev Unit := .ok (s.modSession n fun y => { y with dropin := satInc y.dropin }) ()
  if decide (64 * x.isz < payload.length) || decide (x.inslot ≤ x.incnt.toNat - x.tokRetired) ||
      decide (Config.ingressBurst x.owner < s.ingressLevel x.owner) then drop s else
  let va := x.ibase + 64 * x.isz * (x.incnt.toNat % x.inslot)
  match s.reachPieces x.owner (pagePieces va (payload.length / 4096 + 2) payload.length) with
  | .wait s => .wait s
  | .check s => drop s
  | .fault s _ => drop s
  | .ok s (_, some f) =>
    drop (s.report (if f.stage2 then 16 else x.owner) (faultEntry f.shown f.va 0 0 9 x.owner f.code) .nothing)
  | .ok s (pieces, none) =>
    let s := (s.landMessage payload pieces).countIngress x.owner payload.length
    .ok ((s.modSession n fun y => { y with incnt := y.incnt + 1 }).countBytes x.owner payload.length) ()

/-- A message lands, is dropped, or waits behind those of its session that wait; closing has discarded it (R318, R328, R329). -/
def State.arrive (s : State) (n : Nat) (payload : List W8) : State :=
  let waits (s : State) : State := { s with arriving := s.arriving ++ [(n, payload)] }
  if !(s.session n).isOpen then s
  else if s.arriving.any fun e => e.1 == n then waits s
  else
    match s.ingress n payload with
    | .ok s _ => s
    | .wait s => waits s
    | .fault s _ => s
    | .check s => s

/-- The messages that waited, tried again in their order. -/
def State.landWaiting (s : State) : State := s.arriving.foldl (fun s e => s.arrive e.1 e.2) { s with arriving := [] }

/-- SESSION_INGRESS: an SES operation that arrives for a session: a send from its PEER under its JOBID is its message; any other send, or one to a session that
is not open, is no message of it (R329). An operation that is no send is answered with an unsupported-operation response (R327). A message whose memory
cannot be reached yet waits, and those of its session behind it (R318). -/
def execSessionIngress (session : Nat) (head : SesHead) (payload : List W8) (s : State) :
    Host.Outcome State Fault Refusal :=
  let x := s.session session
  if !s.boot.ready then .next s
  else if !head.send then .next (s.emitOut (.unsupported session))
  else if !x.isOpen || x.peer != head.sender || x.jobid != head.jobid then .next s
  else .next (s.arrive session payload)

/-! ### Chunks (R330) -/

/-- Whether another chunk of its session has arrived before a chunk (R330). -/
def State.chunkBehind (s : State) (c : Chunk) : Bool :=
  s.chunks.any fun (x : Chunk) =>
    x.session == c.session && x.id != c.id && (decide (x.due < c.due) || (x.due == c.due && decide (x.id < c.id)))

/-- Whether a chunk waits for one of an action-class task of its casement, which goes ahead (R332). -/
def State.chunkYields (s : State) (c : Chunk) : Bool :=
  !c.action && s.chunks.any fun (x : Chunk) =>
    x.action && decide (x.due ≤ s.now) && x.session != c.session && (s.session x.session).owner == (s.session c.session).owner && !s.chunkBehind x

/-- CHUNK_AT_ENDPOINT: the endpoint sends or drops a chunk by its SEQ; one at a time for each session, in arrival order. -/
def execChunkAtEndpoint (id : Nat) (s : State) : Host.Outcome State Fault Refusal :=
  match s.chunks.find? fun (c : Chunk) => c.id == id with
  | none => .refused .eventNotEnabled
  | some c =>
    if s.now < c.due || s.chunkBehind c || s.chunkYields c || s.boot.hingeLost then .refused .eventNotEnabled else
    let s := { s with chunks := s.chunks.filter fun (x : Chunk) => x.id != id }
    let x := s.session c.session
    let seq := fieldLE c.header 0 8
    if !x.isOpen then .next s
    else if seq ≤ x.lastseq.toNat then .next (s.modSession c.session fun y => { y with dup := satInc y.dup })
    else .next ((s.sendChunk c.session c.header c.payload).modSession c.session fun y => { y with lastseq := w64 seq })

/-! ### Sub-links (R333) -/

/-- Entry i of a sub-link table. -/
def linkEntry (table : W64) (i : Nat) : Nat := table.toNat / 256 ^ i % 256

/-- The lanes of an entry: its width, when it is valid. -/
def linkLanes (table : W64) (i : Nat) : List Nat :=
  let e := linkEntry table i
  if bit e 7 then span i (2 ^ bits e 6 5) else []

/-- Whether a new table is discarded whole (R333). -/
def State.linksBad (s : State) (old new_ : W64) : Bool :=
  (List.range 8).any fun i =>
    let o := linkEntry old i
    let n := linkEntry new_ i
    let settled (e : Nat) : Bool :=
      let st := (s.casement (bits e 3 0)).st
      !bit e 7 || st == .free || st == .drained
    (bit n 7 && i % 2 ^ bits n 6 5 != 0) ||
    ((List.range 8).any fun j => j != i && (linkLanes new_ i).any (linkLanes new_ j).contains) ||
    (o != n && !(settled o && settled n))

/-- A sub-link table written; reserved bits read as zero (R1). -/
def State.writeLinks (s : State) (port : Nat) (value : W64) : State :=
  let v : W64 := value &&& 0xEFEFEFEFEFEFEFEF
  if s.linksBad (s.sublinks.getD port 0) v then s else { s with sublinks := s.sublinks.set port v }

/-- SUBLINK_TABLE_WRITE. -/
def execSublinkTableWrite (port : Nat) (value : W64) (s : State) : Host.Outcome State Fault Refusal :=
  if 16 ≤ port then .refused .eventNotEnabled else .next (if s.boot.ready then s.writeLinks port value else s)

/-- SUBLINK_RETIRE: a lane fails; the sub-link that covers it is retired with all its lanes, a loss of lanes (R308, R333). -/
def execSublinkRetire (port lane : Nat) (s : State) : Host.Outcome State Fault Refusal :=
  if 16 ≤ port || 8 ≤ lane || s.boot.hingeLost then .refused .eventNotEnabled else
  let table := s.sublinks.getD port 0
  let lost := match (List.range 8).find? fun i => (linkLanes table i).contains lane with
    | some i => (i, linkLanes table i)
    | none => (8, [lane])
  let table := if lost.1 < 8 then table &&& ~~~ (BitVec.ofNat 64 (128 * 256 ^ lost.1)) else table
  .next { s with
    sublinks := s.sublinks.set port table
    retiredLanes := (s.retiredLanes ++ lost.2.map fun l => (port, l)).eraseDups }.rescaleAll

/-! ### Fleet time (R323 to R326) -/

/-- A slew moved against an offset by some ppm, at most 200 either way. -/
def slewTowards (old off : Int) (by_ : Nat) : Int :=
  let v := if off = 0 then (if 0 < old then max 0 (old - by_) else min 0 (old + by_)) else if 0 < off then old - by_ else old + by_
  max (-200) (min 200 v)

/-- PTP_SYNC: the first lock steps FTIME to the grandmaster's time, and the anchors with it; every later sync measures the offset and slews, at most 200 ppm, at a rate the
spec leaves to the clock's servo, which changes by at most 2 ppm in 2 ms, so that an anchor holds within 8 cycles over 2 ms (R325, R326, log entry 13). -/
def execPtpSync (grandmaster : Nat) (s : State) : Host.Outcome State Fault Refusal :=
  let f := s.fleet
  if f.ftport == 2 || !(f.pup.getD f.ftport false) || s.boot.hingeLost then .refused .eventNotEnabled
  else if !f.everLocked then
    let s := { s with fleet := { f with
      ftstat := 1, everLocked := true, sub := grandmaster * 10000000, ftoff := BitVec.ofInt 64 ((s.ftime : Int) - grandmaster)
      lastSync := s.now, slew := 0, slewAt := s.now } }
    .next ((List.range 16).foldl State.writeAnchor s)
  else
    let off : Int := (s.ftime : Int) - grandmaster
    let (v, s) := s.draw
    let f := { f with ftstat := 1, ftoff := BitVec.ofInt 64 off, lastSync := s.now }
    .next { s with fleet := if f.slewAt + 2500000 ≤ s.now then { f with slew := slewTowards f.slew off (v % 3), slewAt := s.now } else f }

/-- HOLDOVER: no sync for 2 s (R325). -/
def execHoldover (s : State) : Host.Outcome State Fault Refusal :=
  let f := s.fleet
  if f.ftstat != 1 || decide (s.now < f.lastSync + 2500000000) || s.boot.hingeLost then .refused .eventNotEnabled
  else .next { s with fleet := { f with ftstat := 2 } }

/-- PTP_PORT_REBIND: the announce receipt timeout of the port that the clock is bound to has expired (R323). -/
def execPtpPortRebind (s : State) : Host.Outcome State Fault Refusal :=
  if s.boot.hingeLost || s.fleet.ftport == 2 then .refused .eventNotEnabled
  else .next { s with fleet := { s.fleet with ftport := if s.fleet.ftport = 0 then 1 else 0 } }

/-- ETHERNET_PORT_STATE_CHANGE: PUP follows the port; a lost port is a loss of capacity (R308, R324). With no port up, FTPORT reads none. -/
def execEthernetPortStateChange (port : Nat) (up : Bool) (s : State) : Host.Outcome State Fault Refusal :=
  if 2 ≤ port || s.boot.hingeLost then .refused .eventNotEnabled else
  let pup := s.fleet.pup.set port up
  let ftport := if !pup.any id then 2 else if s.fleet.ftport = 2 then port else s.fleet.ftport
  let s := { s with fleet := { s.fleet with pup := pup, ftport := ftport } }
  .next (if up then s else s.rescaleAll)

/-- FLEET_ANCHOR_REWRITE: every 1 ms (R326). -/
def execFleetAnchorRewrite (casement : Nat) (s : State) : Host.Outcome State Fault Refusal :=
  if 16 ≤ casement || decide (s.now < (s.casement casement).anchorNext) || s.boot.hingeLost then .refused .eventNotEnabled
  else .next (s.writeAnchor casement)

end Sys2Proof.Machine
end

