-- ==== Sys2Proof/Machine/Loss.lean ====
section
/-! DEFINITION. The loss of dies and of capacity: DIE_HEARTBEAT, CLOCK_LOCK_LOSS and DIE_LOSS_DECLARED (R21, R335, R336), the promotion of shadows (R245,
R339), HINGE_CLOCK_LOSS (R459), and FIRMWARE_RETIREMENT (R27, R308). -/

namespace Sys2Proof.Machine

/-- DIE_HEARTBEAT: a spoke die's heartbeat reaches the hinge die, every 1,250 cycles (R335). -/
def execDieHeartbeat (die : Nat) (s : State) : Host.Outcome State Fault Refusal :=
  let x := s.die die
  if 8 ≤ die || !x.live || x.clockLost || decide (s.now < x.nextBeat) || s.boot.hingeLost then .refused .eventNotEnabled
  else .next (s.modDie die fun y => { y with lastBeat := s.now, nextBeat := s.now + 1250 })

/-- CLOCK_LOCK_LOSS: a spoke die's clock loses lock; the die stops issuing, and its heartbeats stop (R21). -/
def execClockLockLoss (die : Nat) (s : State) : Host.Outcome State Fault Refusal :=
  if 8 ≤ die || !(s.die die).live || s.boot.hingeLost then .refused .eventNotEnabled
  else .next (s.modDie die fun y => { y with clockLost := true })

/-- HINGE_CLOCK_LOSS: the module is lost; READY clears, FAILCODE is 4, firmware receives MACHINE_CHECK (R459). The core number 2304 stands for none. -/
def execHingeClockLoss (s : State) : Host.Outcome State Fault Refusal :=
  .next (({ s with cur := none, boot := { s.boot with hingeLost := true, ready := false, failcode := 4, nextAt := none } } : State).emitOut
    (.machineCheck noCore 0))

/-! ### What a lost die had under way (R335, R336) -/

/-- A request when a die is lost: one of its own that waits at a channel is performed but lands nowhere if it writes, else is gone; the rest
stand. -/
def Req.afterLoss (d : Nat) (r : Req) : Option Req :=
  if dieOf r.core != d then some r
  else
    match r.kind, r.st with
    | .load _ _, _ => none
    | .copyRead _ _ _, _ => none
    | .fillRead _ _ _, _ => none
    | _, .queued _ _ (some _) => some { r with orphan := true, rd := 0, sp := false, sn := false }
    | _, _ => none

/-- Everything of a lost die that the hinge die has not accepted is discarded: its cores stand idle, their requests and chunks are gone, their mirror
areas never complete. -/
def State.fence (s : State) (d : Nat) : State :=
  let s := s.dropReqs fun r => (r.afterLoss d).isNone
  { s with
    cores := s.cores.map fun (c, k) =>
      if dieOf c == d then (c, { Core.idle with taint := k.taint, softCount := k.softCount, epoch := k.epoch, blocks := k.blocks }) else (c, k)
    reqs := s.reqs.filterMap (Req.afterLoss d)
    chunks := s.chunks.filter fun (x : Chunk) => dieOf x.core != d || decide (x.due ≤ s.now)
    mirrors := s.mirrors.filter fun m => dieOf m.core != d || m.complete
    tasks := s.tasks.map fun t =>
      { t with
        freed := t.freed ++ t.cores.filter fun c =>
          dieOf c == d && !t.freed.contains c && !t.savedCores.any fun x => t.cores.getD x.rank 0 == c
        holds := if t.holds.any fun c => dieOf c == d then [] else t.holds } }

/-- The bits of a die, its clusters and its stacks cleared (R27); its units, and those on their way to it, go to the hinge die's pool (R346). -/
def State.clearDie (s : State) (d : Nat) : State :=
  let x := s.die d
  let s := { s with
    clusters := s.clusters.zipIdx.map fun (up, c) => up && dieOfCluster c != d
    hbm := s.hbm.zipIdx.map fun (e : Stack × Nat) => if 4 + e.2 / 4 = d then { e.1 with live := false, hold := false } else e.1
    buffer := s.buffer.filter fun b => hbmDie (64 * b.line) != d
    pool := s.pool + x.units + (x.incoming.map fun (e : Nat × Nat × Nat) => e.2.1).sum }
  s.modDie d fun y => { y with live := false, units := 0, used := 0, reserved := 0, borrowed := [], incoming := [] }

/-- The same for a die that firmware retires: its running work goes on (log entry 45). -/
def State.retireDie (s : State) (d : Nat) : State :=
  ({ s with
    clusters := s.clusters.zipIdx.map fun (up, c) => up && dieOfCluster c != d
    hbm := s.hbm.zipIdx.map fun (e : Stack × Nat) => if 4 + e.2 / 4 = d then { e.1 with live := false, hold := false } else e.1 } : State).modDie
    d fun y => { y with retired := true }

/-! ### Promotion (R245, R339) -/

/-- A task's mirror area of a core that is complete with a sequence. -/
def State.areaWith (s : State) (t c n : Nat) : Option MirrorArea :=
  s.mirrors.find? fun m => m.task == t && m.core == c && m.complete && m.seq == n

/-- The greatest sequence for which every core of a task holds a complete area. -/
def State.promotable (s : State) (t : Task) : Option Nat :=
  let seqs := (s.mirrors.filter fun m => m.task == t.id).map MirrorArea.seq
  (seqs.filter fun n => t.cores.all fun c => (s.areaWith t.id c n).isSome).max?

/-- What is in flight of a task's exchanges dropped (R245). -/
def State.dropExchanges (s : State) (t : Nat) : State :=
  { s with
    grants := s.grants.filter fun (g : Grant) => g.task != t
    groups := s.groups.filter fun (g : Group) => g.task != t
    chanEnds := s.chanEnds.filter fun e => e.task != t }

/-- A mirror that is still to be pushed from a core whose task has moved to its shadow: it belongs to no member (R245, R455). -/
def Held.disown (t : Nat) (h : Held) : Held :=
  match h.kind with
  | .mirror _ _ _ => if h.task = t then { h with rank := 0xFFFF } else h
  | _ => h

/-- A core that the promotion takes a task from: its region abandoned, free, its entry gone; what has committed drains (R67). -/
def State.leaveCore (s : State) (c t : Nat) : State :=
  let drop (s : State) : State := s.modCore c fun k =>
    { k with tracker := k.tracker.filter fun e => e.task != t, held := k.held.map (Held.disown t) }
  if (s.core c).task != some t then drop s else drop ((s.abandon c).modCore c Core.free)

/-- What remembers the restart points of a mirrored core: its four gap starts. -/
def mirrorPoints (rank seq : Nat) (known : Known) : SavedCore :=
  { rank := rank, points := List.replicate 4 SeqSnap.idle, budget := 0, liveIn := 0, rgnAddr := 0, known := known, mirrLast := some seq }

/-- The shadow core of a rank loaded from its area; it starts within 500 µs of the lost die's last heartbeat (R339). -/
def State.promoteCore (s : State) (t : Task) (n beat rank : Nat) : State :=
  let old := t.cores.getD rank 0
  let new_ := t.shadow.getD rank 0
  match s.areaWith t.id old n with
  | none => s
  | some m =>
    let (d, s) := s.drawDue
    let start := Max.max (s.now + 1) (Min.min d (beat + 625000))
    let s := s.catchUp (dieOf new_) (s.die 8).vc
    let s := s.modCore new_ fun k =>
      { (Core.fromBlock m.img.get k (mirrorPoints rank n { m.known with past := m.known.past ++ [old] }) (start - 1)) with
        task := some t.id, rank := rank, domm := membership t.cores rank old, epoch := (k.epoch + 1) % 65536
        taint := some t.casement }
    { s with chanEnds := s.chanEnds ++ m.ends }

/-- A casement's views aligned on every die to that of one die, the lost one, so that a shadow reads what its primary did (R245); a REALIGN that is still to reach
that die reaches every die with it. -/
def State.alignViews (s : State) (k d : Nat) : State :=
  let like (o : Int) (e : Nat) : Int := (s.rawCount d : Int) + o - s.rawCount e
  s.modCasement k fun x =>
    { x with
      offsets := (List.range 9).map (like (x.offsets.getD d 0))
      coming := (x.coming.filter fun y => y.1 == d).flatMap fun y => (List.range 9).map fun e => (e, y.2.1, like y.2.2 e) }

/-- A task's channel ends with the grant errors of those that they replace, which are sticky (R236, R245). -/
def keepErrors (old ends : List ChanEnd) : List ChanEnd :=
  ends.map fun e => { e with gerr := e.gerr || old.any fun o => o.task == e.task && o.rank == e.rank && o.ch == e.ch && o.gerr }

/-- A mirrored task's shadow promoted after the loss of a die; with no common sequence the task fails (R245). -/
def State.promote (s : State) (t : Task) (d beat : Nat) : State :=
  match s.promotable t with
  | none => (s.faultPolicy t.id cMachineCheck true).1
  | some n =>
    let old := s.chanEnds
    let s := (s.dropExchanges t.id).alignViews t.casement d
    let s := t.cores.foldl (fun s c => s.leaveCore c t.id) s
    -- R345, R346: what its cores held reserved follows it, that of the lost die out of the hinge die's pool
    let s := s.bringUnits { t with units := groupUnits t.cores } t.shadow
    let s := (List.range t.cores.length).foldl (fun s r => s.promoteCore t n beat r) s
    let s := { s with chanEnds := keepErrors old s.chanEnds }
    let starts := t.shadow.map fun c => ((s.core c).seq .ld).base
    let s := { s with mirrors := s.mirrors.filter fun m => m.task != t.id }
    s.modTask t.id fun x =>
      { x with
        st := .running, cores := t.shadow, shadow := [], unmirrored := true, freed := [], savedCores := [], park := none
        counting := true, readyAt := firstStart starts }

/-- The tasks that a lost die concerns, in deadline order: a shadow there is no more; a primary there is promoted, or its task fails (R336,
R339, R455). -/
def State.settleLoss (s : State) (d beat : Nat) : State :=
  (byDeadline (s.tasks.filter fun t => t.launched && t.st != .ending)).foldl (fun s t =>
    if t.cores.any fun c => dieOf c == d then
      (if t.shadow.isEmpty then (s.faultPolicy t.id cMachineCheck true).1 else s.promote t d beat)
    else if t.shadow.any fun c => dieOf c == d then s.modTask t.id fun x => { x with shadow := [], unmirrored := true }
    else s) s

/-- DIE_LOSS_DECLARED: 62,500 cycles have passed without a heartbeat; the die is fenced, its bits clear, its tasks fail or move to their shadows,
and the minima are rescaled (R308, R335, R336). -/
def execDieLossDeclared (die : Nat) (s : State) : Host.Outcome State Fault Refusal :=
  let x := s.die die
  if 8 ≤ die || !x.live || decide (s.now < x.lastBeat + 62500) || s.boot.hingeLost then .refused .eventNotEnabled
  else
    let s := (s.fence die).clearDie die
    let s := (s.settleLoss die x.lastBeat).foldStores s.stores.length
    .next s.rescaleAll

/-! ### Retirement by firmware (R27, R308) -/

/-- A unit's bit cleared. -/
def State.clearUnit (s : State) : RetireUnit → State
  | .cluster c => { s with clusters := s.clusters.set c false }
  | .die d => s.retireDie d
  | .stack j => { s with hbm := s.hbm.modify j fun k => { k with live := false, hold := false } }
  | .channel n => s.modChannel n fun c => { c with retired := true }

/-- Whether a unit's number names one. -/
def RetireUnitOk : RetireUnit → Bool
  | .cluster c => decide (c < 12)
  | .die d => decide (d < 8)
  | .stack j => decide (j < 16)
  | .channel n => decide (n < 512)

/-- Whether what a unit's retirement takes out of service holds a stack in thermal hold, which firmware never retires (R318). -/
def State.unitHot (s : State) : RetireUnit → Bool
  | .die d => (List.range 16).any fun j => 4 + j / 4 == d && (s.hbm.getD j Stack.reset).hold
  | .stack j => (s.hbm.getD j Stack.reset).hold
  | _ => false

/-- FIRMWARE_RETIREMENT: firmware retires a cluster, a die, a stack or a channel, never a stack in thermal hold; the minima are rescaled (R27, R308, R318). -/
def execFirmwareRetirement (unit : RetireUnit) (s : State) : Host.Outcome State Fault Refusal :=
  if !RetireUnitOk unit || s.unitHot unit || s.boot.hingeLost then .refused .eventNotEnabled else .next (s.clearUnit unit).rescaleAll

end Sys2Proof.Machine
end

