-- ==== Sys2Proof/Machine/Boot.lean ====
section
/-! DEFINITION. The boot (R341, R342; BOOT_STAGE, FUSE_ADVANCE) and the resets (R311, R322, R343; WARM_RESET, COLD_RESET, VF_FLR). -/

namespace Sys2Proof.Machine

/-! ### The stages (R342) -/

/-- Why a flash slot's image is refused: 1 its signature, 2 its SVN; 0 when it may run (R341). -/
def Boot.refuses (b : Boot) (images : List (Bool × Nat)) (slot : Nat) : Nat :=
  match images[slot]? with
  | none => 1
  | some (ok, svn) => if !ok then 1 else if svn < b.fuse then 2 else 0

/-- Stage 1: slot A, then slot B; a boot that finds no image stops with the code of the last one tried (log entry 14). -/
def Boot.verify (b : Boot) : Boot :=
  let run (slot : Nat) : Boot := { b with stage := 1, failcode := 0, running := ((b.images[slot]?).map Prod.snd).getD 0 }
  if b.refuses b.images 0 = 0 then run 0
  else if b.refuses b.images 1 = 0 then run 1
  else { b with failcode := b.refuses b.images 1, nextAt := none }

/-- Stage 2: why the service images stop the boot, slot A tried and then slot B; 0 where they do not (R341, R342, log entry 14). -/
def Boot.servicesRefused (b : Boot) : Nat := if b.refuses b.services 0 = 0 then 0 else b.refuses b.services 1

/-- Every die leaves reset, at a moment of its own: its counter reads zero there (R20), its heartbeats begin (R335). -/
def State.startDies (s : State) : State :=
  (List.range 9).foldl (fun s d =>
    let (v, s) := s.draw
    s.modDie d fun x =>
      { x with zero := s.now - v % 1000, clockLost := false, lastBeat := s.now, nextBeat := s.now + 1250, nextOffer := s.now + 1250 }) s

/-- The zone offsets of every casement set, so that each view reads the hinge die's counter (R20). -/
def State.alignAllViews (s : State) : State :=
  { s with casements := s.casements.map fun x =>
      { x with offsets := (List.range 9).map fun d => ((s.die d).zero : Int) - (s.die 8).zero, coming := [] } }

/-- What a stage does once it is reached. -/
def State.stageWork (s : State) (stage : Nat) : State :=
  match stage with
  | 3 => s.startDies
  | 4 => { s with scrubbed := true }
  | 5 => { s.alignAllViews with nextDecision := s.now + 32, nextRebalance := s.now + 12500 }
  | 6 => { s with boot := { s.boot with ready := true, nextAt := none } }
  | _ => s

/-- The boot goes on to a stage. The next one comes at no fixed cycle. -/
def State.toStage (s : State) (stage : Nat) : State :=
  let (due, s) := s.drawDue
  { s with boot := { s.boot with stage := stage, nextAt := some due } }.stageWork stage

/-- BOOT_STAGE: the boot reaches its next stage, or stops with FAILCODE. -/
def execBootStage (s : State) : Host.Outcome State Fault Refusal :=
  match s.boot.nextAt with
  | none => .refused .eventNotEnabled
  | some t =>
    if s.now < t || s.boot.hingeLost || decide (6 ≤ s.boot.stage) then .refused .eventNotEnabled else
    match s.boot.stage with
    | 0 =>
      let (due, s) := s.drawDue
      .next { s with boot := ({ s.boot with nextAt := some due } : Boot).verify }
    | 1 =>
      if s.boot.servicesRefused = 0 then .next (s.toStage 2)
      else .next { s with boot := { s.boot with failcode := s.boot.servicesRefused, nextAt := none } }
    | 2 =>
      if s.boot.trains then .next (s.toStage 3)
      else .next { s with boot := { s.boot with failcode := 3, nextAt := none } }
    | n => .next (s.toStage (n + 1))

/-- FUSE_ADVANCE: a command that names the running image's SVN blows fuses until the counter equals it; another has no effect (R341). -/
def execFuseAdvance (svn : Nat) (s : State) : Host.Outcome State Fault Refusal :=
  let b := s.boot
  if s.boot.ready && svn = b.running && decide (b.fuse ≤ svn) && decide (svn ≤ 128) then .next { s with boot := { b with fuse := svn } }
  else .next s

/-! ### Resets (R311, R343) -/

/-- Every store performed written to memory. -/
def State.settleMemory (s : State) : State :=
  { (s.stores.foldl State.foldBytes s) with stores := [] }

/-- A queue after a reset: IDLE, with its registers. -/
def Queue.idled (x : Queue) : Queue :=
  { x with st := .idle, slot := false, reserved := 0, cmds := [], waitLine := none, reached := none, stalled := false }

/-- A core after a reset: nothing of a task; its taint mark, its error count and its block counters stay (R182). -/
def Core.afterReset (k : Core) : Core := { Core.idle with taint := k.taint, softCount := k.softCount, blocks := k.blocks }

/-- A casement after a warm reset: no translation is kept, so its roots bind; the views come with stage 5. -/
def Casement.afterReset (x : Casement) : Casement := { x with htlbi := [], s2inv := [], s1bound := x.s1root, s2bound := x.s2root }

/-- The units as a reset deals them: each live spoke die its share, the rest in the pool. -/
def State.dealUnits (s : State) : State :=
  { s with
    dies := s.dies.zipIdx.map fun (e : Die × Nat) =>
      { Die.reset (if e.1.live then dieShare e.2 else 0) with live := e.1.live, retired := e.1.retired, zero := e.1.zero, lastBeat := s.now }
    pool := ((s.dies.zipIdx.filter fun (e : Die × Nat) => !e.1.live).map fun (e : Die × Nat) => dieShare e.2).sum }

/-- Every task failed by a reset, with its completion (R282, R343, log entry 42). -/
def State.failAll (s : State) : State := s.tasks.foldl (fun s t => s.retireWith t .failed 0 none) s

/-- The boot after a warm reset: it goes on from stage 3, or where it stood, if the images have not been verified (R342, R343). -/
def Boot.warm (b : Boot) (due : Nat) : Boot :=
  if b.stage < 2 then { b with ready := false } else { b with ready := false, failcode := 0, stage := 2, nextAt := some due }

/-- A warm reset: tasks fail; sessions, queues and everything in flight are gone; the fuses, the key slots, the taint marks, memory and what has been
retired stay (R311, R343, log entry 42). -/
def State.warmReset (s : State) : State :=
  let s := s.failAll.settleMemory.dealUnits
  let (due, s) := s.drawDue
  let s : State :=
    { s with
      cur := none, cores := s.cores.map fun (c, k) => (c, k.afterReset)
      hbm := s.hbm.map fun (x : Stack) => { x with hold := false }
      channels := s.channels.map fun (n, x) => (n, { x with queue := [], frameUse := List.replicate 16 0, nextLink := none })
      buffer := [], rescaleDue := false, opening := [], arriving := []
      reqs := [], sent := List.replicate 9 0, chanEnds := [], grants := [], groups := [], chunks := [], mirrors := [], mirrorPool := 0
      queues := s.queues.map fun (q, x) => (q, x.idled)
      rings := s.rings.map fun (x : Ring) => { x with waiting := [], open_ := [] }
      casements := s.casements.map Casement.afterReset
      sessions := s.sessions.map fun (n, x) => (n, { x with isOpen := false })
      tasks := [], streams := [], squall := false, lastServedQueue := 255, migration := none, scrubbed := false
      boot := s.boot.warm due }
  (List.range 16).foldl (fun s k =>
    let s := (s.maybeDrained k).maybeErase k
    if (s.casement k).st == .erasing then s.startScrub k else s) s

/-- WARM_RESET: a RESET of 1, or the physical function's FLR (R343). With the hinge clock lost only a cold reset helps (R459). -/
def execWarmReset (s : State) : Host.Outcome State Fault Refusal :=
  if s.boot.hingeLost then .next s else .next s.warmReset

/-- A cold reset: everything at its reset value but the fuses, the flash, what memory holds, and what the model keeps of the world outside. Every
key slot has a new key (R311). -/
def State.coldReset (s : State) : State :=
  let s := s.settleMemory
  let r := State.reset
  { r with
    now := s.now, nextId := s.nextId, fresh := s.fresh, mem := s.mem, lineKeys := s.lineKeys, inputs := s.inputs, out := s.out
    dies := r.dies.map fun (x : Die) => { x with zero := s.now, lastBeat := s.now, nextBeat := s.now + 1250, nextOffer := s.now + 1250 }
    casements := (r.casements.zip s.casements).map fun (x, y) => { x with keyGen := y.keyGen + 1, anchorNext := s.now + 1250000 }
    fleet := { r.fleet with pup := s.fleet.pup, lastSync := s.now }
    nextDecision := s.now + 32, nextRebalance := s.now + 12500
    boot := { r.boot with fuse := s.boot.fuse, images := s.boot.images, services := s.boot.services, trains := s.boot.trains, nextAt := some (s.now + 1) } }

/-- COLD_RESET: power-on, or a RESET of 2 (R343). -/
def execColdReset (s : State) : Host.Outcome State Fault Refusal := .next s.coldReset

/-- VF_FLR: every queue of the casement is sent to STOPPED; its state, tasks and sessions stay (R322). -/
def execVfFlr (vf : Nat) (s : State) : Host.Outcome State Fault Refusal :=
  if 16 ≤ vf then .refused .eventNotEnabled else .next (if s.boot.ready then s.stopQueues vf else s)

end Sys2Proof.Machine
end

