-- ==== Sys2Proof/Machine/Control.lean ====
section
/-! DEFINITION. Branches and jumps (R356, R359, R380, R381, R391). All run on every sequencer, in regions, gaps and handler mode; a taken
one adds no cycle of its own (R39). -/

namespace Sys2Proof.Machine

/-- A branch: the word behind it, or its target (R356). -/
def branchWord {w : Nat} (h : Hdr) (uses : List (BitVec 5)) (k : BitVec w) (taken : Ctx → Bool) (s : State) :
    Host.Outcome State Fault Refusal :=
  issue h { uses := uses }
    (fun x s => x.jump s (taken x) (branchTarget x.x.pc k)) s

/-- BEQ -/
def execBeq (h : Hdr) (a b : BitVec 5) (k : BitVec 9) (s : State) : Host.Outcome State Fault Refusal :=
  branchWord h [a, b] k (fun x => x.reg a == x.reg b) s

/-- BNE -/
def execBne (h : Hdr) (a b : BitVec 5) (k : BitVec 9) (s : State) : Host.Outcome State Fault Refusal :=
  branchWord h [a, b] k (fun x => x.reg a != x.reg b) s

/-- BLT -/
def execBlt (h : Hdr) (a b : BitVec 5) (k : BitVec 9) (s : State) : Host.Outcome State Fault Refusal :=
  branchWord h [a, b] k (fun x => (x.reg a).slt (x.reg b)) s

/-- BGE -/
def execBge (h : Hdr) (a b : BitVec 5) (k : BitVec 9) (s : State) : Host.Outcome State Fault Refusal :=
  branchWord h [a, b] k (fun x => !(x.reg a).slt (x.reg b)) s

/-- BLTU -/
def execBltu (h : Hdr) (a b : BitVec 5) (k : BitVec 9) (s : State) : Host.Outcome State Fault Refusal :=
  branchWord h [a, b] k (fun x => (x.reg a).ult (x.reg b)) s

/-- BGEU -/
def execBgeu (h : Hdr) (a b : BitVec 5) (k : BitVec 9) (s : State) : Host.Outcome State Fault Refusal :=
  branchWord h [a, b] k (fun x => !(x.reg a).ult (x.reg b)) s

/-- BEQZ -/
def execBeqz (h : Hdr) (a : BitVec 5) (k : BitVec 14) (s : State) : Host.Outcome State Fault Refusal :=
  branchWord h [a] k (fun x => x.reg a == 0) s

/-- BNEZ -/
def execBnez (h : Hdr) (a : BitVec 5) (k : BitVec 14) (s : State) : Host.Outcome State Fault Refusal :=
  branchWord h [a] k (fun x => x.reg a != 0) s

/-- LOOP: decremented, and taken while the decremented value is not 0 (R391). s0 is refused (R77). -/
def execLoop (h : Hdr) (a : BitVec 5) (k : BitVec 14) (s : State) : Host.Outcome State Fault Refusal :=
  issue h { operandBad := a == 0, uses := [a] }
    (fun x s =>
      let c := x.reg a - 1
      x.jump (x.land s a c 1) (c != 0) (branchTarget x.x.pc k)) s

/-- JMP -/
def execJmp (h : Hdr) (k : BitVec 19) (s : State) : Host.Outcome State Fault Refusal :=
  branchWord h [] k (fun _ => true) s

/-- JAL: the address of the word behind it lands in s31 (R380), and its return window stands there (R382). -/
def execJal (h : Hdr) (k : BitVec 19) (s : State) : Host.Outcome State Fault Refusal :=
  issue h { uses := [31] }
    (fun x s =>
      let s := s.modCore x.c fun c => c.modSeq x.q fun y => { y with link := some x.next }
      x.jump (x.land s 31 (w64 x.next) 1) true (branchTarget x.x.pc k)) s

/-- JR (R381). -/
def execJr (h : Hdr) (a : BitVec 5) (s : State) : Host.Outcome State Fault Refusal :=
  issue h { uses := [a] }
    (fun x s =>
      let t := x.reg a
      if t.toNat % 4 != 0 then .trap cAlign t else x.jump s true t.toNat) s

/-- BSTAT: VSTAT, or a status word of the A-space read at issue as a fixed-cycle access, against the bits of sb (R359). -/
def execBstat (h : Hdr) (a b : BitVec 5) (k : BitVec 9) (s : State) : Host.Outcome State Fault Refusal :=
  issue h { uses := [a, b] }
    (fun x s =>
      let goOn (s : State) (st : W64) : Iss := x.jump s (st &&& x.reg b != 0) (branchTarget x.x.pc k)
      if a == 0 then goOn s x.k.vstatBefore
      else
        let off := (x.reg a).toNat
        if off % 8 != 0 then .trap cAlign (x.reg a)
        else if 98304 < off + 8 then .trap cSpaceAccess (x.reg a)
        else
          match x.k.bankConflict s.now true (banksOf off 8) s.now x.q with
          | some bk => if x.k.place x.q == .timed then .trap cBankConflict (w64 (16 + bk)) else .hold s
          | none =>
            goOn (s.modCore x.c fun c => c.claimBanks s.now true (banksOf off 8) s.now x.q)
              (w64 (leNat (x.k.readBuf true off 8)))) s

end Sys2Proof.Machine
end

