-- ==== Sys2Proof/Machine/Host.lean ====
section
/-! DEFINITION. The host port (R301, R320 to R322): accesses to memory (R222; HOST_ACCESS), what the registers of BAR0 read as, and writes to those
that have no step of their own (R247, R248, R270, R287, R290, R296, R306, R317, R324, R328, R333, R342; REGISTER_WRITE). -/

namespace Sys2Proof.Machine

/-! ### Who may reach what (R301, R321, R322) -/

/-- Whether an access is honoured where a casement's world matters: through a virtual function of a secure casement only on its secure path. -/
def State.honoured (s : State) (fn : HostFn) (secure : Bool) : Bool :=
  match fn with
  | .pf => true
  | .vf k => !(s.casement k).secure || secure

/-- Whether a function reaches memory: the physical one all of it; a virtual one HBM4E under its casement's key, and host memory (log entry 46). -/
def State.reachesMemory (s : State) (fn : HostFn) (secure : Bool) (pa : Nat) : Bool :=
  match fn with
  | .pf => true
  | .vf k =>
    s.honoured fn secure &&
    (match regionOf (bits pa 47 0) with
     | .hbm => bits pa 51 48 == k
     | .host => true
     | _ => false)

/-! ### Memory (R222, R320) -/

/-- The bytes of an access. -/
def hostSize : HostOp → Nat
  | .read n => n
  | .write bs => bs.length
  | .fetchAdd n _ => n
  | .swap n _ => n
  | .cas n _ _ => n
  | .bar n => n

/-- Whether an access is an AtomicOp. -/
def hostAtomic : HostOp → Bool
  | .read _ => false
  | .write _ => false
  | .bar _ => false
  | _ => true

/-- The value an AtomicOp stores. -/
def hostResult (op : HostOp) (old : Nat) : Nat :=
  match op with
  | .fetchAdd n v => (old + v.toNat) % 256 ^ n
  | .swap n v => v.toNat % 256 ^ n
  | .cas n e v => if old = e.toNat % 256 ^ n then v.toNat % 256 ^ n else old
  | _ => old

/-- What is outside the port's AtomicOps of 32 and 64 bits, and PCIe's 4,096 bytes: no access at all (R320). -/
def hostShaped (op : HostOp) (pa : Nat) : Bool :=
  if hostAtomic op then (hostSize op == 4 || hostSize op == 8) && pa % hostSize op == 0 else hostSize op != 0 && decide (hostSize op ≤ 4096)

/-- An access performed at memory, in the order of arrival. -/
def State.hostPerform (s : State) (slot pa : Nat) (op : HostOp) : State :=
  match op with
  | .read n => s.emitOut (.hostReply (s.readMem none slot pa n))
  | .write bs => s.storeBytes 8 noCore .ct slot pa bs
  | _ =>
    let old := s.readMem none slot pa (hostSize op)
    (s.emitOut (.hostReply old)).storeBytes 8 noCore .ct slot pa (leBytes (hostSize op) (hostResult op (leNat old)))

/-- An access that is not honoured reads as zero and writes nothing (R301). -/
def State.hostDiscard (s : State) (op : HostOp) : State :=
  match op with
  | .write _ => s
  | _ => s.emitOut (.hostReply (List.replicate (hostSize op) 0))

/-- An access of the host made to its memory, under its key slot (R313, R318, R345). -/
def State.hostTouch (s : State) (pa : Nat) (op : HostOp) : Touch :=
  let write : Bool :=
    match op with
    | .read _ => false
    | _ => true
  s.touch (bits pa 51 48) (bits pa 47 0) (bits pa 51 48) (hostSize op) write

/-- Whether an access of the host waits: for a thermal hold, for power units, or, of an AtomicOp, for a page's switch (R223, R318, R345). -/
def State.hostStalls (s : State) (pa : Nat) (op : HostOp) : Bool :=
  match op with
  | .bar _ => false
  | _ =>
    (hostAtomic op && s.locked (bits pa 47 0)) ||
      (match s.hostTouch pa op with
       | .wait _ => true
       | _ => false)

/-- An access of the host to memory, PA[51:48] naming the key slot. In a thermal hold and without power units it waits, and an AtomicOp waits for the switch
of a migrating page (R222, R223, R318, R345). -/
def State.hostMemory (s : State) (fn : HostFn) (secure : Bool) (pa : Nat) (access : HostOp) : Host.Outcome State Fault Refusal :=
  let a := bits pa 47 0
  let last := a + hostSize access - 1
  if !hostShaped access pa || decide (2 ^ 52 ≤ pa) || s.boot.hingeLost || !s.boot.ready || s.hostStalls pa access then .refused .eventNotEnabled
  else if regionOf a == .unmapped || regionOf last != regionOf a then .fault .physicalHole
  else if !s.reachesMemory fn secure pa then .next (s.hostDiscard access)
  else
    match s.hostTouch pa access with
    | .ok s => .next (s.hostPerform (bits pa 51 48) a access)
    | .check s at_ => .next (s.emitOut (.machineCheck noCore at_))
    | .wait _ => .refused .eventNotEnabled

/-! ### What registers read as (R247 to R333) -/

/-- STATE of a queue. -/
def QState.code : QState → Nat
  | .idle => 0
  | .active => 1
  | .waitFault => 2
  | .error => 3
  | .stopped => 4

/-- STATE of a casement. -/
def CaseState.code : CaseState → Nat
  | .free => 0
  | .active => 1
  | .draining => 2
  | .drained => 3
  | .stopping => 4
  | .erasing => 5

/-- The boot status block (R342). -/
def State.bootReg (s : State) (r : Nat) : Nat :=
  let b := s.boot
  if r = 0 then flag b.ready * 2 ^ 31 + b.failcode * 2 ^ 16 + b.fuse % 256 * 2 ^ 8 + b.stage else 0

/-- A task queue's block (R247). -/
def Queue.reg (x : Queue) (r : Nat) : Nat :=
  match r with
  | 0x00 => x.qbase.toNat
  | 0x08 => flag x.tctl * 2 ^ 20 + x.owner * 2 ^ 16 + x.cqn * 2 ^ 8 + x.qsz
  | 0x10 => x.qwr.toNat * 2 ^ 32 + x.qrd.toNat
  | 0x18 => x.fidx.toNat * 2 ^ 32 + x.cause * 2 ^ 8 + x.st.code
  | _ => 0

/-- A completion queue's block (R270). -/
def ComplQueue.reg (x : ComplQueue) (r : Nat) : Nat :=
  match r with
  | 0x00 => x.base.toNat
  | 0x08 => x.vec.toNat * 2 ^ 48 + x.timer.toNat * 2 ^ 32 + x.thresh * 2 ^ 8 + x.size
  | 0x10 => x.tail.toNat * 2 ^ 32 + x.head.toNat
  | _ => 0

/-- A fault ring's block (R290). -/
def Ring.reg (x : Ring) (r : Nat) : Nat :=
  match r with
  | 0x00 => x.base.toNat
  | 0x08 => x.vec.toNat * 2 ^ 48 + x.size
  | 0x10 => x.tail.toNat * 2 ^ 32 + x.head.toNat
  | _ => 0

/-- The translation registers of a casement (R287). -/
def Casement.translationReg (x : Casement) (r : Nat) : Nat :=
  match r with
  | 0x00 => x.s1root.toNat
  | 0x08 => x.s2root.toNat
  | 0x10 => flag (!x.htlbi.isEmpty) * 2 ^ 63
  | 0x18 => flag (!x.s2inv.isEmpty) * 2 ^ 63
  | _ => 0

/-- A casement's block (R296, R310). -/
def Casement.blockReg (x : Casement) (r : Nat) : Nat :=
  match r with
  | 0x00 => x.fto * 2 ^ 48 + flag x.capred * 2 ^ 11 + flag x.saveErr * 2 ^ 10 + flag x.err * 2 ^ 9 + flag x.secure * 2 ^ 8 + x.st.code
  | 0x10 => x.q 1 * 2 ^ 32 + x.q 0
  | 0x18 => x.q 3 * 2 ^ 32 + x.q 2
  | 0x20 => x.q 5 * 2 ^ 32 + x.q 4
  | 0x28 => x.q 6 * 2 ^ 32 + x.q 7
  | 0x30 => x.q 9 * 2 ^ 32 + x.q 8
  | 0x38 => x.q 11 * 2 ^ 16 + x.q 10
  | 0x40 => x.q 13 * 2 ^ 32 + x.q 12
  | 0x48 => x.q 15 * 2 ^ 8 + x.q 14
  | 0x50 => x.scrubPhase * 2 ^ 32 + x.scrubTotal * 2 ^ 16 + x.scrubDone
  | 0x58 => x.urseq
  | 0x60 => flag x.keyValid
  | _ => 0

/-- The endpoint and scale-up block (R324, R333). -/
def State.endpointReg (s : State) (r : Nat) : Nat :=
  let f := s.fleet
  match r with
  | 0x00 => f.ptpdom.toNat
  | 0x08 => f.ftport * 16 + f.ftstat
  | 0x10 => f.ftoff.toNat
  | 0x18 => (f.pup.zipIdx.map fun (b, i) => flag b * 2 ^ i).sum
  | _ => if 0x100 ≤ r ∧ r < 0x180 then (s.sublinks.getD ((r - 0x100) / 8) 0).toNat else 0

/-- A channel's counters (R317). RETIRED is the channel's own retirement: of a channel of a stack or a die out of service the spec does not say what it reads
(DESIGN CHOICE, log entry 94). -/
def State.channelReg (s : State) (n r : Nat) : Nat :=
  let x := s.channel n
  match r with
  | 0x00 => x.lfail.toNat * 2 ^ 32 + x.lcrc.toNat
  | 0x08 => x.aue.toNat * 2 ^ 32 + x.ace.toNat
  | 0x10 => x.uepa.toNat
  | 0x18 => flag (s.hbm.getD (n / 32) Stack.reset).hold * 2 + flag x.retired
  | _ => 0

/-- A session context (R328). -/
def Session.reg (x : Session) (r : Nat) : Nat :=
  match r with
  | 0x00 => flag x.isOpen * 2 ^ 63 + x.owner * 2 ^ 52 + x.ibase
  | 0x08 => x.inslot * 2 ^ 16 + x.isz
  | 0x10 => x.peer.toNat % 2 ^ 64
  | 0x18 => x.peer.toNat / 2 ^ 64
  | 0x20 => x.jobid.toNat
  | 0x28 => x.lastseq.toNat
  | 0x30 => x.safeva
  | 0x38 => x.dup.toNat * 2 ^ 48 + x.dropin.toNat * 2 ^ 32 + x.incnt.toNat
  | _ => 0

/-- A byte of a casement's ring of usage records (R306). -/
def Casement.usageByte (x : Casement) (off : Nat) : W8 :=
  match x.records.find? fun r => r.due == 0 && r.seq % 1024 == off / 256 with
  | some r => r.bytes.getD (off % 256) 0
  | none => 0

/-- Whether a function reaches a completion queue: a virtual one, where a queue of its casement reports to it (R247, R270, log entry 47). -/
def State.reachesCq (s : State) (fn : HostFn) (c : Nat) : Bool :=
  match fn with
  | .pf => true
  | .vf k => s.queues.any fun e => e.2.owner == k && e.2.cqn == c

/-- Whether a function is the physical one. -/
def fnIsPf : HostFn → Bool
  | .pf => true
  | .vf _ => false

/-- The ring of a function. -/
def fnRing : HostFn → Nat
  | .pf => 16
  | .vf k => k

/-- The capability list a function sees: its casement's; the physical one, casement 0's (log entry 47). -/
def fnList : HostFn → Nat
  | .pf => 0
  | .vf k => k

/-- Whether an offset lies in a block. -/
def inBlock (off base size : Nat) : Bool := decide (base ≤ off) && decide (off < base + size)

/-- The 8 bytes at an 8-byte-aligned offset of a function's BAR0, as the host reads them (R321). A read changes nothing but the mark of a usage record (R304). After a boot that stops in stage 1 or 2
only the physical function enumerates (R342). FTSTAT and the capability page count as blocks of a secure casement's world: off the secure path they read as
zero through its virtual function (DESIGN CHOICE, log entry 94). -/
def State.hostRead (s : State) (fn : HostFn) (secure : Bool) (off : Nat) : Nat :=
  if inBlock off 0 0x10 then (if fnIsPf fn || s.boot.failcode = 0 || decide (2 < s.boot.failcode) then s.bootReg off else 0)
  else if !s.boot.ready || !s.honoured fn secure then 0
  else if inBlock off 0x10000 0x1000 then leNat (s.capBytes (fnList fn) (off - 0x10000) 8)
  else if inBlock off 0x20000 0x4000 then
    let x := s.queue ((off - 0x20000) / 64)
    if HostFn.owns fn x.owner then x.reg (off % 64) else 0
  else if inBlock off 0x30000 0x2000 then
    let c := (off - 0x30000) / 32
    if s.reachesCq fn c then (s.cq c).reg (off % 32) else 0
  else if inBlock off 0x40000 0x20 then (s.ring (fnRing fn)).reg (off - 0x40000)
  else if inBlock off 0x50000 0x200 then
    let k := (off - 0x50000) / 32
    if !HostFn.owns fn k || (!fnIsPf fn && off % 32 != 0x00 && off % 32 != 0x10) then 0 else (s.casement k).translationReg (off % 32)
  else if inBlock off 0x60000 0x1000 then
    let k := (off - 0x60000) / 0x100
    if HostFn.owns fn k then (s.casement k).blockReg (off % 0x100) else 0
  else if inBlock off 0x70000 0x180 then
    (if fnIsPf fn then s.endpointReg (off - 0x70000) else if off = 0x70008 then s.fleet.ftstat else 0)
  else if inBlock off 0x80000 0x4000 then
    (if fnIsPf fn then s.channelReg ((off - 0x80000) / 32) (off % 32) else 0)
  else if inBlock off 0x400000 0x400000 then
    let k := (off - 0x400000) / 0x40000
    if HostFn.owns fn k then leNat ((span (off % 0x40000) 8).map (s.casement k).usageByte) else 0
  else if inBlock off 0x1000000 0x400000 then
    let x := s.session ((off - 0x1000000) / 64)
    if HostFn.owns fn x.owner then x.reg (off % 64) else 0
  else 0

/-- A byte of a function's BAR0. -/
def State.barByte (s : State) (fn : HostFn) (secure : Bool) (off : Nat) : W8 := (leBytes 8 (s.hostRead fn secure (off / 8 * 8))).getD (off % 8) 0

/-- The usage records of a ring at an offset of BAR0 that a read of some bytes there meets: read, for R304 (log entry 36). -/
def Casement.markRead (x : Casement) (ring off n : Nat) : Casement :=
  { x with
    records := x.records.map fun r =>
      let at_ := ring + 256 * (r.seq % 1024)
      if r.due == 0 && decide (off < at_ + 256) && decide (at_ < off + n) then { r with read := true } else r }

/-- A read of BAR0 answered (R301, R321, R342). -/
def State.hostBar (s : State) (fn : HostFn) (secure : Bool) (off n : Nat) : State :=
  let sees (k : Nat) : Bool := s.boot.ready && s.honoured fn secure && HostFn.owns fn k
  ({ s with
     casements := s.casements.zipIdx.map fun (x, k) => if sees k then Casement.markRead x (0x400000 + 0x40000 * k) off n else x }).emitOut
    (.hostReply ((span off n).map (s.barByte fn secure)))

/-- HOST_ACCESS: an access of the host to device memory, hinge SRAM or its own memory, or a read of a function's BAR0 (R222, R320, R321). -/
def execHostAccess (fn : HostFn) (secure : Bool) (pa : Nat) (access : HostOp) (s : State) : Host.Outcome State Fault Refusal :=
  match access with
  | .bar n => if n = 0 || decide (4096 < n) || decide (0x2000000 < pa + n) then .refused .eventNotEnabled else .next (s.hostBar fn secure pa n)
  | _ => s.hostMemory fn secure pa access

/-! ### Writes -/

/-- A ring size in its range, else the old one (log entry 47). -/
def ringSize (old v lo hi : Nat) : Nat := if lo ≤ v ∧ v ≤ hi then v else old

/-- A write to a task queue's block (R247, R248); of a written QCMD only CMD and the index are kept (log entry 99). -/
def State.writeQueueReg (s : State) (fn : HostFn) (q r v : Nat) (low : Bool) : State :=
  let x := s.queue q
  if !HostFn.owns fn x.owner then s else
  let settled := x.st == .idle || x.st == .stopped
  match r with
  | 0x00 => if settled then s.modQueue q fun y => { y with qbase := w64 (bits v 47 12 * 4096) } else s
  | 0x08 =>
    let s := if settled then s.modQueue q fun y => { y with tctl := bit v 20, cqn := bits v 15 8, qsz := ringSize y.qsz (bits v 4 0) 4 16 } else s
    if fnIsPf fn then s.modQueue q fun y => { y with owner := bits v 19 16 } else s
  | 0x10 => s.writeQwr fn q (BitVec.ofNat 32 (v / 2 ^ 32))
  | 0x20 => if low then s.modQueue q fun y => { y with cmds := y.cmds ++ [(bits v 3 0, BitVec.ofNat 32 (v / 2 ^ 32))] } else s
  | _ => s

/-- A write to a completion queue's block (R270). -/
def State.writeCqReg (s : State) (c r v : Nat) : State :=
  match r with
  | 0x00 => s.modCq c fun x => { x with base := w64 (v / 4096 * 4096) }
  | 0x08 => s.modCq c fun x =>
    { x with
      vec := BitVec.ofNat 16 (bits v 63 48), timer := BitVec.ofNat 16 (bits v 47 32), thresh := bits v 13 8
      size := ringSize x.size (bits v 4 0) 4 16 }
  | 0x10 => s.modCq c fun x => { x with head := BitVec.ofNat 32 v }
  | _ => s

/-- A write to a fault ring's block (R290, R292). -/
def State.writeRingReg (s : State) (i r v : Nat) (low : Bool) : State :=
  let set (f : Ring → Ring) : State := { s with rings := s.rings.modify i f }
  match r with
  | 0x00 => set fun x => { x with base := w64 (v / 4096 * 4096) }
  | 0x08 => set fun x => { x with vec := BitVec.ofNat 16 (bits v 63 48), size := ringSize x.size (bits v 4 0) 4 12 }
  | 0x10 => set fun x => { x with head := BitVec.ofNat 32 v }
  | 0x18 =>
    if !low then s else
    (match s.takeAnswer i (bits v 31 0) with
     | none => s
     | some (t, w) => if bit v 32 then t.abortWait w else t.retryWait w)
  | _ => s

/-- A write to the translation registers (R287, R289). HTLBI's SCOPE and reserved bits do not count, its commands 2 to 15 do nothing, and a command written while one is BUSY
runs beside it (DESIGN CHOICE, log entry 97). -/
def State.writeTranslationReg (s : State) (fn : HostFn) (k r v : Nat) (low : Bool) : State :=
  if !HostFn.owns fn k then s else
  match r with
  | 0x00 => s.modCasement k fun x => { x with s1root := w64 (bits v 47 12 * 4096 + bits v 0 0) }
  | 0x08 =>
    if fnIsPf fn then s.modCasement k fun x => { x with s2root := w64 (bits v 51 48 * 2 ^ 48 + bits v 47 12 * 4096 + bits v 0 0) } else s
  | 0x10 =>
    if !low then s
    else if bits v 3 0 = 0 then s.htlbi k none
    else if bits v 3 0 = 1 then s.htlbi k (some (bits v 47 12 * 4096))
    else s
  | 0x18 =>
    if !low || !fnIsPf fn then s
    else if bits v 1 0 = 0 then s.s2inv k none
    else if bits v 1 0 = 1 then s.s2inv k (some (bits v 47 12 * 4096))
    else s
  | _ => s

/-- The quota fields at an offset of a casement's block: field, top bit, low bit (R296). -/
def quotaFields (r : Nat) : List (QuotaField × Nat × Nat) :=
  match r with
  | 0x10 => [(.mina, 31, 0), (.capa, 63, 32)]
  | 0x18 => [(.minr, 31, 0), (.capr, 63, 32)]
  | 0x20 => [(.minb, 31, 0), (.capb, 63, 32)]
  | 0x28 => [(.minha, 31, 0), (.minhr, 63, 32)]
  | 0x30 => [(.minhb, 31, 0), (.caph, 40, 32)]
  | 0x38 => [(.minw, 4, 0), (.capw, 20, 16)]
  | 0x40 => [(.mine, 31, 0), (.cape, 63, 32)]
  | 0x48 => [(.minl, 7, 0), (.capl, 15, 8)]
  | _ => []

/-- Quota fields written together: taken, or discarded whole with ERR set (R298). -/
def State.writeQuotas (s : State) (k : Nat) (fs : List (QuotaField × Nat)) : State :=
  let t := s.modCasement k fun x =>
    { x with quota := fs.foldl (fun q e => q.set (quotaPlace e.1).1 (e.2 % 2 ^ (quotaPlace e.1).2)) x.quota }
  if t.quotasBad k then s.modCasement k fun x => { x with err := true }
  else (t.modCasement k fun x => { (fs.foldl (fun x e => x.rewritten (quotaPlace e.1).1) x) with err := false }).endRefusal

/-- FTO as a write leaves it (R296). -/
def ftoOf (old v : Nat) : Nat := if v = 0 then 1000 else if v < 100 then old else v

/-- A write of the physical function to a casement's block (R296). -/
def State.writeCasementReg (s : State) (k r v : Nat) (low : Bool) : State :=
  match r with
  | 0x00 => s.modCasement k fun x =>
    { x with fto := ftoOf x.fto (bits v 63 48), secure := if low && x.st == .free then bit v 8 else x.secure }
  | 0x08 => if !low then s else if v / 16 != 0 then s.refuseCommand k else s.casementCommand k v
  | _ =>
    let fs := (quotaFields r).filter fun e => low || decide (32 ≤ e.2.2)
    if fs.isEmpty then s else s.writeQuotas k (fs.map fun e => (e.1, bits v e.2.1 e.2.2))

/-- A write of the physical function to the endpoint block (R324, R333). -/
def State.writeEndpointReg (s : State) (r v : Nat) : State :=
  if r = 0 then { s with fleet := { s.fleet with ptpdom := BitVec.ofNat 8 v } }
  else if 0x100 ≤ r ∧ r < 0x180 then s.writeLinks ((r - 0x100) / 8) (w64 v)
  else s

/-- A write of the physical function to a channel's counters: a write of zero clears a counter (R317). -/
def State.writeChannelReg (s : State) (n r v : Nat) (low : Bool) : State :=
  let lo := low && bits v 31 0 == 0
  let hi := bits v 63 32 == 0
  match r with
  | 0x00 => s.modChannel n fun x => { x with lcrc := if lo then 0 else x.lcrc, lfail := if hi then 0 else x.lfail }
  | 0x08 => s.modChannel n fun x => { x with ace := if lo then 0 else x.ace, aue := if hi then 0 else x.aue }
  | _ => s

/-- A write to a session context (R328). -/
def State.writeSessionReg (s : State) (fn : HostFn) (n r v : Nat) : State :=
  let x := s.session n
  if !HostFn.owns fn x.owner then s
  else if x.isOpen then
    (if r = 0 && !bit v 63 then s.modSession n fun y => { y with isOpen := false } else s)
  else
    match r with
    | 0x00 =>
      let s := s.modSession n fun y => { y with owner := if fnIsPf fn then bits v 55 52 else y.owner, ibase := bits v 47 6 * 64 }
      if bit v 63 then s.openSession n else s
    | 0x08 => s.modSession n fun y => { y with inslot := bits v 27 16, isz := bits v 9 0 }
    | 0x10 => s.modSession n fun y => { y with peer := BitVec.ofNat 128 (y.peer.toNat / 2 ^ 64 * 2 ^ 64 + v) }
    | 0x18 => s.modSession n fun y => { y with peer := BitVec.ofNat 128 (v * 2 ^ 64 + y.peer.toNat % 2 ^ 64) }
    | 0x20 => s.modSession n fun y => { y with jobid := BitVec.ofNat 24 v }
    | 0x28 => s.modSession n fun y => { y with lastseq := w64 v }
    | 0x30 => s.modSession n fun y => { y with safeva := bits v 47 6 * 64 }
    | _ => s

/-- A write of 8 bytes at an 8-byte-aligned offset; without `low` its lower half is what stood there. -/
def State.hostWrite (s : State) (fn : HostFn) (secure : Bool) (off v : Nat) (low : Bool) : State :=
  if off = 8 then
    (if !fnIsPf fn || !low then s
     else if v % 16 = 1 && !s.boot.hingeLost then s.warmReset
     else if v % 16 = 2 then s.coldReset
     else s)
  else if !s.boot.ready || !s.honoured fn secure then s
  else if inBlock off 0x20000 0x4000 then s.writeQueueReg fn ((off - 0x20000) / 64) (off % 64) v low
  else if inBlock off 0x30000 0x2000 then
    (if s.reachesCq fn ((off - 0x30000) / 32) then s.writeCqReg ((off - 0x30000) / 32) (off % 32) v else s)
  else if inBlock off 0x40000 0x20 then s.writeRingReg (fnRing fn) (off - 0x40000) v low
  else if inBlock off 0x50000 0x200 then s.writeTranslationReg fn ((off - 0x50000) / 32) (off % 32) v low
  else if inBlock off 0x60000 0x1000 then
    (if fnIsPf fn then s.writeCasementReg ((off - 0x60000) / 0x100) (off % 0x100) v low else s)
  else if inBlock off 0x70000 0x180 then (if fnIsPf fn then s.writeEndpointReg (off - 0x70000) v else s)
  else if inBlock off 0x80000 0x4000 then
    (if fnIsPf fn then s.writeChannelReg ((off - 0x80000) / 32) (off % 32) v low else s)
  else if inBlock off 0x1000000 0x400000 then s.writeSessionReg fn ((off - 0x1000000) / 64) (off % 64) v
  else s

/-- REGISTER_WRITE: a host write to BAR0: of 8 bytes at an 8-byte-aligned offset, of the upper 4 bytes of such a word at an offset of 4 more (log entry
47). An offset the table of R321 does not name, or that a function does not reach, discards it. -/
def execRegisterWrite (fn : HostFn) (secure : Bool) (offset : Nat) (value : W64) (s : State) : Host.Outcome State Fault Refusal :=
  if offset % 4 != 0 || decide (0x2000000 ≤ offset) then .refused .eventNotEnabled
  else if offset % 8 = 0 then .next (s.hostWrite fn secure offset value.toNat true)
  else
    let off := offset - 4
    .next (s.hostWrite fn secure off (value.toNat % 2 ^ 32 * 2 ^ 32 + s.hostRead fn secure off % 2 ^ 32) false)

end Sys2Proof.Machine
end

