-- ==== Sys2Proof/Machine/Dispatch.lean ====
section
/-! DEFINITION. The meaning of every instruction: one arm for each constructor, one direct call for each arm. -/

namespace Sys2Proof.Machine

/-- What one instruction does in a state. -/
def exec (i : Instr) (s : State) : Host.Outcome State Fault Refusal :=
  match i with
  | .nop h => Sys2Proof.Machine.execNop h s
  | .trap h a => Sys2Proof.Machine.execTrap h a s
  | .eret h => Sys2Proof.Machine.execEret h s
  | .eretSa h a => Sys2Proof.Machine.execEretSa h a s
  | .brk h => Sys2Proof.Machine.execBrk h s
  | .fenceFull h sc => Sys2Proof.Machine.execFenceFull h sc s
  | .fenceAcq h sc => Sys2Proof.Machine.execFenceAcq h sc s
  | .fenceRel h sc => Sys2Proof.Machine.execFenceRel h sc s
  | .xfence h => Sys2Proof.Machine.execXfence h s
  | .step h l => Sys2Proof.Machine.execStep h l s
  | .realign h a => Sys2Proof.Machine.execRealign h a s
  | .rcmt h a b => Sys2Proof.Machine.execRcmt h a b s
  | .tail h => Sys2Proof.Machine.execTail h s
  | .msel h m => Sys2Proof.Machine.execMsel h m s
  | .idle h n => Sys2Proof.Machine.execIdle h n s
  | .rgnT h b sc m => Sys2Proof.Machine.execRgnT h b sc m s
  | .rgn h b sc m => Sys2Proof.Machine.execRgn h b sc m s
  | .csrr h d c => Sys2Proof.Machine.execCsrr h d c s
  | .csrw h a c => Sys2Proof.Machine.execCsrw h a c s
  | .add h d a b => Sys2Proof.Machine.execAdd h d a b s
  | .sub h d a b => Sys2Proof.Machine.execSub h d a b s
  | .and h d a b => Sys2Proof.Machine.execAnd h d a b s
  | .or h d a b => Sys2Proof.Machine.execOr h d a b s
  | .xor h d a b => Sys2Proof.Machine.execXor h d a b s
  | .shl h d a b => Sys2Proof.Machine.execShl h d a b s
  | .shr h d a b => Sys2Proof.Machine.execShr h d a b s
  | .sra h d a b => Sys2Proof.Machine.execSra h d a b s
  | .slt h d a b => Sys2Proof.Machine.execSlt h d a b s
  | .sltu h d a b => Sys2Proof.Machine.execSltu h d a b s
  | .min h d a b => Sys2Proof.Machine.execMin h d a b s
  | .max h d a b => Sys2Proof.Machine.execMax h d a b s
  | .minu h d a b => Sys2Proof.Machine.execMinu h d a b s
  | .maxu h d a b => Sys2Proof.Machine.execMaxu h d a b s
  | .mul h d a b => Sys2Proof.Machine.execMul h d a b s
  | .mulh h d a b => Sys2Proof.Machine.execMulh h d a b s
  | .mulhu h d a b => Sys2Proof.Machine.execMulhu h d a b s
  | .div h d a b => Sys2Proof.Machine.execDiv h d a b s
  | .divu h d a b => Sys2Proof.Machine.execDivu h d a b s
  | .rem h d a b => Sys2Proof.Machine.execRem h d a b s
  | .remu h d a b => Sys2Proof.Machine.execRemu h d a b s
  | .clz h d a w => Sys2Proof.Machine.execClz h d a w s
  | .ffs h d a w => Sys2Proof.Machine.execFfs h d a w s
  | .popc h d a w => Sys2Proof.Machine.execPopc h d a w s
  | .addi h d a k => Sys2Proof.Machine.execAddi h d a k s
  | .andi h d a k => Sys2Proof.Machine.execAndi h d a k s
  | .ori h d a k => Sys2Proof.Machine.execOri h d a k s
  | .xori h d a k => Sys2Proof.Machine.execXori h d a k s
  | .slti h d a k => Sys2Proof.Machine.execSlti h d a k s
  | .shli h d a n => Sys2Proof.Machine.execShli h d a n s
  | .shri h d a n => Sys2Proof.Machine.execShri h d a n s
  | .srai h d a n => Sys2Proof.Machine.execSrai h d a n s
  | .li h d k => Sys2Proof.Machine.execLi h d k s
  | .lit h d k => Sys2Proof.Machine.execLit h d k s
  | .lith h d k => Sys2Proof.Machine.execLith h d k s
  | .ldB h d a n => Sys2Proof.Machine.execLdB h d a n s
  | .ldBu h d a n => Sys2Proof.Machine.execLdBu h d a n s
  | .ldH h d a n => Sys2Proof.Machine.execLdH h d a n s
  | .ldHu h d a n => Sys2Proof.Machine.execLdHu h d a n s
  | .ldW h d a n => Sys2Proof.Machine.execLdW h d a n s
  | .ldWu h d a n => Sys2Proof.Machine.execLdWu h d a n s
  | .ldD h d a n => Sys2Proof.Machine.execLdD h d a n s
  | .ldDAq h d a n => Sys2Proof.Machine.execLdDAq h d a n s
  | .stB h v a n => Sys2Proof.Machine.execStB h v a n s
  | .stH h v a n => Sys2Proof.Machine.execStH h v a n s
  | .stW h v a n => Sys2Proof.Machine.execStW h v a n s
  | .stD h v a n => Sys2Proof.Machine.execStD h v a n s
  | .stWRl h v a n => Sys2Proof.Machine.execStWRl h v a n s
  | .stDRl h v a n => Sys2Proof.Machine.execStDRl h v a n s
  | .amocAdd h a b d z => Sys2Proof.Machine.execAmocAdd h a b d z s
  | .amocAnd h a b d z => Sys2Proof.Machine.execAmocAnd h a b d z s
  | .amocOr h a b d z => Sys2Proof.Machine.execAmocOr h a b d z s
  | .amocXor h a b d z => Sys2Proof.Machine.execAmocXor h a b d z s
  | .amocXchg h a b d z => Sys2Proof.Machine.execAmocXchg h a b d z s
  | .amocMax h a b d z => Sys2Proof.Machine.execAmocMax h a b d z s
  | .amocMin h a b d z => Sys2Proof.Machine.execAmocMin h a b d z s
  | .amocCas h a b d z => Sys2Proof.Machine.execAmocCas h a b d z s
  | .beq h a b k => Sys2Proof.Machine.execBeq h a b k s
  | .bne h a b k => Sys2Proof.Machine.execBne h a b k s
  | .blt h a b k => Sys2Proof.Machine.execBlt h a b k s
  | .bge h a b k => Sys2Proof.Machine.execBge h a b k s
  | .bltu h a b k => Sys2Proof.Machine.execBltu h a b k s
  | .bgeu h a b k => Sys2Proof.Machine.execBgeu h a b k s
  | .beqz h a k => Sys2Proof.Machine.execBeqz h a k s
  | .bnez h a k => Sys2Proof.Machine.execBnez h a k s
  | .loop h a k => Sys2Proof.Machine.execLoop h a k s
  | .jmp h k => Sys2Proof.Machine.execJmp h k s
  | .jal h k => Sys2Proof.Machine.execJal h k s
  | .jr h a => Sys2Proof.Machine.execJr h a s
  | .bstat h a b k => Sys2Proof.Machine.execBstat h a b k s
  | .vadd h d a b m => Sys2Proof.Machine.execVadd h d a b m s
  | .vsub h d a b m => Sys2Proof.Machine.execVsub h d a b m s
  | .vmul h d a b m => Sys2Proof.Machine.execVmul h d a b m s
  | .vmin h d a b m => Sys2Proof.Machine.execVmin h d a b m s
  | .vmax h d a b m => Sys2Proof.Machine.execVmax h d a b m s
  | .vabsd h d a b m => Sys2Proof.Machine.execVabsd h d a b m s
  | .vmov h d a m => Sys2Proof.Machine.execVmov h d a m s
  | .vsel h d a b => Sys2Proof.Machine.execVsel h d a b s
  | .vfma h d a b m => Sys2Proof.Machine.execVfma h d a b m s
  | .vfms h d a b m => Sys2Proof.Machine.execVfms h d a b m s
  | .vfnma h d a b m => Sys2Proof.Machine.execVfnma h d a b m s
  | .viadd h d a b m => Sys2Proof.Machine.execViadd h d a b m s
  | .visub h d a b m => Sys2Proof.Machine.execVisub h d a b m s
  | .vimul h d a b m => Sys2Proof.Machine.execVimul h d a b m s
  | .vimin h d a b m => Sys2Proof.Machine.execVimin h d a b m s
  | .vimax h d a b m => Sys2Proof.Machine.execVimax h d a b m s
  | .vand h d a b m => Sys2Proof.Machine.execVand h d a b m s
  | .vor h d a b m => Sys2Proof.Machine.execVor h d a b m s
  | .vxor h d a b m => Sys2Proof.Machine.execVxor h d a b m s
  | .vshl h d a b m => Sys2Proof.Machine.execVshl h d a b m s
  | .vshr h d a b m => Sys2Proof.Machine.execVshr h d a b m s
  | .vsra h d a b m => Sys2Proof.Machine.execVsra h d a b m s
  | .vclz h d a w m => Sys2Proof.Machine.execVclz h d a w m s
  | .vffs h d a w m => Sys2Proof.Machine.execVffs h d a w m s
  | .vpopc h d a w m => Sys2Proof.Machine.execVpopc h d a w m s
  | .vcmpFeq h d a b m => Sys2Proof.Machine.execVcmpFeq h d a b m s
  | .vcmpFlt h d a b m => Sys2Proof.Machine.execVcmpFlt h d a b m s
  | .vcmpFle h d a b m => Sys2Proof.Machine.execVcmpFle h d a b m s
  | .vcmpFun h d a b m => Sys2Proof.Machine.execVcmpFun h d a b m s
  | .vcmpIeq h d a b m => Sys2Proof.Machine.execVcmpIeq h d a b m s
  | .vcmpIlt h d a b m => Sys2Proof.Machine.execVcmpIlt h d a b m s
  | .vcmpIltu h d a b m => Sys2Proof.Machine.execVcmpIltu h d a b m s
  | .vcvtNar h d a t m sc r => Sys2Proof.Machine.execVcvtNar h d a t m sc r s
  | .vcvtWid h d a t m => Sys2Proof.Machine.execVcvtWid h d a t m s
  | .vsfnExp2 h d a m => Sys2Proof.Machine.execVsfnExp2 h d a m s
  | .vsfnLog2 h d a m => Sys2Proof.Machine.execVsfnLog2 h d a m s
  | .vsfnRcp h d a m => Sys2Proof.Machine.execVsfnRcp h d a m s
  | .vsfnRsqrt h d a m => Sys2Proof.Machine.execVsfnRsqrt h d a m s
  | .vsfnSqrt h d a m => Sys2Proof.Machine.execVsfnSqrt h d a m s
  | .vsfnTanh h d a m => Sys2Proof.Machine.execVsfnTanh h d a m s
  | .vsfnSigm h d a m => Sys2Proof.Machine.execVsfnSigm h d a m s
  | .vsfnSilu h d a m => Sys2Proof.Machine.execVsfnSilu h d a m s
  | .vrotr h d a n m => Sys2Proof.Machine.execVrotr h d a n m s
  | .vrotrHi h d a n m => Sys2Proof.Machine.execVrotrHi h d a n m s
  | .vrotc h d a n m => Sys2Proof.Machine.execVrotc h d a n m s
  | .vbcr h d a c m => Sys2Proof.Machine.execVbcr h d a c m s
  | .vbcrHi h d a c m => Sys2Proof.Machine.execVbcrHi h d a c m s
  | .vbcc h d a r m => Sys2Proof.Machine.execVbcc h d a r m s
  | .vredrAdd h d a m => Sys2Proof.Machine.execVredrAdd h d a m s
  | .vredrMax h d a m => Sys2Proof.Machine.execVredrMax h d a m s
  | .vredrMin h d a m => Sys2Proof.Machine.execVredrMin h d a m s
  | .vredrIadd h d a m => Sys2Proof.Machine.execVredrIadd h d a m s
  | .vredcAdd h d a m => Sys2Proof.Machine.execVredcAdd h d a m s
  | .vredcMax h d a m => Sys2Proof.Machine.execVredcMax h d a m s
  | .vredcMin h d a m => Sys2Proof.Machine.execVredcMin h d a m s
  | .vredcIadd h d a m => Sys2Proof.Machine.execVredcIadd h d a m s
  | .vbcs h d a m => Sys2Proof.Machine.execVbcs h d a m s
  | .vext h d a c => Sys2Proof.Machine.execVext h d a c s
  | .vextHi h d a c => Sys2Proof.Machine.execVextHi h d a c s
  | .vrand h d a m => Sys2Proof.Machine.execVrand h d a m s
  | .osmx h e a b => Sys2Proof.Machine.execOsmx h e a b s
  | .osmf h d e => Sys2Proof.Machine.execOsmf h d e s
  | .pcfg h g a => Sys2Proof.Machine.execPcfg h g a s
  | .prwd h g => Sys2Proof.Machine.execPrwd h g s
  | .shld h x a => Sys2Proof.Machine.execShld h x a s
  | .mma h c a b z f r => Sys2Proof.Machine.execMma h c a b z f r s
  | .lmma h c q w z f => Sys2Proof.Machine.execLmma h c q w z f s
  | .tbuildZ h q a => Sys2Proof.Machine.execTbuildZ h q a s
  | .tbuildC h q a => Sys2Proof.Machine.execTbuildC h q a s
  | .tbuildC2 h q a => Sys2Proof.Machine.execTbuildC2 h q a s
  | .tinv h q => Sys2Proof.Machine.execTinv h q s
  | .tspill h q a => Sys2Proof.Machine.execTspill h q a s
  | .tfill h q a => Sys2Proof.Machine.execTfill h q a s
  | .cbld h a => Sys2Proof.Machine.execCbld h a s
  | .epi h a => Sys2Proof.Machine.execEpi h a s
  | .cpy h a => Sys2Proof.Machine.execCpy h a s
  | .saccFadd h d x v => Sys2Proof.Machine.execSaccFadd h d x v s
  | .saccFmax h d x v => Sys2Proof.Machine.execSaccFmax h d x v s
  | .saccFmin h d x v => Sys2Proof.Machine.execSaccFmin h d x v s
  | .saccIadd h d x v => Sys2Proof.Machine.execSaccIadd h d x v s
  | .arm h a b => Sys2Proof.Machine.execArm h a b s
  | .await h a b => Sys2Proof.Machine.execAwait h a b s
  | .arrv h a b => Sys2Proof.Machine.execArrv h a b s
  | .awaitX h a b => Sys2Proof.Machine.execAwaitX h a b s
  | .xgrant h a b k => Sys2Proof.Machine.execXgrant h a b k s
  | .xsend h a b k => Sys2Proof.Machine.execXsend h a b k s
  | .xstat h a d => Sys2Proof.Machine.execXstat h a d s
  | .emit h a b => Sys2Proof.Machine.execEmit h a b s
  | .mirr h a b => Sys2Proof.Machine.execMirr h a b s
  | .tsub h a b => Sys2Proof.Machine.execTsub h a b s
  | .qctl h a b => Sys2Proof.Machine.execQctl h a b s
  | .tlbiCasement core => Sys2Proof.Machine.execTlbiCasement core s
  | .tlbiPage core => Sys2Proof.Machine.execTlbiPage core s
  | .resultLands core id => Sys2Proof.Machine.execResultLands core id s
  | .loadValueLands id => Sys2Proof.Machine.execLoadValueLands id s
  | .amocOldValueLands id => Sys2Proof.Machine.execAmocOldValueLands id s
  | .regionAlignment core => Sys2Proof.Machine.execRegionAlignment core s
  | .closingAlignment core => Sys2Proof.Machine.execClosingAlignment core s
  | .realignVisible casement die => Sys2Proof.Machine.execRealignVisible casement die s
  | .budgetExceeded core => Sys2Proof.Machine.execBudgetExceeded core s
  | .taskBudgetExpiry task => Sys2Proof.Machine.execTaskBudgetExpiry task s
  | .softErrorReexec core site => Sys2Proof.Machine.execSoftErrorReexec core site s
  | .dispatchDecision => Sys2Proof.Machine.execDispatchDecision s
  | .queueRecordRead queue => Sys2Proof.Machine.execQueueRecordRead queue s
  | .waitRecheck queue => Sys2Proof.Machine.execWaitRecheck queue s
  | .markRecord queue => Sys2Proof.Machine.execMarkRecord queue s
  | .waitFaultTimeout queue => Sys2Proof.Machine.execWaitFaultTimeout queue s
  | .preemptRequest core => Sys2Proof.Machine.execPreemptRequest core s
  | .saveComplete core => Sys2Proof.Machine.execSaveComplete core s
  | .saveFault core => Sys2Proof.Machine.execSaveFault core s
  | .completionEntryWrite cq => Sys2Proof.Machine.execCompletionEntryWrite cq s
  | .cqInterrupt cq => Sys2Proof.Machine.execCqInterrupt cq s
  | .trackerEntryFree core task => Sys2Proof.Machine.execTrackerEntryFree core task s
  | .heldEffectDrain core id => Sys2Proof.Machine.execHeldEffectDrain core id s
  | .copyBeat core id => Sys2Proof.Machine.execCopyBeat core id s
  | .portDrain core port => Sys2Proof.Machine.execPortDrain core port s
  | .engineCommandStart core unit => Sys2Proof.Machine.execEngineCommandStart core unit s
  | .mmaStep core => Sys2Proof.Machine.execMmaStep core s
  | .mmaComplete core => Sys2Proof.Machine.execMmaComplete core s
  | .lmmaLookup core => Sys2Proof.Machine.execLmmaLookup core s
  | .lmmaComplete core => Sys2Proof.Machine.execLmmaComplete core s
  | .tbuildComplete core => Sys2Proof.Machine.execTbuildComplete core s
  | .epiComplete core => Sys2Proof.Machine.execEpiComplete core s
  | .saccUpdate core => Sys2Proof.Machine.execSaccUpdate core s
  | .tinvComplete core => Sys2Proof.Machine.execTinvComplete core s
  | .tspillComplete core => Sys2Proof.Machine.execTspillComplete core s
  | .tfillComplete core => Sys2Proof.Machine.execTfillComplete core s
  | .grantArrival id => Sys2Proof.Machine.execGrantArrival id s
  | .transomGroupLands id => Sys2Proof.Machine.execTransomGroupLands id s
  | .mirrorAreaComplete core area => Sys2Proof.Machine.execMirrorAreaComplete core area s
  | .chunkAtEndpoint id => Sys2Proof.Machine.execChunkAtEndpoint id s
  | .translationWalk id => Sys2Proof.Machine.execTranslationWalk id s
  | .remoteStoreApply die id => Sys2Proof.Machine.execRemoteStoreApply die id s
  | .migrationSwitch => Sys2Proof.Machine.execMigrationSwitch s
  | .fleetAnchorRewrite casement => Sys2Proof.Machine.execFleetAnchorRewrite casement s
  | .ptpSync grandmaster => Sys2Proof.Machine.execPtpSync grandmaster s
  | .holdover => Sys2Proof.Machine.execHoldover s
  | .ptpPortRebind => Sys2Proof.Machine.execPtpPortRebind s
  | .sessionIngress session head payload => Sys2Proof.Machine.execSessionIngress session head payload s
  | .dieHeartbeat die => Sys2Proof.Machine.execDieHeartbeat die s
  | .dieLossDeclared die => Sys2Proof.Machine.execDieLossDeclared die s
  | .clockLockLoss die => Sys2Proof.Machine.execClockLockLoss die s
  | .hingeClockLoss => Sys2Proof.Machine.execHingeClockLoss s
  | .powerOfferTick => Sys2Proof.Machine.execPowerOfferTick s
  | .powerRebalance => Sys2Proof.Machine.execPowerRebalance s
  | .thermalHoldEnter stack => Sys2Proof.Machine.execThermalHoldEnter stack s
  | .thermalHoldExit stack => Sys2Proof.Machine.execThermalHoldExit stack s
  | .hbmSlotService channel link => Sys2Proof.Machine.execHbmSlotService channel link s
  | .usageWindowClose casement => Sys2Proof.Machine.execUsageWindowClose casement s
  | .usageRecordComplete casement => Sys2Proof.Machine.execUsageRecordComplete casement s
  | .scrubUnitDone casement => Sys2Proof.Machine.execScrubUnitDone casement s
  | .bootStage => Sys2Proof.Machine.execBootStage s
  | .vfFlr vf => Sys2Proof.Machine.execVfFlr vf s
  | .faultEntryWrite ring => Sys2Proof.Machine.execFaultEntryWrite ring s
  | .hostAccess fn secure pa access => Sys2Proof.Machine.execHostAccess fn secure pa access s
  | .sublinkRetire port lane => Sys2Proof.Machine.execSublinkRetire port lane s
  | .start queue => Sys2Proof.Machine.execStart queue s
  | .stop queue => Sys2Proof.Machine.execStop queue s
  | .setrd queue index => Sys2Proof.Machine.execSetrd queue index s
  | .qwrWrite fn queue value => Sys2Proof.Machine.execQwrWrite fn queue value s
  | .create casement => Sys2Proof.Machine.execCreate casement s
  | .teardown casement => Sys2Proof.Machine.execTeardown casement s
  | .drain casement => Sys2Proof.Machine.execDrain casement s
  | .resume casement => Sys2Proof.Machine.execResume casement s
  | .clrsave casement => Sys2Proof.Machine.execClrsave casement s
  | .quotaWrite casement field value => Sys2Proof.Machine.execQuotaWrite casement field value s
  | .warmReset => Sys2Proof.Machine.execWarmReset s
  | .coldReset => Sys2Proof.Machine.execColdReset s
  | .retry ring index => Sys2Proof.Machine.execRetry ring index s
  | .abort ring index => Sys2Proof.Machine.execAbort ring index s
  | .htlbiCasement casement => Sys2Proof.Machine.execHtlbiCasement casement s
  | .htlbiPage casement va => Sys2Proof.Machine.execHtlbiPage casement va s
  | .s2invAll casement => Sys2Proof.Machine.execS2invAll casement s
  | .s2invIpa casement ipa => Sys2Proof.Machine.execS2invIpa casement ipa s
  | .sessionOpen session => Sys2Proof.Machine.execSessionOpen session s
  | .sessionClose session => Sys2Proof.Machine.execSessionClose session s
  | .sublinkTableWrite port value => Sys2Proof.Machine.execSublinkTableWrite port value s
  | .migrationStart oldPa newPa size => Sys2Proof.Machine.execMigrationStart oldPa newPa size s
  | .migrationRelease => Sys2Proof.Machine.execMigrationRelease s
  | .fuseAdvance svn => Sys2Proof.Machine.execFuseAdvance svn s
  | .registerWrite fn secure offset value => Sys2Proof.Machine.execRegisterWrite fn secure offset value s
  | .instructionFetchComplete core seq address => Sys2Proof.Machine.execInstructionFetchComplete core seq address s
  | .ethernetPortStateChange port up => Sys2Proof.Machine.execEthernetPortStateChange port up s
  | .firmwareRetirement unit => Sys2Proof.Machine.execFirmwareRetirement unit s

end Sys2Proof.Machine
end

