-- ==== Sys2Proof/Machine/Sched.lean ====
section
/-! DEFINITION. What the part does next: the steps that are due in a cycle in the order of their phases (log entry 5), and the passing of a cycle. -/

namespace Sys2Proof.Machine

/-- What may come next. -/
inductive Move where
  /-- A step of the opcode table. -/
  | event (i : Instr)
  /-- The word of a sequencer comes to its issue. -/
  | word (core : Nat) (q : SeqId)
  /-- The faults of a core are settled at the end of the cycle (R274). -/
  | settle (core : Nat)
  /-- A handler's store through the remote aperture is performed (R188, R276). -/
  | remote (id : Nat)
  deriving DecidableEq, Repr

/-- A move with its phase and its place in the phase. -/
structure Planned where
  phase : Nat
  key : Nat
  move : Move
  deriving DecidableEq, Repr

/-- Whether a die's cores issue: in service, its clock in lock (R21). -/
def State.dieRuns (s : State) (d : Nat) : Bool := (s.die d).live && !(s.die d).clockLost

/-! ### Words -/

/-- The second word that a word needs, if any (R74, R388). -/
def Seq.pairReady (x : Seq) (f : Fetched) : Bool := f.fault != 0 || !isPair f.word || (x.wordAt ((x.pc + 4) % 2 ^ 64)).isSome

/-- The fetched word that a sequencer issues next, with its second word there; a mark of a stage-2 fault stands for a word not fetched (R292). -/
def Seq.ready? (x : Seq) : Option Fetched :=
  match x.wordAt x.pc with
  | none => none
  | some f => if f.fault = cXlateS2 || !x.pairReady f then none else some f

/-- IDLE of a word (R39, R75). -/
def idleOf (w : W32) : Nat := (w.extractLsb' 25 3).toNat

/-- The cycle at which the next word is to issue, once it is known (R39). -/
def Seq.dueAt (x : Seq) (f : Fetched) : Nat := x.retry.getD (x.base + (if f.fault = 0 then idleOf f.word else 0))

/-- Whether a sequencer may issue words at all (R58, R276). -/
def Core.issues (k : Core) (q : SeqId) : Bool :=
  (k.seq q).st == .run && k.task.isSome &&
  (k.phase == .gap || k.phase == .align || k.phase == .run || (k.phase == .trapped && q == .ct))

/-- Whether a sequencer's word is due; in a timed region a pair whose second word has not come is due to miss at its cycle (R388), and a word whose fetch outlasts
every IDLE it might have (R288, log entry 17). -/
def Core.wordDue (k : Core) (q : SeqId) (now : Nat) : Bool :=
  let x := k.seq q
  k.issues q &&
  (match x.ready? with
   | some f => decide (x.dueAt f ≤ now)
   | none => k.place q == .timed && (match x.wordAt x.pc with
     | some f => if f.fault = cXlateS2 then decide (x.base + 7 ≤ now) else decide (x.dueAt f ≤ now)
     | none => decide (x.base + 7 ≤ now)))

/-! ### The moves of a core -/

/-- The phase of what lands or is read, within a cycle (log entry 5). -/
def Pay.phase : Pay → Nat
  | .reg _ _ _ _ => 1
  | .signal _ _ _ => 1
  | .csr _ _ => 1
  | .status _ => 1
  | .acquired _ => 1
  | .loaded _ => 1
  | .maskRow _ _ _ _ => 1
  | .portLand _ _ => 1
  | .rewindLand _ => 1
  | .shapeLand _ _ => 1
  | .codebookLand _ => 1
  | .xfenceDone _ _ => 1
  | .hold _ => 1
  | .loadBank _ _ _ _ _ _ _ _ _ => 3
  | .storeBank _ _ _ _ _ _ => 3
  | .rowRead _ _ => 3
  | .pushRow _ _ _ _ => 3
  | .paramRead _ _ => 3
  | .shapeRead _ _ => 3
  | .codebookRead _ => 3
  | .grantRead _ _ _ => 3
  | .sendRead _ _ _ => 3
  | .emitRead _ _ _ => 3
  | .recordRead _ _ => 3
  | .recordRest _ _ => 3
  | .saccPop _ _ _ _ _ _ => 3
  | .tbuildRow _ => 3
  | .spillBeat _ => 3
  | .fillBeat _ => 3
  | .tileRow _ _ _ _ => 4
  | .epiBeat => 4
  | .biasBeat _ _ => 4
  | .command _ _ _ => 1
  | .arriveLand _ _ => 5
  | .armLand _ _ => 6

/-- The place of a word's access among those of its cycle: issue order, then LD, CM, ST, CT (R124). -/
def orderKey (issued : Nat) (q : SeqId) : Nat := 8 * issued + 2 * seqIdx q

/-- Whether an access of the same word, of a bank, is due in this cycle too: it may put the word's signals off (R36). -/
def Core.accessDue (k : Core) (a : Act) (now : Nat) : Bool :=
  k.acts.any fun x => x.pay.phase == 3 && decide (x.due ≤ now) && x.issued == a.issued && x.by_ == a.by_

/-- The landings and reads due on a core; signals that hang on an access of this cycle come right behind it. -/
def Core.actMoves (k : Core) (c now : Nat) : List Planned :=
  (k.acts.filter fun a => decide (a.due ≤ now)).flatMap fun a =>
    if a.isTlbi then [⟨1, 0, .event (.tlbiCasement c)⟩, ⟨1, 0, .event (.tlbiPage c)⟩]
    else if a.pay.isSignal && k.accessDue a now then [⟨3, orderKey a.issued a.by_ + 1, .event (.resultLands c a.id)⟩]
    else [⟨a.pay.phase, orderKey a.issued a.by_, .event (.resultLands c a.id)⟩]

/-- The starts, steps and ends of a core's engines, each start and step at the place of its own command's word (R124, R164). -/
def Core.engineMoves (k : Core) (c : Nat) : List Planned :=
  (if k.mma.isEmpty then [] else [⟨1, 0, .event (.mmaComplete c)⟩]) ++
  (match k.runningMma with
   | some (m, _) => [⟨3, orderKey m.issued .cm, .event (.mmaStep c)⟩]
   | none => []) ++
  (match k.mma.find? fun m => m.start.isNone with
   | some m => [⟨3, orderKey m.issued .cm, .event (.engineCommandStart c .matrix)⟩]
   | none => []) ++
  (if k.lookup.isEmpty then [] else
    [⟨1, 1, .event (.lmmaComplete c)⟩, ⟨1, 1, .event (.tbuildComplete c)⟩, ⟨1, 1, .event (.tinvComplete c)⟩,
     ⟨1, 1, .event (.tspillComplete c)⟩, ⟨1, 1, .event (.tfillComplete c)⟩]) ++
  (match k.runningLookup with
   | some (m, _) => [⟨3, orderKey m.issued .cm, .event (.lmmaLookup c)⟩]
   | none => []) ++
  (match k.lookup.find? fun m => m.start.isNone with
   | some m => [⟨3, orderKey m.issued .cm, .event (.engineCommandStart c .lookup)⟩]
   | none => []) ++
  (match k.epi with
   | [] => []
   | m :: _ => [⟨3, orderKey m.issued .cm, .event (.engineCommandStart c .epilogue)⟩, ⟨4, 2 ^ 64, .event (.epiComplete c)⟩]) ++
  (match k.sacc with
   | [] => []
   | m :: _ => [⟨3, orderKey m.issued .cm, .event (.engineCommandStart c .scatter)⟩, ⟨4, 2 ^ 64, .event (.saccUpdate c)⟩])

/-- The moves of a core's region, saves, copies and drains. -/
def Core.phaseMoves (k : Core) (c now : Nat) : List Planned :=
  (k.held.filter fun h => h.released.isSome && decide (h.due ≤ now)).map
    (fun h => if h.kind.isRemote || h.kind.isEmit then ⟨4, 2 ^ 64, .event (.heldEffectDrain c h.id)⟩ else ⟨0, 1, .event (.heldEffectDrain c h.id)⟩) ++
  (k.pushes.map fun p => ⟨4, 2 ^ 64, .event (.portDrain c p.port)⟩) ++
  (k.copies.map fun cp => ⟨4, 2 ^ 64 + 1, .event (.copyBeat c cp.id)⟩) ++
  ((k.tracker.filter fun e => e.closed).map fun e => ⟨9, 1, .event (.trackerEntryFree c e.task)⟩) ++
  (match k.phase with
   | .align => [⟨2, 0, .event (.regionAlignment c)⟩]
   | .run => [⟨7, 0, .event (.budgetExceeded c)⟩, ⟨if k.timed && k.unfinished then 7 else 9, 0, .event (.closingAlignment c)⟩]
   | .saving => [⟨9, 0, .event (.saveComplete c)⟩, ⟨9, 0, .event (.saveFault c)⟩]
   | _ => []) ++
  (if k.preempt.isSome then [⟨9, 1, .event (.preemptRequest c)⟩] else []) ++
  (if k.faults.isEmpty && k.overflowed.isEmpty then [] else [⟨8, 0, .settle c⟩])

/-- The words due on a core, and the fetches that end. -/
def Core.wordMoves (k : Core) (c now : Nat) : List Planned :=
  allSeqs.flatMap fun q =>
    (if k.wordDue q now then [⟨3, orderKey now q, .word c q⟩] else []) ++
    ((k.seq q).fetching.filter fun r => !r.stalled && decide (r.due ≤ now)).map fun r =>
      ⟨0, 2, .event (.instructionFetchComplete c q r.addr)⟩

/-- Every move of a core. -/
def Core.moves (k : Core) (c now : Nat) : List Planned :=
  k.wordMoves c now ++ k.actMoves c now ++ k.engineMoves c ++ k.phaseMoves c now

/-! ### The moves outside the cores -/

/-- Landings of accesses, stores that arrive, slots of HBM4E, exchanges, mirror areas, walks. -/
def State.trafficMoves (s : State) : List Planned :=
  (s.reqs.filterMap fun r =>
    match r.st with
    | .served _ due =>
      if due ≤ s.now then
        some ⟨1, orderKey r.issued r.by_, .event (match r.kind with
          | .amoc _ _ _ _ => .amocOldValueLands r.id
          | _ => .loadValueLands r.id)⟩
      else none
    | _ => none) ++
  (s.stores.flatMap fun r => (s.liveDies.filter fun d => s.mayApply d r).map fun d => ⟨0, 0, .event (.remoteStoreApply d r.id)⟩) ++
  (s.channels.filter fun e => !e.2.queue.isEmpty).map (fun e => ⟨0, 3, .event (.hbmSlotService e.1 .clean)⟩) ++
  (s.grants.filter fun g => decide (g.due ≤ s.now)).map (fun g => ⟨1, g.id, .event (.grantArrival g.id)⟩) ++
  (s.groups.filter fun g => g.data.isSome && decide (g.due ≤ s.now)).map
    (fun g => ⟨5, 8 * g.rank + g.ch, .event (.transomGroupLands g.id)⟩) ++
  (s.mirrors.filter fun m => m.due != 0).map (fun m => ⟨0, 4, .event (.mirrorAreaComplete m.core m.area)⟩) ++
  (s.chunks.filter fun (x : Chunk) => decide (x.due ≤ s.now)).map (fun (x : Chunk) => ⟨0, 5, .event (.chunkAtEndpoint x.id)⟩) ++
  (s.reqs.filter Req.remoteStore).map (fun r => ⟨4, 2 ^ 64, .remote r.id⟩) ++
  s.walkItems.map fun w => ⟨6, 2 ^ 64 + w.1, .event (.translationWalk w.1)⟩

/-- Queues, completions, faults and tasks. -/
def State.queueMoves (s : State) : List Planned :=
  s.queues.flatMap (fun e =>
    [⟨0, 6, .event (.waitFaultTimeout e.1)⟩, ⟨0, 7, .event (.queueRecordRead e.1)⟩, ⟨0, 7, .event (.waitRecheck e.1)⟩,
     ⟨0, 7, .event (.markRecord e.1)⟩]) ++
  s.cqs.flatMap (fun e => [⟨0, 8, .event (.completionEntryWrite e.1)⟩, ⟨0, 8, .event (.cqInterrupt e.1)⟩]) ++
  (s.rings.zipIdx.filter fun e => !e.1.waiting.isEmpty).map (fun e => ⟨0, 8, .event (.faultEntryWrite e.2)⟩) ++
  s.tasks.map fun t => ⟨7, 1, .event (.taskBudgetExpiry t.id)⟩

/-- Casements, dies, power, boot, time, and the decision of the dispatch unit, which comes last. -/
def State.deviceMoves (s : State) : List Planned :=
  [⟨0, 0, .event .bootStage⟩, ⟨0, 0, .event .holdover⟩, ⟨0, 0, .event .migrationSwitch⟩, ⟨0, 0, .event .powerOfferTick⟩,
   ⟨0, 0, .event .powerRebalance⟩, ⟨10, 0, .event .dispatchDecision⟩] ++
  ((List.range 8).flatMap fun d => [⟨0, 0, .event (.dieHeartbeat d)⟩, ⟨0, 1, .event (.dieLossDeclared d)⟩]) ++
  ((List.range 16).map fun j => ⟨0, 0, .event (.thermalHoldExit j)⟩) ++
  (List.range 16).flatMap fun k =>
    [⟨0, 0, .event (.usageWindowClose k)⟩, ⟨0, 0, .event (.usageRecordComplete k)⟩, ⟨0, 0, .event (.scrubUnitDone k)⟩,
     ⟨0, 0, .event (.fleetAnchorRewrite k)⟩] ++
    (((s.casement k).coming.filter fun e => decide (e.2.1 ≤ s.now)).map fun e => ⟨0, 0, .event (.realignVisible k e.1)⟩)

/-- Whether a plan comes before another. -/
def Planned.before (a b : Planned) : Bool := decide (a.phase < b.phase) || (a.phase == b.phase && decide (a.key < b.key))

/-- A plan put in its place, behind those of the same place. -/
def insertPlan (a : Planned) : List Planned → List Planned
  | [] => [a]
  | b :: rest => if a.before b then a :: b :: rest else b :: insertPlan a rest

/-- Plans in their order. -/
def sortPlans (l : List Planned) : List Planned := l.foldl (fun acc a => insertPlan a acc) []

/-- Every move that may be due in this cycle, in its order. -/
def State.moves (s : State) : List Planned :=
  sortPlans (s.deviceMoves ++ s.queueMoves ++ s.trafficMoves ++
    (s.cores.filter fun e => s.dieRuns (dieOf e.1)).flatMap fun e => e.2.moves e.1 s.now)

/-! ### Making a move -/

/-- The counters over 15 at the end of a cycle, as faults of the signals that took them there; the counters stay at 15 (R36). -/
def Core.overflowFaults (k : Core) (now : Nat) : Core :=
  let over_ := k.overflowed.filter fun e => decide (15 < k.token e.1)
  let faults := (over_.zipIdx.filter fun e => !(over_.drop (e.2 + 1)).any fun x => x.1 == e.1.1).map fun e =>
    ({ code := cTokenOverflow, by_ := e.1.2.1, issued := now, pc := e.1.2.2, taddr := w64 e.1.1, xkind := 0, xcode := 0 } : FaultRec)
  { k with overflowed := [], tokens := k.tokens.map fun n => Min.min n 15, faults := k.faults ++ faults }

/-- The end of a core's cycle, as far as faults go (R274). -/
def State.settleCycle (s : State) (c : Nat) : State := (s.modCore c fun k => k.overflowFaults s.now).settle c

/-- What a move leads to, if it is enabled. -/
def Move.run (m : Move) (s : State) : Option State :=
  match m with
  | .event i =>
    (match exec i s with
     | .next t => some t
     | _ => none)
  | .word c q => some { s with cur := some (c, q) }
  | .settle c => some (s.settleCycle c)
  | .remote id => s.serveStore id

/-! ### A word at its issue -/

/-- A word comes to its issue: the fault that its fetch met, or what its instruction does (R72, R74, R95, R225, R388). In a timed region a word whose
fetch has ended after its cycle, or has not ended, is a SCHEDULE_MISS (R288). -/
def State.runWord (s : State) (c : Nat) (q : SeqId) : Host.Outcome State Fault Refusal :=
  let idle : State := { s with cur := none }
  match s.ctx with
  | none => .next idle
  | some x =>
    match x.x.ready? with
    | none => .next (x.held idle)
    | some f =>
      let late := x.k.place q == .timed && decide (x.x.dueAt f < s.now)
      let trap (code : Nat) (taddr : Nat) (xcode : Nat) : State :=
        idle.raise c { (x.fault idle code (w64 (if code = cMachineCheck then xcode else taddr))) with xcode := xcode }
      if late then .next (x.held idle)
      else if f.fault != 0 then .next (trap f.fault x.x.pc f.xcode)
      else
        let second : Fetched := if isPair f.word then (x.x.wordAt ((x.x.pc + 4) % 2 ^ 64)).getD f else f
        if second.fault = cXlateS2 then .next (x.held idle)
        else if second.fault != 0 then .next (trap second.fault (x.x.pc + 4) second.xcode)
        else
          match decodeWords f.word second.word with
          | .error _ => .next (trap cIllegalOp f.word.toNat 0)
          | .ok i =>
            match exec i s with
            | .next t => .next { t with cur := none }
            | .fault r => .fault r
            | .refused r => .refused r

/-! ### A word placed for the next step (log entry 3) -/

/-- A sequencer that may execute a word of the opcode table (R97). -/
def seqFor (w : Nat) : SeqId :=
  let op := w / 2 ^ 19 % 64
  let fn := w % 16
  if op = 0x00 then (if fn = 5 || fn = 10 then .cm else .ct)
  else if op = 0x2e then (if w / 2 ^ 14 % 32 < 4 then .ld else .st)
  else if op = 0x2f then .ld
  else if (0x21 ≤ op && op ≤ 0x2d) || (0x30 ≤ op && op ≤ 0x34) || op = 0x36 then .cm
  else .ct

/-- Where an instruction may stand: in a gap, in handler mode, or in a tokened region (R58, R276, R392). -/
def placeFor (i : Option Instr) : Place :=
  match i with
  | some (.rgn _ _ _ _) => .gap
  | some (.rgnT _ _ _ _) => .gap
  | some (.step _ _) => .gap
  | some (.tail _) => .gap
  | some (.eret _) => .handler
  | some (.eretSa _ _) => .handler
  | _ => .tokened

/-- A batch task on core 0, as a queue of casement 0 might have brought it. -/
def placedTask (id : Nat) : Task :=
  { id := id, casement := 0, queue := 0, record := [1, 2, 1, 0, 1] ++ List.replicate 123 0, ladder := [[0x1000, 0x1000, 0x1000, 0x1000, 2 ^ 31]]
    chtab := [], st := .running, order := 0, tok := 0, window := 0, level := 0, cores := [0], shadow := [], retries := 0
    budget := 2 ^ 31, counting := true, status := .done, code := 0, freed := [], thermal := false, saveFaults := 0, savedCores := []
    unmirrored := false, launched := true, readyAt := 0, holds := [], units := [], park := none }

/-- The phase of a core in which words stand at a place. -/
def Place.phase : Place → Phase
  | .gap => .gap
  | .timed => .run
  | .tokened => .run
  | .handler => .trapped

/-- Core 0 with an instruction's words prefetched where one of its sequencers issues next. -/
def placedCore (id now nbits w : Nat) : Core :=
  let v := w % 2 ^ nbits
  let q := seqFor v
  let word (a n : Nat) : Fetched := { addr := a, word := BitVec.ofNat 32 n, fault := 0, xcode := 0 }
  let k : Core := { Core.idle with task := some id, phase := (placeFor (decodeTableWord nbits w)).phase }
  k.setSeq q
    { Seq.idle with st := .run, pc := 0x1000, base := now, gapStart := 0x1000, fetched := [word 0x1000 (v % 2 ^ 32), word 0x1004 (v / 2 ^ 32)] }

/-- The state in which the next step issues an instruction: casement 0 active, a task of it on core 0, the instruction's words at the program
counter of a sequencer that may execute it, which stands at its issue. -/
def State.placeWord (s : State) (nbits w : Nat) : State :=
  let id := s.taskNo
  let s := (s.setCore 0 (placedCore id s.now nbits w)).modCasement 0 fun x => { x with st := .active }
  { s with
    cur := some (0, seqFor (w % 2 ^ nbits)), taskNo := s.taskNo + 1, tasks := s.tasks ++ [placedTask id]
    boot := { s.boot with ready := true, stage := 6, nextAt := none, hingeLost := false } }

/-! ### Inputs -/

/-- Whether a host access must wait. -/
def State.hostWaits (s : State) (i : Instr) : Bool :=
  match i with
  | .hostAccess _ _ pa access => s.hostStalls pa access
  | _ => false

/-- Whether an input can have an effect once the hinge clock is lost (R459). -/
def Instr.survives : Instr → Bool
  | .coldReset => true
  | .registerWrite _ _ _ _ => true
  | .hostAccess _ _ _ (.bar _) => true
  | _ => false

/-- Whether an input is an access of the host to memory, and whether it writes. -/
def Instr.hostMemory : Instr → Option Bool
  | .hostAccess _ _ _ (.bar _) => none
  | .hostAccess _ _ _ (.read _) => some false
  | .hostAccess _ _ _ _ => some true
  | _ => none

/-- The first input that has come and need not wait; no access of the host to memory passes an earlier write that waits (R222). -/
def State.nextInput (s : State) : Bool → List (Nat × Instr) → Option (Nat × Instr)
  | _, [] => none
  | behind, e :: rest =>
    if s.now < e.1 then State.nextInput s behind rest
    else if s.hostWaits e.2 || (behind && (Instr.hostMemory e.2).isSome) then State.nextInput s (behind || Instr.hostMemory e.2 == some true) rest
    else some e

/-- The input that comes next in this cycle, and what it leads to; one that is not enabled passes without effect. -/
def State.takeInput (s : State) : Option (Host.Outcome State Fault Refusal) :=
  match s.nextInput false s.inputs with
  | none => none
  | some e =>
    let s := { s with inputs := s.inputs.erase e }
    if s.boot.hingeLost && !Instr.survives e.2 then some (.next s) else
    match exec e.2 s with
    | .next t => some (.next t)
    | .fault f => some (.fault f)
    | .refused _ => some (.next s)

/-! ### The passing of a cycle -/

/-- The addresses a sequencer wants fetched: 64 words from its program counter, the region window, the return window (R225, R357, R382). -/
def Core.wanted (k : Core) (q : SeqId) : List Nat :=
  let ahead := (List.range 64).map fun i => ((k.seq q).pc + 4 * i) % 2 ^ 64
  (ahead ++ k.windows q).eraseDups

/-- A sequencer's words kept and the fetches it asks for; one fetch a cycle, after a latency that is not fixed. What a FENCE.FULL has discarded is fetched
afresh: outside the windows, which outlast the fence, it is not assured until it has come (R225, R357, R382, log entry 85). -/
def Seq.fetch (x : Seq) (wanted : List Nat) (needed window : Nat → Bool) (start : Nat) : Seq :=
  let kept := x.fetched.filter fun f => wanted.contains f.addr && !(f.fault == cXlateS2 && needed f.addr)
  let asked := x.fetching.filter fun r => wanted.contains r.addr
  let missing := wanted.filter fun a => !(kept.any fun f => f.addr == a) && !(asked.any fun r => r.addr == a)
  { x with
    cold := false, fetched := kept
    fetching := asked ++ missing.zipIdx.map fun (a, i) => { addr := a, due := start + i, stalled := false, sure := !x.cold || window a } }

/-- Whether a sequencer fetches. -/
def SeqState.fetches : SeqState → Bool
  | .off => false
  | .trapHeld => false
  | _ => true

/-- The fetches of a core. -/
def State.fetchCore (s : State) (c : Nat) : State :=
  allSeqs.foldl (fun s q =>
    let k := s.core c
    if k.task.isNone || k.phase == .saving || k.phase == .saved || k.phase == .idle || !(k.seq q).st.fetches then s
    else
      let (due, s) := s.drawDue
      (s.modCore c fun k => k.modSeq q fun x => x.fetch (k.wanted q) (k.needed q) (k.windows q).contains due).fetchAssured c q) s

/-- What the cycle's end does on the cores that run: power for what waits at RGNs (R25), fetches. -/
def State.endCores (s : State) : State :=
  (s.cores.filter fun e => s.dieRuns (dieOf e.1)).foldl (fun s e => (s.grantPower e.1).fetchCore e.1) s

/-- The budgets of the tasks that run count the cycle (R53). -/
def State.countBudgets (s : State) : State :=
  { s with tasks := s.tasks.map fun t => if s.budgetCounts t then { t with budget := t.budget - 1 } else t }

/-- The core-cycles of each casement and class (R305). -/
def State.countCycles (s : State) : State :=
  s.cores.foldl (fun s (_, k) =>
    match k.task.bind s.task? with
    | some t =>
      if t.readyAt ≤ s.now && k.phase != .saving && k.phase != .idle then
        s.modCasement t.casement fun x => { x with usage := { x.usage with cycles := x.usage.cycles.modify t.klass (· + 1) } }
      else s
    | none => s) s

/-- FTIME moved on by a cycle: 0.8 ns, slewed (R325). -/
def Fleet.advance (f : Fleet) : Fleet := { f with sub := f.sub + ((8000000 : Int) + 8 * f.slew).toNat }

/-- A core at the start of a cycle: which tables are VALID, and no byte written yet (R183, R354). -/
def Core.startCycle (k : Core) : Core := { k with tables := k.tables.map fun t => { t with was := t.st == .valid }, wlog := [], vnew := 0, vcsrw := false }

/-- The lines that the TFILLs under way ask memory for, once every page of an image is translated (R185). -/
def State.askFills (s : State) : State :=
  s.cores.foldl (fun s (c, k) =>
    match k.runningLookup with
    | some (m, _) =>
      (match m.kind with
       | .tfill _ sa => if !m.xl.isEmpty && m.xl.all XlState.isDone && decide (64 * m.asked < spillSize) then s.askFill c m sa else s
       | _ => s)
    | none => s) s

/-- The entries into handlers that waited, tried again (R318, R345). -/
def State.retryEntries (s : State) : State :=
  s.cores.foldl (fun s (c, k) => if k.entryHot && k.entryWaits then s.handlerStart c else s) s

/-- The rescaling that a channel retired by its link leaves due (R308, R315). -/
def State.rescaleIfDue (s : State) : State := if s.rescaleDue then { s with rescaleDue := false }.rescaleAll else s

/-- What waited for memory outside the channels' queues, at the start of a cycle: the transfers still to be carried, then entries into handlers, signal writes, sessions, messages. -/
def State.retryWaits (s : State) : State :=
  if s.boot.hingeLost then s else s.carryAll.carryPage.markEntries.orderQueues.rescaleIfDue.retryEntries.flushAll.openWaiting.landWaiting

/-- The faults recorded while the cycle passes settled with it (R274). -/
def State.settleFaults (s : State) : State :=
  s.cores.foldl (fun s (c, _) => if (s.core c).faults.isEmpty then s else s.settle c) s

/-- The cycle passes: what its end does, the count, and what the start of the next one does. -/
def State.tick (s : State) : State :=
  let next := s.now + 1
  let met := s.metSteps
  let s := s.serveAllNear.askFills.settleFaults.markSaves.countBudgets.countCycles.endCores
  let s := { s with
    now := next, fleet := s.fleet.advance
    cores := s.cores.map fun (e : Nat × Core) => (e.1, e.2.startCycle) }
  { (((((s.readGroups.passSteps met).passFences).endInvalidations).powerArrivals).giveSlots).retryWaits with now := next }

/-- A cycle after the loss of the hinge clock: nothing moves (R459). -/
def State.tickLost (s : State) : State := { s with now := s.now + 1 }

end Sys2Proof.Machine
end

