-- ==== Sys2Proof/Machine/Step.lean ====
section
/-! DEFINITION. One step of the part, and a word placed where the next step issues it. -/

namespace Sys2Proof.Machine

/-- One step: the word that stands at its issue; else the next input of this cycle; else the first of the moves that are due; and when none is left, the
cycle passes. With the hinge clock lost nothing moves but resets (R459). -/
def step (s : State) : Host.Outcome State Fault Refusal :=
  match s.cur with
  | some (c, q) => s.runWord c q
  | none =>
    match s.takeInput with
    | some o => o
    | none =>
      if s.boot.hingeLost then .next s.tickLost
      else
        match s.moves.findSome? fun p => p.move.run s with
        | some t => .next t
        | none => .next s.tick

/-- The state with an instruction stored where the next step issues from, bits above `nbits` zero. -/
def State.withFetchWord (s : State) (nbits w : Nat) : State := s.placeWord nbits w

end Sys2Proof.Machine
end

