-- ==== Sys2Proof/Safety.lean ====
section
/-! DEFINITION. The terms that claims about the machine are stated in: when a word issues, what a step leaves alone, what a run reaches, and what counts
as a safe run. -/

namespace Sys2Proof.Machine

/-! ### A word that issues -/

/-- A word of header `h`, under the gate its kind has, passes every check of R95 before its own effect: it stands at its issue, its sequencer and its
place may execute it, its fields are in range, no register it names waits for a result (R201), and its SYNC waits are met (R35). -/
structure State.Issues (s : State) (h : Hdr) (gate : Ctx → Gate) (x : Ctx) : Prop where
  here : s.ctx = some x
  legal : (gate x).illegalOp = false
  seq : x.q ∈ (gate x).seqs
  operands : (gate x).operandBad = false
  rule : (gate x).ruleBad = false
  place : (gate x).admits (x.k.place x.q) = true
  free : ∀ r ∈ (gate x).uses, r.toNat ∉ x.x.pend
  waits : x.k.waitsMet x.q h.wp h.wn = true

/-- A word that has issued with latency `lat`, its effect being `t`: its waits are taken, its signals are due, and the next word in line is the next to
issue, one cycle later (R35, R36, R39). -/
def Ctx.done (x : Ctx) (h : Hdr) (t : State) (lat : Nat) : State := x.issued h t (some lat) x.next 0

/-- An act of the issuing word, `lat` cycles from now. -/
def Ctx.later (x : Ctx) (s : State) (lat : Nat) (p : Pay) : State := s.addAct x.c (s.now + lat) s.now x.q x.x.pc p

/-- Where a word may stand at all. -/
abbrev everywhere : List Place := [.gap, .timed, .tokened, .handler]

/-- A region of either mode. -/
abbrev regions : List Place := [.timed, .tokened]

/-- A word of header `h` comes to its issue on one of some sequencers, in one of some places; no register it names waits for a result (R201, R367),
and its SYNC waits are met (R35). What the word is does not enter. -/
structure State.AtWord (s : State) (h : Hdr) (x : Ctx) (seqs : List SeqId) (places : List Place) (uses : List (BitVec 5)) : Prop where
  here : s.ctx = some x
  seq : x.q ∈ seqs
  place : x.k.place x.q ∈ places
  free : ∀ r ∈ uses, r.toNat ∉ x.x.pend
  waits : x.k.waitsMet x.q h.wp h.wn = true

/-- A word that has issued and whose result lands in a scalar register after its latency. -/
def Ctx.writes (x : Ctx) (s : State) (h : Hdr) (d : BitVec 5) (v : W64) (lat : Nat) : State := x.done h (x.land s d v lat) lat

/-- A tile word comes to its issue: on CM, in a region, its destination tiles outside the live-in mask (R46), its ports configured (R115), the vector
unit free (R122), and its read ports able to serve a row (R118). -/
structure State.AtTile (s : State) (h : Hdr) (x : Ctx) (uses : List (BitVec 5)) (tiles srcs dsts : List Nat) : Prop where
  word : s.AtWord h x [.cm] regions uses
  mine : ∀ v ∈ tiles, x.k.liveInTile v = false
  set : x.k.portsSet (srcs ++ dsts) = true
  ready : x.k.sourcesReady s.now srcs = true
  unit : x.k.vuFree ≤ s.now

/-- What a tile word's issue samples (R109, R110, R111, R122, R140, R157). -/
def Ctx.tileJob (x : Ctx) (fn : TileFn) (d : Nat) (a b : Option Nat) (m : Bool) (scalar : W64) : TileJob :=
  { fn := fn, d := d, a := a, b := b, lanes := x.k.laneMask m, active := x.k.activeMask, first := x.k.winFirst, count := x.k.winCount
    flushing := x.k.flushing, scalar := scalar, key0 := x.k.rkey0.setWidth 32, key1 := x.k.rkey1.setWidth 32, rows := [], gathered := 0, gotA := none, gotB := none }

/-- A tile word that has issued: the vector unit is taken for `occ` cycles, and row 0 of its window is read in this cycle (R118, R122). -/
def Ctx.startsRows (x : Ctx) (s : State) (h : Hdr) (job : TileJob) (occ lat : Nat) : State :=
  x.done h ((s.modCore x.c fun k => { k with vuFree := s.now + occ }).addAct x.c s.now s.now x.q x.x.pc (.rowRead job 0)) lat

/-! ### What stays -/

/-- Of a core, what its own words see and only landings change: registers, tiles, masks, buffers, banks, tables, ports, shapes and the CSRs. -/
structure Core.SameData (k l : Core) : Prop where
  regs : ∀ q r, l.reg q r = k.reg q r
  tiles : ∀ t r, l.tileRow t r = k.tileRow t r
  masks : l.masks = k.masks
  vstat : l.vstat = k.vstat
  window : l.rwin = k.rwin
  csrs : [l.mact, l.mrs, l.rkey0, l.rkey1, l.rctr, l.sacw, l.dplidx] = [k.mact, k.mrs, k.rkey0, k.rkey1, k.rctr, k.sacw, k.dplidx]
  trap : [l.tvec, l.tsp, l.tcause, l.taddr, l.tpc, l.tcause2, l.tseq, l.trgn] =
    [k.tvec, k.tsp, k.tcause, k.taddr, k.tpc, k.tcause2, k.tseq, k.trgn]
  wspace : ∀ a, l.wspace.get a = k.wspace.get a
  aspace : ∀ a, l.aspace.get a = k.aspace.get a
  banks : l.banks = k.banks
  tables : l.tables = k.tables
  shapes : l.shapes = k.shapes

/-- Between two states nothing but one core has changed, and of that core none of its data: memory, every other core, the dispatch unit, the dies and the
endpoint are as they were. -/
structure State.OnlyCore (s t : State) (c : Nat) : Prop where
  memory : ∀ a, t.mem.get a = s.mem.get a
  others : ∀ d, d ≠ c → t.core d = s.core d
  data : (s.core c).SameData (t.core c)
  dispatch : t.tasks = s.tasks ∧ t.queues = s.queues ∧ t.cqs = s.cqs ∧ t.casements = s.casements
  exchange : t.chanEnds = s.chanEnds ∧ t.grants = s.grants ∧ t.groups = s.groups ∧ t.sessions = s.sessions
  device : t.dies = s.dies ∧ t.hbm = s.hbm ∧ t.boot = s.boot ∧ t.fleet = s.fleet

/-- Between two states nothing but one part of one core has changed: with that part put back, the change is none of the core's data. -/
def State.Alters (s t : State) (c : Nat) (undo : Core → Core) : Prop := s.OnlyCore (t.modCore c undo) c

/-- An instruction leads to a state, and of all data changes nothing but what is in flight on one core. -/
def State.Yields (s : State) (i : Instr) (t : State) (c : Nat) : Prop := exec i s = .next t ∧ s.OnlyCore t c

/-! ### Runs -/

/-- What some number of steps reach. -/
inductive State.Reaches : State → State → Prop where
  | refl (s : State) : State.Reaches s s
  | next {s t u : State} : State.Reaches s t → step t = .next u → State.Reaches s u

/-- Memory in its canonical form: addresses strictly rising, no entry equal to what an unlisted address reads as. -/
abbrev State.MemOk (s : State) : Prop := s.mem.wf = true

/-- The step stops the part with a fault: only an access of the host to a physical address that does not exist does. -/
def State.Stops (s : State) : Prop := ∃ f, step s = .fault f

/-- A safe run: every state it reaches holds memory in canonical form and does not stop. -/
def State.SafeFrom (s : State) : Prop := ∀ t, s.Reaches t → t.MemOk ∧ ¬ t.Stops

end Sys2Proof.Machine
end

