-- ==== Sys2Proof/Certificates/Slice0/Obligations.lean ====
section
/-! DEFINITION. The statements for the provers. Each docstring names the rules it formalises; a clause that rests on a choice of the model says so and
names the log entry. -/

open Sys2Proof Sys2Proof.Machine

/-! ### Scalar words -/

/-- R348, R393, R400, R414, R416, R421, R448: the words of the ALU group (OP 0x05, format R) and the immediate forms that those rules give, their
encodings, and their results, on every sequencer and in every place, with latency 1; s0 is discarded (`Ctx.land`). Nothing else changes. -/
def Obligations.AluWords : Prop :=
  (∀ (y : BitVec 4) (i : BitVec 3) (d a b : BitVec 5) (w : W32),
    let word (fn : BitVec 4) : W32 := y ++ i ++ 0x05#6 ++ d ++ a ++ b ++ fn
    let h : Hdr := { y := y, i := i }
    decodeWords (word 0) w = .ok (.add h d a b) ∧ decodeWords (word 1) w = .ok (.sub h d a b) ∧
    decodeWords (word 2) w = .ok (.and h d a b) ∧ decodeWords (word 3) w = .ok (.or h d a b) ∧
    decodeWords (word 4) w = .ok (.xor h d a b) ∧ decodeWords (word 5) w = .ok (.shl h d a b) ∧
    decodeWords (word 6) w = .ok (.shr h d a b) ∧ decodeWords (word 7) w = .ok (.sra h d a b) ∧
    decodeWords (word 8) w = .ok (.slt h d a b) ∧ decodeWords (word 9) w = .ok (.sltu h d a b) ∧
    decodeWords (word 10) w = .ok (.min h d a b) ∧ decodeWords (word 11) w = .ok (.max h d a b) ∧
    decodeWords (word 12) w = .ok (.minu h d a b) ∧ decodeWords (word 13) w = .ok (.maxu h d a b)) ∧
  (∀ (y : BitVec 4) (i : BitVec 3) (d a : BitVec 5) (k : BitVec 9) (n : BitVec 6) (w : W32),
    let h : Hdr := { y := y, i := i }
    decodeWords (y ++ i ++ 0x0A#6 ++ d ++ a ++ k) w = .ok (.ori h d a k) ∧
    decodeWords (y ++ i ++ 0x0B#6 ++ d ++ a ++ k) w = .ok (.xori h d a k) ∧
    decodeWords (y ++ i ++ 0x0C#6 ++ d ++ a ++ k) w = .ok (.slti h d a k) ∧
    decodeWords (y ++ i ++ 0x0D#6 ++ d ++ a ++ 0#3 ++ n) w = .ok (.shli h d a n) ∧
    decodeWords (y ++ i ++ 0x0D#6 ++ d ++ a ++ 2#3 ++ n) w = .ok (.shri h d a n) ∧
    decodeWords (y ++ i ++ 0x0D#6 ++ d ++ a ++ 4#3 ++ n) w = .ok (.srai h d a n) ∧
    (k.getLsbD 6 = true ∨ k.extractLsb' 7 2 = 3 →
      ∃ why, decodeWords (y ++ i ++ 0x0D#6 ++ d ++ a ++ k) w = .error why)) ∧
  (∀ (s : State) (h : Hdr) (x : Ctx) (d a b : BitVec 5), s.AtWord h x allSeqs everywhere [d, a, b] →
    let u := x.reg a
    let v := x.reg b
    let n := (v.extractLsb' 0 6).toNat
    let put (w : W64) : State := x.writes s h d w 1
    s.Yields (.add h d a b) (put (u + v)) x.c ∧
    s.Yields (.sub h d a b) (put (u - v)) x.c ∧
    s.Yields (.and h d a b) (put (u &&& v)) x.c ∧
    s.Yields (.or h d a b) (put (u ||| v)) x.c ∧
    s.Yields (.xor h d a b) (put (u ^^^ v)) x.c ∧
    s.Yields (.shl h d a b) (put (BitVec.ofNat 64 (u.toNat * 2 ^ n))) x.c ∧
    s.Yields (.shr h d a b) (put (BitVec.ofNat 64 (u.toNat / 2 ^ n))) x.c ∧
    s.Yields (.sra h d a b) (put (BitVec.ofInt 64 (u.toInt / 2 ^ n))) x.c ∧
    s.Yields (.slt h d a b) (put (if u.toInt < v.toInt then 1 else 0)) x.c ∧
    s.Yields (.sltu h d a b) (put (if u.toNat < v.toNat then 1 else 0)) x.c ∧
    s.Yields (.min h d a b) (put (BitVec.ofInt 64 (Min.min u.toInt v.toInt))) x.c ∧
    s.Yields (.max h d a b) (put (BitVec.ofInt 64 (Max.max u.toInt v.toInt))) x.c ∧
    s.Yields (.minu h d a b) (put (BitVec.ofNat 64 (Min.min u.toNat v.toNat))) x.c ∧
    s.Yields (.maxu h d a b) (put (BitVec.ofNat 64 (Max.max u.toNat v.toNat))) x.c) ∧
  (∀ (s : State) (h : Hdr) (x : Ctx) (d a : BitVec 5) (k : BitVec 9) (n : BitVec 6), s.AtWord h x allSeqs everywhere [d, a] →
    let u := x.reg a
    let put (w : W64) : State := x.writes s h d w 1
    s.Yields (.ori h d a k) (put (u ||| k.signExtend 64)) x.c ∧
    s.Yields (.xori h d a k) (put (u ^^^ k.signExtend 64)) x.c ∧
    s.Yields (.slti h d a k) (put (if u.toInt < k.toInt then 1 else 0)) x.c ∧
    s.Yields (.shli h d a n) (put (BitVec.ofNat 64 (u.toNat * 2 ^ n.toNat))) x.c ∧
    s.Yields (.shri h d a n) (put (BitVec.ofNat 64 (u.toNat / 2 ^ n.toNat))) x.c ∧
    s.Yields (.srai h d a n) (put (BitVec.ofInt 64 (u.toInt / 2 ^ n.toNat))) x.c)

/-- R349, R386, R387: ADDI, ANDI and LI, and the two-word literals, whose next word stands behind the pair (R74), with their encodings. R361, R378, R407: CLZ, FFS and POPC replace each element of 8, 16, 32 or 64 bits by its count of leading zeros, by the place of its lowest set bit
(its width for 0), and by its count of set bits. -/
def Obligations.ImmediateAndBitWords : Prop :=
  (∀ (y : BitVec 4) (i : BitVec 3) (d a : BitVec 5) (k : BitVec 9) (l : BitVec 14) (c : BitVec 2) (v w : W32),
    let h : Hdr := { y := y, i := i }
    decodeWords (y ++ i ++ 0x08#6 ++ d ++ a ++ k) w = .ok (.addi h d a k) ∧
    decodeWords (y ++ i ++ 0x09#6 ++ d ++ a ++ k) w = .ok (.andi h d a k) ∧
    decodeWords (y ++ i ++ 0x0E#6 ++ d ++ l) w = .ok (.li h d l) ∧
    decodeWords (y ++ i ++ 0x0F#6 ++ d ++ 0#10 ++ v.extractLsb' 28 4) (0#4 ++ v.extractLsb' 0 28) = .ok (.lit h d v) ∧
    decodeWords (y ++ i ++ 0x10#6 ++ d ++ 0#10 ++ v.extractLsb' 28 4) (0#4 ++ v.extractLsb' 0 28) = .ok (.lith h d v) ∧
    decodeWords (y ++ i ++ 0x07#6 ++ d ++ a ++ 0#5 ++ 0#2 ++ c) w = .ok (.clz h d a c) ∧
    decodeWords (y ++ i ++ 0x07#6 ++ d ++ a ++ 0#5 ++ 1#2 ++ c) w = .ok (.ffs h d a c) ∧
    decodeWords (y ++ i ++ 0x07#6 ++ d ++ a ++ 0#5 ++ 2#2 ++ c) w = .ok (.popc h d a c) ∧
    (∃ why, decodeWords (y ++ i ++ 0x07#6 ++ d ++ a ++ 0#5 ++ 3#2 ++ c) w = .error why)) ∧
  ((∀ (s : State) (h : Hdr) (x : Ctx) (d a : BitVec 5) (k : BitVec 9), s.AtWord h x allSeqs everywhere [d, a] →
    s.Yields (.addi h d a k) (x.writes s h d (x.reg a + k.signExtend 64) 1) x.c ∧
    s.Yields (.andi h d a k) (x.writes s h d (x.reg a &&& k.signExtend 64) 1) x.c) ∧
  (∀ (s : State) (h : Hdr) (x : Ctx) (d : BitVec 5) (k : BitVec 14) (v : W32), s.AtWord h x allSeqs everywhere [d] →
    s.Yields (.li h d k) (x.writes s h d (BitVec.ofInt 64 k.toInt) 1) x.c ∧
    s.Yields (.lit h d v) (x.issued h (x.land s d (BitVec.ofInt 64 v.toInt) 1) (some 1) (x.x.pc + 8) 0) x.c ∧
    s.Yields (.lith h d v)
      (x.issued h (x.land s d (BitVec.ofNat 64 (v.toNat * 2 ^ 32 + (x.reg d).toNat % 2 ^ 32)) 1) (some 1) (x.x.pc + 8) 0) x.c)) ∧
  (∀ (s : State) (h : Hdr) (x : Ctx) (d a : BitVec 5) (c : BitVec 2), s.AtWord h x allSeqs everywhere [d, a] →
    let w := 8 * 2 ^ c.toNat
    let part (v : W64) (e : Nat) : Nat := v.toNat / 2 ^ (w * e) % 2 ^ w
    ∃ l f p : W64,
      s.Yields (.clz h d a c) (x.writes s h d l 1) x.c ∧
      s.Yields (.ffs h d a c) (x.writes s h d f 1) x.c ∧
      s.Yields (.popc h d a c) (x.writes s h d p 1) x.c ∧
      ∀ e, e < 64 / w →
        let u := part (x.reg a) e
        (part l e ≤ w ∧ u < 2 ^ (w - part l e) ∧ (part l e < w → 2 ^ (w - part l e - 1) ≤ u)) ∧
        (part f e ≤ w ∧ (∀ i, i < part f e → u.testBit i = false) ∧ (part f e < w → u.testBit (part f e) = true)) ∧
        part p e = (List.range w).countP fun i => u.testBit i)

/-- R368, R411: DIV, DIVU, REM and REMU, with the corners those rules give, and the identity between quotient and remainder; MUL, MULH and MULHU as
R398 has them. -/
def Obligations.MulDivWords : Prop :=
  (∀ (y : BitVec 4) (i : BitVec 3) (d a b : BitVec 5) (w : W32),
    let word (fn : BitVec 4) : W32 := y ++ i ++ 0x06#6 ++ d ++ a ++ b ++ fn
    let h : Hdr := { y := y, i := i }
    decodeWords (word 0) w = .ok (.mul h d a b) ∧ decodeWords (word 1) w = .ok (.mulh h d a b) ∧
    decodeWords (word 2) w = .ok (.mulhu h d a b) ∧ decodeWords (word 3) w = .ok (.div h d a b) ∧
    decodeWords (word 4) w = .ok (.divu h d a b) ∧ decodeWords (word 5) w = .ok (.rem h d a b) ∧
    decodeWords (word 6) w = .ok (.remu h d a b)) ∧
  (∀ (s : State) (h : Hdr) (x : Ctx) (d a b : BitVec 5), s.AtWord h x allSeqs everywhere [d, a, b] →
    let u := x.reg a
    let v := x.reg b
    let corner : Prop := u = 0x8000000000000000 ∧ v = 0xFFFFFFFFFFFFFFFF
    s.Yields (.mul h d a b) (x.writes s h d (BitVec.ofNat 64 (u.toNat * v.toNat)) 3) x.c ∧
    s.Yields (.mulh h d a b) (x.writes s h d ((u.signExtend 128 * v.signExtend 128).extractLsb' 64 64) 3) x.c ∧
    s.Yields (.mulhu h d a b) (x.writes s h d ((u.setWidth 128 * v.setWidth 128).extractLsb' 64 64) 3) x.c ∧
    (∃ q r, s.Yields (.div h d a b) (x.writes s h d q 20) x.c ∧ s.Yields (.rem h d a b) (x.writes s h d r 20) x.c ∧
      u = v * q + r ∧ (v = 0 → q = 0xFFFFFFFFFFFFFFFF ∧ r = u) ∧ (corner → q = u ∧ r = 0) ∧
      (v ≠ 0 → ¬ corner → q.toInt = u.toInt.tdiv v.toInt ∧ r.toInt = u.toInt - v.toInt * q.toInt)) ∧
    (∃ q r, s.Yields (.divu h d a b) (x.writes s h d q 20) x.c ∧ s.Yields (.remu h d a b) (x.writes s h d r 20) x.c ∧
      u = v * q + r ∧ (v = 0 → q = 0xFFFFFFFFFFFFFFFF ∧ r = u) ∧
      (v ≠ 0 → q.toNat = u.toNat / v.toNat ∧ r.toNat = u.toNat % v.toNat)))


/-! ### Branches and jumps -/

/-- R356, R380, R391: the branches, LOOP, JMP and JAL at address a: taken to a + 4 × the offset, modulo 2^64, which is noted as a jump's target though it be the next word (R357), else to a + 4; LOOP by the decremented
value, which lands one cycle later; JAL's link lands in s31, and its return window stands there (R382). LOOP of s0 is refused (R77). R381: JR goes to sa, and raises ALIGN with TADDR = sa where sa is not a multiple of 4. R359: BSTAT tests the bits of sb in VSTAT, those
set in its issue cycle left out, or in the 8 bytes at sa of the A-space, read at its issue; with the faults of that read. -/
def Obligations.Branches : Prop :=
  (∀ (s : State) (h : Hdr) (x : Ctx),
    let far (k : Int) : Nat := ((x.x.pc + 4 * k) % 2 ^ 64).toNat
    let to_ (t : State) (k : Int) (taken : Prop) [Decidable taken] : State :=
      if taken then x.issued h (x.goes t (far k)) (some 1) (far k) 0 else x.issued h t (some 1) (x.x.pc + 4) 0
    (∀ (a b : BitVec 5) (k : BitVec 9), s.AtWord h x allSeqs everywhere [a, b] →
      let u := x.reg a
      let v := x.reg b
      s.Yields (.beq h a b k) (to_ s k.toInt (u = v)) x.c ∧
      s.Yields (.bne h a b k) (to_ s k.toInt (u ≠ v)) x.c ∧
      s.Yields (.blt h a b k) (to_ s k.toInt (u.toInt < v.toInt)) x.c ∧
      s.Yields (.bge h a b k) (to_ s k.toInt (v.toInt ≤ u.toInt)) x.c ∧
      s.Yields (.bltu h a b k) (to_ s k.toInt (u.toNat < v.toNat)) x.c ∧
      s.Yields (.bgeu h a b k) (to_ s k.toInt (v.toNat ≤ u.toNat)) x.c) ∧
    (∀ (a : BitVec 5) (k : BitVec 14), s.AtWord h x allSeqs everywhere [a] →
      let u := x.reg a
      s.Yields (.beqz h a k) (to_ s k.toInt (u = 0)) x.c ∧
      s.Yields (.bnez h a k) (to_ s k.toInt (u ≠ 0)) x.c ∧
      (a ≠ 0 → s.Yields (.loop h a k) (to_ (x.land s a (u - 1) 1) k.toInt (u - 1 ≠ 0)) x.c) ∧
      (a = 0 → exec (.loop h a k) s = .next (s.raise x.c (x.fault s 0x02 (x.x.curWord.setWidth 64))))) ∧
    (∀ (k : BitVec 19), s.AtWord h x allSeqs everywhere [31] →
      s.Yields (.jmp h k) (to_ s k.toInt True) x.c ∧
      s.Yields (.jal h k)
        (to_ (x.land (s.modCore x.c fun c => c.modSeq x.q fun y => { y with link := some (x.x.pc + 4) }) 31 (BitVec.ofNat 64 (x.x.pc + 4)) 1)
          k.toInt True) x.c)) ∧
  (∀ (s : State) (h : Hdr) (x : Ctx) (a b : BitVec 5) (k : BitVec 9), s.AtWord h x allSeqs everywhere [a, b] →
    let u := x.reg a
    let off := u.toNat
    let banks := banksOf off 8
    let far := ((x.x.pc + 4 * k.toInt) % 2 ^ 64).toNat
    let seen (v : W64) (t : State) : State :=
      if v &&& x.reg b ≠ 0 then x.issued h (x.goes t far) (some 1) far 0 else x.issued h t (some 1) (x.x.pc + 4) 0
    (off % 4 = 0 → s.Yields (.jr h a) (x.issued h (x.goes s off) (some 1) off 0) x.c) ∧
    (off % 4 ≠ 0 → exec (.jr h a) s = .next ((x.taken s h).raise x.c (x.fault s 0x0C u))) ∧
    (a = 0 → s.Yields (.bstat h a b k) (seen (x.k.vstat &&& ~~~(x.k.vnew.setWidth 64)) s) x.c) ∧
    (a ≠ 0 → off % 8 = 0 → off + 8 ≤ 98304 → x.k.bankConflict s.now true banks s.now x.q = none →
      s.Yields (.bstat h a b k)
        (seen (BitVec.ofNat 64 (leNat (x.k.readBuf true off 8))) (s.modCore x.c fun c => c.claimBanks s.now true banks s.now x.q)) x.c) ∧
    (a ≠ 0 → off % 8 ≠ 0 → exec (.bstat h a b k) s = .next ((x.taken s h).raise x.c (x.fault s 0x0C u))) ∧
    (a ≠ 0 → off % 8 = 0 → 98304 < off + 8 → exec (.bstat h a b k) s = .next ((x.taken s h).raise x.c (x.fault s 0x10 u))))

/-! ### Loads, stores and AMOC -/

/-- R383, R384: LD of the core's own buffers reads its banks one cycle after its issue; the acquire form outside a timed region holds its sequencer
(R213). The kinds differ in size and extension only. R383, R384, R367: LD of a translated address in a tokened region or in handler mode is sent, and its register waits for the value; in a timed region or
a gap it is REGION_RULE. -/
def Obligations.Loads : Prop :=
  (∀ (s : State) (h : Hdr) (x : Ctx) (d a : BitVec 5) (n : BitVec 6) (isA : Bool) (off : Nat), s.AtWord h x allSeqs everywhere [d, a] →
    let va (size : Nat) : Nat := ((x.reg a).toNat + n.toNat * size) % 2 ^ 64
    let read (size : Nat) (sext aq : Bool) : State :=
      s.addAct x.c (s.now + 1) s.now x.q x.x.pc (.loadBank x.q d.toNat isA off size sext aq h.sp h.sn)
    let runs (i : Instr) (size : Nat) (sext : Bool) : Prop :=
      va size % size = 0 → locate x.c (va size) size = .own isA off →
        s.Yields i (x.issued h (read size sext false) none (x.x.pc + 4) 0) x.c
    runs (.ldB h d a n) 1 true ∧ runs (.ldBu h d a n) 1 false ∧ runs (.ldH h d a n) 2 true ∧ runs (.ldHu h d a n) 2 false ∧
    runs (.ldW h d a n) 4 true ∧ runs (.ldWu h d a n) 4 false ∧ runs (.ldD h d a n) 8 false ∧
    (x.k.place x.q = .timed → runs (.ldDAq h d a n) 8 false) ∧
    (x.k.place x.q ≠ .timed → va 8 % 8 = 0 → locate x.c (va 8) 8 = .own isA off →
      s.Yields (.ldDAq h d a n)
        (x.issued h ((read 8 false true).modCore x.c fun k => k.modSeq x.q fun y => { y with st := .atAcquire (s.nextId + 1) })
          none (x.x.pc + 4) 0) x.c)) ∧
  (∀ (s : State) (h : Hdr) (x : Ctx) (d a : BitVec 5) (n : BitVec 6),
    let va (size : Nat) : Nat := ((x.reg a).toNat + n.toNat * size) % 2 ^ 64
    let kinds (P : Instr → Nat → Bool → Bool → Prop) : Prop :=
      P (.ldB h d a n) 1 true false ∧ P (.ldBu h d a n) 1 false false ∧ P (.ldH h d a n) 2 true false ∧ P (.ldHu h d a n) 2 false false ∧
      P (.ldW h d a n) 4 true false ∧ P (.ldWu h d a n) 4 false false ∧ P (.ldD h d a n) 8 false false ∧ P (.ldDAq h d a n) 8 false true
    (s.AtWord h x allSeqs [.tokened, .handler] [d, a] → kinds fun i size sext aq =>
      va size % size = 0 → va size < 0xFD0000000000 →
        ∃ t r, s.Yields i (x.issued h t none (x.x.pc + 4) 0) x.c ∧ t.reqs = s.reqs ++ [r] ∧
          r.core = x.c ∧ r.by_ = x.q ∧ r.va = va size ∧ r.kind = .load size sext ∧ r.rd = d.toNat ∧ r.st = .walking ∧ (aq = true → ((t.core x.c).seq x.q).st = .atAcquire r.id) ∧
          ((t.core x.c).seq x.q).pend = (if d = 0 then x.x.pend else x.x.pend ++ [d.toNat])) ∧
    (s.AtWord h x allSeqs [.timed, .gap] [d, a] → kinds fun i size _ _ =>
      va size < 0xFD0000000000 → exec i s = .next (s.raise x.c (x.fault s 0x09 0))))

/-- R417, R418, R419: ST to the core's own buffers makes its bank access one cycle after its issue, its release forms once every access before them is performed at SYSTEM, in a timed region those before the region (R213, R217; in a timed region by log entry 95,
the model's choice); a store to a translated address of a region is held:
it enters the region store buffer one cycle after its issue (R47, R48). R383, R384, R417, R418: a load or store of a region that is not aligned to its size raises ALIGN with TADDR holding the address, and one to an unmapped
address of the local aperture range raises SPACE_ACCESS. -/
def Obligations.Stores : Prop :=
  (∀ (s : State) (h : Hdr) (x : Ctx) (v a : BitVec 5) (n : BitVec 6),
    let va (size : Nat) : Nat := ((x.reg a).toNat + n.toNat * size) % 2 ^ 64
    let bytes (size : Nat) : List W8 := leBytes size (x.reg v).toNat
    let kinds (P : Instr → Nat → Bool → Prop) : Prop :=
      P (.stB h v a n) 1 false ∧ P (.stH h v a n) 2 false ∧ P (.stW h v a n) 4 false ∧ P (.stD h v a n) 8 false ∧
      P (.stWRl h v a n) 4 true ∧ P (.stDRl h v a n) 8 true
    (∀ isA off, s.AtWord h x allSeqs everywhere [v, a] → kinds fun i size rl =>
      va size % size = 0 → locate x.c (va size) size = .own isA off →
      (rl = true → x.ownRelease s h = true) →
        s.Yields i (x.issued h (s.addAct x.c (s.now + 1) s.now x.q x.x.pc (.storeBank x.q isA off (bytes size) h.sp h.sn)) none (x.x.pc + 4) 0) x.c) ∧
    (s.AtWord h x allSeqs regions [v, a] → kinds fun i size rl =>
      va size % size = 0 → va size < 0xFD0000000000 →
        s.Yields i (x.done h (s.addAct x.c (s.now + 1) s.now x.q x.x.pc
          (.hold (.store (va size) (addrBytes (va size % 64) (bytes size)) (.pending 0) rl))) 1) x.c) ∧
    (s.AtWord h x allSeqs [.gap] [v, a] → kinds fun i size _ =>
      va size < 0xFD0000000000 → exec i s = .next (s.raise x.c (x.fault s 0x09 0)))) ∧
  (∀ (s : State) (h : Hdr) (x : Ctx) (d a : BitVec 5) (n : BitVec 6), s.AtWord h x allSeqs [.tokened] [d, a] →
    let va (size : Nat) : Nat := ((x.reg a).toNat + n.toNat * size) % 2 ^ 64
    let faults (code : Nat) (size : Nat) (i : Instr) : Prop := exec i s = .next ((x.taken s h).raise x.c (x.fault s code (BitVec.ofNat 64 (va size))))
    (va 2 % 2 ≠ 0 → faults 0x0C 2 (.ldH h d a n) ∧ faults 0x0C 2 (.ldHu h d a n) ∧ faults 0x0C 2 (.stH h d a n)) ∧
    (va 4 % 4 ≠ 0 → faults 0x0C 4 (.ldW h d a n) ∧ faults 0x0C 4 (.ldWu h d a n) ∧ faults 0x0C 4 (.stW h d a n) ∧ faults 0x0C 4 (.stWRl h d a n)) ∧
    (va 8 % 8 ≠ 0 → faults 0x0C 8 (.ldD h d a n) ∧ faults 0x0C 8 (.ldDAq h d a n) ∧ faults 0x0C 8 (.stD h d a n) ∧ faults 0x0C 8 (.stDRl h d a n)) ∧
    (locate x.c (va 1) 1 = .unmapped → faults 0x10 1 (.ldB h d a n) ∧ faults 0x10 1 (.ldBu h d a n) ∧ faults 0x10 1 (.stB h d a n)))

/-- R350, R351: an AMOC runs on CT in a tokened region; aligned, at a translated address, it is sent, and its register waits for the old value. Elsewhere
it is REGION_RULE; misaligned it is ALIGN; in an aperture SPACE_ACCESS. R200, R350: what an AMOC leaves at memory, on `size` bytes: the new value by its operation, its operands taken modulo 2^(8 × size). -/
def Obligations.Amocs : Prop :=
  (∀ (s : State) (h : Hdr) (x : Ctx) (a b d : BitVec 5) (z : Bool),
    let va := (x.reg a).toNat
    let size := if z then 8 else 4
    let ops (P : Instr → Nat → Prop) : Prop :=
      P (.amocAdd h a b d z) 0 ∧ P (.amocAnd h a b d z) 1 ∧ P (.amocOr h a b d z) 2 ∧ P (.amocXor h a b d z) 3 ∧
      P (.amocXchg h a b d z) 4 ∧ P (.amocMax h a b d z) 5 ∧ P (.amocMin h a b d z) 6 ∧ P (.amocCas h a b d z) 7
    let faults (code : Nat) (ta : W64) (i : Instr) : Prop := exec i s = .next (s.raise x.c (x.fault s code ta))
    let late (code : Nat) (ta : W64) (i : Instr) : Prop := exec i s = .next ((x.taken s h).raise x.c (x.fault s code ta))
    (s.AtWord h x [.ct] [.tokened] [d, a, b] → ops fun i op =>
      (va % size = 0 → va < 0xFD0000000000 →
        ∃ t r, s.Yields i (x.issued h t none (x.x.pc + 4) 0) x.c ∧ t.reqs = s.reqs ++ [r] ∧ r.core = x.c ∧ r.va = va ∧
          r.kind = .amoc op size (x.reg b) (x.reg d) ∧ r.rd = d.toNat ∧ r.st = .walking ∧
          ((t.core x.c).seq .ct).pend = (if d = 0 then x.x.pend else x.x.pend ++ [d.toNat])) ∧
      (va % size ≠ 0 → late 0x0C (x.reg a) i) ∧
      (va % size = 0 → 0xFE0000000000 ≤ va → va < 2 ^ 48 → late 0x10 (x.reg a) i)) ∧
    (s.AtWord h x [.ct] [.gap, .timed, .handler] [d, a, b] → ops fun i _ => faults 0x09 0 i)) ∧
  (∀ (size old b e : Nat), size = 4 ∨ size = 8 →
    let m := 2 ^ (8 * size)
    old < m →
    let sgn (v : Nat) : Int := (BitVec.ofNat (8 * size) v).toInt
    amocNew 0 size old b e = (old + b) % m ∧
    (b < m → amocNew 1 size old b e = old &&& b ∧ amocNew 2 size old b e = old ||| b ∧ amocNew 3 size old b e = old ^^^ b) ∧
    amocNew 4 size old b e = b % m ∧
    (sgn (amocNew 5 size old b e) = Max.max (sgn old) (sgn b) ∧ amocNew 5 size old b e < m) ∧
    (sgn (amocNew 6 size old b e) = Min.min (sgn old) (sgn b) ∧ amocNew 6 size old b e < m) ∧
    amocNew 7 size old b e = if old = e % m then b % m else old)


/-! ### Tile words -/

/-- R90, R118, R122, R427, R428, R430 to R434, R436 to R438, R440, R442 to R444: every tile word of one or two source designators, on CM in a region: it takes the
vector unit for COUNT cycles, reads row 0 of its window in its own cycle, and has the latency of R122. -/
def Obligations.TileWords : Prop :=
  ∀ (s : State) (h : Hdr) (x : Ctx) (d a b n : BitVec 5) (t : BitVec 4) (r : BitVec 2) (m sat : Bool),
    (s.AtTile h x [] [d.toNat] [a.toNat, b.toNat] [d.toNat] → srcOk a = true → srcOk b = true → portsApart a b = true →
      let two (i : Instr) (fn : TileFn) (lat : Nat) : Prop :=
        s.Yields i (x.startsRows s h (x.tileJob fn d.toNat (some a.toNat) (some b.toNat) m 0) x.k.winCount lat) x.c
      (dstOk d = true →
        two (.vadd h d a b m) .add 4 ∧ two (.vsub h d a b m) .sub 4 ∧ two (.vmul h d a b m) .mul 4 ∧ two (.vmin h d a b m) .min 4 ∧
        two (.vmax h d a b m) .max 4 ∧ two (.vabsd h d a b m) .absd 4 ∧ (m = false → two (.vsel h d a b) .sel 4) ∧
        two (.viadd h d a b m) .iadd 4 ∧ two (.visub h d a b m) .isub 4 ∧ two (.vimul h d a b m) .imul 4 ∧ two (.vimin h d a b m) .imin 4 ∧
        two (.vimax h d a b m) .imax 4 ∧ two (.vand h d a b m) .and 4 ∧ two (.vor h d a b m) .or 4 ∧ two (.vxor h d a b m) .xor 4 ∧
        two (.vshl h d a b m) .shl 4 ∧ two (.vshr h d a b m) .shr 4 ∧ two (.vsra h d a b m) .sra 4) ∧
      (tileOk d = true → two (.vfma h d a b m) .fma 5 ∧ two (.vfms h d a b m) .fms 5 ∧ two (.vfnma h d a b m) .fnma 5)) ∧
    (s.AtTile h x [] [] [a.toNat, b.toNat] [] → srcOk a = true → srcOk b = true → portsApart a b = true → d.toNat ≤ 7 →
      let cmp (i : Instr) (c : CmpOp) : Prop :=
        s.Yields i (x.startsRows s h (x.tileJob (.cmp c) d.toNat (some a.toNat) (some b.toNat) m 0) x.k.winCount 4) x.c
      cmp (.vcmpFeq h d a b m) .feq ∧ cmp (.vcmpFlt h d a b m) .flt ∧ cmp (.vcmpFle h d a b m) .fle ∧ cmp (.vcmpFun h d a b m) .fun_ ∧
      cmp (.vcmpIeq h d a b m) .ieq ∧ cmp (.vcmpIlt h d a b m) .ilt ∧ cmp (.vcmpIltu h d a b m) .iltu) ∧
    (s.AtTile h x [] [d.toNat] [a.toNat] [d.toNat] → srcOk a = true → dstOk d = true →
      let one (i : Instr) (fn : TileFn) (lat : Nat) : Prop :=
        s.Yields i (x.startsRows s h (x.tileJob fn d.toNat (some a.toNat) none m 0) x.k.winCount lat) x.c
      one (.vmov h d a m) .mov 4 ∧
      (n.toNat ≤ 2 → one (.vclz h d a n m) (.clz n.toNat) 4 ∧ one (.vffs h d a n m) (.ffs n.toNat) 4 ∧ one (.vpopc h d a n m) (.popc n.toNat) 4) ∧
      (t.toNat ≤ 11 → one (.vcvtNar h d a t m sat r) (.narrow t.toNat sat r) 3 ∧ one (.vcvtWid h d a t m) (.widen t.toNat) 3) ∧
      one (.vsfnExp2 h d a m) (.sfn .exp2) 8 ∧ one (.vsfnLog2 h d a m) (.sfn .log2) 8 ∧ one (.vsfnRcp h d a m) (.sfn .rcp) 8 ∧
      one (.vsfnRsqrt h d a m) (.sfn .rsqrt) 8 ∧ one (.vsfnSqrt h d a m) (.sfn .sqrt) 8 ∧ one (.vsfnTanh h d a m) (.sfn .tanh) 8 ∧
      one (.vsfnSigm h d a m) (.sfn .sigm) 8 ∧ one (.vsfnSilu h d a m) (.sfn .silu) 8 ∧
      one (.vrotr h d a n m) (.rotr n.toNat) 2 ∧ one (.vrotrHi h d a n m) (.rotr (n.toNat + 32)) 2 ∧
      one (.vbcr h d a n m) (.bcr n.toNat) 2 ∧ one (.vbcrHi h d a n m) (.bcr (n.toNat + 32)) 2 ∧
      (n.toNat ≤ 15 → one (.vrotc h d a n m) (.rotc n.toNat) 17) ∧
      (n.toNat ≤ 15 → n.toNat < x.k.winCount → one (.vbcc h d a n m) (.bcc n.toNat) 17) ∧
      one (.vredrAdd h d a m) (.redr .add) 7 ∧ one (.vredrMax h d a m) (.redr .max) 7 ∧ one (.vredrMin h d a m) (.redr .min) 7 ∧
      one (.vredrIadd h d a m) (.redr .iadd) 7 ∧ one (.vredcAdd h d a m) (.redc .add) 20 ∧ one (.vredcMax h d a m) (.redc .max) 20 ∧
      one (.vredcMin h d a m) (.redc .min) 20 ∧ one (.vredcIadd h d a m) (.redc .iadd) 20)

/-- R401 to R404, R435, R441: VBCS, VEXT, VRAND, OSMX and OSMF, on CM in a region: what each names, its occupancy and its latency (R122). R46, R58, R97, R428: where a tile word does not run: on another sequencer than CM it is ILLEGAL_OP, outside a region REGION_RULE; its destination in the
live-in mask is REGION_RULE, a port that was never configured ILLEGAL_OPERAND, in a tokened region once the SYNC waits are taken (log entry 60, the model's choice). The
faults of VADD stand for those of its form. -/
def Obligations.TileScalarWordsAndFaults : Prop :=
  (∀ (s : State) (h : Hdr) (x : Ctx) (d a b e c : BitVec 5) (m : Bool),
    (s.AtTile h x [a] [d.toNat] [] [d.toNat] → dstOk d = true →
      s.Yields (.vbcs h d a m) (x.startsRows s h (x.tileJob .bcs d.toNat none none m (x.reg a)) x.k.winCount 4) x.c) ∧
    (s.AtTile h x [d] [] [a.toNat] [] → srcOk a = true →
      s.Yields (.vext h d a c) (x.startsRows s h (x.tileJob (.ext c.toNat) d.toNat (some a.toNat) none false 0) 1 3) x.c ∧
      s.Yields (.vextHi h d a c) (x.startsRows s h (x.tileJob (.ext (c.toNat + 32)) d.toNat (some a.toNat) none false 0) 1 3) x.c) ∧
    (s.AtTile h x [] [d.toNat] [a.toNat] [d.toNat] → tileOk d = true → srcOk a = true → x.k.winFirst + 4 * x.k.winCount ≤ 16 →
      s.Yields (.vrand h d a m)
        (x.startsRows s h (x.tileJob .rand d.toNat (some a.toNat) none m x.k.rctr) (4 * x.k.winCount) 10) x.c) ∧
    (s.AtTile h x [] [e.toNat, e.toNat + 1, b.toNat] [a.toNat] [b.toNat] → evenTileOk e = true → srcOk a = true → dstOk b = true →
      b.toNat ≠ e.toNat → b.toNat ≠ e.toNat + 1 →
      s.Yields (.osmx h e a b) (x.startsRows s h (x.tileJob (.osmx e.toNat) b.toNat (some a.toNat) none false 0) x.k.winCount 12) x.c) ∧
    (s.AtTile h x [] [d.toNat] [] [d.toNat] → dstOk d = true → evenTileOk e = true →
      s.Yields (.osmf h d e) (x.startsRows s h (x.tileJob (.osmf e.toNat) d.toNat none none false 0) x.k.winCount 8) x.c)) ∧
  (∀ (s : State) (h : Hdr) (x : Ctx) (d a b : BitVec 5) (m : Bool), dstOk d = true → srcOk a = true → srcOk b = true → portsApart a b = true →
    let all (P : Instr → Prop) : Prop :=
      P (.vadd h d a b m) ∧ P (.vsub h d a b m) ∧ P (.vmul h d a b m) ∧ P (.vmin h d a b m) ∧ P (.vmax h d a b m) ∧ P (.vabsd h d a b m) ∧
      P (.viadd h d a b m) ∧ P (.visub h d a b m) ∧ P (.vimul h d a b m) ∧ P (.vand h d a b m) ∧ P (.vor h d a b m) ∧ P (.vxor h d a b m) ∧
      P (.vshl h d a b m) ∧ P (.vshr h d a b m) ∧ P (.vsra h d a b m)
    let faults (code : Nat) (ta : W64) (i : Instr) : Prop := exec i s = .next (s.raise x.c (x.fault s code ta))
    let late (code : Nat) (ta : W64) (i : Instr) : Prop := exec i s = .next ((x.taken s h).raise x.c (x.fault s code ta))
    let ports := x.k.portsSet [a.toNat, b.toNat, d.toNat]
    (s.AtWord h x [.ld, .st, .ct] everywhere [] → all (faults 0x01 (x.x.curWord.setWidth 64))) ∧
    (s.AtWord h x [.cm] [.gap] [] → all (faults 0x09 0)) ∧
    (s.AtWord h x [.cm] regions [] → ports = true → d.toNat < 16 → x.k.liveIn.getLsbD d.toNat = true → all (faults 0x09 0)) ∧
    (s.AtWord h x [.cm] [.timed] [] → ports = false → all (faults 0x02 (x.x.curWord.setWidth 64))) ∧
    (s.AtWord h x [.cm] [.tokened] [] → ports = false →
      (x.k.liveInTile d.toNat = true → all (faults 0x02 (x.x.curWord.setWidth 64))) ∧
      (x.k.liveInTile d.toNat = false → all (late 0x02 (x.x.curWord.setWidth 64)))))

/-- R427, R432, R436, R444: what the lanes of the integer operations become. R427, R437: a row of a lane-by-lane operation whose sources are tiles, at its read: the result row, computed lane by lane, lands in a tile four cycles
later, or as compare bits in a mask; the next row, if the window has one, is read in the next cycle. -/
def Obligations.TileRows : Prop :=
  (∀ (fl sel : Bool) (u v z : W32),
    let n := v.toNat % 32
    let lane (fn : TileFn) (w : W32) : Prop := fn.lane fl sel u v z = (w, 0)
    lane .iadd (BitVec.ofNat 32 (u.toNat + v.toNat)) ∧
    lane .isub (BitVec.ofInt 32 (u.toInt - v.toInt)) ∧
    lane .imul (BitVec.ofNat 32 (u.toNat * v.toNat)) ∧
    lane .imin (BitVec.ofInt 32 (Min.min u.toInt v.toInt)) ∧
    lane .imax (BitVec.ofInt 32 (Max.max u.toInt v.toInt)) ∧
    lane .and (u &&& v) ∧ lane .or (u ||| v) ∧ lane .xor (u ^^^ v) ∧
    lane .shl (BitVec.ofNat 32 (u.toNat * 2 ^ n)) ∧
    lane .shr (BitVec.ofNat 32 (u.toNat / 2 ^ n)) ∧
    lane .sra (BitVec.ofInt 32 (u.toInt / 2 ^ n)) ∧
    lane .mov u ∧ lane .sel (if sel then u else v) ∧
    lane (.cmp .ieq) (if u = v then 1 else 0) ∧
    lane (.cmp .ilt) (if u.toInt < v.toInt then 1 else 0) ∧
    lane (.cmp .iltu) (if u.toNat < v.toNat then 1 else 0)) ∧
  (∀ (s : State) (c : Nat) (a : Act) (job : TileJob) (i u v : Nat),
    (s.core c).acts.find? (fun b => b.id == a.id) = some a → a.due ≤ s.now → a.pay = .rowRead job i → job.gotA = none → job.gotB = none →
    job.a = some u → job.b = some v → u < 16 → v < 16 →
    let row (t : Nat) : Row := (s.core c).tileRow t (job.first + i)
    let lane (j : Nat) : W32 := (job.fn.lane job.flushing (job.active.getLsbD j) ((row u).getD j 0) ((row v).getD j 0) 0).1
    let next (t : State) : Prop := i + 1 < job.count →
      ∃ b ∈ (t.core c).acts, b.due = s.now + 1 ∧ b.issued = a.issued ∧ b.pay = .rowRead job (i + 1)
    (job.fn ∈ [.iadd, .isub, .imul, .imin, .imax, .and, .or, .xor, .shl, .shr, .sra, .sel] → job.d < 16 →
      ∃ t, exec (.resultLands c a.id) s = .next t ∧ s.OnlyCore t c ∧ next t ∧
        ∃ b ∈ (t.core c).acts, b.due = s.now + 4 ∧ b.pay = .tileRow job.d (job.first + i) job.lanes ((List.range 64).map lane)) ∧
    (job.fn ∈ [.cmp .ieq, .cmp .ilt, .cmp .iltu] →
      ∃ t bs, exec (.resultLands c a.id) s = .next t ∧ s.OnlyCore t c ∧ next t ∧
        (∀ j, j < 64 → BitVec.getLsbD bs j = decide (lane j ≠ 0)) ∧
        ∃ b ∈ (t.core c).acts, b.due = s.now + 4 ∧ b.pay = .maskRow job.d job.lanes bs 0))

/-- R112, R123, R153, R427, R437: a row lands in the enabled lanes of a tile, compare bits land in the enabled lanes of a mask; the status of a row lands in
VSTAT in the same cycle, except after a CSRW VSTAT that landed in that cycle; and nothing else changes. -/
def Obligations.TileAndMaskLandings : Prop :=
  ∀ (s : State) (c : Nat) (a : Act), (s.core c).acts.find? (fun b => b.id == a.id) = some a → a.due ≤ s.now →
    let k := s.core c
    let gains (t : State) (st : Status) : Prop :=
      (t.core c).vstat = if k.vcsrw = true then k.vstat else k.vstat ||| BitVec.setWidth 64 st
    (∀ tile row lanes vals, a.pay = .tileRow tile row lanes vals → row < 16 → tile < 16 →
      ∃ t, exec (.resultLands c a.id) s = .next t ∧ s.Alters t c (fun l => { l with tiles := k.tiles }) ∧
        (∀ j, j < 64 → ((t.core c).tileRow tile row).getD j 0 = if lanes.getLsbD j then vals.getD j 0 else (k.tileRow tile row).getD j 0) ∧
        (∀ u r, r < 16 → ¬ (u = tile ∧ r = row) → (t.core c).tileRow u r = k.tileRow u r)) ∧
    (∀ st, a.pay = .status st →
      ∃ t, exec (.resultLands c a.id) s = .next t ∧ s.Alters t c (fun l => { l with vstat := k.vstat }) ∧ gains t st) ∧
    (∀ m lanes bs st, a.pay = .maskRow m lanes bs st → m < 8 →
      ∃ t, exec (.resultLands c a.id) s = .next t ∧ s.Alters t c (fun l => { l with masks := k.masks, vstat := k.vstat }) ∧
        (∀ j, j < 64 → ((t.core c).masks.getD m 0).getLsbD j = if lanes.getLsbD j then BitVec.getLsbD bs j else (k.masks.getD m 0).getLsbD j) ∧
        (∀ n, n ≠ m → (t.core c).masks.getD n 0 = k.masks.getD n 0) ∧ gains t st)

/-! ### Ports, shapes and the codebook -/

/-- R77, R97, R113, R115, R120, R178, R360, R405, R406, R415: PCFG, PRWD, SHLD and CBLD at their issue: their alignment and range faults, and the read one
cycle later; the port is not ready from issue + 1 until issue + 4, or issue + 2 for PRWD. R46 as the model takes it (log entry 88, the model's choice): an SHLD whose
record's number the live-in mask holds is REGION_RULE. That a PRWD of a port never configured faults once its SYNC waits are taken is log entry 60, the model's choice. -/
def Obligations.PortAndRecordWords : Prop :=
  ∀ (s : State) (h : Hdr) (x : Ctx) (g a n : BitVec 5),
    let sa := (x.reg a).toNat
    let faults (code : Nat) (ta : W64) (i : Instr) : Prop := exec i s = .next (s.raise x.c (x.fault s code ta))
    let late (code : Nat) (ta : W64) (i : Instr) : Prop := exec i s = .next ((x.taken s h).raise x.c (x.fault s code ta))
    let mine : List SeqId := if g.toNat < 4 then [.ld] else [.st]
    let other : List SeqId := if g.toNat < 4 then [.cm, .st, .ct] else [.ld, .cm, .ct]
    let idle : Prop := x.k.place x.q = .timed ∨ g.toNat < 4 ∨ x.k.pushDue g.toNat = false
    (s.AtWord h x mine regions [a] → g.toNat < 8 →
      (sa % 64 = 0 → sa + 64 ≤ 98304 → idle →
        s.Yields (.pcfg h g a)
          (x.done h (x.later (s.modCore x.c fun k => k.holdPort g.toNat (s.now + 1) (s.now + 4)) 1 (.paramRead g.toNat sa)) 4) x.c) ∧
      (sa % 64 ≠ 0 → late 0x0C (x.reg a) (.pcfg h g a)) ∧
      (sa % 64 = 0 → 98304 < sa + 64 → late 0x10 (x.reg a) (.pcfg h g a)) ∧
      (x.k.portSet g.toNat = true → idle →
        s.Yields (.prwd h g)
          (x.done h (x.later (s.modCore x.c fun k => k.holdPort g.toNat (s.now + 1) (s.now + 2)) 2 (.rewindLand g.toNat)) 2) x.c) ∧
      (x.k.portSet g.toNat = false → late 0x02 (x.x.curWord.setWidth 64) (.prwd h g))) ∧
    (s.AtWord h x other everywhere [a] → g.toNat < 8 →
      faults 0x01 (x.x.curWord.setWidth 64) (.pcfg h g a) ∧ faults 0x01 (x.x.curWord.setWidth 64) (.prwd h g)) ∧
    (s.AtWord h x [.ld] regions [a] → n.toNat < 16 →
      (x.k.liveInTile n.toNat = false →
        (sa % 64 = 0 → sa + 64 ≤ 98304 → s.Yields (.shld h n a) (x.done h (x.later s 1 (.shapeRead n.toNat sa)) 4) x.c) ∧
        (sa % 64 ≠ 0 → late 0x0C (x.reg a) (.shld h n a)) ∧
        (sa % 64 = 0 → 98304 < sa + 64 → late 0x10 (x.reg a) (.shld h n a))) ∧
      (x.k.liveInTile n.toNat = true → faults 0x09 0 (.shld h n a))) ∧
    (s.AtWord h x [.cm] regions [a] →
      (sa % 32 = 0 → sa + 32 ≤ 196608 → s.Yields (.cbld h a) (x.done h (x.later s 1 (.codebookRead sa)) 4) x.c) ∧
      (sa % 32 ≠ 0 → late 0x0C (x.reg a) (.cbld h a)) ∧
      (sa % 32 = 0 → 196608 < sa + 32 → late 0x10 (x.reg a) (.cbld h a)))

/-- R113, R114, R120, R121, R178, R406: what the reads of PCFG, SHLD and CBLD lead to: with a free bank, the bytes at the offset of a
record without a fault land three cycles later; a set that lands has its indices at zero. -/
def Obligations.RecordReads : Prop :=
  ∀ (s : State) (c : Nat) (a : Act), (s.core c).acts.find? (fun b => b.id == a.id) = some a → a.due ≤ s.now →
    let k := s.core c
    let free (isA : Bool) (off n : Nat) : Prop := k.bankConflict s.now isA (banksOf off n) a.issued a.by_ = none
    let lands (p : Pay) : Prop :=
      ∃ t, exec (.resultLands c a.id) s = .next t ∧ s.OnlyCore t c ∧ ∃ b ∈ (t.core c).acts, b.due = s.now + 3 ∧ b.issued = a.issued ∧ b.pay = p
    (∀ port sa, a.pay = .paramRead port sa → free true sa 64 → pFault port (recordOf (k.readBuf true sa 64)) = none →
      lands (.portLand port (recordOf (k.readBuf true sa 64)))) ∧
    (∀ n sa, a.pay = .shapeRead n sa → free true sa 64 → hMismatch (recordOf (k.readBuf true sa 64)) = false →
      lands (.shapeLand n (recordOf (k.readBuf true sa 64)))) ∧
    (∀ sa, a.pay = .codebookRead sa → free false sa 32 →
      lands (.codebookLand ((List.range 16).map fun j => BitVec.ofNat 16 (leNat (((k.readBuf false sa 32).drop (2 * j)).take 2))))) ∧
    (∀ port p, a.pay = .portLand port p → port < k.ports.length →
      ∃ t, exec (.resultLands c a.id) s = .next t ∧ s.OnlyCore t c ∧
        ((t.core c).ports.getD port Port.none).set = some p ∧ ((t.core c).ports.getD port Port.none).idx = [0, 0, 0, 0] ∧
        ∀ m, m ≠ port → (t.core c).ports.getD m Port.none = k.ports.getD m Port.none) ∧
    (∀ n r, a.pay = .shapeLand n r →
      ∃ t, exec (.resultLands c a.id) s = .next t ∧ s.Alters t c (fun l => { l with shapes := k.shapes }) ∧
        (t.core c).shape n = r ∧ ∀ m, m ≠ n → (t.core c).shape m = k.shape m) ∧
    (∀ cb, a.pay = .codebookLand cb →
      ∃ t, exec (.resultLands c a.id) s = .next t ∧ s.OnlyCore t c ∧ (t.core c).codebook = cb)

/-! ### Engines -/

/-- R162, R395: MMA with both Z and RS is ILLEGAL_OP. R162, R163, R395: any other MMA with a place in the matrix engine: the command takes its place with the operands it samples, or the first fault of its records is
raised against CM. R176, R179, R185, R389, R390, R423, R424: the words of the lookup engine, with a place in it and operands their rules accept: the command takes its place.
A spill area on a page of memory may not be used in a timed region. -/
def Obligations.MatrixAndLookupWords : Prop :=
  (∀ (s : State) (h : Hdr) (x : Ctx) (c a b : BitVec 5) (z f r : Bool), s.AtWord h x [.cm] regions [] →
    (z = true → r = true → exec (.mma h c a b z f r) s = .next (s.raise x.c (x.fault s 0x01 (x.x.curWord.setWidth 64)))) ∧
    (¬ (z = true ∧ r = true) → c.toNat ≤ 15 → a.toNat ≤ 15 → b.toNat ≤ 15 → (x.k.mma.filter fun m => m.open_ s.now).length < 2 →
    let rc := x.k.shape c.toNat
    let ra := x.k.shape a.toNat
    let rb := x.k.shape b.toNat
    let i := Instr.mma h c a b z f r
    let fits : Prop := hCols ra = hRows rb ∧ hKoff ra = hKoff rb
    let covers : Prop := hRows rc = hRows ra ∧ hCols rc = hCols rb ∧ hScl rc = false ∧ (r = true → hRows rc ≤ 16)
    let faults (code : Nat) (v : BitVec 5) : Prop := exec i s = .next ((x.taken s h).raise x.c (x.fault s code (v.setWidth 64)))
    (hSpace ra = 0 → hSpace rb = 1 → hSpace rc = 2 → hFmt ra < 12 → fits → covers →
      ∃ t m, s.Yields i (x.done h t 1) x.c ∧ (t.core x.c).mma = x.k.mma ++ [m] ∧ m.recA = ra ∧ m.recB = rb ∧ m.recC = rc ∧
        m.z = z ∧ m.f = f ∧ m.rs = r ∧ m.issued = s.now ∧ m.start = none ∧ m.done = none) ∧
    (hSpace ra ≠ 0 → faults 0x10 a) ∧
    (hSpace ra = 0 → hSpace rb ≠ 1 → faults 0x10 b) ∧
    (hSpace ra = 0 → hSpace rb = 1 → hSpace rc ≠ 2 → faults 0x10 c) ∧
    (hSpace ra = 0 → hSpace rb = 1 → hSpace rc = 2 → 12 ≤ hFmt ra → faults 0x02 a) ∧
    (hSpace ra = 0 → hSpace rb = 1 → hSpace rc = 2 → hFmt ra < 12 → ¬ fits → faults 0x06 b) ∧
    (hSpace ra = 0 → hSpace rb = 1 → hSpace rc = 2 → hFmt ra < 12 → fits → ¬ covers → faults 0x06 c))) ∧
  (∀ (s : State) (h : Hdr) (x : Ctx) (c q w a : BitVec 5) (z f : Bool),
    x.k.lookupFull s.now = false →
    let takes (i : Instr) (kind : LookupKind) : Prop :=
      ∃ t m, s.Yields i (x.done h t 1) x.c ∧ (t.core x.c).lookup = x.k.lookup ++ [m] ∧ m.kind = kind ∧ m.issued = s.now ∧ m.start = none ∧ m.done = none
    let faults (code : Nat) (ta : W64) (i : Instr) : Prop := exec i s = .next (s.raise x.c (x.fault s code ta))
    let late (code : Nat) (ta : W64) (i : Instr) : Prop := exec i s = .next ((x.taken s h).raise x.c (x.fault s code ta))
    let rc := x.k.shape c.toNat
    let rw_ := x.k.shape w.toNat
    let ra := x.k.shape a.toNat
    let va := (x.reg a).toNat
    (s.AtWord h x [.cm] regions [] → q.toNat ≤ 3 →
      (c.toNat ≤ 15 → w.toNat ≤ 15 → hSpace rw_ = 1 → hSpace rc = 2 → hRows rc = 16 → hCols rc = hCols rw_ →
        hFmt rw_ ∈ [8, 0xA, 0xB, 0xC, 0xD, 0xE, 0xF] → takes (.lmma h c q w z f) (.lmma z f q.toNat w.toNat rc rw_)) ∧
      (a.toNat ≤ 15 → hSpace ra = 0 → hFmt ra < 12 → hRows ra = 16 → (hSpan ra).2 ≤ 16 →
        (hCols ra = 64 → takes (.tbuildZ h q a) (.tbuild 0 q.toNat a.toNat ra x.k.codebook)) ∧
        (hCols ra = 16 → takes (.tbuildC h q a) (.tbuild 1 q.toNat a.toNat ra x.k.codebook)) ∧
        (hCols ra = 64 → takes (.tbuildC2 h q a) (.tbuild 2 q.toNat a.toNat ra x.k.codebook))) ∧
      (a.toNat ≤ 15 → hSpace ra ≠ 0 →
        late 0x10 (a.setWidth 64) (.tbuildZ h q a) ∧ late 0x10 (a.setWidth 64) (.tbuildC h q a) ∧ late 0x10 (a.setWidth 64) (.tbuildC2 h q a)) ∧
      takes (.tinv h q) (.tinv q.toNat)) ∧
    (s.AtWord h x [.cm] regions [a] → q.toNat ≤ 3 →
      (va % 64 = 0 → va + 16448 ≤ 0xFD0000000000 → x.k.place x.q = .tokened →
        takes (.tspill h q a) (.tspill q.toNat va) ∧ takes (.tfill h q a) (.tfill q.toNat va)) ∧
      (va % 64 = 0 → 0xFF0000040000 ≤ va → va + 16448 ≤ 0xFF0000040000 + 98304 →
        takes (.tspill h q a) (.tspill q.toNat va) ∧ takes (.tfill h q a) (.tfill q.toNat va)) ∧
      (va % 64 ≠ 0 → x.k.place x.q = .tokened → late 0x0C (x.reg a) (.tspill h q a) ∧ late 0x0C (x.reg a) (.tfill h q a)) ∧
      (va < 0xFD0000000000 → x.k.place x.q = .timed → faults 0x09 0 (.tspill h q a) ∧ faults 0x09 0 (.tfill h q a))))

/-- R171, R172, R198, R372, R413: EPI copies its record, bound to the bank that is not the working one; SACC takes the scatter engine with the record and window of
its issue, and its first pair is popped in that cycle. R189, R190, R193, R362, R363: CPY of a misaligned offset is ALIGN and of one out of range SPACE_ACCESS, with TADDR = sa;
a record without a fault is read at its issue; an immediate copy begins, any other enters the region store buffer one cycle later. -/
def Obligations.EpilogueScatterAndCopyWords : Prop :=
  (∀ (s : State) (h : Hdr) (x : Ctx) (d u v a : BitVec 5),
    let sa := (x.reg a).toNat
    let faults (code : Nat) (ta : W64) (i : Instr) : Prop := exec i s = .next ((x.taken s h).raise x.c (x.fault s code ta))
    (s.AtWord h x [.cm] regions [a] → x.k.epi.length < 2 →
      let r := recordOf (x.k.startA sa 64)
      (sa % 64 = 0 → sa + 64 ≤ 98304 → epiFault r = none →
        ∃ t e, s.Yields (.epi h a) (x.done h t 1) x.c ∧ (t.core x.c).epi = x.k.epi ++ [e] ∧ e.record = r ∧ e.bank = !x.k.work ∧ e.issued = s.now ∧
          e.start = none ∧ e.committed = false) ∧
      (∀ code, sa % 64 = 0 → sa + 64 ≤ 98304 → epiFault r = some code → faults code (x.reg a) (.epi h a)) ∧
      (sa % 64 ≠ 0 → faults 0x0C (x.reg a) (.epi h a)) ∧
      (sa % 64 = 0 → 98304 < sa + 64 → faults 0x10 (x.reg a) (.epi h a))) ∧
    (s.AtWord h x [.cm] regions [] → x.k.sacc.length < 2 → d.toNat ≤ 15 → readPortOk u = true → readPortOk v = true → u ≠ v →
      x.k.portsSet [u.toNat, v.toNat] = true → x.k.sourcesReady s.now [u.toNat, v.toNat] = true →
      let r := x.k.shape d.toNat
      let ops (P : Instr → RedOp → Prop) : Prop :=
        P (.saccFadd h d u v) .add ∧ P (.saccFmax h d u v) .max ∧ P (.saccFmin h d u v) .min ∧ P (.saccIadd h d u v) .iadd
      (hSpace r = 0 → hFmt r = 0 → hScl r = false → ops fun i op =>
        ∃ t m, s.Yields i (x.done h (x.later t 0 (.saccPop m.id (u.toNat - 16) (v.toNat - 16) 0 none none)) 1) x.c ∧ t.now = s.now ∧
          (t.core x.c).sacc = x.k.sacc ++ [m] ∧ m.op = op ∧ m.hd = d.toNat ∧ m.record = r ∧ m.window = x.k.sacw.toNat % 32 ∧ m.count = x.k.winCount ∧
          m.start = none ∧ m.pairs = [] ∧ m.applied = 0) ∧
      (hSpace r ≠ 0 → ops fun i _ => faults 0x10 (d.setWidth 64) i) ∧
      (hSpace r = 0 → hFmt r ≠ 0 → ops fun i _ => faults 0x06 (d.setWidth 64) i))) ∧
  (∀ (s : State) (h : Hdr) (x : Ctx) (a : BitVec 5), s.AtWord h x [.ld, .st, .ct] regions [a] →
    let sa := (x.reg a).toNat
    let r := x.k.readBuf true sa 128
    let i := Instr.cpy h a
    let faults (code : Nat) : Prop := exec i s = .next ((x.taken s h).raise x.c (x.fault s code (x.reg a)))
    (sa % 128 ≠ 0 → faults 0x0C) ∧
    (sa % 128 = 0 → 98304 < sa + 128 → faults 0x10) ∧
    (sa % 128 = 0 → sa + 128 ≤ 98304 → x.k.bankConflict s.now true (banksOf sa 128) s.now x.q = none → copyFault r = none →
      ∀ beats, copyBeats x.c r = .ok beats → s.copyAllowed x.c beats = true →
        let toOwn : Prop := ∀ b ∈ beats, ∀ e ∈ b.dsts, e.core? = some x.c
        (toOwn → x.k.copies.length < 64 →
          ∃ t cp, s.Yields i (x.done h t 1) x.c ∧ (t.core x.c).copies = x.k.copies ++ [cp] ∧ cp.immediate = true ∧ cp.beats.length = beats.length ∧
            cp.by_ = x.q ∧ cp.darv = fieldLE r 24 4) ∧
        (¬ toOwn →
          ∃ t cp, s.Yields i (x.done h (x.later t 1 (.hold (.copy cp))) 1) x.c ∧ t.now = s.now ∧ cp.immediate = false ∧ cp.beats = beats ∧
            cp.by_ = x.q ∧ cp.darv = fieldLE r 24 4)))

/-! ### Copies and arrival words -/

/-- R195, R197, R353, R354: ARM and ARRV land four cycles after their issue; AWAIT issues when its generation has been reached, is held before, and raises
ARRIVAL_OVERRUN where OVR is set; the faults of the offset and of the second operand. AWAIT is REGION_RULE in a timed region, where AWAIT.X is not. R195, R196, R354, R355: what an arrival of some bytes, and an ARM, make of an arrival word of 16 bytes: TARGET in bits 31..0, COUNT in 63..32, GEN in 79..64, OVR in
bit 80, the other bits as they were. An arrival of a word without a target only counts. -/
def Obligations.ArrivalWords : Prop :=
  (∀ (s : State) (h : Hdr) (x : Ctx) (a b : BitVec 5),
    let sa := (x.reg a).toNat
    let v := (x.reg b).toNat
    let inside : Prop := sa % 16 = 0 ∧ sa + 16 ≤ 98304
    let word := leNat (x.k.startA sa 16)
    let gen := word / 2 ^ 64 % 2 ^ 16
    let ovr := word.testBit 80
    let reached : Prop := (gen + 2 ^ 16 - v) % 2 ^ 16 < 2 ^ 15
    let faults (code : Nat) (ta : W64) (i : Instr) : Prop := exec i s = .next (s.raise x.c (x.fault s code ta))
    let late (code : Nat) (ta : W64) (i : Instr) : Prop := exec i s = .next ((x.taken s h).raise x.c (x.fault s code ta))
    let words (P : Instr → Prop) : Prop := P (.arm h a b) ∧ P (.arrv h a b) ∧ P (.awaitX h a b)
    (s.AtWord h x [.ld, .st, .ct] regions [a, b] →
      (inside → v < 2 ^ 32 →
        s.Yields (.arm h a b) (x.done h (x.later s 4 (.armLand sa (BitVec.ofNat 32 v))) 4) x.c ∧
        s.Yields (.arrv h a b) (x.done h (x.later s 4 (.arriveLand sa v)) 4) x.c) ∧
      (inside → v < 2 ^ 16 → ovr = false → reached → s.Yields (.awaitX h a b) (x.done h s 1) x.c) ∧
      (inside → v < 2 ^ 16 → ovr = true → late 0x11 (x.reg a) (.awaitX h a b)) ∧
      (sa % 16 ≠ 0 → words (late 0x0C (x.reg a))) ∧
      (sa % 16 = 0 → 98304 < sa + 16 → words (late 0x10 (x.reg a))) ∧
      (inside → 2 ^ 32 ≤ v → words (late 0x02 (x.reg a)))) ∧
    (s.AtWord h x [.ld, .st, .ct] [.tokened] [a, b] → inside → v < 2 ^ 16 →
      (ovr = false → reached → s.Yields (.await h a b) (x.done h s 1) x.c) ∧
      (ovr = true → late 0x11 (x.reg a) (.await h a b)) ∧
      (ovr = false → ¬ reached →
        exec (.await h a b) s = .next (s.modCore x.c fun k => k.modSeq x.q fun y => { y with retry := some (s.now + 1) }) ∧
        exec (.awaitX h a b) s = .next (s.modCore x.c fun k => k.modSeq x.q fun y => { y with retry := some (s.now + 1) }))) ∧
    (s.AtWord h x [.ld, .st, .ct] [.timed] [a, b] → faults 0x09 0 (.await h a b))) ∧
  (∀ (w b target : Nat), w < 2 ^ 128 → target < 2 ^ 32 →
    let tgt := w % 2 ^ 32
    let count := Min.min (w / 2 ^ 32 % 2 ^ 32 + b) (2 ^ 32 - 1)
    let gen := w / 2 ^ 64 % 2 ^ 16
    let fields (v t c g : Nat) (o : Bool) : Prop :=
      v < 2 ^ 128 ∧ v % 2 ^ 32 = t ∧ v / 2 ^ 32 % 2 ^ 32 = c ∧ v / 2 ^ 64 % 2 ^ 16 = g ∧ v.testBit 80 = o ∧ v / 2 ^ 81 = w / 2 ^ 81
    (tgt = 0 → fields (arriveWord w b) 0 count gen (w.testBit 80)) ∧
    (tgt ≠ 0 → count < tgt → fields (arriveWord w b) tgt count gen (w.testBit 80)) ∧
    (tgt ≠ 0 → count = tgt → fields (arriveWord w b) tgt 0 ((gen + 1) % 2 ^ 16) (w.testBit 80)) ∧
    (tgt ≠ 0 → tgt < count → fields (arriveWord w b) tgt count gen true) ∧
    fields (armWord w target) target 0 gen false)


/-! ### Channels, queues and sessions -/

/-- R234 to R238, R446, R447, R449: XGRANT, XSEND and XSTAT of a channel end of the core: the permit decides what becomes of a send at its issue; the faults in the
order of R446. -/
def Obligations.ExchangeWords : Prop :=
  ∀ (s : State) (h : Hdr) (x : Ctx) (a b : BitVec 5) (k : BitVec 2), s.AtWord h x [.ct] regions [a, b] →
    let ch := (x.reg a).toNat
    let sb := (x.reg b).toNat
    let word : W64 := x.x.curWord.setWidth 64
    let faults (code : Nat) (ta : W64) (i : Instr) : Prop := exec i s = .next ((x.taken s h).raise x.c (x.fault s code ta))
    let here (slot : Nat) : W64 := BitVec.ofNat 64 (16 * slot + ch)
    let both (P : Instr → Prop) : Prop := P (.xgrant h a b k) ∧ P (.xsend h a b k)
    (7 < ch → both (faults 0x02 word) ∧ faults 0x02 word (.xstat h a b)) ∧
    (ch ≤ 7 → s.chanEnd x.c ch = none → both (faults 0x12 (here k.toNat)) ∧ faults 0x12 (here 0) (.xstat h a b)) ∧
    (∀ e, ch ≤ 7 → s.chanEnd x.c ch = some e →
      s.Yields (.xstat h a b) (x.writes s h b e.status 1) x.c ∧
      (e.receive = false → faults 0x12 (here k.toNat) (.xgrant h a b k)) ∧
      (e.receive = true → faults 0x12 (here k.toNat) (.xsend h a b k)) ∧
      (e.receive = true → e.nslot < k.toNat → faults 0x02 word (.xgrant h a b k)) ∧
      (e.receive = true → k.toNat ≤ e.nslot → sb % 16 ≠ 0 → faults 0x0C (x.reg b) (.xgrant h a b k)) ∧
      (e.receive = true → k.toNat ≤ e.nslot → sb % 16 = 0 → 98304 < sb + 16 → faults 0x10 (x.reg b) (.xgrant h a b k)) ∧
      (e.receive = true → k.toNat ≤ e.nslot → sb % 16 = 0 → sb + 16 ≤ 98304 →
        exec (.xgrant h a b k) s = .next (x.done h (x.later (s.modEnd x.c ch fun y => y.offer k.toNat) 1 (.grantRead ch k.toNat sb)) 1)) ∧
      (e.receive = false → k.toNat ≤ e.nslot → sb % 16 = 0 → sb + 16 ≤ 98304 →
        ((e.slot k.toNat).granted = true → (e.slot k.toNat).reserved = false →
          exec (.xsend h a b k) s = .next
            (x.done h (x.later (s.modEnd x.c ch fun y => y.modSlot k.toNat fun z => { z with reserved := true }) 1 (.sendRead ch k.toNat sb)) 1)) ∧
        ((e.slot k.toNat).reserved = true → faults 0x12 (here k.toNat) (.xsend h a b k)) ∧
        ((e.slot k.toNat).granted = false → (e.slot k.toNat).reserved = false → e.permits ≠ 0 → faults 0x12 (here k.toNat) (.xsend h a b k)) ∧
        ((e.slot k.toNat).granted = false → (e.slot k.toNat).reserved = false → e.permits = 0 → exec (.xsend h a b k) s = .next (x.held s))))

/-- R243, R268, R330, R370, R394, R408, R426: EMIT and MIRR on ST and CT, TSUB and QCTL on CT, in a region: what each checks, and what it leaves due one cycle later.
QCTL's command reaches the hinge die a cycle later; TSUB reserves its place in the ring. A fault of a word's own comes with its SYNC waits taken (R95). -/
def Obligations.SubmissionWords : Prop :=
  ∀ (s : State) (h : Hdr) (x : Ctx) (a b : BitVec 5),
    let u := (x.reg a).toNat
    let v := (x.reg b).toNat
    let word : W64 := x.x.curWord.setWidth 64
    let faults (code : Nat) (ta : W64) (i : Instr) : Prop := exec i s = .next ((x.taken s h).raise x.c (x.fault s code ta))
    let allowed : Prop := (s.queue u).owner = s.casementOf x.c ∧ (s.queue u).tctl = true
    (s.AtWord h x [.st, .ct] regions [a, b] →
      (u ≤ 65535 → v % 64 = 0 → v + 64 ≤ 98304 → s.Yields (.emit h a b) (x.done h (x.later s 1 (.emitRead x.q u v)) 1) x.c) ∧
      (65535 < u → faults 0x02 word (.emit h a b)) ∧
      (u ≤ 65535 → v % 64 ≠ 0 → faults 0x0C (x.reg b) (.emit h a b)) ∧
      (u ≤ 65535 → v % 64 = 0 → 98304 < v + 64 → faults 0x10 (x.reg b) (.emit h a b)) ∧
      (u ≤ 1 → v < 2 ^ 32 → (s.taskOf x.c).map Task.mirr = some true → x.k.mirrored = false → (∀ n, x.k.mirrLast = some n → n < v) →
        s.Yields (.mirr h a b) (x.done h (x.later (s.modCore x.c fun k => { k with mirrored := true }) 1 (.hold (.mirror u v []))) 1) x.c) ∧
      (u ≤ 1 → v < 2 ^ 32 → (s.taskOf x.c).map Task.mirr = some true → x.k.mirrored = true → faults 0x09 0 (.mirr h a b)) ∧
      (u ≤ 1 → v < 2 ^ 32 → (s.taskOf x.c).map Task.mirr = some false → faults 0x0F (x.reg a) (.mirr h a b)) ∧
      (1 < u ∨ 2 ^ 32 ≤ v → faults 0x02 word (.mirr h a b))) ∧
    (s.AtWord h x [.ct] regions [a, b] →
      (255 < u → faults 0x02 word (.tsub h a b) ∧ faults 0x02 word (.qctl h a b)) ∧
      (u ≤ 255 → ¬ allowed → faults 0x0F (x.reg a) (.tsub h a b) ∧ faults 0x0F (x.reg a) (.qctl h a b)) ∧
      (u ≤ 255 → allowed →
        (v % 128 = 0 → v + 128 ≤ 98304 → (s.queue u).room ≠ 0 →
          exec (.tsub h a b) s = .next
            (x.done h (x.later (s.modQueue u fun y => { y with reserved := y.reserved + 1 }) 1 (.recordRead u v)) 1)) ∧
        (v % 128 = 0 → v + 128 ≤ 98304 → (s.queue u).room = 0 → exec (.tsub h a b) s = .next (x.held s)) ∧
        (v % 128 ≠ 0 → faults 0x0C (x.reg b) (.tsub h a b)) ∧
        (v % 128 = 0 → 98304 < v + 128 → faults 0x10 (x.reg b) (.tsub h a b)) ∧
        (v % 16 ≤ 2 → v / 16 % 2 ^ 28 = 0 →
          exec (.qctl h a b) s = .next (x.done h (x.later s 1 (.command u (v % 16) (BitVec.ofNat 32 (v / 2 ^ 32)))) 1)) ∧
        (2 < v % 16 ∨ v / 16 % 2 ^ 28 ≠ 0 → faults 0x02 word (.qctl h a b))))

/-! ### System words -/

/-- R35, R38, R379, R397, R399: NOP does nothing of its own; IDLE puts the next word off by n cycles; MSEL selects the active mask, on CM, one cycle later; a
selection above 8 is ILLEGAL_OPERAND. R82, R215: a fence of a scope above 4 is ILLEGAL_OP. R214 to R216, R220, R376, R377, R445: a fence in a timed region completes at its issue + 1, elsewhere its sequencer waits; a FULL or REL fence is recorded for the
effects held after it. XFENCE, on CM in a region, completes no earlier than issue + 1. -/
def Obligations.FenceAndMinorWords : Prop :=
  (∀ (s : State) (h : Hdr) (x : Ctx) (n : BitVec 14) (m : BitVec 5),
    (s.AtWord h x allSeqs everywhere [] →
      s.Yields (.nop h) (x.done h s 1) x.c ∧ s.Yields (.idle h n) (x.issued h s (some 1) (x.x.pc + 4) n.toNat) x.c) ∧
    (s.AtWord h x [.cm] everywhere [] →
      (m.toNat ≤ 8 → s.Yields (.msel h m) (x.done h (x.later s 1 (.csr 0x11 (m.setWidth 64))) 1) x.c) ∧
      (8 < m.toNat → exec (.msel h m) s = .next (s.raise x.c (x.fault s 0x02 (x.x.curWord.setWidth 64))))) ∧
    (s.AtWord h x [.ld, .st, .ct] everywhere [] → exec (.msel h m) s = .next (s.raise x.c (x.fault s 0x01 (x.x.curWord.setWidth 64))))) ∧
  (∀ (s : State) (h : Hdr) (x : Ctx) (sc : BitVec 3),
    let fences (P : Instr → Nat → Prop) : Prop := P (.fenceFull h sc) 0 ∧ P (.fenceAcq h sc) 1 ∧ P (.fenceRel h sc) 2
    (sc.toNat ≤ 4 → s.AtWord h x allSeqs [.timed] [] → fences fun i kind =>
      ∃ t, s.Yields i (x.done h t 1) x.c ∧ t.now = s.now ∧ ((t.core x.c).seq x.q).st = x.x.st ∧
        ((t.core x.c).seq x.q).fenced = (if kind = 1 then x.x.fenced else joinFence x.x.fenced sc.toNat (kind == 0))) ∧
    (4 < sc.toNat → s.AtWord h x allSeqs everywhere [] → fences fun i _ =>
      exec i s = .next (s.raise x.c (x.fault s 0x01 (x.x.curWord.setWidth 64)))) ∧
    (sc.toNat ≤ 4 → s.AtWord h x allSeqs [.gap, .tokened, .handler] [] → fences fun i kind =>
      ∃ t, s.Yields i (x.issued h t none (x.x.pc + 4) 0) x.c ∧ ((t.core x.c).seq x.q).st = .atFence sc.toNat kind (s.now + 1) h.sp h.sn ∧
        ((t.core x.c).seq x.q).fenced = (if kind = 1 then x.x.fenced else joinFence x.x.fenced sc.toNat (kind == 0))) ∧
    (s.AtWord h x [.cm] regions [] →
      s.Yields (.xfence h) (x.issued h (x.later s 1 (.xfenceDone h.sp h.sn)) none (x.x.pc + 4) 0) x.c) ∧
    (s.AtWord h x [.cm] [.gap] [] → exec (.xfence h) s = .next (s.raise x.c (x.fault s 0x09 0))) ∧
    (s.AtWord h x [.ld, .st, .ct] everywhere [] → exec (.xfence h) s = .next (s.raise x.c (x.fault s 0x01 (x.x.curWord.setWidth 64)))))

/-- R126, R364: CSRR of an assigned CSR on a sequencer that may access it: its value, written out for every CSR of the map, lands one cycle later, and that of
TCAUSE ends the cause-unread state; of any other CSR it is ILLEGAL_OP. R126, R365: CSRW of a writable CSR with a value it takes lands one cycle later; a read-only CSR is PERMISSION; a value out of range ILLEGAL_OPERAND, or ALIGN for
TVEC; and a TLBI whose scope is not the own core is REGION_RULE in a timed region. -/
def Obligations.CsrWords : Prop :=
  (∀ (s : State) (h : Hdr) (x : Ctx) (d : BitVec 5),
    let k := s.core x.c
    let field (t : Option Task) (o n : Nat) : W64 := BitVec.ofNat 64 ((t.map fun y => fieldLE y.record o n).getD 0)
    let t := s.taskOf x.c
    let reads (c : BitVec 9) (v : W64) : Prop := s.Yields (.csrr h d c) (x.writes s h d v 1) x.c
    (s.AtWord h x allSeqs everywhere [d] →
      reads 0x00 (BitVec.ofNat 64 (x.c * 2 ^ 16 + seqIdx x.q)) ∧ reads 0x01 (field t 8 4) ∧ reads 0x02 (BitVec.ofNat 64 (s.casementOf x.c)) ∧
      reads 0x03 (s.zview (s.casementOf x.c) (dieOf x.c)) ∧ reads 0x04 (BitVec.ofNat 64 s.ftime) ∧ reads 0x05 (field t 24 8) ∧
      reads 0x06 (BitVec.ofNat 64 ((t.map Task.budget).getD 0)) ∧ reads 0x07 (BitVec.ofNat 64 ((t.map Task.level).getD 0)) ∧
      reads 0x08 k.domm ∧ reads 0x18 k.toks ∧ reads 0x30 0xFD0000000000 ∧
      ∀ c, csrAssigned c = false → exec (.csrr h d c) s = .next (s.raise x.c (x.fault s 0x01 (x.x.curWord.setWidth 64)))) ∧
    (s.AtWord h x [.cm] everywhere [d] →
      reads 0x10 k.rwin ∧ reads 0x11 k.mact ∧ reads 0x12 k.mrs ∧ reads 0x13 k.vstat ∧ reads 0x14 k.rkey0 ∧ reads 0x15 k.rkey1 ∧ reads 0x16 k.rctr ∧
      reads 0x17 k.sacw) ∧
    (s.AtWord h x [.ct] everywhere [d] →
      reads 0x20 k.tvec ∧ reads 0x21 k.tsp ∧ reads 0x23 k.taddr ∧ reads 0x24 k.tpc ∧ reads 0x25 k.tcause2 ∧ reads 0x26 k.tseq ∧ reads 0x27 k.trgn ∧
      reads 0x31 k.dplidx ∧ reads 0x32 (BitVec.ofNat 64 (dpl (k.dplidx.toNat / 16 % 16) (k.dplidx.toNat % 16))) ∧
      s.Yields (.csrr h d 0x22) (x.done h (x.later s 1 (.reg x.q d.toNat k.tcause true)) 1) x.c) ∧
    (s.AtWord h x [.ld, .st, .ct] everywhere [d] → ∀ c : BitVec 9, 0x10 ≤ c.toNat → c.toNat ≤ 0x17 →
      exec (.csrr h d c) s = .next (s.raise x.c (x.fault s 0x01 (x.x.curWord.setWidth 64)))) ∧
    (s.AtWord h x [.ld, .cm, .st] everywhere [d] → ∀ c : BitVec 9, c.toNat ∈ [0x20, 0x21, 0x22, 0x23, 0x24, 0x25, 0x26, 0x27, 0x31, 0x32, 0x40] →
      exec (.csrr h d c) s = .next (s.raise x.c (x.fault s 0x01 (x.x.curWord.setWidth 64))))) ∧
  (∀ (s : State) (h : Hdr) (x : Ctx) (a : BitVec 5),
    let v := (x.reg a).toNat
    let word : W64 := x.x.curWord.setWidth 64
    let faults (code : Nat) (ta : W64) (c : BitVec 9) : Prop := exec (.csrw h a c) s = .next ((x.taken s h).raise x.c (x.fault s code ta))
    let writes (c : BitVec 9) : Prop := s.Yields (.csrw h a c) (x.done h (x.later s 1 (.csr c.toNat (x.reg a))) 1) x.c
    let either (ok : Prop) (c : BitVec 9) : Prop := (ok → writes c) ∧ (¬ ok → faults 0x02 word c)
    (s.AtWord h x [.cm] everywhere [a] →
      either (v / 16 % 32 ≠ 0 ∧ v % 16 + v / 16 % 32 ≤ 16) 0x10 ∧ either (v % 16 ≤ 8) 0x11 ∧ writes 0x12 ∧ writes 0x13 ∧ writes 0x14 ∧ writes 0x15 ∧
      writes 0x16 ∧ either (v % 32 ≠ 0 ∧ v % 32 ≤ 16) 0x17) ∧
    (s.AtWord h x [.ct] everywhere [a] →
      (v % 4 = 0 → v < 2 ^ 48 → writes 0x20) ∧ (v % 4 ≠ 0 → faults 0x0C (x.reg a) 0x20) ∧ (v % 4 = 0 → 2 ^ 48 ≤ v → faults 0x02 word 0x20) ∧
      writes 0x21 ∧ either (v / 8 % 2 = 0 ∧ v / 128 % 2 = 0) 0x31 ∧
      (∀ c : BitVec 9, c.toNat ∈ [0x22, 0x23, 0x24, 0x25, 0x26, 0x27, 0x30, 0x32, 0, 1, 2, 3, 4, 5, 6, 7, 8, 0x18] → faults 0x0F (c.setWidth 64) c) ∧
      (v % 16 < 2 → v / 16 % 8 < 4 → v / 128 % 32 = 0 → v < 2 ^ 48 → v / 16 % 8 = 0 ∨ x.k.place x.q ≠ .timed → writes 0x40) ∧
      (v % 16 < 2 → v / 16 % 8 < 4 → v / 128 % 32 = 0 → v < 2 ^ 48 → v / 16 % 8 ≠ 0 → x.k.place x.q = .timed → faults 0x09 0 0x40) ∧
      (2 ≤ v % 16 ∨ 4 ≤ v / 16 % 8 ∨ v / 128 % 32 ≠ 0 ∨ 2 ^ 48 ≤ v → faults 0x02 word 0x40)))

/-- R123, R126, R289, R365: a CSRW lands in its CSR, and in nothing else; the bits beyond the CSR's width are dropped. No status of the landing's cycle is added
to VSTAT after a CSRW of it. -/
def Obligations.CsrLandings : Prop :=
  ∀ (s : State) (c : Nat) (a : Act) (n : Nat) (v : W64), (s.core c).acts.find? (fun b => b.id == a.id) = some a → a.due ≤ s.now → a.pay = .csr n v →
    n ≠ 0x40 →
    let k := s.core c
    let low (m : Nat) : W64 := BitVec.ofNat 64 (v.toNat % 2 ^ m)
    ∃ t, exec (.resultLands c a.id) s = .next t ∧
      (n = 0x10 → (t.core c).rwin = low 9 ∧ s.Alters t c fun l => { l with rwin := k.rwin }) ∧
      (n = 0x11 → (t.core c).mact = low 4 ∧ s.Alters t c fun l => { l with mact := k.mact }) ∧
      (n = 0x12 → (t.core c).mrs = low 4 ∧ s.Alters t c fun l => { l with mrs := k.mrs }) ∧
      (n = 0x13 → (t.core c).vstat = low 10 ∧ (t.core c).vcsrw = true ∧ s.Alters t c fun l => { l with vstat := k.vstat }) ∧
      (n = 0x14 → (t.core c).rkey0 = low 32 ∧ s.Alters t c fun l => { l with rkey0 := k.rkey0 }) ∧
      (n = 0x15 → (t.core c).rkey1 = low 32 ∧ s.Alters t c fun l => { l with rkey1 := k.rkey1 }) ∧
      (n = 0x16 → (t.core c).rctr = v ∧ s.Alters t c fun l => { l with rctr := k.rctr }) ∧
      (n = 0x17 → (t.core c).sacw = low 5 ∧ s.Alters t c fun l => { l with sacw := k.sacw }) ∧
      (n = 0x20 → (t.core c).tvec = v ∧ s.Alters t c fun l => { l with tvec := k.tvec }) ∧
      (n = 0x21 → (t.core c).tsp = v ∧ s.Alters t c fun l => { l with tsp := k.tsp }) ∧
      (n = 0x31 → (t.core c).dplidx = low 8 ∧ s.Alters t c fun l => { l with dplidx := k.dplidx })

/-- R41 to R43, R50, R58, R63, R231, R392, R409, R410, R412, R420: RGN and RGN.T in a gap make the sequencer wait for the region's alignment, CT's operands giving budget, stamp and
live-in mask; RCMT in a region for the closing alignment; STEP for its barrier, once the sequencer's accesses are performed at the scope of its level; REALIGN records its count. The places
in which none of them may stand. R60, R66 to R68, R422: TAIL in a gap takes the sequencer out of the task; the first one of the core takes an entry of its tracker, and is held while all 16 are
in use; the fourth closes the entry and frees the core. Its SYNC bits are ignored. -/
def Obligations.RegionAndTailWords : Prop :=
  (∀ (s : State) (h : Hdr) (x : Ctx) (a b c l : BitVec 5),
    let faults (code : Nat) (ta : W64) (i : Instr) : Prop := exec i s = .next (s.raise x.c (x.fault s code ta))
    let waits (st : SeqState) (u : State) : Prop :=
      ((u.core x.c).seq x.q).st = st ∧ ((u.core x.c).seq x.q).rgnSp = h.sp ∧ ((u.core x.c).seq x.q).rgnSn = h.sn
    (s.AtWord h x allSeqs [.gap] [a, b, c] → ∀ timed : Bool,
      ∃ u, s.Yields (if timed then .rgnT h a b c else .rgn h a b c) (x.issued h u none (x.x.pc + 4) 0) x.c ∧ waits .atRgn u ∧
        ((u.core x.c).seq x.q).rgnTimed = timed ∧ (u.core x.c).phase = .align ∧ (u.core x.c).alignFrom = s.now + 1 ∧
        (x.q = .ct → (u.core x.c).budget = (x.reg a).toNat % 2 ^ 32 ∧ (u.core x.c).stamp = x.reg b ∧ (u.core x.c).liveIn = x.reg c ∧
          (u.core x.c).rgnAddr = x.x.pc) ∧
        (x.q ≠ .ct → (u.core x.c).budget = x.k.budget ∧ (u.core x.c).stamp = x.k.stamp ∧ (u.core x.c).liveIn = x.k.liveIn)) ∧
    (s.AtWord h x allSeqs regions [a, b] →
      ∃ u, s.Yields (.rcmt h a b) (x.issued h u none (x.x.pc + 4) 0) x.c ∧ waits .atRcmt u ∧
        (u.core x.c).rcmtA = (if x.q = .ct then x.reg a else x.k.rcmtA) ∧ (u.core x.c).rcmtB = (if x.q = .ct then x.reg b else x.k.rcmtB)) ∧
    (s.AtWord h x allSeqs [.gap] [] → l.toNat ≤ 5 → s.releaseMet x.c x.q s.now (stepScope l.toNat) (x.acquired h) = true →
      ∃ u, s.Yields (.step h l) (x.issued h u none (x.x.pc + 4) 0) x.c ∧ waits (.atStep l.toNat) u) ∧
    (s.AtWord h x allSeqs everywhere [] → 5 < l.toNat → faults 0x01 (x.x.curWord.setWidth 64) (.step h l)) ∧
    (s.AtWord h x [.ct] regions [a] →
      s.Yields (.realign h a) (x.done h (s.modCore x.c fun k => { k with realign := some (x.reg a) }) 1) x.c) ∧
    (s.AtWord h x [.ct] [.timed, .tokened, .handler] [] →
      faults 0x09 0 (.rgnT h a b c) ∧ faults 0x09 0 (.rgn h a b c) ∧ (l.toNat ≤ 5 → faults 0x09 0 (.step h l)) ∧ faults 0x09 0 (.tail h)) ∧
    (s.AtWord h x [.ct] [.gap, .handler] [] → faults 0x09 0 (.rcmt h a b) ∧ faults 0x09 0 (.realign h a))) ∧
  (∀ (s : State) (h : Hdr) (x : Ctx) (task : Nat), s.AtWord Hdr.none x allSeqs [.gap] [] → x.k.task = some task → x.k.seqs.length = 4 →
    let has : Prop := ∃ e ∈ x.k.tracker, e.task = task
    let last : Prop := ∀ q, q ≠ x.q → (x.k.seq q).st = .off
    (¬ has → 16 ≤ x.k.tracker.length → exec (.tail h) s = .next (x.held s)) ∧
    (has ∨ x.k.tracker.length < 16 →
      ∃ t, exec (.tail h) s = .next t ∧ ((t.core x.c).seq x.q).st = .off ∧ (∀ e, e ≠ x.c → t.core e = s.core e) ∧ t.mem = s.mem ∧
        (∃ e ∈ (t.core x.c).tracker, e.task = task) ∧
        (¬ last → (t.core x.c).task = some task ∧ ∀ q, q ≠ x.q → (t.core x.c).seq q = x.k.seq q) ∧
        (last → (t.core x.c).task = none ∧ (t.core x.c).phase = .idle ∧ ∃ e ∈ (t.core x.c).tracker, e.task = task ∧ e.closed = true)))


/-! ### Tokens -/

/-- R34, R35, R36, R39: a word whose waits are not met is held, or SCHEDULE_MISS in a timed region; one whose waits are met takes them from the counters of its
sequencer, and its signals raise the other two counters at its latency's end. NOP, whose latency is 1, stands for every word. -/
def Obligations.TokenRing : Prop :=
  ∀ (s : State) (h : Hdr) (x : Ctx), s.ctx = some x → x.k.tokens.length = 8 →
    let wp : Nat := match x.q with | .ld => 3 | .cm => 0 | .st => 1 | .ct => 2
    let wn : Nat := match x.q with | .ld => 4 | .cm => 5 | .st => 6 | .ct => 7
    let sp : Nat := match x.q with | .ld => 7 | .cm => 4 | .st => 5 | .ct => 6
    let sn : Nat := match x.q with | .ld => 0 | .cm => 1 | .st => 2 | .ct => 3
    let met : Prop := (h.wp = true → 0 < x.k.token wp) ∧ (h.wn = true → 0 < x.k.token wn)
    (¬ met → x.k.place x.q ≠ .timed →
      exec (.nop h) s = .next (s.modCore x.c fun k => k.modSeq x.q fun y => { y with retry := some (s.now + 1) })) ∧
    (¬ met → x.k.place x.q = .timed →
      exec (.nop h) s = .next (s.raise x.c (x.fault s 0x03 (BitVec.ofNat 64 (s.now - x.k.cycle0))))) ∧
    (met → ∃ t, s.Yields (.nop h) t x.c ∧
      (∀ i, i < 8 → (t.core x.c).token i =
        x.k.token i - (if h.wp = true ∧ i = wp then 1 else 0) - (if h.wn = true ∧ i = wn then 1 else 0)) ∧
      (h.sp = true ∨ h.sn = true → ∃ a ∈ (t.core x.c).acts, a.due = s.now + 1 ∧ a.pay = .signal x.q h.sp h.sn)) ∧
    (∀ a, x.k.acts.find? (fun b => b.id == a.id) = some a → a.due ≤ s.now → ∀ p n, a.pay = .signal x.q p n →
      ∃ t, exec (.resultLands x.c a.id) s = .next t ∧ s.OnlyCore t x.c ∧
        ∀ i, i < 8 → (t.core x.c).token i = x.k.token i + (if p = true ∧ i = sp then 1 else 0) + (if n = true ∧ i = sn then 1 else 0))

/-! ### Results -/

/-- R77, R122, R123, R383: a result lands in its register and in no other; that of TCAUSE ends the cause-unread state; what lands in s0 is discarded. A load of the
core's own buffers reads its bank and lands three cycles later, zero- or sign-extended; a store of them writes its bytes and nothing else. -/
def Obligations.ResultsLand : Prop :=
  ∀ (s : State) (c : Nat) (a : Act), (s.core c).acts.find? (fun b => b.id == a.id) = some a → a.due ≤ s.now →
    let k := s.core c
    (∀ q r v tc, a.pay = .reg q r v tc → (k.seq q).regs.length = 32 →
      ∃ t, exec (.resultLands c a.id) s = .next t ∧ s.Alters t c (fun l => { l with seqs := k.seqs }) ∧
        (0 < r → r < 32 → (t.core c).reg q r = v) ∧ (t.core c).reg q 0 = k.reg q 0 ∧
        (∀ p n, ¬ (p = q ∧ n = r) → (t.core c).reg p n = k.reg p n) ∧
        (t.core c).causeUnread = (if tc then false else k.causeUnread)) ∧
    (∀ q r isA off size sext aq sp sn, a.pay = .loadBank q r isA off size sext aq sp sn → size ∈ [1, 2, 4, 8] →
      k.bankConflict s.now isA (banksOf off size) a.issued a.by_ = none →
      let raw : W64 := BitVec.ofNat 64 (leNat (k.readBuf isA off size))
      let v : W64 := if sext then (raw.setWidth (8 * size)).signExtend 64 else raw
      ∃ t, exec (.resultLands c a.id) s = .next t ∧ s.OnlyCore t c ∧
        (∃ b ∈ (t.core c).acts, b.due = s.now + 3 ∧ b.issued = a.issued ∧ b.pay = .reg q r v false) ∧
        (sp = true ∨ sn = true → ∃ b ∈ (t.core c).acts, b.due = s.now + 3 ∧ b.pay = .signal q sp sn)) ∧
    (∀ q off bytes sp sn, a.pay = .storeBank q true off bytes sp sn →
      k.bankConflict s.now true (banksOf off bytes.length) a.issued a.by_ = none →
      ∃ t, exec (.resultLands c a.id) s = .next t ∧
        s.Alters t c (fun l => { l with aspace := k.aspace, tables := k.tables }) ∧
        (∀ i, i < bytes.length → (t.core c).aspace.get (off + i) = bytes.getD i 0) ∧
        (∀ o, (o < off ∨ off + bytes.length ≤ o) → (t.core c).aspace.get o = k.aspace.get o)) ∧
    (∀ q off bytes sp sn, a.pay = .storeBank q false off bytes sp sn →
      k.bankConflict s.now false (banksOf off bytes.length) a.issued a.by_ = none →
      ∃ t, exec (.resultLands c a.id) s = .next t ∧
        s.Alters t c (fun l => { l with wspace := k.wspace }) ∧
        (∀ i, i < bytes.length → (t.core c).wspace.get (off + i) = bytes.getD i 0) ∧
        (∀ o, (o < off ∨ off + bytes.length ≤ o) → (t.core c).wspace.get o = k.wspace.get o))

/-! ### Exceptions -/

/-- R95, R96, R279, R358, R425: TRAP raises TRAP_INSN with TADDR = sa, on CT, in a region, a gap or handler mode; BRK raises BREAK with TADDR 0, on every sequencer;
TRAP on another sequencer is ILLEGAL_OP. R273, R276, R280: a fault of a core outside handler mode, but for SOFT_ERROR_REEXEC, writes the trap CSRs, whatever its destination; TVEC, TSP and TCAUSE2 stay
(TCAUSE2 where the handler's entry does not fail in turn). A repaired parity error writes none of them. -/
def Obligations.Traps : Prop :=
  (∀ (s : State) (h : Hdr) (x : Ctx) (a : BitVec 5),
    (s.AtWord h x [.ct] everywhere [a] → exec (.trap h a) s = .next ((x.taken s h).raise x.c (x.fault s 0x16 (x.reg a)))) ∧
    (s.AtWord h x allSeqs everywhere [] → exec (.brk h) s = .next ((x.taken s h).raise x.c (x.fault s 0x17 0))) ∧
    (s.AtWord h x [.ld, .cm, .st] everywhere [] → exec (.trap h a) s = .next (s.raise x.c (x.fault s 0x01 (x.x.curWord.setWidth 64))))) ∧
  (∀ (s : State) (c : Nat) (f : FaultRec) (t : Task), s.taskOf c = some t → (s.core c).phase ≠ .trapped →
    let k := s.core c
    let l := (s.deliver c f).core c
    let outside := k.phase ≠ .run
    (f.code ≠ 0x15 →
      l.tcause = BitVec.ofNat 64 (f.code + if outside then 256 else 0) ∧ l.taddr = f.taddr ∧ l.tpc = BitVec.ofNat 64 f.pc ∧
      l.tseq = BitVec.ofNat 64 (seqIdx f.by_) ∧ l.trgn = (if outside then 0 else BitVec.ofNat 64 k.rgnAddr) ∧ l.tvec = k.tvec ∧ l.tsp = k.tsp) ∧
    (f.code = 0x15 → f.xkind = 1 → [l.tcause, l.taddr, l.tpc, l.tseq, l.trgn, l.tvec, l.tsp, l.tcause2] =
      [k.tcause, k.taddr, k.tpc, k.tseq, k.trgn, k.tvec, k.tsp, k.tcause2]))

/-- R54: abandoning a region: nothing in flight lands, no command is left but an EPI that has started or whose region has committed, the working bank is cleared, every
table is invalid, the CSRs, ports and token counters are those of the snapshot, and each sequencer stands at its restart point with its snapshot's
registers. Memory, the buffers, the tiles and the trap CSRs stay. That an EPI that has neither started nor committed goes with its region is log entry 20, the
model's choice. -/
def Obligations.Abandonment : Prop :=
  ∀ (s : State) (c : Nat),
    let k := s.core c
    let t := s.abandon c
    let l := t.core c
    (∀ a ∈ l.acts, a.outlives = true) ∧ l.mma = [] ∧ l.lookup = [] ∧ l.sacc = [] ∧ (∀ e ∈ l.epi, e.committed = true ∨ e.start ≠ none) ∧
    (∀ h ∈ l.held, h.released ≠ none) ∧ (∀ e ∈ l.copies, e.immediate = true → e.committed = true) ∧
    (k.banks.length = 2 → l.bank k.work = Bank.zero ∧ l.bank (!k.work) = k.bank (!k.work)) ∧ (∀ e ∈ l.tables, e.st = .invalid) ∧
    l.work = k.work ∧ [l.rwin, l.mact, l.mrs, l.vstat, l.sacw] = [k.snap.rwin, k.snap.mact, k.snap.mrs, k.snap.vstat, k.snap.sacw] ∧
    l.ports = k.snap.ports ∧ l.tokens = k.snap.tokens ∧
    (∀ q, (l.seq q).regs = (k.snaps.getD (seqIdx q) SeqSnap.idle).regs ∧
      (l.seq q).pc = (let p := k.snaps.getD (seqIdx q) SeqSnap.idle; if p.atRgn then p.pc + 4 else p.pc)) ∧
    l.phase = (if k.snaps.any SeqSnap.atRgn then .align else .gap) ∧
    (∀ a, t.mem.get a = s.mem.get a) ∧ l.wspace = k.wspace ∧ l.aspace = k.aspace ∧ (∀ u r, l.tileRow u r = k.tileRow u r) ∧ l.masks = k.masks ∧
    l.shapes = k.shapes ∧ [l.tvec, l.tsp, l.tcause, l.taddr, l.tpc, l.tcause2, l.tseq, l.trgn] =
      [k.tvec, k.tsp, k.tcause, k.taddr, k.tpc, k.tcause2, k.tseq, k.trgn] ∧
    ∀ e, e ≠ c → (t.core e) = s.core e

/-- R276: the entry of the handler: with the page below TSP in a buffer of the core (log entry 61), a translation of TVEC's page kept that allows a fetch, and its word within reach, CT stands in handler mode at
TVEC with its snapshot's registers, the word there fetched, LD, CM and ST are held, and TCAUSE is unread. R277, R278: a fault in handler mode: while TCAUSE is unread the task fails with code 0x13, TCAUSE2 takes the code, and TCAUSE and TADDR keep the first fault; later
TCAUSE, TADDR, TPC and TSEQ are rewritten with TCAUSE[9:8] = 11 and TSEQ = 3, and TRGN stays; a SOFT_ERROR_REEXEC writes none of them (R280). -/
def Obligations.Handlers : Prop :=
  (∀ (s : State) (c : Nat) (isA : Bool) (off pa key : Nat),
    let k := s.core c
    let h := (s.modCore c fun k =>
      { k with phase := .trapped, causeUnread := true, seqs := k.seqs.map fun x => { x with st := .trapHeld } }).modCore c fun k => { k with entryHot := false }
    ∀ u, locate c (k.tsp - 8).toNat 8 = .own isA off → untranslated k.tvec.toNat = false → h.translate c k.tvec.toNat .fetch = .ok (h, pa, key) →
      h.touch (h.casementOf c) pa key 4 false = .ok u → k.seqs.length = 4 →
      let l := (s.enterHandler c).core c
      l.phase = .trapped ∧ l.causeUnread = true ∧ (l.seq .ct).st = .run ∧ (l.seq .ct).pc = k.tvec.toNat ∧
      (l.seq .ct).regs = (k.snaps.getD 3 SeqSnap.idle).regs ∧ l.place .ct = .handler ∧
      (l.seq .ct).fetched = [{ addr := k.tvec.toNat, word := BitVec.ofNat 32 (leNat (u.readMem (some (dieOf c)) key pa 4)), fault := 0, xcode := 0 }] ∧
      ∀ q, q ≠ .ct → (l.seq q).st = .trapHeld) ∧
  (∀ (s : State) (c : Nat) (f : FaultRec) (t : Task), s.taskOf c = some t → s.task? t.id = some t → (s.core c).phase = .trapped →
    let k := s.core c
    let u := s.deliver c f
    let l := u.core c
    (k.causeUnread = true → t.st ≠ .ending →
      l.tcause2 = BitVec.ofNat 64 f.code ∧ l.tcause = k.tcause ∧ l.taddr = k.taddr ∧ l.tpc = k.tpc ∧ l.trgn = k.trgn ∧
      ∃ v, u.task? t.id = some v ∧ v.st = .ending ∧ v.status = .failed ∧ v.code = 0x13) ∧
    (k.causeUnread = false → f.code = 0x15 → [l.tcause, l.taddr, l.tpc, l.tseq, l.trgn, l.tcause2] = [k.tcause, k.taddr, k.tpc, k.tseq, k.trgn, k.tcause2]) ∧
    (k.causeUnread = false → f.code ≠ 0x15 →
      l.tcause = BitVec.ofNat 64 (f.code + 256 + 512) ∧ l.taddr = f.taddr ∧ l.tpc = BitVec.ofNat 64 f.pc ∧ l.tseq = 3 ∧ l.trgn = k.trgn ∧
      l.tcause2 = k.tcause2))

/-- R274: of the faults that a core raises in one cycle, one is recorded: MACHINE_CHECK before BUDGET_EXCEEDED before SCHEDULE_MISS before SOFT_ERROR_REEXEC before the
in-task faults, these by sequencer in the order LD, CM, ST, CT and then by issue order. R282: the dispatch unit's policy on a task's fault: with a retry left and FPOL not 2 the task uses one and goes on; else it fails with the fault's code, and a fault
that fails a task at once uses no retry. -/
def Obligations.FaultChoiceAndPolicy : Prop :=
  (∀ (fs : List FaultRec),
    let rank (f : FaultRec) : Nat :=
      if f.code = 0x14 then 0 else if f.code = 0x0A then 1 else if f.code = 0x03 then 2 else if f.code = 0x15 then 3
      else match f.by_ with | .ld => 4 | .cm => 5 | .st => 6 | .ct => 7
    (fs = [] → chooseFault fs = none) ∧
    (fs ≠ [] → ∃ f ∈ fs, chooseFault fs = some f ∧ ∀ g ∈ fs, rank f < rank g ∨ (rank f = rank g ∧ f.issued ≤ g.issued))) ∧
  (∀ (s : State) (t : Task) (code : Nat) (atOnce : Bool), s.task? t.id = some t → t.st ≠ .ending →
    let (u, again) := s.faultPolicy t.id code atOnce
    (again = true ↔ atOnce = false ∧ t.fpol ≠ 2 ∧ 0 < t.retries) ∧
    (again = true → u.task? t.id = some { t with retries := t.retries - 1 } ∧ u.cores = s.cores ∧ u.mem = s.mem) ∧
    (again = false → ∃ v, u.task? t.id = some v ∧ v.st = .ending ∧ v.status = .failed ∧ v.code = code ∧ v.retries = t.retries))

/-- R279, R375: ERET in handler mode: CT's registers from its snapshot, every sequencer at its restart point, the token counters of the snapshot, handler mode left; with an
operand CT goes on in a gap at sa with its registers as they are; a misaligned sa is ALIGN; outside handler mode, or on another sequencer, both are ILLEGAL_OP. -/
def Obligations.ErrorReturn : Prop :=
  ∀ (s : State) (h : Hdr) (x : Ctx) (a : BitVec 5),
    let k := s.core x.c
    let point (l : Core) (q : SeqId) : Prop :=
      let p := k.snaps.getD (seqIdx q) SeqSnap.idle
      (l.seq q).regs = p.regs ∧ (l.seq q).pc = (if p.atRgn then p.pc + 4 else p.pc) ∧
        (l.seq q).st = (if p.off then .off else if p.atRgn then .atRgn else .run) ∧ (l.seq q).reentered = p.atRgn
    let left (t : State) : Prop :=
      (t.core x.c).causeUnread = false ∧ (t.core x.c).tokens = k.snap.tokens ∧ s.Alters t x.c (fun l => { l with seqs := k.seqs })
    let faults (code : Nat) (ta : W64) (i : Instr) : Prop := exec i s = .next (s.raise x.c (x.fault s code ta))
    (s.AtWord Hdr.none x [.ct] [.handler] [] →
      ∃ t, exec (.eret h) s = .next t ∧ left t ∧ (∀ q, point (t.core x.c) q) ∧
        (t.core x.c).phase = (if k.snaps.any SeqSnap.atRgn then .align else .gap)) ∧
    (s.AtWord Hdr.none x [.ct] [.handler] [a] → (x.reg a).toNat % 4 = 0 →
      ∃ t, exec (.eretSa h a) s = .next t ∧ left t ∧ (∀ q, q ≠ .ct → point (t.core x.c) q) ∧
        ((t.core x.c).seq .ct).regs = (k.seq .ct).regs ∧ ((t.core x.c).seq .ct).pc = (x.reg a).toNat ∧ ((t.core x.c).seq .ct).st = .run ∧
        ((t.core x.c).seq .ct).gapStart = (x.reg a).toNat) ∧
    (s.AtWord Hdr.none x [.ct] [.handler] [a] → (x.reg a).toNat % 4 ≠ 0 →
      exec (.eretSa h a) s = .next ((x.taken s Hdr.none).raise x.c (x.fault s 0x0C (x.reg a)))) ∧
    (s.AtWord Hdr.none x [.ct] [.gap, .timed, .tokened] [] →
      faults 0x01 (x.x.curWord.setWidth 64) (.eret h) ∧ faults 0x01 (x.x.curWord.setWidth 64) (.eretSa h a)) ∧
    (s.AtWord Hdr.none x [.ld, .cm, .st] everywhere [] →
      faults 0x01 (x.x.curWord.setWidth 64) (.eret h) ∧ faults 0x01 (x.x.curWord.setWidth 64) (.eretSa h a))

/-! ### Encodings -/

/-- R74, R81 to R94: every word's bytes, followed by any bytes, decode to the word and leave the bytes that follow: no bit of an encoding is dropped. -/
def Obligations.EncodingsRoundTrip : Prop :=
  ∀ (i : Instr) (rest : List W8), i.wf = true → encodeFields i ≠ none → decode (encodeBytes i ++ rest) = .ok (i, rest)

/-- R73, R80, R279, R379, R421 and the entries of the instructions named: words that the spec writes out decode to the instructions they stand for, and words with a reserved
OP or a used reserved field are refused. -/
def Obligations.WrittenWordsDecode : Prop :=
  let is (w : W32) (i : Instr) : Prop := decodeWords w 0 = .ok i
  let h := Hdr.none
  is 0x00000000 (.nop h) ∧ is 0x90000000 (.nop { y := 9, i := 0 }) ∧ is 0x00000002 (.eret h) ∧ is 0x00001802 (.eretSa h 12) ∧
  is 0x00000A01 (.trap h 5) ∧ is 0x00000003 (.brk h) ∧ is 0x0004C004 (.fenceRel h 3) ∧ is 0x00000406 (.step h 2) ∧ is 0x00000A07 (.realign h 5) ∧
  is 0x00000E88 (.rcmt h 7 8) ∧ is 0x0000020A (.msel h 1) ∧ is 0x000803E8 (.idle h 1000) ∧ is 0x00110A60 (.rgn h 4 5 6) ∧ is 0x00110A61 (.rgnT h 4 5 6) ∧
  is 0x0028C851 (.sub h 3 4 5) ∧ is 0x0030C855 (.rem h 3 4 5) ∧ is 0x0040C9FF (.addi h 3 4 511) ∧ is 0x00717FFF (.li h 5 16383) ∧
  is 0x00990A30 (.amocAdd h 4 5 3 false) ∧ is 0x009A127F (.amocCas h 8 9 7 true) ∧ is 0x00F83E00 (.jr h 31) ∧ is 0x01000C04 (.bstat h 0 6 4) ∧
  is 0x01610200 (.vrand h 4 1 false) ∧ is 0x0178CA00 (.shld h 3 5) ∧ is 0x0182043C (.mma h 8 2 3 true true false) ∧
  is 0x01898258 (.lmma h 6 1 5 true false) ∧ is 0x01908801 (.tbuildC h 2 4) ∧ is 0x0198CE02 (.tfill h 3 7) ∧ is 0x01980C03 (.cbld h 6) ∧
  is 0x01A01200 (.epi h 9) ∧ is 0x01A81400 (.cpy h 10) ∧ is 0x01B0E110 (.saccFadd h 3 16 17) ∧ is 0x01B90A00 (.arm h 4 5) ∧
  is 0x01C10C05 (.xsend h 4 6 1) ∧ is 0x01C10072 (.xstat h 4 7) ∧ is 0x01C90A01 (.mirr h 4 5) ∧ is 0x01D10A01 (.qctl h 4 5) ∧
  (∃ why, decodeWords 0x01D80000 0 = .error why) ∧ (∃ why, decodeWords 0x00000023 0 = .error why)

/-! ### Steps -/

/-- R72, R74, R95: with a word at its issue, the step is the meaning of the instruction its fetched bits decode to, and the sequencer no longer stands at its issue;
bits that decode to none raise ILLEGAL_OP. The word that is at its issue, `cur`, is a field of the model (log entry 9). -/
def Obligations.StepRunsTheDecodedWord : Prop :=
  ∀ (s : State) (x : Ctx) (f g : Fetched), s.ctx = some x → x.x.ready? = some f → f.fault = 0 →
    (x.k.place x.q = .timed → s.now ≤ x.x.dueAt f) →
    (isPair f.word = true → x.x.wordAt ((x.x.pc + 4) % 2 ^ 64) = some g ∧ g.fault = 0) → (isPair f.word = false → g = f) →
    (∀ i, decodeWords f.word g.word = .ok i →
      (∀ t, exec i s = .next t → step s = .next { t with cur := none }) ∧
      (∀ r, exec i s = .fault r → step s = .fault r) ∧ (∀ r, exec i s = .refused r → step s = .refused r)) ∧
    (∀ why, decodeWords f.word g.word = .error why →
      step s = .next (({ s with cur := none } : State).raise x.c (x.fault s 0x01 (f.word.setWidth 64))))

/-- The model's own order of a cycle (log entry 5): with no word at its issue and no input due, the step makes the first move that is enabled; when none is left, the cycle
passes: one cycle is counted. -/
def Obligations.StepsMakeMovesThenTick : Prop :=
  ∀ (s : State), s.cur = none → s.takeInput = none → s.boot.hingeLost = false →
    (∀ p l r t, s.moves = l ++ p :: r → (∀ b ∈ l, Move.run b.move s = none) → Move.run p.move s = some t → step s = .next t) ∧
    ((∀ p ∈ s.moves, Move.run p.move s = none) → ∃ t, step s = .next t ∧ t.now = s.now + 1)

/-! ### Memory and reset -/

/-- Log entry 2 (the model's choice of memory's one canonical form): bytes written to a byte array read back, and no other byte changes; the canonical form
stays. -/
def Obligations.BytesReadBack : Prop :=
  ∀ (m : Cells) (a : Nat) (bs : List W8),
    (m.write a bs).read a bs.length = bs ∧ (∀ c, (c < a ∨ a + bs.length ≤ c) → (m.write a bs).get c = m.get c) ∧ (m.wf = true → (m.write a bs).wf = true)

/-- Log entry 2: memory has one canonical form (addresses strictly rising, no entry equal to what an unlisted address reads as), and every step keeps it. -/
def Obligations.MemoryStaysCanonical : Prop := ∀ (s t : State), s.MemOk → step s = .next t → t.MemOk

/-- R33, R77: a core's scalar registers s0 read zero in every state, whatever is written. R33: what a program finds on a core at its launch. -/
def Obligations.LaunchedCore : Prop :=
  (∀ (s : State) (c : Nat) (q : SeqId) (v : W64) (x : Ctx) (t : State) (lat : Nat),
    (s.core c).reg q 0 = 0 ∧ ((s.core c).modSeq q fun y => y.setReg 0 v).reg q 0 = 0 ∧
    ((s.core c).modSeq q fun y => y.setReg 0 v).SameData (s.core c) ∧ x.reg 0 = 0 ∧ x.land t 0 v lat = t) ∧
  (∀ (old : Core) (t : Task) (entries cores : List Nat) (rank c start now : Nat),
    let k := old.launch t entries cores rank c start now
    (∀ q, k.reg q 1 = BitVec.ofNat 64 (t.field 32 8) ∧ (k.seq q).pc = entries.getD (seqIdx q) 0 ∧ (k.seq q).st = .run) ∧
    (∀ q r, 2 ≤ r → k.reg q r = 0) ∧ (∀ u r, k.tileRow u r = List.replicate 64 0) ∧ (∀ m, k.masks.getD m 0 = 0) ∧ k.activeMask = BitVec.allOnes 64 ∧
    (∀ e ∈ k.tables, e.st = .invalid) ∧ (∀ n, k.shape n = 0) ∧ (∀ n, k.portSet n = false) ∧ k.bank false = Bank.zero ∧ k.bank true = Bank.zero ∧
    k.work = false ∧ (∀ i, k.token i = 0) ∧ k.vstat = 0 ∧ k.winFirst = 0 ∧ k.winCount = 1 ∧ k.mrs = 0 ∧ k.sacw = 1 ∧ k.rkey0 = 0 ∧ k.rkey1 = 0 ∧
    k.rctr = 0 ∧ k.dplidx = 0 ∧ k.tvec = 0 ∧ k.tsp = 0 ∧ (∀ e ∈ k.codebook, e = 0) ∧ (∀ a, k.wspace.get a = 0 ∧ k.aspace.get a = 0) ∧
    k.phase = .gap ∧ k.task = some t.id)

/-- R297, R311, R342, R343: right after a cold reset every casement is FREE with a valid key, every queue is IDLE, no session is open, no task is held, BOOTST is clear of READY, and
memory lists nothing. A register whose value no rule gives reads 0 there: the model's choice (log entry 1). -/
def Obligations.ResetState : Prop :=
  let s := State.reset
  s.MemOk ∧ (∀ a, s.mem.get a = 0) ∧ s.tasks = [] ∧ s.boot.ready = false ∧ s.boot.failcode = 0 ∧
  (∀ k, k < 16 → (s.casement k).st = .free ∧ (s.casement k).keyValid = true) ∧
  (∀ q, (s.queue q).st = .idle ∧ (s.queue q).qrd = 0 ∧ (s.queue q).qwr = 0) ∧ (∀ n, (s.session n).isOpen = false) ∧
  (∀ c q r, (s.core c).reg q r = 0) ∧ (∀ d, d < 9 → (s.die d).live = true) ∧ s.now = 0


/-! ### Regions -/

/-- R42, R43, R44, R45, R206: the alignment cycle of a core whose four sequencers stand at their RGNs, with its power granted, its store buffer and its EPIs drained: what R42
checks is REGION_RULE; a stamp that the view has passed is SCHEDULE_MISS, which goes before it (R274); with no stamp, at the stamp, or re-entered, the region starts in this cycle, its cycle
0: the snapshot is taken, every push has drained, and of the core's data nothing changes. Before a stamp that is still to come every push drains. -/
def Obligations.RegionsOpen : Prop :=
  ∀ (s : State) (c : Nat),
    let k := s.core c
    let ct := k.seq .ct
    let view := s.zview (s.casementOf c) (dieOf c)
    k.phase = .align → k.seqs.length = 4 → (∀ q, (k.seq q).st = .atRgn) → k.powered = true → k.alignFrom ≤ s.now → k.held = [] → k.epi = [] → k.faults = [] →
    (ct.rgnTimed = true → k.windowFetched = true) →
    let broken : Prop := (∃ q, (k.seq q).rgnTimed ≠ ct.rgnTimed) ∨ (ct.rgnTimed = true ∧ k.budget = 0) ∨ k.liveIn >>> 16 ≠ 0
    let passed : Prop := ct.reentered = false ∧ k.stamp ≠ 0 ∧ k.stamp.ult view = true
    (passed → exec (.regionAlignment c) s = .next (s.alignmentFault c 0x03)) ∧
    (broken → ¬ passed → exec (.regionAlignment c) s = .next (s.alignmentFault c 0x09)) ∧
    (¬ broken → ct.reentered = false → k.stamp ≠ 0 → view.ult k.stamp = true → k.pushes ≠ [] →
      exec (.regionAlignment c) s = .next (s.setCore c k.drainAll)) ∧
    (¬ broken → ct.reentered = true ∨ k.stamp = 0 ∨ k.stamp = view →
      ∃ t, exec (.regionAlignment c) s = .next t ∧ s.OnlyCore t c ∧
        (t.core c).phase = .run ∧ (t.core c).timed = ct.rgnTimed ∧ (t.core c).cycle0 = s.now ∧ (t.core c).pushes = [] ∧ (t.core c).flip = false ∧
        (t.core c).realign = none ∧ (t.core c).snap = k.coreSnapshot ∧
        (∀ q, ((t.core c).seq q).st = .run ∧ ((t.core c).seq q).pc = (k.seq q).pc ∧ ((t.core c).seq q).base = s.now) ∧
        ∀ q, ((t.core c).snaps.getD (seqIdx q) SeqSnap.idle).pc = (k.seq q).pc - 4 ∧
          ((t.core c).snaps.getD (seqIdx q) SeqSnap.idle).regs = (k.seq q).regs ∧ ((t.core c).snaps.getD (seqIdx q) SeqSnap.idle).atRgn = true)

/-- R50, R51, R52, R58, R70, R160, R161, R168: the closing alignment of a region whose four RCMTs have issued: in a timed region with work unfinished it is a
SCHEDULE_MISS of the first word of that work; a misaligned live map is ALIGN; a reserved bit of RCMT's mask is REGION_RULE; else the region commits: its EPIs and immediate copies outlive it, its held effects are released, the
banks flip if a command with F has completed, the live-out is recorded, and every sequencer is in a gap that starts at the word after its RCMT; a pre-emption whose
cycle has come begins its save (R262). -/
def Obligations.RegionsClose : Prop :=
  ∀ (s : State) (c : Nat),
    let k := s.core c
    let fault (code : Nat) (ta : W64) : FaultRec :=
      { code := code, by_ := .ct, issued := s.now, pc := (k.seq .ct).pc - 4, taddr := ta, xkind := 0, xcode := 0 }
    k.phase = .run → k.seqs.length = 4 → (∀ q, (k.seq q).st = .atRcmt) → k.faults = [] →
    (k.timed = true → k.unfinished = true → ∃ w ∈ k.unfinishedWords, (∀ v ∈ k.unfinishedWords, w.2.2 ≤ v.2.2) ∧
      exec (.closingAlignment c) s = .next (s.raise c
        { code := 0x03, by_ := w.1, issued := w.2.2, pc := w.2.1, taddr := BitVec.ofNat 64 (s.now - k.cycle0), xkind := 0, xcode := 0 })) ∧
    (k.unfinished = false → (k.timed = false → s.landingsOut c = false) →
      (k.rcmtB.toNat % 8 ≠ 0 → exec (.closingAlignment c) s = .next (s.settleNow c (fault 0x0C k.rcmtB))) ∧
      (k.rcmtB = 0 → k.rcmtA >>> 17 ≠ 0 → exec (.closingAlignment c) s = .next (s.settleNow c (fault 0x09 0))) ∧
      (∀ m, k.checkRcmt = .ok m → k.realign = none → k.mirrored = false →
        ((∀ p, k.preempt = some p → s.now < p.at_) → ∃ t, exec (.closingAlignment c) s = .next t ∧
          (∀ a, t.mem.get a = s.mem.get a) ∧ (∀ d, d ≠ c → t.core d = s.core d) ∧ k.SameData (t.core c) ∧
          (t.core c).phase = .gap ∧ (t.core c).work = (k.work != k.flip) ∧ (t.core c).flip = false ∧ (t.core c).liveOut = k.rcmtA &&& 0xFFFF ∧
          (t.core c).ckeep = k.rcmtA.getLsbD 16 ∧ (t.core c).liveMap = m ∧ (t.core c).units = 0 ∧ (t.core c).powered = false ∧
          (∀ e ∈ (t.core c).epi, e.committed = true) ∧ (∀ cp ∈ (t.core c).copies, cp.committed = true) ∧
          (∀ e ∈ (t.core c).held, e.released ≠ none) ∧ (t.core c).held.length = k.held.length ∧
          (∀ q, ((t.core c).seq q).st = .run ∧ ((t.core c).seq q).base = s.now + 1 ∧ ((t.core c).seq q).pc = (k.seq q).pc ∧
            ((t.core c).seq q).gapStart = (k.seq q).pc) ∧
          ∀ q, ((t.core c).snaps.getD (seqIdx q) SeqSnap.idle).pc = (k.seq q).pc ∧
            ((t.core c).snaps.getD (seqIdx q) SeqSnap.idle).regs = (k.seq q).regs ∧ ((t.core c).snaps.getD (seqIdx q) SeqSnap.idle).atRgn = false) ∧
        (∀ p, k.preempt = some p → p.at_ ≤ s.now → ∃ t, exec (.closingAlignment c) s = .next t ∧
          (t.core c).phase = .saving ∧ (t.core c).saveKind = 0 ∧ (t.core c).saveTiles = (k.rcmtA &&& 0xFFFF).toNat ∧ (t.core c).preempt = none)))

/-- R53, R231, R274, R277, R280, R281, R326: a region at its budget is BUDGET_EXCEEDED; a task at its own, with no MACHINE_CHECK of the cycle before it, is failed by the fault
policy, at once, and as a double trap where a core of it has a cause unread; that CT and its program counter stand for the word of these faults and of the soft errors is
log entry 65, the model's choice; a parity error of a value is SOFT_ERROR_REEXEC, one of a live input is not repaired, a single-bit error of a buffer is counted, and a
double-bit one is MACHINE_CHECK, with a free value for the failing unit's address (log entry 80); a REALIGN becomes visible on a die in its cycle. -/
def Obligations.RegionTimers : Prop :=
  ∀ (s : State) (c : Nat),
    let k := s.core c
    let fault (code kind : Nat) : FaultRec :=
      { code := code, by_ := .ct, issued := s.now, pc := (k.seq .ct).pc, taddr := 0, xkind := kind, xcode := 0 }
    (k.phase = .run → k.budget ≠ 0 → k.cycle0 + k.budget ≤ s.now → (∀ f ∈ k.faults, f.code ≠ 0x0A) →
      exec (.budgetExceeded c) s = .next (s.raise c (fault 0x0A 0))) ∧
    (∀ t : Task, s.task? t.id = some t → t.budget = 0 → s.budgetCounts t = true → t.st ≠ .ending → s.checkPending t = false →
      let unread : Prop := ∃ d ∈ t.cores, (s.core d).task = some t.id ∧ (s.core d).phase = .trapped ∧ (s.core d).causeUnread = true
      ∃ u v, exec (.taskBudgetExpiry t.id) s = .next u ∧ u.task? t.id = some v ∧ v.st = .ending ∧ v.status = .failed ∧
        (¬ unread → v.code = 0x0A) ∧ (unread → v.code = 0x13)) ∧
    (k.task ≠ none → k.phase ≠ .idle → k.phase ≠ .saving →
      exec (.softErrorReexec c .value) s = .next (s.raise c (fault 0x15 1)) ∧ exec (.softErrorReexec c .liveInput) s = .next (s.raise c (fault 0x15 0)) ∧
      (∃ t, exec (.softErrorReexec c .bufferSingle) s = .next t ∧ (t.core c).softCount = k.softCount + 1 ∧ k.SameData (t.core c) ∧ t.mem = s.mem) ∧
      (let (v, u) := s.draw
       exec (.softErrorReexec c .bufferDouble) s = .next (u.raise c { fault 0x14 0 with taddr := BitVec.ofNat 64 v }))) ∧
    (∀ n d e, n < s.casements.length → (s.casement n).offsets.length = 9 → d < 9 →
      (s.casement n).coming.find? (fun x => x.1 == d && decide (x.2.1 ≤ s.now)) = some e →
      ∃ t, exec (.realignVisible n d) s = .next t ∧ (t.casement n).offsets = (s.casement n).offsets.set d e.2.2 ∧
        (t.casement n).coming = (s.casement n).coming.erase e ∧ (d = 8 → (t.casement n).anchorGen = ((s.casement n).anchorGen + 2) % 2 ^ 64) ∧
        t.cores = s.cores ∧ t.mem = s.mem)

/-! ### Saves and retirement -/

/-- R60, R67, R68, R206, R260, R262, R263, R264, R298: every 32 cycles the dispatch unit decides, and takes the quotas as they stand; a pre-emption of a core in a gap, at its RGNs, in a handler or in
a region that does not end in time abandons it and begins its save; a save that ends frees the core and remembers its restart points; one whose write faults is cancelled and
reported, and the core goes on from its points; a retirement entry frees when nothing of the task is outstanding, and a stopped task that waited for an entry may take it. -/
def Obligations.SavesAndRetirement : Prop :=
  ∀ (s : State) (c : Nat),
    let k := s.core c
    (s.nextDecision ≤ s.now → s.boot.ready = true → s.boot.hingeLost = false → exec .dispatchDecision s = .next s.decision ∧
      (s.tasks = [] → s.streams = [] → (∀ e ∈ s.queues, e.2.cmds = []) → s.decision.nextDecision = s.now + 32 ∧
        ∀ n, n < s.casements.length → (s.decision.casement n).inForce = (s.casement n).quota)) ∧
    (∀ p, k.preempt = some p → p.at_ ≤ s.now → k.task ≠ none →
      k.phase ∈ [.gap, .align, .trapped] ∨ (k.phase = .run ∧ (k.budget = 0 ∨ p.at_ + p.bound < k.cycle0 + k.budget)) →
      ∃ t, exec (.preemptRequest c) s = .next t ∧ t = (s.abandon c).beginSave c 1 k.saveMask false ∧ (t.core c).phase = .saving ∧ (t.core c).preempt = none ∧
        (t.core c).pushes = [] ∧ s.now < (t.core c).saveDue ∧ ∀ q, q ∈ (t.core c).seqs → q.st = .off) ∧
    (∀ n u, k.task = some n → k.phase = .saving → k.saveDue ≤ s.now → k.epi = [] → s.trySave c = .ok u →
      ∃ t, exec (.saveComplete c) s = .next t ∧ (t.core c).phase = .idle ∧ (t.core c).task = none ∧ (∀ x ∈ (t.core c).seqs, x.st = .off) ∧ t.mem = u.mem ∧
        ∀ v, u.task? n = some v → ∃ w, t.task? n = some w ∧ w.savedCores = v.savedCores ++ [k.savedCore]) ∧
    (∀ v u va addr, s.taskOf c = some v → k.phase = .saving → k.saveDue ≤ s.now → k.epi = [] → v.park = none →
      s.trySave c = .error (u, .fault va addr) → c ∈ v.cores →
      (u.core c).task = some v.id → (u.core c).phase = .saving → 16 < u.rings.length →
      ∃ t, exec (.saveFault c) s = .next t ∧ (t.core c).phase ∈ [.align, .gap] ∧
        (t.ring 16).waiting = (u.ring 16).waiting ++ [(faultEntry addr va (u.taskIdOf v.id) c 4 v.casement 4, .nothing)]) ∧
    (∀ n, (∃ e ∈ k.tracker, e.task = n ∧ e.closed = true) → s.noneOut c n = true → s.boot.hingeLost = false →
      (∀ v, s.task? n = some v → (s.casement v.casement).st ≠ .stopping) → (s.casement 16).st ≠ .stopping →
      ∃ t, exec (.trackerEntryFree c n) s = .next t ∧ (∀ e ∈ (t.core c).tracker, e.task ≠ n) ∧
        ((∀ v, s.taskOf c = some v → v.st ≠ .ending) → (t.core c).tracker = k.tracker.filter fun e => e.task != n) ∧
        (k.task = some n → (t.core c).task = none ∧ (t.core c).phase = .idle) ∧ t.mem = s.mem ∧
        ∀ v, s.task? n = some v → ∃ w, t.task? n = some w ∧ c ∈ w.freed)

/-! ### Queues -/

/-- R248, R249, R251, R264, R318, R408: the commands of a queue and the writes of its index, once the part is READY: START makes a queue ACTIVE whose ring is pinned, or STOPPED
while its casement's save area is in error, and ERROR 0x0E where the ring is not pinned, and waits while the tables cannot be read; STOP
stops an ACTIVE or WAIT_FAULT queue, a stalled mark first; SETRD moves the index of an ERROR or STOPPED queue; QWR that overfills an ACTIVE ring is ERROR 0x18 at
the read index, one that empties a ring gives up its slot, and a function that does not own the queue writes nothing. In other states a command does nothing. A QCTL's command
reaches its queue a cycle after its issue (R408). The model's choices: FIDX = QRD at an overfull ring (log entry 38), QWR stored in every state and tested in ACTIVE only (log
entry 55), FIDX = QRD after a START on an unpinned ring (log entry 99), and START, STOP and SETRD acting at once, as the steps that the opcode table lists (log entry 67). -/
def Obligations.QueueCommands : Prop :=
  ∀ (s : State) (q : Nat) (w : W32), q < 256 → s.boot.ready = true →
    let x := s.queue q
    let pinned : Dev Bool := s.rangePinned x.owner x.ringVa (128 * 2 ^ x.qsz) .load
    (x.st ∈ [.idle, .error, .stopped] → ∃ t, exec (.start q) s = .next t ∧
      (∀ u, pinned = .ok u true → (t.queue q).st = (if (u.casement (u.queue q).owner).saveErr then .stopped else .active)) ∧
      (∀ u, pinned = .ok u false → (t.queue q).st = .error ∧ (t.queue q).cause = 0x0E ∧ (t.queue q).fidx = (t.queue q).qrd) ∧
      (∀ u, pinned = .wait u → (t.queue q).st = (u.queue q).st ∧ (t.queue q).cmds = (0, 0) :: (u.queue q).cmds)) ∧
    (x.st ∈ [.active, .waitFault] → exec (.start q) s = .next s) ∧
    (x.stalled = false → x.st ∈ [.active, .waitFault] → ∃ t, exec (.stop q) s = .next t ∧ (t.queue q).st = .stopped ∧ (t.queue q).slot = false ∧
      (t.queue q).qrd = x.qrd ∧ (t.queue q).qwr = x.qwr ∧ ∀ p, p ≠ q → t.queue p = s.queue p) ∧
    (x.stalled = false → x.st ∈ [.idle, .error, .stopped] →
      ∃ t, exec (.stop q) s = .next t ∧ (∀ p, t.queue p = s.queue p) ∧ t.cores = s.cores ∧ t.mem = s.mem) ∧
    (x.stalled = true → ∃ t, exec (.stop q) s = .next t ∧ (t.queue q).cmds = x.cmds ++ [(1, 0)] ∧ (t.queue q).st = x.st) ∧
    (x.st ∈ [.error, .stopped] → ∃ t, exec (.setrd q w) s = .next t ∧ t.queue q = { x with qrd := w } ∧ ∀ p, p ≠ q → t.queue p = s.queue p) ∧
    (x.st ∈ [.idle, .active, .waitFault] → exec (.setrd q w) s = .next s) ∧
    (∀ fn : HostFn, fn = .pf ∨ fn = .vf x.owner →
      ∃ t, exec (.qwrWrite fn q w) s = .next t ∧ (t.queue q).qwr = w ∧ (t.queue q).qrd = x.qrd ∧ t.mem = s.mem ∧ t.cores = s.cores ∧
        (w = x.qrd → (t.queue q).slot = false) ∧
        if x.st = .active ∧ 2 ^ x.qsz < (w - x.qrd).toNat then (t.queue q).st = .error ∧ (t.queue q).cause = 0x18 ∧ (t.queue q).fidx = x.qrd
        else (t.queue q).st = x.st ∧ (t.queue q).cause = x.cause) ∧
    (∀ n, n ≠ x.owner → exec (.qwrWrite (.vf n) q w) s = .next s) ∧
    (∀ c a code, (s.core c).acts.find? (fun b => b.id == a.id) = some a → a.due ≤ s.now → a.pay = .command q code w →
      ∃ t, exec (.resultLands c a.id) s = .next t ∧ t.queue q = { x with cmds := x.cmds ++ [(code, w)] } ∧ (∀ p, p ≠ q → t.queue p = s.queue p) ∧
        t.mem = s.mem)

/-- R221, R249, R250, R251, R318, R461: a queue's record read at QRD in its ring: EMPTY frees the slot and leaves QRD; WAIT with the reserved condition, and a reserved type, are ERROR
0x18; a record that cannot be translated is ERROR 0x0E, and one whose memory cannot be reached yet waits. A wait that holds advances QRD, one that does not is tried again 10 µs later (12,500 cycles); a mark writes
its signal and advances QRD once no earlier task of the queue is left; WAIT_FAULT ends in ERROR 0x0E at the fault timeout. The model's choices (log entry 38): ERROR 0x0E with FIDX =
QRD for a record that cannot be read, and the dropped low bits of SIG in wait and mark records. -/
def Obligations.QueueRecords : Prop :=
  ∀ (s : State) (q : Nat), s.boot.hingeLost = false → s.boot.ready = true →
    let x := s.queue q
    let va := x.qbase.toNat / 4096 % 2 ^ 36 * 4096 + 128 * (x.qrd.toNat % 2 ^ x.qsz)
    (x.st = .active → x.slot = true → x.qwr ≠ x.qrd → x.due ≤ s.now → x.reached = none →
      (∀ u f, s.devReach x.owner va 128 .load = .fault u f →
        ∃ t, exec (.queueRecordRead q) s = .next t ∧ (t.queue q).st = .error ∧ (t.queue q).cause = 0x0E ∧ (t.queue q).fidx = (u.queue q).qrd ∧ t.tasks = u.tasks) ∧
      (∀ u, s.devReach x.owner va 128 .load = .wait u →
        ∃ t, exec (.queueRecordRead q) s = .next t ∧ (t.queue q).st = (u.queue q).st ∧ (t.queue q).qrd = (u.queue q).qrd ∧ (t.queue q).due = u.now + 1 ∧
          t.tasks = u.tasks) ∧
      (∀ u e v bs, s.devReach x.owner va 128 .load = .ok u e →
        u.acquireRead e.key (e.paOf va) 128 = (v, bs) → v.tasks.length < 8192 →
        (fieldLE bs 0 1 = 0 → ∃ t, exec (.queueRecordRead q) s = .next t ∧ (t.queue q).slot = false ∧ (t.queue q).qrd = (v.queue q).qrd ∧ t.mem = v.mem) ∧
        (fieldLE bs 0 1 = 1 → exec (.queueRecordRead q) s = .next (v.readTask q bs)) ∧
        (fieldLE bs 0 1 = 3 → ∃ t, exec (.queueRecordRead q) s = .next t ∧ (t.queue q).reached = some bs ∧ (t.queue q).qrd = (v.queue q).qrd) ∧
        (3 < fieldLE bs 0 1 ∨ (fieldLE bs 0 1 = 2 ∧ fieldLE bs 1 1 % 4 = 3) → ∃ t, exec (.queueRecordRead q) s = .next t ∧
          (t.queue q).st = .error ∧ (t.queue q).cause = 0x18 ∧ (t.queue q).fidx = (v.queue q).qrd))) ∧
    (∀ r, x.reached = some r → fieldLE r 0 1 = 2 → x.st ∈ [.active, .waitFault] → x.nextWait ≤ s.now →
      let sig := fieldLE r 8 8 / 8 * 8
      ∀ u e v bs, s.devReach x.owner sig 8 .load = .ok u e →
        u.acquireRead e.key (e.paOf sig) 8 = (v, bs) →
        let met : Prop := if fieldLE r 1 1 % 4 = 0 then leNat bs = fieldLE r 16 8 else if fieldLE r 1 1 % 4 = 1 then fieldLE r 16 8 ≤ leNat bs
          else leNat bs ≠ fieldLE r 16 8
        ∃ t, exec (.waitRecheck q) s = .next t ∧ (t.queue q).st = .active ∧
          (met → (t.queue q).qrd = (v.queue q).qrd + 1 ∧ (t.queue q).reached = none) ∧
          (¬ met → (t.queue q).qrd = (v.queue q).qrd ∧ (t.queue q).nextWait = v.now + 12500)) ∧
    (∀ r, x.reached = some r → fieldLE r 0 1 = 3 → x.st = .active → x.stalled = false → x.due ≤ s.now → (∀ t ∈ s.tasks, t.queue ≠ q) →
      ∀ u, s.signalWrite x.owner (fieldLE r 8 8 / 8 * 8) (BitVec.ofNat 64 (fieldLE r 16 8)) 0 (.markWrite q) = .done u →
        ∃ t, exec (.markRecord q) s = .next t ∧ (t.queue q).qrd = (u.queue q).qrd + 1 ∧ (t.queue q).reached = none ∧ t.mem = u.mem) ∧
    (x.st = .waitFault → x.faultAt + 1000 * (s.casement x.owner).fto ≤ s.ftime →
      ∃ t, exec (.waitFaultTimeout q) s = .next t ∧ (t.queue q).st = .error ∧ (t.queue q).cause = 0x0E ∧ (t.queue q).fidx = x.qrd ∧
        (∀ p, p ≠ q → t.queue p = s.queue p) ∧ t.mem = s.mem)

/-- R269, R270, R271, R290, R291, R292, R293: the oldest completion is written behind the ring's tail once its signal is made and the ring has room, with the ring's PHASE (log
entry 37); the coalesced interrupt goes out by count, by the oldest entry's age or 1 µs after the newest; a fault entry is written with its vector's
interrupt, and what it reports then waits for an answer to its index: RETRY lets it go on, ABORT ends it, and an answer to nothing does nothing. -/
def Obligations.CompletionsAndAnswers : Prop :=
  ∀ (s : State) (n : Nat), s.boot.hingeLost = false →
    let x := s.cq n
    let g := s.ring n
    (∀ r rest, x.waiting = r :: rest → r.sig = 0 → (x.tail - x.head).toNat < 2 ^ x.size →
      ∀ u, s.deviceWrite (x.base.toNat + 32 * (x.tail.toNat % 2 ^ x.size)) (r.entry.set 7 (BitVec.ofNat 8 (x.tail.toNat / 2 ^ x.size % 2))) = some u →
      ∃ t, exec (.completionEntryWrite n) s = .next t ∧ t.mem = u.mem ∧ (t.cq n).waiting = rest ∧ (t.cq n).tail = (u.cq n).tail + 1 ∧
        (t.cq n).pending = (u.cq n).pending + 1) ∧
    (0 < x.pending → x.thresh + 1 ≤ x.pending ∨ x.oldest + x.timer.toNat ≤ s.ftime ∨ x.newest + 1000 ≤ s.ftime →
      ∃ t, exec (.cqInterrupt n) s = .next t ∧ t.out = s.out ++ [.interrupt n x.vec] ∧ (t.cq n).pending = 0 ∧ (t.cq n).tail = x.tail ∧ t.mem = s.mem) ∧
    (∀ e w rest, g.waiting = (e, w) :: rest → (g.tail - g.head).toNat < 2 ^ g.size →
      let i := g.tail.toNat % 2 ^ g.size
      ∀ u, s.deviceWrite (g.base.toNat + 32 * i) (e.set 24 (BitVec.ofNat 8 (g.tail.toNat / 2 ^ g.size % 2))) = some u → n < u.rings.length →
      ∃ t, exec (.faultEntryWrite n) s = .next t ∧ t.mem = u.mem ∧ (t.ring n).waiting = rest ∧ (t.ring n).tail = g.tail + 1 ∧
        t.out = u.out ++ [.ringInterrupt n g.vec] ∧ (w ≠ .nothing → (i, w) ∈ (t.ring n).open_) ∧ (w = .nothing → ∀ o ∈ (t.ring n).open_, o.1 ≠ i)) ∧
    (∀ i, n < 17 → (∀ o ∈ g.open_, o.1 ≠ i % 2 ^ g.size) → exec (.retry n i) s = .next s ∧ exec (.abort n i) s = .next s) ∧
    (∀ i w, n < 17 → n < s.rings.length → s.boot.ready = true → g.open_.find? (fun o => o.1 == i % 2 ^ g.size) = some w →
      let u : State := { s with rings := s.rings.set n { g with open_ := g.open_.filter fun o => o.1 != i % 2 ^ g.size } }
      exec (.retry n i) s = .next (u.retryWait w.2) ∧ exec (.abort n i) s = .next (u.abortWait w.2) ∧
      (∀ r, w.2 = .request r → ∀ y ∈ s.reqs, y.id = r → (∃ e, y.st = .stalled e) → { y with st := .walking, arrived := s.now } ∈ (u.retryWait w.2).reqs) ∧
      (∀ k v, w.2 = .parked k → s.task? k = some v → v.st = .parked →
        (u.retryWait w.2).task? k = some { v with st := .saved, park := none } ∧
        ∃ y, (u.abortWait w.2).task? k = some y ∧ y.st = .ending ∧ y.status = .failed ∧ y.code = 0x0D))

/-! ### Memory beyond the core -/

/-- R200, R201, R352, R367, R385: the value of a load or AMOC lands in its register and in no other, frees it for the words that wait for it, and
lets an acquire's sequencer go on; that of an abandoned region lands nowhere. -/
def Obligations.ValuesLand : Prop :=
  ∀ (s : State) (r : Req) (v : W64) (due : Nat), s.reqs.find? (fun x => x.id == r.id) = some r → r.st = .served v due → due ≤ s.now →
    let k := s.core r.core
    let lands (i : Instr) : Prop :=
      ∃ t, exec i s = .next t ∧ (∀ x ∈ t.reqs, x.id ≠ r.id) ∧
        (r.orphan = true → t.cores = s.cores) ∧
        (r.orphan = false → s.Alters t r.core (fun l => { l with seqs := k.seqs }) ∧
          (0 < r.rd → (t.core r.core).reg r.by_ r.rd = v) ∧
          (∀ q n, ¬ (q = r.by_ ∧ n = r.rd ∧ 0 < n) → (t.core r.core).reg q n = k.reg q n) ∧
          ((t.core r.core).seq r.by_).pend = (k.seq r.by_).pend.erase r.rd ∧
          ((k.seq r.by_).st = .atAcquire r.id → ((t.core r.core).seq r.by_).st = .run))
    (∀ n e, r.kind = .load n e → lands (.loadValueLands r.id)) ∧
    (∀ o n b e, r.kind = .amoc o n b e → lands (.amocOldValueLands r.id))

/-- R211, R225, R283, R292, R357, R458: the forms remoteStoreApply, translationWalk and instructionFetchComplete complete. By remoteStoreApply a store that has come to a die is
applied there after its sender's earlier stores and all that its stamp names, and changes nothing in memory outside the lines of the stores. By translationWalk whatever has a walk
due in this cycle walks; a request whose walk succeeds goes to its target, one whose walk fails faults, and a stage-2 fault stalls it and is reported.
By instructionFetchComplete a fetch that is due ends with the four bytes at its address, or with the fault its word will raise. -/
def Obligations.WalksAndFetches : Prop :=
  ∀ (s : State),
    (∀ d r, s.stores.find? (fun x => x.id == r.id) = some r → r.arrives.getD d 0 ≤ s.now → d ∉ r.applied → covers (s.die d).vc r.stamp = true →
      (s.die d).vc.getD r.die 0 + 1 = r.num → d < s.dies.length → r.die < (s.die d).vc.length →
      ∃ t, exec (.remoteStoreApply d r.id) s = .next t ∧ (t.die d).vc.getD r.die 0 = r.num ∧ t.cores = s.cores ∧
        (∀ e, e ≠ d → t.die e = s.die e) ∧ ∀ a, (∀ x ∈ s.stores, ∀ b ∈ x.bytes, b.1 / 64 ≠ a / 64) → t.mem.get a = s.mem.get a) ∧
    (∀ w ∈ s.walkItems, ∃ t, exec (.translationWalk w.1) s = .next t) ∧
    (∀ r, s.reqs.find? (fun x => x.id == r.id) = some r → r.st = .walking → r.arrived ≤ s.now →
      (∃ t, exec (.translationWalk r.id) s = .next t) ∧
      let amoc : Option Nat := match r.kind with
        | .amoc op _ _ _ => some op
        | _ => none
      let walk : WalkEnd := s.walkNow r.core r.va r.kind.access r.kind.code amoc
      (∀ u pa key, walk = .ok u pa key → u.channelRoom pa = true →
        ∃ t y, exec (.translationWalk r.id) s = .next t ∧ y ∈ t.reqs ∧ y.id = r.id ∧ y.kind = r.kind ∧ y.rd = r.rd ∧ ∃ ch, y.st = .queued pa key ch) ∧
      (∀ u code xcode, walk = .fault u code xcode →
        exec (.translationWalk r.id) s = .next (({ u with reqs := u.reqs.filter fun x => x.id != r.id } : State).lateFault r.core r.task false
          { code := code, by_ := r.by_, issued := r.issued, pc := r.pc, taddr := BitVec.ofNat 64 r.va, xkind := r.kind.code, xcode := xcode })) ∧
      (∀ u ipa code, walk = .stall u ipa code → (∃ x ∈ u.reqs, x.id = r.id) → 16 < u.rings.length →
        ∃ t, exec (.translationWalk r.id) s = .next t ∧ { r with st := .stalled 0 } ∈ t.reqs ∧
          (t.ring 16).waiting.length = (u.ring 16).waiting.length + 1)) ∧
    (∀ c q a f, ((s.core c).seq q).fetching.find? (fun x => x.addr == a) = some f → f.stalled = false → f.due ≤ s.now →
      (∃ t, exec (.instructionFetchComplete c q a) s = .next t) ∧
      let got (t : State) (word : W32) (fault : Nat) : Prop :=
        ((t.core c).seq q).fetched.find? (fun x => x.addr == a) = some { addr := a, word := word, fault := fault, xcode := if a < 2 ^ 48 then 0 else 1 } ∧
          (∀ x ∈ ((t.core c).seq q).fetching, x.addr ≠ a)
      (2 ^ 48 ≤ a → ∃ t, exec (.instructionFetchComplete c q a) s = .next t ∧ got t 0 0x0D) ∧
      (0xFD0000000000 ≤ a → a < 2 ^ 48 → ∃ t, exec (.instructionFetchComplete c q a) s = .next t ∧ got t 0 0x0F) ∧
      (∀ u v pa key, a < 0xFD0000000000 → s.walkNow c a .fetch 0 none = .ok u pa key → u.touch (u.casementOf c) pa key 4 false = .ok v →
        ∃ t, exec (.instructionFetchComplete c q a) s = .next t ∧ got t (BitVec.ofNat 32 (leNat (v.readMem (some (dieOf c)) key pa 4))) 0 ∧ t.mem = v.mem))

/-! ### Engines -/

/-- R159, R164, R165, R169, R172, R173, R199: an engine's oldest command starts two cycles after its issue: an MMA prepares the accumulators it names, an EPI samples its bank's
sticky bits; a due step of the running MMA accumulates into the working bank and into no other state, or is put off a cycle by a bank that serves another, which in a timed region is
BANK_CONFLICT; the end of the last step's landing frees the command and marks the bank for the flip if it has F. -/
def Obligations.MatrixSteps : Prop :=
  ∀ (s : State) (c : Nat),
    let k := s.core c
    (∀ m, k.mma = [m] → m.start = none → m.issued + 2 ≤ s.now → k.timed = true →
      ∃ t, exec (.engineCommandStart c .matrix) s = .next t ∧ (t.core c).mma = [{ m with start := some s.now, units := 0 }] ∧
        (t.core c).bank k.work = m.prepare (k.bank k.work) ∧ s.Alters t c (fun l => { l with banks := k.banks }) ∧
        (t.core c).bank (!k.work) = k.bank (!k.work)) ∧
    (∀ m q, k.lookup = [m] → m.kind = .tinv q → m.start = none → m.issued + 2 ≤ s.now →
      ∃ t, exec (.engineCommandStart c .lookup) s = .next t ∧ s.OnlyCore t c ∧
        (t.core c).lookup = [{ m with start := some s.now, units := 0, done := some (s.now + 1) }]) ∧
    (∀ e rest, k.epi = e :: rest → e.start = none → e.issued + 2 ≤ s.now →
      ∃ t, exec (.engineCommandStart c .epilogue) s = .next t ∧ s.OnlyCore t c ∧
        ∃ f, (t.core c).epi = f :: rest ∧ f.start = some s.now ∧ f.sticky = (k.bank e.bank).sticky ∧ f.record = e.record) ∧
    (∀ m rest, k.sacc = m :: rest → m.start = none → m.issued + 2 ≤ s.now →
      ∃ t, exec (.engineCommandStart c .scatter) s = .next t ∧ s.OnlyCore t c ∧ ∃ d, (t.core c).sacc = { m with start := some s.now, due := d } :: rest) ∧
    (∀ m start, k.runningMma = some (m, start) → m.stepAt start ≤ s.now →
      (∀ l beats, k.sampleBeats s.now m.issued m.sampled m.wanted = .ok (l, beats) →
        ∃ t, exec (.mmaStep c) s = .next t ∧ s.Alters t c (fun n => { n with banks := k.banks }) ∧
          (t.core c).bank k.work = MmaCmd.apply { m with sampled := beats } (k.bank k.work) ∧ (t.core c).bank (!k.work) = k.bank (!k.work)) ∧
      (∀ isA b, k.sampleBeats s.now m.issued m.sampled m.wanted = .error (isA, b) → k.inTimed = false →
        ∃ t, exec (.mmaStep c) s = .next t ∧ s.OnlyCore t c ∧ ∀ x ∈ (t.core c).mma, x.start ≠ none → x.done = none → x.delay = m.delay + 1) ∧
      (∀ isA b, k.sampleBeats s.now m.issued m.sampled m.wanted = .error (isA, b) → k.inTimed = true →
        exec (.mmaStep c) s = .next ((s.setCore c (k.setMma { m with delay := m.delay + 1 })).raise c
          (commandFault m.pc m.issued 0x04 (BitVec.ofNat 64 (if isA then 16 + b else b)))))) ∧
    (∀ m rest d, k.mma = m :: rest → m.done = some d → d ≤ s.now →
      ∃ t, exec (.mmaComplete c) s = .next t ∧ (t.core c).mma = rest ∧ (t.core c).flip = (k.flip || m.f) ∧ k.SameData (t.core c))

/-- R177, R181, R183, R185, R390: a lookup of an LMMA whose table is not VALID is TABLE_STALE, one of a C2 table with a code above 3 is INDEX_RANGE; else it accumulates into the working bank and into no other data; the
completions: an LMMA may mark the flip, a TBUILD leaves its table VALID unless a write has come between, a TINV leaves it INVALID, a TSPILL leaves the tables as they are, a TFILL
from either space, with a header whose span is in range, leaves its table VALID exactly if the header says so for this core, its epoch and every block's counter, and from memory
raises SHAPE_MISMATCH where the span is not. That no check names MODE, so that MODE 11 may be VALID, is log entry 91, the model's choice. -/
def Obligations.LookupSteps : Prop :=
  ∀ (s : State) (c : Nat) (m : LookupCmd),
    let k := s.core c
    (∀ start z f q w rc rw, k.runningLookup = some (m, start) → m.kind = .lmma z f q w rc rw → m.lookupAt rw start ≤ s.now →
      let t := k.table q
      (t.was = false → exec (.lmmaLookup c) s = .next ((s.setCore c (k.setLookup { m with delay := m.delay + 1 })).raise c
        (commandFault m.pc m.issued 0x07 (BitVec.ofNat 64 q)))) ∧
      (t.was = true → t.mode ≠ 2 → ∀ l beats, k.sampleBeats s.now m.issued m.sampled (m.wantedWeights rw) = .ok (l, beats) →
        ∃ u, exec (.lmmaLookup c) s = .next u ∧ s.Alters u c (fun n => { n with banks := k.banks }) ∧
          (u.core c).bank (!k.work) = k.bank (!k.work)) ∧
      (t.was = true → t.mode = 2 → ∀ l beats, k.sampleBeats s.now m.issued m.sampled (m.wantedWeights rw) = .ok (l, beats) →
        let wild : Prop := ∃ n g, 64 * m.tile ≤ n ∧ n < 64 * m.tile + Min.min 64 (hCols rw - 64 * m.tile) ∧ g < 4 ∧ 4 ≤ lookupCode beats rw m.step m.plane g n
        (wild → exec (.lmmaLookup c) s = .next ((s.setCore c (k.setLookup { m with delay := m.delay + 1 })).raise c
          (commandFault m.pc m.issued 0x08 (BitVec.ofNat 64 q)))) ∧
        (¬ wild → ∃ u, exec (.lmmaLookup c) s = .next u ∧ s.Alters u c (fun n => { n with banks := k.banks }) ∧
          (u.core c).bank (!k.work) = k.bank (!k.work)))) ∧
    (∀ rest d, k.lookup = m :: rest → m.done = some d → d ≤ s.now →
      (∀ z f q w rc rw, m.kind = .lmma z f q w rc rw →
        ∃ t, exec (.lmmaComplete c) s = .next t ∧ (t.core c).lookup = rest ∧ (t.core c).flip = (k.flip || f) ∧ k.SameData (t.core c)) ∧
      (∀ mode q a r cb, m.kind = .tbuild mode q a r cb →
        ∃ t, exec (.tbuildComplete c) s = .next t ∧ (t.core c).lookup = rest ∧ ((t.core c).table q).mode = mode ∧ ((t.core c).table q).koff = hKoff r ∧
          ((t.core c).table q).body = m.got ∧ ((t.core c).table q).st = (if (k.table q).st = .building then .valid else .invalid) ∧
          (t.core c).vstat = (if k.vcsrw then k.vstat else k.vstat ||| m.st.setWidth 64) ∧ ∀ p, p ≠ q → (t.core c).table p = k.table p) ∧
      (∀ q, m.kind = .tinv q → ∃ t, exec (.tinvComplete c) s = .next t ∧ s.Alters t c (fun n => { n with tables := k.tables }) ∧
        (t.core c).lookup = rest ∧ ((t.core c).table q).st = .invalid ∧ ∀ p, p ≠ q → (t.core c).table p = k.table p) ∧
      (∀ q sa, m.kind = .tspill q sa → ∃ t, exec (.tspillComplete c) s = .next t ∧ s.OnlyCore t c ∧ (t.core c).lookup = rest) ∧
      (∀ q sa, m.kind = .tfill q sa →
        let g := if m.xl = [] then m else m.gathered
        let n := fieldLE g.head 9 1
        let lo := fieldLE g.head 8 1
        (m.xl ≠ [] → n = 0 ∨ 16 < n ∨ 96 < lo + n → exec (.tfillComplete c) s = .next ((s.setCore c { k with lookup := rest }).raise c
          (commandFault m.pc m.issued 0x06 (BitVec.ofNat 64 q)))) ∧
        (0 < n → n ≤ 16 → lo + n ≤ 96 →
          ∃ t, exec (.tfillComplete c) s = .next t ∧ s.Alters t c (fun n => { n with tables := k.tables }) ∧ (t.core c).lookup = rest ∧
            ((t.core c).table q).body = g.got ∧ (∀ p, p ≠ q → (t.core c).table p = k.table p) ∧
            (((t.core c).table q).st = .valid ↔ fieldLE g.head 0 1 = 1 ∧ 128 ≤ fieldLE g.head 1 1 ∧ fieldLE g.head 2 2 % 4096 = c ∧
              fieldLE g.head 4 2 = k.epoch ∧ ∀ i, i < n → fieldLE g.head (16 + 2 * i) 2 = (keyGet k.blocks (lo + i)).getD 0))))

/-- R143, R173, R199, R373: the last write of an EPI is its status word, with its bank's sticky bits; an update of a SACC combines the value rows of one index in pair order,
then into one destination row, and writes nothing outside it; an index out of the shape is INDEX_RANGE; with every pair applied the command ends. -/
def Obligations.EpilogueAndScatterSteps : Prop :=
  ∀ (s : State) (c : Nat),
    let k := s.core c
    (∀ e rest, k.epi = e :: rest → e.start ≠ none → e.todo = [] → eRows e.record ≤ e.row → e.due ≤ s.now →
      let a := eStatusAt e.record
      k.banksFree s.now true (banksOf a 8) = true →
      ∃ t, exec (.epiComplete c) s = .next t ∧ (t.core c).epi = rest ∧ (t.core c).readBuf true a 8 = leBytes 8 (e.st ||| e.sticky).toNat ∧
        (∀ o, (o < a ∨ a + 8 ≤ o) → (t.core c).aspace.get o = k.aspace.get o) ∧
        s.Alters t c (fun n => { n with aspace := k.aspace, tables := k.tables })) ∧
    (∀ m rest, k.sacc = m :: rest → m.start ≠ none → m.due ≤ s.now →
      (m.applied = m.count → ∃ t, exec (.saccUpdate c) s = .next t ∧ s.OnlyCore t c ∧ (t.core c).sacc = rest) ∧
      (∀ ps r more, m.applied ≠ m.count → m.pairsNow = some ps → m.todo = r :: more →
        let off := hBase m.record + r.toNat * hStride m.record
        (r.getLsbD 31 = true ∨ hRows m.record ≤ r.toNat →
          ∃ u, s.OnlyCore u c ∧ exec (.saccUpdate c) s = .next (u.raise c (commandFault m.pc m.issued 0x08 (BitVec.ofNat 64 m.hd)))) ∧
        (r.getLsbD 31 = false → r.toNat < hRows m.record → k.banksFree s.now true (banksOf off (4 * hCols m.record)) = true →
          ∃ t, exec (.saccUpdate c) s = .next t ∧
            (∀ j v more', j < hCols m.record → j < 64 → ((ps.filter fun p => p.1 == r).map fun p => p.2.lane j) = v :: more' →
              (t.core c).readBuf true (off + 4 * j) 4 =
                leBytes 4 (m.op.op m.flushing (BitVec.ofNat 32 (leNat (k.viewBuf true (off + 4 * j) 4)))
                  (more'.foldl (fun a w => (m.op.op m.flushing a w).1) v)).1.toNat) ∧
            (∀ o, (o < off ∨ off + 4 * hCols m.record ≤ o) → (t.core c).aspace.get o = k.aspace.get o) ∧
            s.Alters t c (fun n => { n with aspace := k.aspace, tables := k.tables, vstat := k.vstat }))))

/-! ### What drains and arrives -/

/-- R188, R191, R193, R206, R216, R243, R244: a held effect that may drain does; a store through the remote aperture writes its bytes there; a copy between buffers reads a
piece of a beat as it stands, and writes a beat whole; the drain of a pushed row, where it would not show a copy under way an older row after a newer (R456),
shows its bytes to every agent and changes none that the core sees; the last beat of a MIRR completes its area. -/
def Obligations.Drains : Prop :=
  ∀ (s : State) (c : Nat),
    let k := s.core c
    (∀ h : Held, k.held.find? (fun x => x.id == h.id) = some h → s.drainReady c h = true →
      exec (.heldEffectDrain c h.id) s = .next (s.drain c h) ∧
      (∀ d isA off bs rl, h.kind = .remote d isA off bs rl →
        (∀ a, (((s.drain c h).core d).buf isA).get a = (((s.core d).buf isA).writeAll bs).get a) ∧ (∀ x ∈ ((s.drain c h).core c).held, x.id ≠ h.id) ∧
        ∀ a, (s.drain c h).mem.get a = s.mem.get a)) ∧
    (∀ cp b p pIsA off n, k.copy? cp.id = some cp → s.copyReady c cp = true → cp.acks = [] → cp.beats = [b] → b.srcs = [(.buf p pIsA off, n)] → b.read = 0 →
      ∃ t y, exec (.copyBeat c cp.id) s = .next t ∧ (t.core c).copy? cp.id = some y ∧ y.acks = [] ∧
        y.beats = [{ b with got := b.got ++ (s.core p).viewBuf pIsA off n, read := 1, asked := false }] ∧
        (∀ e isA o, ((t.core e).buf isA).get o = ((s.core e).buf isA).get o) ∧ t.mem = s.mem) ∧
    (∀ cp b d dIsA dOff, k.copy? cp.id = some cp → s.copyReady c cp = true → cp.acks = [] → cp.arv = false → cp.beats = [b] → b.srcs.length ≤ b.read →
      b.dsts = [.buf d dIsA dOff] → b.got.length = b.len →
      ∃ t, exec (.copyBeat c cp.id) s = .next t ∧ (t.core d).readBuf dIsA dOff b.len = b.got ∧
        (∀ o, (o < dOff ∨ dOff + b.len ≤ o) → ((t.core d).buf dIsA).get o = ((s.core d).buf dIsA).get o) ∧ (t.core c).copy? cp.id = none ∧ t.mem = s.mem) ∧
    (∀ g p, k.pushes.find? (fun x => x.port == g) = some p → p.due ≤ s.now → s.drainHeld c g = false →
      ∃ t, exec (.portDrain c g) s = .next t ∧ s.OnlyCore t c ∧ (∀ x ∈ (t.core c).pushes, x.id ≠ p.id) ∧
        ∀ o ∈ p.offs, (∀ x ∈ k.pushes, x.id ≠ p.id → o ∉ x.offs) → (t.core c).viewA o = k.aspace.get o) ∧
    (∀ a m, s.mirrors.find? (fun x => x.core == c && x.area == a) = some m → m.complete = false → m.due ≠ 0 → m.due ≤ s.now →
      ∃ t, exec (.mirrorAreaComplete c a) s = .next t ∧ { m with complete := true, due := 0 } ∈ t.mirrors ∧ t.cores = s.cores ∧ t.mem = s.mem)

/-- R234, R236, R239, R241, R330: a grant fills the permit it is for, and one out of sequence sets GERR; a group's bytes land in the receiver's A-space; a chunk of an open
session goes out if its SEQ is above LASTSEQ, which takes it, and is dropped and counted if it is not. -/
def Obligations.Arrivals : Prop :=
  ∀ (s : State),
    (∀ g e, s.grants.find? (fun x => x.id == g.id) = some g → g.due ≤ s.now → e ∈ s.chanEnds → e.task = g.task → e.rank = g.rank → e.ch = g.ch →
      g.slot < e.slots.length →
      let y := e.slot g.slot
      ∃ t f, exec (.grantArrival g.id) s = .next t ∧ f ∈ t.chanEnds ∧ (∀ x ∈ t.grants, x.id ≠ g.id) ∧ t.cores = s.cores ∧
        (y.granted = false → g.gseq = y.nseq → f.slot g.slot = { y with granted := true, off := g.off, len := g.len, darv := g.darv } ∧ f.gerr = e.gerr) ∧
        (y.granted = true ∨ g.gseq ≠ y.nseq → f.slots = e.slots ∧
          (f.gerr = true ↔ e.gerr = true ∨ ¬ (g.gseq = y.nseq - 1 ∨ (y.granted = true ∧ g.gseq = y.nseq))))) ∧
    (∀ g bytes d, s.groups.find? (fun x => x.id == g.id) = some g → g.data = some bytes → g.due ≤ s.now → bytes.length = g.len → s.memberCore g.task g.rank = some d →
      (s.core d).task = some g.task → g.darv + 16 ≤ g.off ∨ g.off + g.len ≤ g.darv →
      ∃ t, exec (.transomGroupLands g.id) s = .next t ∧ (∀ x ∈ t.groups, x.id ≠ g.id) ∧ (t.core d).readBuf true g.off g.len = bytes ∧
        (∀ o, (o < g.off ∨ g.off + g.len ≤ o) → (o < g.darv ∨ g.darv + 16 ≤ o) → (t.core d).aspace.get o = (s.core d).aspace.get o) ∧ t.mem = s.mem) ∧
    (∀ x : Chunk, s.chunks.find? (fun y => y.id == x.id) = some x → x.due ≤ s.now → s.boot.hingeLost = false →
      (∀ y ∈ s.chunks, y.session = x.session → y.id ≠ x.id → x.due < y.due ∨ (x.due = y.due ∧ x.id ≤ y.id)) → (x.action = true ∨ ∀ y ∈ s.chunks, y.action = true → s.now < y.due) →
      let n := s.session x.session
      let seq := fieldLE x.header 0 8
      ∃ t, exec (.chunkAtEndpoint x.id) s = .next t ∧ (∀ y ∈ t.chunks, y.id ≠ x.id) ∧ t.cores = s.cores ∧ t.mem = s.mem ∧
        (n.isOpen = true → n.lastseq.toNat < seq → t.out = s.out ++ [.chunk x.session (x.header.take 24 ++ x.payload)] ∧
          (t.session x.session).lastseq = BitVec.ofNat 64 seq) ∧
        (n.isOpen = true → seq ≤ n.lastseq.toNat → t.out = s.out ∧ (t.session x.session).lastseq = n.lastseq ∧
          (t.session x.session).dup = (if n.dup = 0xFFFF then n.dup else n.dup + 1)) ∧
        (n.isOpen = false → t.out = s.out ∧ t.sessions = s.sessions))

/-! ### Translations kept -/

/-- R61, R287, R289: the forms tlbiCasement, tlbiPage, htlbiCasement, htlbiPage, s2invAll and s2invIpa complete. TLBI, due on a core, drops the kept translations of the executing
casement from every core of the scope and from their dies: all of them, or those that cover its page; elsewhere nothing changes. HTLBI and S2INV are
BUSY until a later cycle, one given while BUSY beside the others (log entry 97, the model's choice), at whose end the casement's translations are dropped (log entry 44) and, where they name every entry, the roots as the registers then stand bind. -/
def Obligations.Invalidations : Prop :=
  ∀ (s : State) (c : Nat),
    let mine (e : TlbEntry) : Bool := e.casement == s.casementOf c
    let same (scope n : Nat) : Prop := match scope with
      | 0 => n = c
      | 1 => clusterOf n = clusterOf c
      | 2 => dieOf n = dieOf c
      | _ => True
    let drops (t : State) (scope : Nat) (gone : TlbEntry → Bool) : Prop :=
      t.mem = s.mem ∧ (∀ n, (same scope n → (t.core n).tlb = (s.core n).tlb.filter fun e => !gone e) ∧ (¬ same scope n → (t.core n).tlb = (s.core n).tlb)) ∧
        ∀ d, (3 ≤ scope ∨ d = dieOf c → (t.die d).cache = (s.die d).cache.filter fun e => !gone e) ∧
          (scope < 3 → d ≠ dieOf c → (t.die d).cache = (s.die d).cache)
    (∀ a n v, (s.core c).acts.find? (fun a => a.isTlbi && decide (a.due ≤ s.now)) = some a → a.pay = .csr n v → v.toNat % 16 = 0 →
      ∃ t, exec (.tlbiCasement c) s = .next t ∧ drops t (v.toNat / 16 % 8) mine) ∧
    (∀ a n v, (s.core c).acts.find? (fun a => a.isTlbi && decide (a.due ≤ s.now)) = some a → a.pay = .csr n v → v.toNat % 16 = 1 →
      let va := v.toNat / 2 ^ 12 % 2 ^ 36 * 4096
      ∃ t, exec (.tlbiPage c) s = .next t ∧
        drops t (v.toNat / 16 % 8) fun e => mine e && (!e.stage2 && decide (e.va ≤ va) && decide (va < e.va + e.size))) ∧
    (∀ k, k < 16 → k < s.casements.length → s.boot.ready = true →
      ∃ t d, exec (.htlbiCasement k) s = .next t ∧ (t.casement k).htlbi = (s.casement k).htlbi ++ [(d, none)] ∧ s.now < d ∧ t.cores = s.cores) ∧
    (∀ k va, k < 16 → k < s.casements.length → s.boot.ready = true →
      ∃ t d, exec (.htlbiPage k va) s = .next t ∧ (t.casement k).htlbi = (s.casement k).htlbi ++ [(d, some va)] ∧ s.now < d ∧ t.cores = s.cores) ∧
    (∀ k, k < 16 → k < s.casements.length → s.boot.ready = true →
      ∃ t d, exec (.s2invAll k) s = .next t ∧ (t.casement k).s2inv = (s.casement k).s2inv ++ [(d, none)] ∧ s.now < d ∧ t.cores = s.cores) ∧
    (∀ k ipa, k < 16 → k < s.casements.length → s.boot.ready = true → ipa < 2 ^ 48 →
      ∃ t d, exec (.s2invIpa k ipa) s = .next t ∧ (t.casement k).s2inv = (s.casement k).s2inv ++ [(d, some ipa)] ∧ s.now < d ∧ t.cores = s.cores) ∧
    (∀ k d, k < s.casements.length → (s.casement k).htlbi = [(d, none)] → d ≤ s.now → (s.casement k).s2inv = [] →
      ((s.endInvalidation k).casement k).htlbi = [] ∧ ((s.endInvalidation k).casement k).s1bound = (s.casement k).s1root ∧
      ∀ n, ((s.endInvalidation k).core n).tlb = (s.core n).tlb.filter fun e => !(e.casement == k)) ∧
    (∀ k d ipa, k < s.casements.length → (s.casement k).s2inv = [(d, some ipa)] → d ≤ s.now → (s.casement k).htlbi = [] →
      ((s.endInvalidation k).casement k).s2inv = [] ∧ ((s.endInvalidation k).casement k).s2bound = (s.casement k).s2bound ∧
      ∀ n, ((s.endInvalidation k).core n).tlb = (s.core n).tlb.filter fun e => !(e.casement == k && (decide (e.ipa ≤ ipa) && decide (ipa < e.ipa + e.size))))

/-! ### Casements -/

/-- R251, R297, R298, R309, R322: a casement's commands: CREATE of a FREE casement whose quotas hold, with fleet time locked once and no taint in its way, makes it ACTIVE under a new key; DRAIN stops
its queues, one with a stalled mark behind it, and is over when it has no task; RESUME ends a drain; TEARDOWN closes its sessions and goes on to the erasing; CLRSAVE clears its save error; in a state that does not take a
command, ERR is set and nothing else changes. A virtual function's reset stops the casement's queues and leaves its state, tasks and sessions. That CREATE clears the chain
counters and is refused while taint stands in its way is log entry 39, the model's choice. -/
def Obligations.CasementCommands : Prop :=
  ∀ (s : State) (k : Nat), k < 16 → k < s.casements.length → s.boot.ready = true →
    let x := s.casement k
    let err (i : Instr) : Prop := ∃ t, exec i s = .next t ∧ t.casement k = { x with err := true } ∧ (∀ j, j ≠ k → t.casement j = s.casement j) ∧
      t.tasks = s.tasks ∧ t.queues = s.queues ∧ t.cores = s.cores ∧ t.mem = s.mem
    (x.st = .free → s.quotasBad k = false → s.fleet.everLocked = true → s.taintBlocks k = false →
      ∃ t, exec (.create k) s = .next t ∧ (t.casement k).st = .active ∧ (t.casement k).err = false ∧ (t.casement k).inForce = x.quota ∧
        (t.casement k).keyValid = true ∧ (t.casement k).keyGen = x.keyGen + 1 ∧ (t.casement k).chains = [] ∧ t.mem = s.mem ∧ t.cores = s.cores) ∧
    (x.st ≠ .free ∨ s.quotasBad k = true ∨ s.fleet.everLocked = false ∨ s.taintBlocks k = true → err (.create k)) ∧
    (x.st = .active → ∃ t, exec (.drain k) s = .next t ∧ t.tasks = s.tasks ∧ (t.casement k).err = false ∧
      (t.casement k).st = (if s.tasks.any (fun t => t.casement == k) then .draining else .drained) ∧
      ∀ q, (s.queue q).owner = k → (s.queue q).stalled = false → (t.queue q).st ≠ .active ∧ (t.queue q).st ≠ .waitFault) ∧
    (x.st ≠ .active → err (.drain k)) ∧
    (x.st = .drained → ∃ t, exec (.resume k) s = .next t ∧ t.casement k = { x with st := .active, err := false } ∧ t.tasks = s.tasks ∧ t.queues = s.queues) ∧
    (x.st ≠ .drained → err (.resume k)) ∧
    (x.st ≠ .free → ∃ t, exec (.clrsave k) s = .next t ∧ t.casement k = { x with saveErr := false, err := false } ∧ t.tasks = s.tasks ∧ t.queues = s.queues) ∧
    (x.st = .free → err (.clrsave k)) ∧
    (x.st ∈ [.active, .draining, .drained] → s.tasks = [] → ∃ t, exec (.teardown k) s = .next t ∧ (t.casement k).st ∈ [.stopping, .erasing, .free] ∧
      (∀ n, (s.session n).owner = k → (t.session n).isOpen = false) ∧ t.mem = s.mem) ∧
    (x.st ∈ [.free, .stopping, .erasing] → err (.teardown k)) ∧
    (∃ t, exec (.vfFlr k) s = .next t ∧ t.casements = s.casements ∧ t.tasks = s.tasks ∧ t.sessions = s.sessions ∧ t.cores = s.cores ∧
      ∀ q, (s.queue q).owner = k → (s.queue q).stalled = false → (t.queue q).st ≠ .active ∧ (t.queue q).st ≠ .waitFault)

/-- R298, R304, R306, R310: a quota is taken if the quotas hold with it, and ERR clears, else discarded whole with ERR; the scrub zeroes what a casement has tainted, unit by unit; at every multiple of 10 ms of
fleet time a usage window closes, and its record completes later, with URSEQ naming it, and with a mark where it takes the place of one that the host has not read. What counts as
read for LOST, and that LOST stays set, are log entry 36, the model's choice. -/
def Obligations.QuotasScrubAndUsage : Prop :=
  ∀ (s : State) (k : Nat), k < 16 → k < s.casements.length → s.boot.ready = true → s.boot.hingeLost = false →
    let x := s.casement k
    (∀ f v, let (i, w) := quotaPlace f
      let u := s.modCasement k fun x => { x with quota := x.quota.set i (v % 2 ^ w) }
      ∃ t, exec (.quotaWrite k f v) s = .next t ∧ t.cores = s.cores ∧ t.mem = s.mem ∧
        (u.quotasBad k = true → t.casement k = { x with err := true }) ∧
        (u.quotasBad k = false → (t.casement k).quota = x.quota.set i (v % 2 ^ w) ∧ (t.casement k).err = false ∧ (t.casement k).inForce = x.inForce)) ∧
    (∀ c rest, x.st = .erasing → x.scrubDue ≤ s.now → s.taintedCores k = c :: rest →
      ∃ t, exec (.scrubUnitDone k) s = .next t ∧ (t.core c).taint = none ∧ (t.core c).wspace = [] ∧ (t.core c).aspace = [] ∧ (t.core c).tiles = [] ∧
        (∀ m, (t.core c).masks.getD m 0 = 0) ∧ (∀ p, (t.core c).bank p = Bank.zero) ∧ (∀ n, (t.core c).shape n = 0) ∧ (∀ q, (t.core c).table q = Table.none) ∧
        (t.casement k).scrubDone = x.scrubDone + 1 ∧ t.mem = s.mem) ∧
    (∀ d w rest, x.st = .erasing → x.scrubDue ≤ s.now → s.taintedCores k = [] → s.taintedWays k = (d, w) :: rest →
      ∃ t, exec (.scrubUnitDone k) s = .next t ∧ (∀ e ∈ t.wayTaint, ¬ (e.1 = d ∧ e.2.1 = w)) ∧ t.cores = s.cores) ∧
    (x.guaranteed = true → x.usage.window < s.ftime / 10000000 → ∃ t r, exec (.usageWindowClose k) s = .next t ∧
      (t.casement k).records = x.records ++ [r] ∧ r.seq = x.usage.seq ∧ s.now < r.due ∧ r.due ≤ s.now + 1249000 ∧
      (t.casement k).usage.seq = x.usage.seq + 1 ∧ (t.casement k).usage.first = false ∧ (t.casement k).usage.bytes = 0 ∧
      (t.casement k).usage.window = s.ftime / 10000000 ∧ t.mem = s.mem ∧ t.cores = s.cores) ∧
    (∀ r, x.nextRecord = some r → r.due ≤ s.now → ∃ t, exec (.usageRecordComplete k) s = .next t ∧ (t.casement k).urseq = r.seq ∧
      (t.casement k).lost = (x.lost || x.records.any fun y => y.due == 0 && !y.read && y.seq % 1024 == r.seq % 1024) ∧
      (∃ y ∈ (t.casement k).records, y.due = 0 ∧ y.seq = r.seq ∧ y.bytes = r.bytes) ∧ t.mem = s.mem)

/-! ### The endpoint and fleet time -/

/-- R318, R327, R328, R329, R332: a session opens in an ACTIVE casement, with its sizes and its pinned ring, and then counts from zero; a closed one stays as it is; a
message too long for a slot, or that finds the ring full or its casement beyond CAPE (log entry 66), is dropped and counted; one from another sender or under another JOBID is none
of the session's; an operation that is no send is answered as unsupported; a message that lands raises INCNT, one whose landing write may not be made is reported, and one whose
session has messages that wait for memory waits behind them. R323, R324, R325, R326: fleet time takes the grandmaster's time at its first lock and slews by at most 200 ppm
afterwards, towards the grandmaster's (that the rate changes by at most 2 ppm in 2 ms is log entry 13, the model's choice); with no sync for 2 s it is in HOLDOVER; the clock's port is rebound at a lost announce; PUP follows the ports; a casement's anchor is rewritten every
1 ms with FTIME and its views. -/
def Obligations.SessionsAndFleetTime : Prop :=
  (∀ (s : State) (n : Nat) (payload : List W8), n < 65536 → s.boot.ready = true →
    let x := s.session n
    let send (who : BitVec 128) (job : BitVec 24) : Instr := .sessionIngress n ⟨who, job, true⟩ payload
    let counted (t : State) : Prop := (t.session n).dropin = if x.dropin = 0xFFFF then x.dropin else x.dropin + 1
    let fits : Prop := payload.length ≤ 64 * x.isz ∧ x.incnt.toNat - x.tokRetired < x.inslot ∧ s.ingressLevel x.owner ≤ Config.ingressBurst x.owner
    let va := x.ibase + 64 * x.isz * (x.incnt.toNat % x.inslot)
    let reach : Dev (List (Nat × Nat × Nat) × Option IngressFault) := s.reachPieces x.owner (pagePieces va (payload.length / 4096 + 2) payload.length)
    (x.isOpen = false → (s.casement x.owner).st = .active → x.inslot ≠ 0 → x.isz ≠ 0 → s.refuseAction = false →
      (∃ t, exec (.sessionOpen n) s = .next t) ∧
      (∀ u, s.sessionPinned x = .ok u true → ∃ t, exec (.sessionOpen n) s = .next t ∧ (t.session n).isOpen = true ∧ (t.session n).incnt = 0 ∧
        (t.session n).dup = 0 ∧ (t.session n).dropin = 0 ∧ t.mem = u.mem) ∧
      (∀ u, s.sessionPinned x = .ok u false → exec (.sessionOpen n) s = .next u) ∧
      (∀ u, s.sessionPinned x = .wait u → exec (.sessionOpen n) s = .next { u with opening := u.opening ++ [n] })) ∧
    (x.isOpen = true ∨ (s.casement x.owner).st ≠ .active ∨ x.inslot = 0 ∨ x.isz = 0 ∨ s.refuseAction = true → exec (.sessionOpen n) s = .next s) ∧
    (∃ t, exec (.sessionClose n) s = .next t ∧ t.session n = { x with isOpen := false } ∧ (∀ m, m ≠ n → t.session m = s.session m) ∧ t.mem = s.mem) ∧
    (∀ who job, exec (.sessionIngress n ⟨who, job, false⟩ payload) s = .next (s.emitOut (.unsupported n))) ∧
    (∀ who job, x.isOpen = false ∨ x.peer ≠ who ∨ x.jobid ≠ job → exec (send who job) s = .next s) ∧
    (x.isOpen = true → (∃ e ∈ s.arriving, e.1 = n) → exec (send x.peer x.jobid) s = .next { s with arriving := s.arriving ++ [(n, payload)] }) ∧
    (x.isOpen = true → (∀ e ∈ s.arriving, e.1 ≠ n) →
      (¬ fits → ∃ t, exec (send x.peer x.jobid) s = .next t ∧ counted t ∧ (t.session n).incnt = x.incnt ∧ t.mem = s.mem) ∧
      (fits → ∃ t, exec (send x.peer x.jobid) s = .next t) ∧
      (∀ u ps, fits → reach = .ok u (ps, none) → ∃ t, exec (send x.peer x.jobid) s = .next t ∧ t.mem = (u.landMessage payload ps).mem ∧
        (t.session n).incnt = ((u.landMessage payload ps).session n).incnt + 1) ∧
      (∀ u ps f, fits → reach = .ok u (ps, some f) → (if f.stage2 then 16 else x.owner) < u.rings.length →
        ∃ t, exec (send x.peer x.jobid) s = .next t ∧ t.mem = u.mem ∧ (t.session n).incnt = (u.session n).incnt ∧
          (t.ring (if f.stage2 then 16 else x.owner)).waiting =
            (u.ring (if f.stage2 then 16 else x.owner)).waiting ++ [(faultEntry f.shown f.va 0 0 9 x.owner f.code, .nothing)]) ∧
      (∀ u, fits → reach = .wait u → exec (send x.peer x.jobid) s = .next { u with arriving := u.arriving ++ [(n, payload)] }))) ∧
  (∀ (s : State), s.boot.hingeLost = false →
    let f := s.fleet
    (∀ g, f.ftport ≠ 2 → f.pup.getD f.ftport false = true → ∃ t, exec (.ptpSync g) s = .next t ∧ t.fleet.ftstat = 1 ∧ t.fleet.lastSync = s.now ∧
      t.fleet.ftoff = BitVec.ofInt 64 ((s.ftime : Int) - g) ∧ t.cores = s.cores ∧ t.mem = s.mem ∧
      (f.everLocked = false → t.ftime = g ∧ t.fleet.everLocked = true) ∧
      (f.everLocked = true → -200 ≤ f.slew → f.slew ≤ 200 → t.ftime = s.ftime ∧ -200 ≤ t.fleet.slew ∧ t.fleet.slew ≤ 200 ∧
        (g < s.ftime → t.fleet.slew ≤ f.slew) ∧ (s.ftime < g → f.slew ≤ t.fleet.slew) ∧ f.slew - 2 ≤ t.fleet.slew ∧ t.fleet.slew ≤ f.slew + 2 ∧
        (s.now < f.slewAt + 2500000 → t.fleet.slew = f.slew))) ∧
    (f.ftstat = 1 → f.lastSync + 2500000000 ≤ s.now → exec .holdover s = .next { s with fleet := { f with ftstat := 2 } }) ∧
    (f.ftport ≠ 2 → ∃ t, exec .ptpPortRebind s = .next t ∧ t.fleet = { f with ftport := if f.ftport = 0 then 1 else 0 } ∧ t.cores = s.cores) ∧
    (∀ p up, p < 2 → f.pup.length = 2 → ∃ t, exec (.ethernetPortStateChange p up) s = .next t ∧ t.fleet.pup.getD p (!up) = up ∧
      t.fleet.pup.getD (1 - p) false = f.pup.getD (1 - p) false ∧ (t.fleet.pup = [false, false] → t.fleet.ftport = 2) ∧
      (up = true → f.ftport = 2 → t.fleet.ftport = p) ∧ t.cores = s.cores ∧ t.mem = s.mem) ∧
    (∀ k, k < 16 → k < s.casements.length → (s.casement k).anchorNext ≤ s.now → ∃ t, exec (.fleetAnchorRewrite k) s = .next t ∧
      (t.casement k).anchorFta = s.ftime ∧ (t.casement k).anchorNext = s.now + 1250000 ∧ (t.casement k).anchorGen = ((s.casement k).anchorGen + 2) % 2 ^ 64 ∧
      (∀ d, d < 9 → (t.casement k).anchorZa.getD d 0 = (s.zview k d).toNat) ∧ t.cores = s.cores ∧ t.mem = s.mem))

/-! ### Losses -/

/-- R21, R27, R245, R308, R318, R333, R335, R336, R339, R459: the forms dieHeartbeat, clockLockLoss, dieLossDeclared, hingeClockLoss, sublinkRetire, sublinkTableWrite and
firmwareRetirement complete. The first renews a die's time; clockLockLoss stops a die's clock; dieLossDeclared, after 62,500 silent cycles, takes the die out of service with its
clusters and, where no task is on the part, changes no other die and no other core, while a launched task that is alone on the part fails where it has a core there and no shadow
with a common area, moves to its shadow where it has one, and loses its shadow where only that was there; hingeClockLoss ends the module; sublinkRetire retires a failed lane with its
sub-link; sublinkTableWrite takes a table, and discards one that breaks R333; firmwareRetirement retires a cluster, a die, a stack or a channel, never a stack in thermal hold; that a die it retires leaves the work that runs there, and every core, as
it was is log entry 45, the model's choice. -/
def Obligations.Losses : Prop :=
  (∀ (s : State) (d : Nat), s.boot.hingeLost = false → d < 8 → d < s.dies.length → (s.die d).live = true → (s.die d).clockLost = false → (s.die d).nextBeat ≤ s.now →
    ∃ t, exec (.dieHeartbeat d) s = .next t ∧ (t.die d).lastBeat = s.now ∧ (t.die d).nextBeat = s.now + 1250 ∧ (∀ e, e ≠ d → t.die e = s.die e) ∧ t.cores = s.cores) ∧
  (∀ (s : State) (d : Nat), s.boot.hingeLost = false → d < 8 → d < s.dies.length → (s.die d).live = true →
    ∃ t, exec (.clockLockLoss d) s = .next t ∧ (t.die d).clockLost = true ∧ (t.die d).live = true ∧ (∀ e, e ≠ d → t.die e = s.die e) ∧ t.cores = s.cores) ∧
  (∀ (s : State) (d : Nat), s.boot.hingeLost = false → d < 8 → d < s.dies.length → (s.die d).live = true → (s.die d).lastBeat + 62500 ≤ s.now →
    ∃ t, exec (.dieLossDeclared d) s = .next t ∧
      (s.tasks = [] → (t.die d).live = false ∧ (∀ c, dieOf c = d → (t.core c).task = none ∧ (t.core c).phase = .idle) ∧
        (∀ c, dieOf c ≠ d → t.core c = s.core c) ∧ (∀ i, dieOfCluster i = d → t.clusterUp i = false) ∧ (∀ e, e ≠ d → t.die e = s.die e)) ∧
      (∀ v, s.tasks = [v] → v.launched = true → v.st ≠ .ending →
        let u := (s.fence d).clearDie d
        let hit := ∃ c ∈ v.cores, dieOf c = d
        let failed := ∃ w, t.task? v.id = some w ∧ w.st = .ending ∧ w.status = .failed ∧ w.code = 0x14
        (hit → v.shadow = [] ∨ u.promotable v = none → failed) ∧
        (∀ n, hit → v.shadow ≠ [] → u.promotable v = some n →
          ∃ w, t.task? v.id = some w ∧ w.st = .running ∧ w.cores = v.shadow ∧ w.shadow = [] ∧ w.unmirrored = true) ∧
        (¬ hit → ∃ w, t.task? v.id = some w ∧ w.st = v.st ∧ w.cores = v.cores ∧
          ((∃ c ∈ v.shadow, dieOf c = d) → w.shadow = [] ∧ w.unmirrored = true) ∧
          ((∀ c ∈ v.shadow, dieOf c ≠ d) → w.shadow = v.shadow ∧ w.unmirrored = v.unmirrored)))) ∧
  (∀ (s : State), ∃ t, exec .hingeClockLoss s = .next t ∧ t.boot.hingeLost = true ∧ t.boot.ready = false ∧ t.boot.failcode = 4 ∧ t.mem = s.mem ∧
    t.out = s.out ++ [.machineCheck 2304 0]) ∧
  (∀ (s : State) (p l : Nat), s.boot.hingeLost = false → p < 16 → l < 8 →
    ∃ t, exec (.sublinkRetire p l) s = .next t ∧ (p, l) ∈ t.retiredLanes ∧
      (∀ i, i < 8 → l ∈ linkLanes (s.sublinks.getD p 0) i → (∀ j, j < i → l ∉ linkLanes (s.sublinks.getD p 0) j) →
        ∀ m ∈ linkLanes (s.sublinks.getD p 0) i, (p, m) ∈ t.retiredLanes) ∧ t.cores = s.cores ∧ t.mem = s.mem) ∧
  (∀ (s : State) (p : Nat) (v : W64), s.boot.ready = true → p < 16 → p < s.sublinks.length →
    (∃ t, exec (.sublinkTableWrite p v) s = .next t) ∧
    (s.linksBad (s.sublinks.getD p 0) (v &&& 0xEFEFEFEFEFEFEFEF) = false → ∃ t, exec (.sublinkTableWrite p v) s = .next t ∧
      t.sublinks.getD p 0 = v &&& 0xEFEFEFEFEFEFEFEF ∧ ∀ r, r ≠ p → t.sublinks.getD r 0 = s.sublinks.getD r 0) ∧
    (s.linksBad (s.sublinks.getD p 0) (v &&& 0xEFEFEFEFEFEFEFEF) = true → exec (.sublinkTableWrite p v) s = .next s)) ∧
  (∀ (s : State) (n : Nat), s.boot.hingeLost = false →
    (n < 12 → ∃ t, exec (.firmwareRetirement (.cluster n)) s = .next t ∧ t.clusterUp n = false ∧ t.cores = s.cores) ∧
    (n < 8 → n < s.dies.length → (∀ j, j < 16 → 4 + j / 4 = n → (s.hbm.getD j Stack.reset).hold = false) → ∃ t, exec (.firmwareRetirement (.die n)) s = .next t ∧ (t.die n).retired = true ∧
      (∀ i, dieOfCluster i = n → t.clusterUp i = false) ∧ t.cores = s.cores) ∧
    (n < 16 → n < s.hbm.length → (s.hbm.getD n Stack.reset).hold = false → ∃ t, exec (.firmwareRetirement (.stack n)) s = .next t ∧ (t.hbm.getD n Stack.reset).live = false ∧ t.cores = s.cores) ∧
    (n < 512 → ∃ t, exec (.firmwareRetirement (.channel n)) s = .next t ∧ (t.channel n).retired = true ∧ t.cores = s.cores))

/-! ### Power and HBM4E -/

/-- R345, R346: whatever moves power units between the dies and the pool makes none and loses none: the offers, every 1 µs, the rebalancing, every 10 µs, the arrival of units on their
way, the loss of a die, whose units go to the pool, and the bringing of what an action-class task has reserved to the dies of its group, which then hold it. The amounts of a
rebalancing are free, and that a lost die's units come from the pool is the model's choice (log entry 43). -/
def Obligations.PowerUnits : Prop :=
  ∀ (s : State), s.boot.hingeLost = false → s.dies.length = 9 →
    let total (u : State) : Nat := u.pool + (u.dies.map fun d => d.units + (d.incoming.map fun e => e.2.1).sum).sum
    ((s.die 8).nextOffer ≤ s.now → ∃ t, exec .powerOfferTick s = .next t ∧ total t = total s ∧ (∀ d, d < 9 → (t.die d).nextOffer = s.now + 1250) ∧ t.cores = s.cores) ∧
    (s.nextRebalance ≤ s.now → ∃ t, exec .powerRebalance s = .next t ∧ total t = total s ∧ t.nextRebalance = s.now + 12500 ∧ t.cores = s.cores) ∧
    (total s.powerArrivals = total s ∧ s.powerArrivals.cores = s.cores) ∧
    (∀ d, d < 9 → total (s.clearDie d) = total s ∧ ((s.clearDie d).die d).units = 0 ∧ ((s.clearDie d).die d).incoming = [] ∧ (s.clearDie d).cores = s.cores) ∧
    (∀ (t : Task) (cores : List Nat), t.klass = 0 → (t.units.map fun e => e.1).Nodup →
      (∀ e ∈ t.units, e.1 < 9 ∧ ((s.die e.1).live = true → e.2 ≤ (s.die e.1).units) ∧ ((s.die e.1).live = false → (s.die e.1).units = 0)) →
      ((t.units.filter fun e => !(s.die e.1).live).map fun e => e.2).sum ≤ s.pool →
      (t.units.map fun e => e.2).sum = ((groupUnits cores).map fun e => e.2).sum →
      total (s.bringUnits t cores) = total s ∧ (s.bringUnits t cores).cores = s.cores ∧
        ∀ d n, (d, n) ∈ groupUnits cores → n ≤ ((s.bringUnits t cores).die d).units)

/-- R12, R313, R315, R316, R317, R318: a channel in service, on no stack in thermal hold, with the units it needs, serves the request of its slot: a load reads memory under its
key; corrected and repeated transfers are counted, a poisoned or a failed read of an abandoned access tells firmware, and a failed one retires the channel; a thermal hold begins at its
signal and ends 125,000 cycles after the last one. -/
def Obligations.HbmServes : Prop :=
  ∀ (s : State), s.boot.hingeLost = false →
    (∀ n r pa key ch sz se, n < 512 → s.channelUp n = true → (s.channel n).lastServed ≠ s.now + 1 → (s.hbm.getD (n / 32) Stack.reset).hold = false →
      s.slotPower (4 + n / 128) = true → s.slotRequest n = some r → r.st = .queued pa key ch → r.kind = .load sz se → r ∈ s.reqs →
      let served (t : State) : Prop := ∃ y ∈ t.reqs, y.id = r.id ∧ ∃ d, s.now < d ∧
        y.st = .served (landedValue sz se (s.readMem (some (dieOf r.core)) key pa sz)) d
      let gone (t : State) : Prop := t.out = s.out ++ [.machineCheck r.core pa] ∧ ∀ y ∈ t.reqs, y.id ≠ r.id
      (∃ t, exec (.hbmSlotService n .clean) s = .next t ∧ served t ∧ (t.channel n).lastServed = s.now + 1 ∧
        (r.id < s.nextId → ∀ i ∈ (t.channel n).queue, i ≠ r.id) ∧ t.mem = s.mem) ∧
      (∀ k, ∃ t, exec (.hbmSlotService n (.replayed k)) s = .next t ∧ served t ∧ (t.channel n).lcrc = satAdd (s.channel n).lcrc (min k 8)) ∧
      (∃ t, exec (.hbmSlotService n .corrected) s = .next t ∧ served t ∧ (t.channel n).ace = satAdd (s.channel n).ace 1) ∧
      (r.orphan = true → ∃ t, exec (.hbmSlotService n .poisoned) s = .next t ∧ gone t ∧ (t.channel n).aue = satAdd (s.channel n).aue 1 ∧
        (t.channel n).uepa = BitVec.ofNat 52 (key * 2 ^ 48 + s.lineOf pa * 64)) ∧
      (r.orphan = true → ∃ t, exec (.hbmSlotService n .failed) s = .next t ∧ gone t ∧ (t.channel n).lfail = satAdd (s.channel n).lfail 1 ∧
        (t.channel n).lcrc = satAdd (s.channel n).lcrc 8 ∧ (t.channel n).retired = true)) ∧
    (∀ j, j < 16 → j < s.hbm.length → (s.hbm.getD j Stack.reset).live = true → ∃ t, exec (.thermalHoldEnter j) s = .next t ∧
      (t.hbm.getD j Stack.reset).hold = true ∧ (t.hbm.getD j Stack.reset).since = s.now ∧ (∀ i, i ≠ j → t.hbm.getD i Stack.reset = s.hbm.getD i Stack.reset) ∧ t.mem = s.mem) ∧
    (∀ j, (s.hbm.getD j Stack.reset).hold = true → (s.hbm.getD j Stack.reset).since + 125000 ≤ s.now → ∃ t, exec (.thermalHoldExit j) s = .next t ∧
      (t.hbm.getD j Stack.reset).hold = false ∧ t.mem = s.mem)

/-! ### Boot and resets -/

/-- R20, R311, R341, R342, R343, R459: the boot goes on from its first stage, and from its second, if one of the stage's images has a signature that holds and an SVN not below the
fuses, and stops with FAILCODE if none has; it goes through its stages to READY, or
stops with FAILCODE 3 where its links do not train; a fuse command names the running image's SVN or does nothing; a warm reset ends every task, session and queue and keeps the fuses; a cold
one frees every casement and gives every slot a new key. -/
def Obligations.BootAndResets : Prop :=
  ∀ (s : State),
    let b := s.boot
    let usable (i : Nat) : Prop := ∃ svn, b.images[i]? = some (true, svn) ∧ b.fuse ≤ svn
    let serves (i : Nat) : Prop := ∃ svn, b.services[i]? = some (true, svn) ∧ b.fuse ≤ svn
    (∀ n, b.nextAt = some n → n ≤ s.now → b.hingeLost = false →
      (b.stage = 0 → ∃ t, exec .bootStage s = .next t ∧ (usable 0 ∨ usable 1 → t.boot.stage = 1 ∧ t.boot.failcode = 0) ∧
        (¬ usable 0 → ¬ usable 1 → t.boot.stage = 0 ∧ t.boot.failcode ≠ 0 ∧ t.boot.nextAt = none)) ∧
      (b.stage = 1 → ∃ t, exec .bootStage s = .next t ∧ t.boot.ready = b.ready ∧ t.mem = s.mem ∧ (serves 0 ∨ serves 1 → t.boot.stage = 2 ∧ t.boot.failcode = b.failcode) ∧
        (¬ serves 0 → ¬ serves 1 → t.boot.stage = 1 ∧ t.boot.failcode ≠ 0 ∧ t.boot.nextAt = none)) ∧
      (b.stage ∈ [3, 4] → ∃ t, exec .bootStage s = .next t ∧ t.boot.stage = b.stage + 1 ∧ t.boot.ready = b.ready ∧ t.mem = s.mem) ∧
      (b.stage = 2 → b.trains = true → ∃ t, exec .bootStage s = .next t ∧ t.boot.stage = 3) ∧
      (b.stage = 2 → b.trains = false → ∃ t, exec .bootStage s = .next t ∧ t.boot.failcode = 3 ∧ t.boot.nextAt = none ∧ t.boot.stage = 2) ∧
      (b.stage = 5 → ∃ t, exec .bootStage s = .next t ∧ t.boot.stage = 6 ∧ t.boot.ready = true ∧ t.boot.nextAt = none)) ∧
    (∀ v, (b.ready = true ∧ v = b.running ∧ b.fuse ≤ v ∧ v ≤ 128 → exec (.fuseAdvance v) s = .next { s with boot := { b with fuse := v } }) ∧
      (b.ready = false ∨ v ≠ b.running ∨ v < b.fuse ∨ 128 < v → exec (.fuseAdvance v) s = .next s)) ∧
    (b.hingeLost = true → exec .warmReset s = .next s) ∧
    (b.hingeLost = false → ∃ t, exec .warmReset s = .next t ∧ t.tasks = [] ∧ t.reqs = [] ∧ t.stores = [] ∧ t.boot.ready = false ∧ t.boot.fuse = b.fuse ∧
      (∀ q, (t.queue q).st = .idle) ∧ (∀ n, (t.session n).isOpen = false) ∧ (∀ c, (t.core c).task = none ∧ (t.core c).phase = .idle)) ∧
    (∃ t, exec .coldReset s = .next t ∧ t.tasks = [] ∧ t.reqs = [] ∧ t.cores = [] ∧ t.boot.stage = 0 ∧ t.boot.ready = false ∧ t.boot.fuse = b.fuse ∧
      t.boot.images = b.images ∧ (∀ q, t.queue q = Queue.reset) ∧ (∀ n, (t.session n).isOpen = false) ∧
      ∀ k, k < 16 → s.casements.length = 16 → (t.casement k).st = .free ∧ (t.casement k).keyValid = true ∧ (t.casement k).keyGen = (s.casement k).keyGen + 1)

/-! ### The host port -/

/-- R222, R223, R295, R301, R320, R321, R343, R460: an access of the host is performed under the key slot it names, an AtomicOp indivisibly with the old value as its reply; one that its function may not make reads zero and
writes nothing; one to memory that cannot be reached is MACHINE_CHECK; one to an address that does not exist stops the run (the model's only stop). A page's migration starts, switches
and is released. A read of BAR0 answers what a function's registers hold there. A virtual function's write of the module's registers is discarded. That a virtual function's access under
another key slot reads zeros and writes nothing is log entry 46, the model's choice. -/
def Obligations.HostPort : Prop :=
  ∀ (s : State) (sec : Bool) (pa n : Nat) (bs : List W8) (v e : W64), pa < 2 ^ 52 → s.boot.hingeLost = false → s.boot.ready = true →
    let a := pa % 2 ^ 48
    let slot := pa / 2 ^ 48
    let plain (k : Nat) : Prop := regionOf a ≠ .unmapped ∧ regionOf (a + k - 1) = regionOf a
    let waits (k : Nat) (write : Bool) : Prop := ∃ h, s.touch slot a slot k write = .wait h
    (0 < n → n ≤ 4096 → plain n → regionOf a = .host ∨ regionOf a = .hingeSram → s.migration = none →
      exec (.hostAccess .pf sec pa (.read n)) s = .next (s.emitOut (.hostReply (s.readMem none slot a n))) ∧
      (bs.length = n → exec (.hostAccess .pf sec pa (.write bs)) s = .next (s.storeBytes 8 2304 .ct slot a bs))) ∧
    (∀ u, 0 < n → n ≤ 4096 → plain n → s.touch slot a slot n false = .ok u →
      exec (.hostAccess .pf sec pa (.read n)) s = .next (u.emitOut (.hostReply (u.readMem none slot a n)))) ∧
    (∀ u, 0 < bs.length → bs.length ≤ 4096 → plain bs.length → s.touch slot a slot bs.length true = .ok u →
      exec (.hostAccess .pf sec pa (.write bs)) s = .next (u.storeBytes 8 2304 .ct slot a bs)) ∧
    (∀ u, n = 4 ∨ n = 8 → pa % n = 0 → plain n → s.locked a = false → s.touch slot a slot n true = .ok u →
      let old := u.readMem none slot a n
      let done (x : Nat) : State := (u.emitOut (.hostReply old)).storeBytes 8 2304 .ct slot a (leBytes n x)
      exec (.hostAccess .pf sec pa (.fetchAdd n v)) s = .next (done ((leNat old + v.toNat) % 256 ^ n)) ∧
      exec (.hostAccess .pf sec pa (.swap n v)) s = .next (done (v.toNat % 256 ^ n)) ∧
      exec (.hostAccess .pf sec pa (.cas n e v)) s = .next (done (if leNat old = e.toNat % 256 ^ n then v.toNat % 256 ^ n else leNat old))) ∧
    (∀ k, 0 < n → n ≤ 4096 → plain n → regionOf a = .hbm → slot ≠ k →
      (¬ waits n false → exec (.hostAccess (.vf k) sec pa (.read n)) s = .next (s.emitOut (.hostReply (List.replicate n 0)))) ∧
      (¬ waits n true → bs.length = n → exec (.hostAccess (.vf k) sec pa (.write bs)) s = .next s)) ∧
    (0 < n → n ≤ 4096 → regionOf a = .hbm → regionOf (a + n - 1) = .hbm → s.dead a = true →
      exec (.hostAccess .pf sec pa (.read n)) s = .next (s.emitOut (.machineCheck 2304 a))) ∧
    (0 < n → n ≤ 4096 → regionOf a = .unmapped → ¬ waits n false → exec (.hostAccess .pf sec pa (.read n)) s = .fault .physicalHole) ∧
    (∀ fn, 0 < n → n ≤ 4096 → pa + n ≤ 0x2000000 → ∃ t, exec (.hostAccess fn sec pa (.bar n)) s = .next t ∧ t.mem = s.mem ∧ t.cores = s.cores ∧
      t.out = s.out ++ [.hostReply ((List.range n).map fun i => s.barByte fn sec (pa + i))]) ∧
    (∀ o p sz, s.migration = none → sz ∈ [4096, 2 ^ 21, 2 ^ 30] → o % sz = 0 → p % sz = 0 → o < 0x10000000000 → p < 0x10000000000 →
      ∃ t m, exec (.migrationStart o p sz) s = .next t ∧ t.migration = some m ∧ m.old = o ∧ m.new_ = p ∧ m.size = sz ∧ m.switched = false ∧ s.now < m.due ∧ m.held = [] ∧
        t.mem = s.mem) ∧
    (∀ m, s.migration = some m → s.MemOk → m.switched = false → m.left = 0 → m.due ≤ s.now → s.hotPage m.old = false → s.hotPage m.new_ = false → m.held = [] →
      ∃ t, exec .migrationSwitch s = .next t ∧ t.migration = some { m with switched := true } ∧
        (∀ i, i < m.size → t.mem.get (m.new_ + i) = s.mem.get (m.old + i)) ∧
        ∀ b, (b < m.new_ ∨ m.new_ + m.size ≤ b) → t.mem.get b = s.mem.get b) ∧
    (∀ m, s.migration = some m → m.switched = true → exec .migrationRelease s = .next { s with migration := none }) ∧
    (∀ fn x off, off % 8 = 0 → off < 0x2000000 → exec (.registerWrite fn sec off x) s = .next (s.hostWrite fn sec off x.toNat true)) ∧
    (∀ x, x.toNat % 16 = 2 → exec (.registerWrite .pf sec 8 x) s = .next s.coldReset) ∧ (∀ k x, exec (.registerWrite (.vf k) sec 8 x) s = .next s) ∧
    (∀ k off x, off % 8 = 0 → 0x70000 ≤ off → off < 0x84000 → exec (.registerWrite (.vf k) sec off x) s = .next s) ∧
    (∀ x, ∃ t, exec (.registerWrite .pf sec 0x70000 x) s = .next t ∧ t.fleet.ptpdom = x.setWidth 8 ∧ t.cores = s.cores ∧ t.mem = s.mem)
end

