-- ==== Sys2Proof/Laws/Cells.lean ====
section
/-! SUPPORT. The laws of the shared data: sparse bytes keep their canonical form and read back what was written, keyed lists and `putAt` likewise. -/

namespace Sys2Proof.Machine

/-! ### Canonical form -/

theorem Cells.wf_tail {e : Host.Cell} {m : Cells} (h : Cells.wf (e :: m) = true) : Cells.wf m = true := by
  cases m with
  | nil => rfl
  | cons f m => simp only [Cells.wf, Bool.and_eq_true] at h; exact h.2

theorem Cells.wf_head {a : Nat} {b : W8} {m : Cells} (h : Cells.wf ((a, b) :: m) = true) : b ≠ 0 := by
  cases m with
  | nil => simpa [Cells.wf] using h
  | cons f m => simp only [Cells.wf, Bool.and_eq_true, bne_iff_ne] at h; exact h.1.1

/-- Every address of a canonical array is at least its first one. -/
def Cells.startsAbove (m : Cells) (a : Nat) : Prop := ∀ e ∈ m, a < e.1

theorem Cells.wf_cons {a : Nat} {b : W8} {m : Cells} :
    Cells.wf ((a, b) :: m) = true ↔ b ≠ 0 ∧ m.startsAbove a ∧ m.wf = true := by
  induction m generalizing a b with
  | nil => simp [Cells.wf, Cells.startsAbove]
  | cons f m ih =>
    obtain ⟨x, y⟩ := f
    simp only [Cells.wf, Bool.and_eq_true, bne_iff_ne, decide_eq_true_eq, Cells.startsAbove, List.forall_mem_cons]
    constructor
    · rintro ⟨⟨hb, hx⟩, hm⟩
      exact ⟨hb, ⟨hx, fun e he => Nat.lt_trans hx ((ih.mp hm).2.1 e he)⟩, hm⟩
    · rintro ⟨hb, ⟨hx, -⟩, hm⟩
      exact ⟨⟨hb, hx⟩, hm⟩

theorem Cells.wf_filter {m : Cells} (p : Host.Cell → Bool) (h : m.wf = true) : Cells.wf (m.filter p) = true := by
  induction m with
  | nil => rfl
  | cons f m ih =>
    obtain ⟨x, b⟩ := f
    obtain ⟨hb, hx, hm⟩ := Cells.wf_cons.mp h
    rw [List.filter_cons]
    split
    · exact Cells.wf_cons.mpr ⟨hb, fun e he => hx e (List.mem_filter.mp he).1, ih hm⟩
    · exact ih hm

theorem Cells.startsAbove_put {m : Cells} {x a : Nat} (v : W8) (hm : m.startsAbove x) (h : x < a) : (m.put a v).startsAbove x := by
  induction m with
  | nil => simpa [Cells.put, Cells.startsAbove] using h
  | cons f m ih =>
    obtain ⟨y, b⟩ := f
    obtain ⟨hy, hr⟩ : x < y ∧ Cells.startsAbove m x := by simpa [Cells.startsAbove] using hm
    simp only [Cells.put]
    split
    · simpa [Cells.startsAbove, h, hy] using hr
    · split
      · simpa [Cells.startsAbove, h] using hr
      · simpa [Cells.startsAbove, hy] using ih hr

theorem Cells.wf_put {m : Cells} (a : Nat) {v : W8} (hv : v ≠ 0) (h : m.wf = true) : (m.put a v).wf = true := by
  induction m with
  | nil => simpa [Cells.put, Cells.wf] using hv
  | cons f m ih =>
    obtain ⟨x, b⟩ := f
    obtain ⟨hb, hx, hm⟩ := Cells.wf_cons.mp h
    simp only [Cells.put]
    split
    · refine Cells.wf_cons.mpr ⟨hv, ?_, h⟩
      intro e he
      rcases List.mem_cons.mp he with rfl | he
      · assumption
      · exact Nat.lt_trans ‹_› (hx e he)
    · split
      · subst a; exact Cells.wf_cons.mpr ⟨hv, hx, hm⟩
      · exact Cells.wf_cons.mpr ⟨hb, Cells.startsAbove_put v hx (by omega), ih hm⟩

/-- A write keeps the canonical form. -/
theorem Cells.wf_set {m : Cells} (a : Nat) (v : W8) (h : m.wf = true) : (m.set a v).wf = true := by
  unfold Cells.set
  split
  · exact Cells.wf_filter _ h
  · exact Cells.wf_put a ‹_› h

theorem Cells.wf_write {m : Cells} (a : Nat) (bs : List W8) (h : m.wf = true) : (m.write a bs).wf = true := by
  induction bs generalizing m a with
  | nil => exact h
  | cons b bs ih => exact ih _ (Cells.wf_set a b h)

theorem Cells.wf_writeAll {m : Cells} (bs : List (Nat × W8)) (h : m.wf = true) : (m.writeAll bs).wf = true := by
  induction bs generalizing m with
  | nil => exact h
  | cons e bs ih => exact ih (Cells.wf_set e.1 e.2 h)

/-! ### Reading back -/

theorem Cells.get_put_same (m : Cells) (a : Nat) (v : W8) : (m.put a v).get a = v := by
  induction m with
  | nil => simp [Cells.put, Cells.get]
  | cons f m ih =>
    obtain ⟨x, b⟩ := f
    simp only [Cells.put]
    split
    · simp [Cells.get]
    · split
      · simp [Cells.get]
      · simp only [Cells.get]
        rw [if_neg (by omega)]
        exact ih

theorem Cells.get_put_other (m : Cells) {a c : Nat} (v : W8) (h : c ≠ a) : (m.put a v).get c = m.get c := by
  induction m with
  | nil => simp [Cells.put, Cells.get, Ne.symm h]
  | cons f m ih =>
    obtain ⟨x, b⟩ := f
    simp only [Cells.put]
    split
    · simp [Cells.get, Ne.symm h]
    · split
      · subst a; simp [Cells.get, Ne.symm h]
      · simp only [Cells.get]
        split
        · rfl
        · exact ih

theorem Cells.get_filter_same (m : Cells) (a : Nat) : Cells.get (m.filter fun e => e.1 != a) a = 0 := by
  induction m with
  | nil => rfl
  | cons f m ih =>
    rw [List.filter_cons]
    split
    · rename_i h
      simp only [Cells.get]
      rw [if_neg (by simpa using h)]
      exact ih
    · exact ih

theorem Cells.get_filter_other (m : Cells) {a c : Nat} (h : c ≠ a) : Cells.get (m.filter fun e => e.1 != a) c = m.get c := by
  induction m with
  | nil => rfl
  | cons f m ih =>
    obtain ⟨x, b⟩ := f
    rw [List.filter_cons]
    split
    · simp only [Cells.get, ih]
    · rename_i hx
      have hx : x = a := by simpa using hx
      simp only [Cells.get]
      rw [if_neg (by omega)]
      exact ih

/-- A byte reads back as it was written. -/
@[simp] theorem Cells.get_set_same (m : Cells) (a : Nat) (v : W8) : (m.set a v).get a = v := by
  unfold Cells.set
  split
  · subst v; exact m.get_filter_same a
  · exact m.get_put_same a v

/-- A write leaves every other byte alone. -/
theorem Cells.get_set_other {m : Cells} {a c : Nat} (v : W8) (h : c ≠ a) : (m.set a v).get c = m.get c := by
  unfold Cells.set
  split
  · exact m.get_filter_other h
  · exact m.get_put_other v h

theorem Cells.get_write_below {m : Cells} {a c : Nat} (bs : List W8) (h : c < a) : (m.write a bs).get c = m.get c := by
  induction bs generalizing m a with
  | nil => rfl
  | cons b bs ih =>
    simp only [Cells.write]
    rw [ih (by omega), Cells.get_set_other b (by omega)]

theorem Cells.get_write_above {m : Cells} {a c : Nat} (bs : List W8) (h : a + bs.length ≤ c) : (m.write a bs).get c = m.get c := by
  induction bs generalizing m a with
  | nil => rfl
  | cons b bs ih =>
    simp only [List.length_cons] at h
    simp only [Cells.write]
    rw [ih (by omega), Cells.get_set_other b (by omega)]

/-- The bytes written read back. -/
theorem Cells.get_write_in {m : Cells} {a i : Nat} {bs : List W8} (h : i < bs.length) : (m.write a bs).get (a + i) = bs.getD i 0 := by
  induction bs generalizing m a i with
  | nil => simp at h
  | cons b bs ih =>
    simp only [Cells.write]
    cases i with
    | zero => rw [Cells.get_write_below bs (by omega)]; simp
    | succ i =>
      have hi : i < bs.length := by simpa using h
      rw [show a + (i + 1) = a + 1 + i by omega, ih hi]
      simp

theorem Cells.writeAll_addrBytes (m : Cells) (a : Nat) (bs : List W8) : m.writeAll (addrBytes a bs) = m.write a bs := by
  induction bs generalizing m a with
  | nil => rfl
  | cons b bs ih => exact ih _ _

/-! ### Keyed lists and `putAt` -/

@[simp] theorem keyGet_keySet_same {α : Type} (l : List (Nat × α)) (k : Nat) (v : α) : keyGet (keySet l k v) k = some v := by
  induction l with
  | nil => simp [keySet, keyGet]
  | cons e l ih =>
    obtain ⟨x, w⟩ := e
    simp only [keySet]
    split
    · simp [keyGet]
    · split
      · simp [keyGet]
      · simp only [keyGet]
        rw [if_neg (by omega)]
        exact ih

theorem keyGet_keySet_other {α : Type} (l : List (Nat × α)) {k j : Nat} (v : α) (h : j ≠ k) : keyGet (keySet l k v) j = keyGet l j := by
  induction l with
  | nil => simp [keySet, keyGet, Ne.symm h]
  | cons e l ih =>
    obtain ⟨x, w⟩ := e
    simp only [keySet]
    split
    · simp [keyGet, Ne.symm h]
    · split
      · subst k; simp [keyGet, Ne.symm h]
      · simp only [keyGet]
        split
        · rfl
        · exact ih

@[simp] theorem getD_putAt_same {α : Type} (l : List α) (d : α) (i : Nat) (v : α) : (putAt l d i v).getD i d = v := by
  induction i generalizing l with
  | zero => cases l <;> simp [putAt]
  | succ i ih =>
    cases l with
    | nil => simpa [putAt] using ih []
    | cons a l => simpa [putAt] using ih l

theorem getD_putAt_other {α : Type} (l : List α) (d : α) {i j : Nat} (v : α) (h : j ≠ i) : (putAt l d i v).getD j d = l.getD j d := by
  induction i generalizing l j with
  | zero =>
    obtain ⟨j, rfl⟩ := Nat.exists_eq_succ_of_ne_zero h
    cases l <;> simp [putAt]
  | succ i ih =>
    cases j with
    | zero => cases l <;> simp [putAt]
    | succ j =>
      have hj : j ≠ i := by omega
      cases l with
      | nil => simpa [putAt] using ih [] hj
      | cons a l => simpa [putAt] using ih l hj

end Sys2Proof.Machine
end

