-- ==== Sys2Proof/Laws/Decode.lean ====
section
/-! SUPPORT. The laws of cutting a word and of putting it together (R72, R75). -/

namespace Sys2Proof

/-- The low part of two fields put together. -/
theorem extract_append_low {n m : Nat} (u : BitVec n) (v : BitVec m) : (u ++ v).extractLsb' 0 m = v := by
  apply BitVec.eq_of_getLsbD_eq
  intro j hj
  simp [BitVec.getLsbD_append, hj]

/-- What lies above the low part. -/
theorem extract_append_high {n m : Nat} (u : BitVec n) (v : BitVec m) (i k : Nat) :
    (u ++ v).extractLsb' (m + i) k = u.extractLsb' i k := by
  apply BitVec.eq_of_getLsbD_eq
  intro j hj
  simp only [BitVec.getLsbD_extractLsb', hj, decide_true, Bool.true_and, BitVec.getLsbD_append]
  rw [if_neg (by omega)]
  congr 1; omega

/-- A word put together from its fields is cut into them again. -/
theorem Fields.ofWord_append (y : BitVec 4) (i : BitVec 3) (op : BitVec 6) (d a b : BitVec 5) (fn : BitVec 4) :
    Fields.ofWord (y ++ i ++ op ++ d ++ a ++ b ++ fn) = { h := { y := y, i := i }, op := op, rd := d, ra := a, rb := b, fn := fn } := by
  have s1 (j k : Nat) : (y ++ i ++ op ++ d ++ a ++ b ++ fn).extractLsb' (4 + j) k = (y ++ i ++ op ++ d ++ a ++ b).extractLsb' j k :=
    extract_append_high (y ++ i ++ op ++ d ++ a ++ b) fn j k
  have s2 (j k : Nat) : (y ++ i ++ op ++ d ++ a ++ b).extractLsb' (5 + j) k = (y ++ i ++ op ++ d ++ a).extractLsb' j k :=
    extract_append_high (y ++ i ++ op ++ d ++ a) b j k
  have s3 (j k : Nat) : (y ++ i ++ op ++ d ++ a).extractLsb' (5 + j) k = (y ++ i ++ op ++ d).extractLsb' j k :=
    extract_append_high (y ++ i ++ op ++ d) a j k
  have s4 (j k : Nat) : (y ++ i ++ op ++ d).extractLsb' (5 + j) k = (y ++ i ++ op).extractLsb' j k := extract_append_high (y ++ i ++ op) d j k
  have s5 (j k : Nat) : (y ++ i ++ op).extractLsb' (6 + j) k = (y ++ i).extractLsb' j k := extract_append_high (y ++ i) op j k
  have h0 : (y ++ i ++ op ++ d ++ a ++ b ++ fn).extractLsb' 0 4 = fn := extract_append_low _ _
  have h1 : (y ++ i ++ op ++ d ++ a ++ b ++ fn).extractLsb' 4 5 = b := (s1 0 5).trans (extract_append_low _ _)
  have h2 : (y ++ i ++ op ++ d ++ a ++ b ++ fn).extractLsb' 9 5 = a := (s1 5 5).trans ((s2 0 5).trans (extract_append_low _ _))
  have h3 : (y ++ i ++ op ++ d ++ a ++ b ++ fn).extractLsb' 14 5 = d :=
    (s1 10 5).trans ((s2 5 5).trans ((s3 0 5).trans (extract_append_low _ _)))
  have h4 : (y ++ i ++ op ++ d ++ a ++ b ++ fn).extractLsb' 19 6 = op :=
    (s1 15 6).trans ((s2 10 6).trans ((s3 5 6).trans ((s4 0 6).trans (extract_append_low _ _))))
  have h5 : (y ++ i ++ op ++ d ++ a ++ b ++ fn).extractLsb' 25 3 = i :=
    (s1 21 3).trans ((s2 16 3).trans ((s3 11 3).trans ((s4 6 3).trans ((s5 0 3).trans (extract_append_low _ _)))))
  have h6 : (y ++ i ++ op ++ d ++ a ++ b ++ fn).extractLsb' 28 4 = y :=
    (s1 24 4).trans ((s2 19 4).trans ((s3 14 4).trans ((s4 9 4).trans ((s5 3 4).trans
      ((extract_append_high y i 0 4).trans BitVec.extractLsb'_eq_self)))))
  unfold Fields.ofWord
  rw [h0, h1, h2, h3, h4, h5, h6]

/-- Cutting what `toWord` puts together. -/
@[simp] theorem Fields.ofWord_toWord (f : Fields) : Fields.ofWord f.toWord = f := Fields.ofWord_append ..

/-- A word is its fields put together. -/
theorem Fields.toWord_ofWord (w : W32) : (Fields.ofWord w).toWord = w := by
  unfold Fields.toWord Fields.ofWord
  rw [BitVec.extractLsb'_append_extractLsb'_eq_extractLsb' (by rfl), BitVec.extractLsb'_append_extractLsb'_eq_extractLsb' (by rfl),
    BitVec.extractLsb'_append_extractLsb'_eq_extractLsb' (by rfl), BitVec.extractLsb'_append_extractLsb'_eq_extractLsb' (by rfl),
    BitVec.extractLsb'_append_extractLsb'_eq_extractLsb' (by rfl), BitVec.extractLsb'_append_extractLsb'_eq_extractLsb' (by rfl)]
  exact BitVec.extractLsb'_eq_self

end Sys2Proof
end

