-- ==== Sys2Proof/Laws/Dispatch.lean ====
section
/-! SUPPORT. What `exec` does with each instruction: its own meaning. -/

namespace Sys2Proof.Machine

theorem exec_nop (h : Hdr) (st : State) :
    exec (.nop h) st = execNop h st := rfl
theorem exec_trap (h : Hdr) (a : BitVec 5) (st : State) :
    exec (.trap h a) st = execTrap h a st := rfl
theorem exec_eret (h : Hdr) (st : State) :
    exec (.eret h) st = execEret h st := rfl
theorem exec_eretSa (h : Hdr) (a : BitVec 5) (st : State) :
    exec (.eretSa h a) st = execEretSa h a st := rfl
theorem exec_brk (h : Hdr) (st : State) :
    exec (.brk h) st = execBrk h st := rfl
theorem exec_fenceFull (h : Hdr) (s : BitVec 3) (st : State) :
    exec (.fenceFull h s) st = execFenceFull h s st := rfl
theorem exec_fenceAcq (h : Hdr) (s : BitVec 3) (st : State) :
    exec (.fenceAcq h s) st = execFenceAcq h s st := rfl
theorem exec_fenceRel (h : Hdr) (s : BitVec 3) (st : State) :
    exec (.fenceRel h s) st = execFenceRel h s st := rfl
theorem exec_xfence (h : Hdr) (st : State) :
    exec (.xfence h) st = execXfence h st := rfl
theorem exec_step (h : Hdr) (l : BitVec 5) (st : State) :
    exec (.step h l) st = execStep h l st := rfl
theorem exec_realign (h : Hdr) (a : BitVec 5) (st : State) :
    exec (.realign h a) st = execRealign h a st := rfl
theorem exec_rcmt (h : Hdr) (a b : BitVec 5) (st : State) :
    exec (.rcmt h a b) st = execRcmt h a b st := rfl
theorem exec_tail (h : Hdr) (st : State) :
    exec (.tail h) st = execTail h st := rfl
theorem exec_msel (h : Hdr) (m : BitVec 5) (st : State) :
    exec (.msel h m) st = execMsel h m st := rfl
theorem exec_idle (h : Hdr) (n : BitVec 14) (st : State) :
    exec (.idle h n) st = execIdle h n st := rfl
theorem exec_rgnT (h : Hdr) (b s m : BitVec 5) (st : State) :
    exec (.rgnT h b s m) st = execRgnT h b s m st := rfl
theorem exec_rgn (h : Hdr) (b s m : BitVec 5) (st : State) :
    exec (.rgn h b s m) st = execRgn h b s m st := rfl
theorem exec_csrr (h : Hdr) (d : BitVec 5) (c : BitVec 9) (st : State) :
    exec (.csrr h d c) st = execCsrr h d c st := rfl
theorem exec_csrw (h : Hdr) (a : BitVec 5) (c : BitVec 9) (st : State) :
    exec (.csrw h a c) st = execCsrw h a c st := rfl
theorem exec_add (h : Hdr) (d a b : BitVec 5) (st : State) :
    exec (.add h d a b) st = execAdd h d a b st := rfl
theorem exec_sub (h : Hdr) (d a b : BitVec 5) (st : State) :
    exec (.sub h d a b) st = execSub h d a b st := rfl
theorem exec_and (h : Hdr) (d a b : BitVec 5) (st : State) :
    exec (.and h d a b) st = execAnd h d a b st := rfl
theorem exec_or (h : Hdr) (d a b : BitVec 5) (st : State) :
    exec (.or h d a b) st = execOr h d a b st := rfl
theorem exec_xor (h : Hdr) (d a b : BitVec 5) (st : State) :
    exec (.xor h d a b) st = execXor h d a b st := rfl
theorem exec_shl (h : Hdr) (d a b : BitVec 5) (st : State) :
    exec (.shl h d a b) st = execShl h d a b st := rfl
theorem exec_shr (h : Hdr) (d a b : BitVec 5) (st : State) :
    exec (.shr h d a b) st = execShr h d a b st := rfl
theorem exec_sra (h : Hdr) (d a b : BitVec 5) (st : State) :
    exec (.sra h d a b) st = execSra h d a b st := rfl
theorem exec_slt (h : Hdr) (d a b : BitVec 5) (st : State) :
    exec (.slt h d a b) st = execSlt h d a b st := rfl
theorem exec_sltu (h : Hdr) (d a b : BitVec 5) (st : State) :
    exec (.sltu h d a b) st = execSltu h d a b st := rfl
theorem exec_min (h : Hdr) (d a b : BitVec 5) (st : State) :
    exec (.min h d a b) st = execMin h d a b st := rfl
theorem exec_max (h : Hdr) (d a b : BitVec 5) (st : State) :
    exec (.max h d a b) st = execMax h d a b st := rfl
theorem exec_minu (h : Hdr) (d a b : BitVec 5) (st : State) :
    exec (.minu h d a b) st = execMinu h d a b st := rfl
theorem exec_maxu (h : Hdr) (d a b : BitVec 5) (st : State) :
    exec (.maxu h d a b) st = execMaxu h d a b st := rfl
theorem exec_mul (h : Hdr) (d a b : BitVec 5) (st : State) :
    exec (.mul h d a b) st = execMul h d a b st := rfl
theorem exec_mulh (h : Hdr) (d a b : BitVec 5) (st : State) :
    exec (.mulh h d a b) st = execMulh h d a b st := rfl
theorem exec_mulhu (h : Hdr) (d a b : BitVec 5) (st : State) :
    exec (.mulhu h d a b) st = execMulhu h d a b st := rfl
theorem exec_div (h : Hdr) (d a b : BitVec 5) (st : State) :
    exec (.div h d a b) st = execDiv h d a b st := rfl
theorem exec_divu (h : Hdr) (d a b : BitVec 5) (st : State) :
    exec (.divu h d a b) st = execDivu h d a b st := rfl
theorem exec_rem (h : Hdr) (d a b : BitVec 5) (st : State) :
    exec (.rem h d a b) st = execRem h d a b st := rfl
theorem exec_remu (h : Hdr) (d a b : BitVec 5) (st : State) :
    exec (.remu h d a b) st = execRemu h d a b st := rfl
theorem exec_clz (h : Hdr) (d a : BitVec 5) (w : BitVec 2) (st : State) :
    exec (.clz h d a w) st = execClz h d a w st := rfl
theorem exec_ffs (h : Hdr) (d a : BitVec 5) (w : BitVec 2) (st : State) :
    exec (.ffs h d a w) st = execFfs h d a w st := rfl
theorem exec_popc (h : Hdr) (d a : BitVec 5) (w : BitVec 2) (st : State) :
    exec (.popc h d a w) st = execPopc h d a w st := rfl
theorem exec_addi (h : Hdr) (d a : BitVec 5) (k : BitVec 9) (st : State) :
    exec (.addi h d a k) st = execAddi h d a k st := rfl
theorem exec_andi (h : Hdr) (d a : BitVec 5) (k : BitVec 9) (st : State) :
    exec (.andi h d a k) st = execAndi h d a k st := rfl
theorem exec_ori (h : Hdr) (d a : BitVec 5) (k : BitVec 9) (st : State) :
    exec (.ori h d a k) st = execOri h d a k st := rfl
theorem exec_xori (h : Hdr) (d a : BitVec 5) (k : BitVec 9) (st : State) :
    exec (.xori h d a k) st = execXori h d a k st := rfl
theorem exec_slti (h : Hdr) (d a : BitVec 5) (k : BitVec 9) (st : State) :
    exec (.slti h d a k) st = execSlti h d a k st := rfl
theorem exec_shli (h : Hdr) (d a : BitVec 5) (n : BitVec 6) (st : State) :
    exec (.shli h d a n) st = execShli h d a n st := rfl
theorem exec_shri (h : Hdr) (d a : BitVec 5) (n : BitVec 6) (st : State) :
    exec (.shri h d a n) st = execShri h d a n st := rfl
theorem exec_srai (h : Hdr) (d a : BitVec 5) (n : BitVec 6) (st : State) :
    exec (.srai h d a n) st = execSrai h d a n st := rfl
theorem exec_li (h : Hdr) (d : BitVec 5) (k : BitVec 14) (st : State) :
    exec (.li h d k) st = execLi h d k st := rfl
theorem exec_lit (h : Hdr) (d : BitVec 5) (k : W32) (st : State) :
    exec (.lit h d k) st = execLit h d k st := rfl
theorem exec_lith (h : Hdr) (d : BitVec 5) (k : W32) (st : State) :
    exec (.lith h d k) st = execLith h d k st := rfl
theorem exec_ldB (h : Hdr) (d a : BitVec 5) (n : BitVec 6) (st : State) :
    exec (.ldB h d a n) st = execLdB h d a n st := rfl
theorem exec_ldBu (h : Hdr) (d a : BitVec 5) (n : BitVec 6) (st : State) :
    exec (.ldBu h d a n) st = execLdBu h d a n st := rfl
theorem exec_ldH (h : Hdr) (d a : BitVec 5) (n : BitVec 6) (st : State) :
    exec (.ldH h d a n) st = execLdH h d a n st := rfl
theorem exec_ldHu (h : Hdr) (d a : BitVec 5) (n : BitVec 6) (st : State) :
    exec (.ldHu h d a n) st = execLdHu h d a n st := rfl
theorem exec_ldW (h : Hdr) (d a : BitVec 5) (n : BitVec 6) (st : State) :
    exec (.ldW h d a n) st = execLdW h d a n st := rfl
theorem exec_ldWu (h : Hdr) (d a : BitVec 5) (n : BitVec 6) (st : State) :
    exec (.ldWu h d a n) st = execLdWu h d a n st := rfl
theorem exec_ldD (h : Hdr) (d a : BitVec 5) (n : BitVec 6) (st : State) :
    exec (.ldD h d a n) st = execLdD h d a n st := rfl
theorem exec_ldDAq (h : Hdr) (d a : BitVec 5) (n : BitVec 6) (st : State) :
    exec (.ldDAq h d a n) st = execLdDAq h d a n st := rfl
theorem exec_stB (h : Hdr) (v a : BitVec 5) (n : BitVec 6) (st : State) :
    exec (.stB h v a n) st = execStB h v a n st := rfl
theorem exec_stH (h : Hdr) (v a : BitVec 5) (n : BitVec 6) (st : State) :
    exec (.stH h v a n) st = execStH h v a n st := rfl
theorem exec_stW (h : Hdr) (v a : BitVec 5) (n : BitVec 6) (st : State) :
    exec (.stW h v a n) st = execStW h v a n st := rfl
theorem exec_stD (h : Hdr) (v a : BitVec 5) (n : BitVec 6) (st : State) :
    exec (.stD h v a n) st = execStD h v a n st := rfl
theorem exec_stWRl (h : Hdr) (v a : BitVec 5) (n : BitVec 6) (st : State) :
    exec (.stWRl h v a n) st = execStWRl h v a n st := rfl
theorem exec_stDRl (h : Hdr) (v a : BitVec 5) (n : BitVec 6) (st : State) :
    exec (.stDRl h v a n) st = execStDRl h v a n st := rfl
theorem exec_amocAdd (h : Hdr) (a b d : BitVec 5) (z : Bool) (st : State) :
    exec (.amocAdd h a b d z) st = execAmocAdd h a b d z st := rfl
theorem exec_amocAnd (h : Hdr) (a b d : BitVec 5) (z : Bool) (st : State) :
    exec (.amocAnd h a b d z) st = execAmocAnd h a b d z st := rfl
theorem exec_amocOr (h : Hdr) (a b d : BitVec 5) (z : Bool) (st : State) :
    exec (.amocOr h a b d z) st = execAmocOr h a b d z st := rfl
theorem exec_amocXor (h : Hdr) (a b d : BitVec 5) (z : Bool) (st : State) :
    exec (.amocXor h a b d z) st = execAmocXor h a b d z st := rfl
theorem exec_amocXchg (h : Hdr) (a b d : BitVec 5) (z : Bool) (st : State) :
    exec (.amocXchg h a b d z) st = execAmocXchg h a b d z st := rfl
theorem exec_amocMax (h : Hdr) (a b d : BitVec 5) (z : Bool) (st : State) :
    exec (.amocMax h a b d z) st = execAmocMax h a b d z st := rfl
theorem exec_amocMin (h : Hdr) (a b d : BitVec 5) (z : Bool) (st : State) :
    exec (.amocMin h a b d z) st = execAmocMin h a b d z st := rfl
theorem exec_amocCas (h : Hdr) (a b d : BitVec 5) (z : Bool) (st : State) :
    exec (.amocCas h a b d z) st = execAmocCas h a b d z st := rfl
theorem exec_beq (h : Hdr) (a b : BitVec 5) (k : BitVec 9) (st : State) :
    exec (.beq h a b k) st = execBeq h a b k st := rfl
theorem exec_bne (h : Hdr) (a b : BitVec 5) (k : BitVec 9) (st : State) :
    exec (.bne h a b k) st = execBne h a b k st := rfl
theorem exec_blt (h : Hdr) (a b : BitVec 5) (k : BitVec 9) (st : State) :
    exec (.blt h a b k) st = execBlt h a b k st := rfl
theorem exec_bge (h : Hdr) (a b : BitVec 5) (k : BitVec 9) (st : State) :
    exec (.bge h a b k) st = execBge h a b k st := rfl
theorem exec_bltu (h : Hdr) (a b : BitVec 5) (k : BitVec 9) (st : State) :
    exec (.bltu h a b k) st = execBltu h a b k st := rfl
theorem exec_bgeu (h : Hdr) (a b : BitVec 5) (k : BitVec 9) (st : State) :
    exec (.bgeu h a b k) st = execBgeu h a b k st := rfl
theorem exec_beqz (h : Hdr) (a : BitVec 5) (k : BitVec 14) (st : State) :
    exec (.beqz h a k) st = execBeqz h a k st := rfl
theorem exec_bnez (h : Hdr) (a : BitVec 5) (k : BitVec 14) (st : State) :
    exec (.bnez h a k) st = execBnez h a k st := rfl
theorem exec_loop (h : Hdr) (a : BitVec 5) (k : BitVec 14) (st : State) :
    exec (.loop h a k) st = execLoop h a k st := rfl
theorem exec_jmp (h : Hdr) (k : BitVec 19) (st : State) :
    exec (.jmp h k) st = execJmp h k st := rfl
theorem exec_jal (h : Hdr) (k : BitVec 19) (st : State) :
    exec (.jal h k) st = execJal h k st := rfl
theorem exec_jr (h : Hdr) (a : BitVec 5) (st : State) :
    exec (.jr h a) st = execJr h a st := rfl
theorem exec_bstat (h : Hdr) (a b : BitVec 5) (k : BitVec 9) (st : State) :
    exec (.bstat h a b k) st = execBstat h a b k st := rfl
theorem exec_vadd (h : Hdr) (d a b : BitVec 5) (m : Bool) (st : State) :
    exec (.vadd h d a b m) st = execVadd h d a b m st := rfl
theorem exec_vsub (h : Hdr) (d a b : BitVec 5) (m : Bool) (st : State) :
    exec (.vsub h d a b m) st = execVsub h d a b m st := rfl
theorem exec_vmul (h : Hdr) (d a b : BitVec 5) (m : Bool) (st : State) :
    exec (.vmul h d a b m) st = execVmul h d a b m st := rfl
theorem exec_vmin (h : Hdr) (d a b : BitVec 5) (m : Bool) (st : State) :
    exec (.vmin h d a b m) st = execVmin h d a b m st := rfl
theorem exec_vmax (h : Hdr) (d a b : BitVec 5) (m : Bool) (st : State) :
    exec (.vmax h d a b m) st = execVmax h d a b m st := rfl
theorem exec_vabsd (h : Hdr) (d a b : BitVec 5) (m : Bool) (st : State) :
    exec (.vabsd h d a b m) st = execVabsd h d a b m st := rfl
theorem exec_vmov (h : Hdr) (d a : BitVec 5) (m : Bool) (st : State) :
    exec (.vmov h d a m) st = execVmov h d a m st := rfl
theorem exec_vsel (h : Hdr) (d a b : BitVec 5) (st : State) :
    exec (.vsel h d a b) st = execVsel h d a b st := rfl
theorem exec_vfma (h : Hdr) (d a b : BitVec 5) (m : Bool) (st : State) :
    exec (.vfma h d a b m) st = execVfma h d a b m st := rfl
theorem exec_vfms (h : Hdr) (d a b : BitVec 5) (m : Bool) (st : State) :
    exec (.vfms h d a b m) st = execVfms h d a b m st := rfl
theorem exec_vfnma (h : Hdr) (d a b : BitVec 5) (m : Bool) (st : State) :
    exec (.vfnma h d a b m) st = execVfnma h d a b m st := rfl
theorem exec_viadd (h : Hdr) (d a b : BitVec 5) (m : Bool) (st : State) :
    exec (.viadd h d a b m) st = execViadd h d a b m st := rfl
theorem exec_visub (h : Hdr) (d a b : BitVec 5) (m : Bool) (st : State) :
    exec (.visub h d a b m) st = execVisub h d a b m st := rfl
theorem exec_vimul (h : Hdr) (d a b : BitVec 5) (m : Bool) (st : State) :
    exec (.vimul h d a b m) st = execVimul h d a b m st := rfl
theorem exec_vimin (h : Hdr) (d a b : BitVec 5) (m : Bool) (st : State) :
    exec (.vimin h d a b m) st = execVimin h d a b m st := rfl
theorem exec_vimax (h : Hdr) (d a b : BitVec 5) (m : Bool) (st : State) :
    exec (.vimax h d a b m) st = execVimax h d a b m st := rfl
theorem exec_vand (h : Hdr) (d a b : BitVec 5) (m : Bool) (st : State) :
    exec (.vand h d a b m) st = execVand h d a b m st := rfl
theorem exec_vor (h : Hdr) (d a b : BitVec 5) (m : Bool) (st : State) :
    exec (.vor h d a b m) st = execVor h d a b m st := rfl
theorem exec_vxor (h : Hdr) (d a b : BitVec 5) (m : Bool) (st : State) :
    exec (.vxor h d a b m) st = execVxor h d a b m st := rfl
theorem exec_vshl (h : Hdr) (d a b : BitVec 5) (m : Bool) (st : State) :
    exec (.vshl h d a b m) st = execVshl h d a b m st := rfl
theorem exec_vshr (h : Hdr) (d a b : BitVec 5) (m : Bool) (st : State) :
    exec (.vshr h d a b m) st = execVshr h d a b m st := rfl
theorem exec_vsra (h : Hdr) (d a b : BitVec 5) (m : Bool) (st : State) :
    exec (.vsra h d a b m) st = execVsra h d a b m st := rfl
theorem exec_vclz (h : Hdr) (d a w : BitVec 5) (m : Bool) (st : State) :
    exec (.vclz h d a w m) st = execVclz h d a w m st := rfl
theorem exec_vffs (h : Hdr) (d a w : BitVec 5) (m : Bool) (st : State) :
    exec (.vffs h d a w m) st = execVffs h d a w m st := rfl
theorem exec_vpopc (h : Hdr) (d a w : BitVec 5) (m : Bool) (st : State) :
    exec (.vpopc h d a w m) st = execVpopc h d a w m st := rfl
theorem exec_vcmpFeq (h : Hdr) (d a b : BitVec 5) (m : Bool) (st : State) :
    exec (.vcmpFeq h d a b m) st = execVcmpFeq h d a b m st := rfl
theorem exec_vcmpFlt (h : Hdr) (d a b : BitVec 5) (m : Bool) (st : State) :
    exec (.vcmpFlt h d a b m) st = execVcmpFlt h d a b m st := rfl
theorem exec_vcmpFle (h : Hdr) (d a b : BitVec 5) (m : Bool) (st : State) :
    exec (.vcmpFle h d a b m) st = execVcmpFle h d a b m st := rfl
theorem exec_vcmpFun (h : Hdr) (d a b : BitVec 5) (m : Bool) (st : State) :
    exec (.vcmpFun h d a b m) st = execVcmpFun h d a b m st := rfl
theorem exec_vcmpIeq (h : Hdr) (d a b : BitVec 5) (m : Bool) (st : State) :
    exec (.vcmpIeq h d a b m) st = execVcmpIeq h d a b m st := rfl
theorem exec_vcmpIlt (h : Hdr) (d a b : BitVec 5) (m : Bool) (st : State) :
    exec (.vcmpIlt h d a b m) st = execVcmpIlt h d a b m st := rfl
theorem exec_vcmpIltu (h : Hdr) (d a b : BitVec 5) (m : Bool) (st : State) :
    exec (.vcmpIltu h d a b m) st = execVcmpIltu h d a b m st := rfl
theorem exec_vcvtNar (h : Hdr) (d a : BitVec 5) (t : BitVec 4) (m s : Bool) (r : BitVec 2) (st : State) :
    exec (.vcvtNar h d a t m s r) st = execVcvtNar h d a t m s r st := rfl
theorem exec_vcvtWid (h : Hdr) (d a : BitVec 5) (t : BitVec 4) (m : Bool) (st : State) :
    exec (.vcvtWid h d a t m) st = execVcvtWid h d a t m st := rfl
theorem exec_vsfnExp2 (h : Hdr) (d a : BitVec 5) (m : Bool) (st : State) :
    exec (.vsfnExp2 h d a m) st = execVsfnExp2 h d a m st := rfl
theorem exec_vsfnLog2 (h : Hdr) (d a : BitVec 5) (m : Bool) (st : State) :
    exec (.vsfnLog2 h d a m) st = execVsfnLog2 h d a m st := rfl
theorem exec_vsfnRcp (h : Hdr) (d a : BitVec 5) (m : Bool) (st : State) :
    exec (.vsfnRcp h d a m) st = execVsfnRcp h d a m st := rfl
theorem exec_vsfnRsqrt (h : Hdr) (d a : BitVec 5) (m : Bool) (st : State) :
    exec (.vsfnRsqrt h d a m) st = execVsfnRsqrt h d a m st := rfl
theorem exec_vsfnSqrt (h : Hdr) (d a : BitVec 5) (m : Bool) (st : State) :
    exec (.vsfnSqrt h d a m) st = execVsfnSqrt h d a m st := rfl
theorem exec_vsfnTanh (h : Hdr) (d a : BitVec 5) (m : Bool) (st : State) :
    exec (.vsfnTanh h d a m) st = execVsfnTanh h d a m st := rfl
theorem exec_vsfnSigm (h : Hdr) (d a : BitVec 5) (m : Bool) (st : State) :
    exec (.vsfnSigm h d a m) st = execVsfnSigm h d a m st := rfl
theorem exec_vsfnSilu (h : Hdr) (d a : BitVec 5) (m : Bool) (st : State) :
    exec (.vsfnSilu h d a m) st = execVsfnSilu h d a m st := rfl
theorem exec_vrotr (h : Hdr) (d a n : BitVec 5) (m : Bool) (st : State) :
    exec (.vrotr h d a n m) st = execVrotr h d a n m st := rfl
theorem exec_vrotrHi (h : Hdr) (d a n : BitVec 5) (m : Bool) (st : State) :
    exec (.vrotrHi h d a n m) st = execVrotrHi h d a n m st := rfl
theorem exec_vrotc (h : Hdr) (d a n : BitVec 5) (m : Bool) (st : State) :
    exec (.vrotc h d a n m) st = execVrotc h d a n m st := rfl
theorem exec_vbcr (h : Hdr) (d a c : BitVec 5) (m : Bool) (st : State) :
    exec (.vbcr h d a c m) st = execVbcr h d a c m st := rfl
theorem exec_vbcrHi (h : Hdr) (d a c : BitVec 5) (m : Bool) (st : State) :
    exec (.vbcrHi h d a c m) st = execVbcrHi h d a c m st := rfl
theorem exec_vbcc (h : Hdr) (d a r : BitVec 5) (m : Bool) (st : State) :
    exec (.vbcc h d a r m) st = execVbcc h d a r m st := rfl
theorem exec_vredrAdd (h : Hdr) (d a : BitVec 5) (m : Bool) (st : State) :
    exec (.vredrAdd h d a m) st = execVredrAdd h d a m st := rfl
theorem exec_vredrMax (h : Hdr) (d a : BitVec 5) (m : Bool) (st : State) :
    exec (.vredrMax h d a m) st = execVredrMax h d a m st := rfl
theorem exec_vredrMin (h : Hdr) (d a : BitVec 5) (m : Bool) (st : State) :
    exec (.vredrMin h d a m) st = execVredrMin h d a m st := rfl
theorem exec_vredrIadd (h : Hdr) (d a : BitVec 5) (m : Bool) (st : State) :
    exec (.vredrIadd h d a m) st = execVredrIadd h d a m st := rfl
theorem exec_vredcAdd (h : Hdr) (d a : BitVec 5) (m : Bool) (st : State) :
    exec (.vredcAdd h d a m) st = execVredcAdd h d a m st := rfl
theorem exec_vredcMax (h : Hdr) (d a : BitVec 5) (m : Bool) (st : State) :
    exec (.vredcMax h d a m) st = execVredcMax h d a m st := rfl
theorem exec_vredcMin (h : Hdr) (d a : BitVec 5) (m : Bool) (st : State) :
    exec (.vredcMin h d a m) st = execVredcMin h d a m st := rfl
theorem exec_vredcIadd (h : Hdr) (d a : BitVec 5) (m : Bool) (st : State) :
    exec (.vredcIadd h d a m) st = execVredcIadd h d a m st := rfl
theorem exec_vbcs (h : Hdr) (d a : BitVec 5) (m : Bool) (st : State) :
    exec (.vbcs h d a m) st = execVbcs h d a m st := rfl
theorem exec_vext (h : Hdr) (d a c : BitVec 5) (st : State) :
    exec (.vext h d a c) st = execVext h d a c st := rfl
theorem exec_vextHi (h : Hdr) (d a c : BitVec 5) (st : State) :
    exec (.vextHi h d a c) st = execVextHi h d a c st := rfl
theorem exec_vrand (h : Hdr) (d a : BitVec 5) (m : Bool) (st : State) :
    exec (.vrand h d a m) st = execVrand h d a m st := rfl
theorem exec_osmx (h : Hdr) (e a b : BitVec 5) (st : State) :
    exec (.osmx h e a b) st = execOsmx h e a b st := rfl
theorem exec_osmf (h : Hdr) (d e : BitVec 5) (st : State) :
    exec (.osmf h d e) st = execOsmf h d e st := rfl
theorem exec_pcfg (h : Hdr) (g a : BitVec 5) (st : State) :
    exec (.pcfg h g a) st = execPcfg h g a st := rfl
theorem exec_prwd (h : Hdr) (g : BitVec 5) (st : State) :
    exec (.prwd h g) st = execPrwd h g st := rfl
theorem exec_shld (h : Hdr) (x a : BitVec 5) (st : State) :
    exec (.shld h x a) st = execShld h x a st := rfl
theorem exec_mma (h : Hdr) (c a b : BitVec 5) (z f r : Bool) (st : State) :
    exec (.mma h c a b z f r) st = execMma h c a b z f r st := rfl
theorem exec_lmma (h : Hdr) (c q w : BitVec 5) (z f : Bool) (st : State) :
    exec (.lmma h c q w z f) st = execLmma h c q w z f st := rfl
theorem exec_tbuildZ (h : Hdr) (q a : BitVec 5) (st : State) :
    exec (.tbuildZ h q a) st = execTbuildZ h q a st := rfl
theorem exec_tbuildC (h : Hdr) (q a : BitVec 5) (st : State) :
    exec (.tbuildC h q a) st = execTbuildC h q a st := rfl
theorem exec_tbuildC2 (h : Hdr) (q a : BitVec 5) (st : State) :
    exec (.tbuildC2 h q a) st = execTbuildC2 h q a st := rfl
theorem exec_tinv (h : Hdr) (q : BitVec 5) (st : State) :
    exec (.tinv h q) st = execTinv h q st := rfl
theorem exec_tspill (h : Hdr) (q a : BitVec 5) (st : State) :
    exec (.tspill h q a) st = execTspill h q a st := rfl
theorem exec_tfill (h : Hdr) (q a : BitVec 5) (st : State) :
    exec (.tfill h q a) st = execTfill h q a st := rfl
theorem exec_cbld (h : Hdr) (a : BitVec 5) (st : State) :
    exec (.cbld h a) st = execCbld h a st := rfl
theorem exec_epi (h : Hdr) (a : BitVec 5) (st : State) :
    exec (.epi h a) st = execEpi h a st := rfl
theorem exec_cpy (h : Hdr) (a : BitVec 5) (st : State) :
    exec (.cpy h a) st = execCpy h a st := rfl
theorem exec_saccFadd (h : Hdr) (d x v : BitVec 5) (st : State) :
    exec (.saccFadd h d x v) st = execSaccFadd h d x v st := rfl
theorem exec_saccFmax (h : Hdr) (d x v : BitVec 5) (st : State) :
    exec (.saccFmax h d x v) st = execSaccFmax h d x v st := rfl
theorem exec_saccFmin (h : Hdr) (d x v : BitVec 5) (st : State) :
    exec (.saccFmin h d x v) st = execSaccFmin h d x v st := rfl
theorem exec_saccIadd (h : Hdr) (d x v : BitVec 5) (st : State) :
    exec (.saccIadd h d x v) st = execSaccIadd h d x v st := rfl
theorem exec_arm (h : Hdr) (a b : BitVec 5) (st : State) :
    exec (.arm h a b) st = execArm h a b st := rfl
theorem exec_await (h : Hdr) (a b : BitVec 5) (st : State) :
    exec (.await h a b) st = execAwait h a b st := rfl
theorem exec_arrv (h : Hdr) (a b : BitVec 5) (st : State) :
    exec (.arrv h a b) st = execArrv h a b st := rfl
theorem exec_awaitX (h : Hdr) (a b : BitVec 5) (st : State) :
    exec (.awaitX h a b) st = execAwaitX h a b st := rfl
theorem exec_xgrant (h : Hdr) (a b : BitVec 5) (k : BitVec 2) (st : State) :
    exec (.xgrant h a b k) st = execXgrant h a b k st := rfl
theorem exec_xsend (h : Hdr) (a b : BitVec 5) (k : BitVec 2) (st : State) :
    exec (.xsend h a b k) st = execXsend h a b k st := rfl
theorem exec_xstat (h : Hdr) (a d : BitVec 5) (st : State) :
    exec (.xstat h a d) st = execXstat h a d st := rfl
theorem exec_emit (h : Hdr) (a b : BitVec 5) (st : State) :
    exec (.emit h a b) st = execEmit h a b st := rfl
theorem exec_mirr (h : Hdr) (a b : BitVec 5) (st : State) :
    exec (.mirr h a b) st = execMirr h a b st := rfl
theorem exec_tsub (h : Hdr) (a b : BitVec 5) (st : State) :
    exec (.tsub h a b) st = execTsub h a b st := rfl
theorem exec_qctl (h : Hdr) (a b : BitVec 5) (st : State) :
    exec (.qctl h a b) st = execQctl h a b st := rfl
theorem exec_tlbiCasement (core : Nat) (st : State) :
    exec (.tlbiCasement core) st = execTlbiCasement core st := rfl
theorem exec_tlbiPage (core : Nat) (st : State) :
    exec (.tlbiPage core) st = execTlbiPage core st := rfl
theorem exec_resultLands (core id : Nat) (st : State) :
    exec (.resultLands core id) st = execResultLands core id st := rfl
theorem exec_loadValueLands (id : Nat) (st : State) :
    exec (.loadValueLands id) st = execLoadValueLands id st := rfl
theorem exec_amocOldValueLands (id : Nat) (st : State) :
    exec (.amocOldValueLands id) st = execAmocOldValueLands id st := rfl
theorem exec_regionAlignment (core : Nat) (st : State) :
    exec (.regionAlignment core) st = execRegionAlignment core st := rfl
theorem exec_closingAlignment (core : Nat) (st : State) :
    exec (.closingAlignment core) st = execClosingAlignment core st := rfl
theorem exec_realignVisible (casement die : Nat) (st : State) :
    exec (.realignVisible casement die) st = execRealignVisible casement die st := rfl
theorem exec_budgetExceeded (core : Nat) (st : State) :
    exec (.budgetExceeded core) st = execBudgetExceeded core st := rfl
theorem exec_taskBudgetExpiry (task : Nat) (st : State) :
    exec (.taskBudgetExpiry task) st = execTaskBudgetExpiry task st := rfl
theorem exec_softErrorReexec (core : Nat) (site : SoftSite) (st : State) :
    exec (.softErrorReexec core site) st = execSoftErrorReexec core site st := rfl
theorem exec_dispatchDecision (st : State) :
    exec (.dispatchDecision) st = execDispatchDecision st := rfl
theorem exec_queueRecordRead (queue : Nat) (st : State) :
    exec (.queueRecordRead queue) st = execQueueRecordRead queue st := rfl
theorem exec_waitRecheck (queue : Nat) (st : State) :
    exec (.waitRecheck queue) st = execWaitRecheck queue st := rfl
theorem exec_markRecord (queue : Nat) (st : State) :
    exec (.markRecord queue) st = execMarkRecord queue st := rfl
theorem exec_waitFaultTimeout (queue : Nat) (st : State) :
    exec (.waitFaultTimeout queue) st = execWaitFaultTimeout queue st := rfl
theorem exec_preemptRequest (core : Nat) (st : State) :
    exec (.preemptRequest core) st = execPreemptRequest core st := rfl
theorem exec_saveComplete (core : Nat) (st : State) :
    exec (.saveComplete core) st = execSaveComplete core st := rfl
theorem exec_saveFault (core : Nat) (st : State) :
    exec (.saveFault core) st = execSaveFault core st := rfl
theorem exec_completionEntryWrite (cq : Nat) (st : State) :
    exec (.completionEntryWrite cq) st = execCompletionEntryWrite cq st := rfl
theorem exec_cqInterrupt (cq : Nat) (st : State) :
    exec (.cqInterrupt cq) st = execCqInterrupt cq st := rfl
theorem exec_trackerEntryFree (core task : Nat) (st : State) :
    exec (.trackerEntryFree core task) st = execTrackerEntryFree core task st := rfl
theorem exec_heldEffectDrain (core id : Nat) (st : State) :
    exec (.heldEffectDrain core id) st = execHeldEffectDrain core id st := rfl
theorem exec_copyBeat (core id : Nat) (st : State) :
    exec (.copyBeat core id) st = execCopyBeat core id st := rfl
theorem exec_portDrain (core port : Nat) (st : State) :
    exec (.portDrain core port) st = execPortDrain core port st := rfl
theorem exec_engineCommandStart (core : Nat) (unit : EngineUnit) (st : State) :
    exec (.engineCommandStart core unit) st = execEngineCommandStart core unit st := rfl
theorem exec_mmaStep (core : Nat) (st : State) :
    exec (.mmaStep core) st = execMmaStep core st := rfl
theorem exec_mmaComplete (core : Nat) (st : State) :
    exec (.mmaComplete core) st = execMmaComplete core st := rfl
theorem exec_lmmaLookup (core : Nat) (st : State) :
    exec (.lmmaLookup core) st = execLmmaLookup core st := rfl
theorem exec_lmmaComplete (core : Nat) (st : State) :
    exec (.lmmaComplete core) st = execLmmaComplete core st := rfl
theorem exec_tbuildComplete (core : Nat) (st : State) :
    exec (.tbuildComplete core) st = execTbuildComplete core st := rfl
theorem exec_epiComplete (core : Nat) (st : State) :
    exec (.epiComplete core) st = execEpiComplete core st := rfl
theorem exec_saccUpdate (core : Nat) (st : State) :
    exec (.saccUpdate core) st = execSaccUpdate core st := rfl
theorem exec_tinvComplete (core : Nat) (st : State) :
    exec (.tinvComplete core) st = execTinvComplete core st := rfl
theorem exec_tspillComplete (core : Nat) (st : State) :
    exec (.tspillComplete core) st = execTspillComplete core st := rfl
theorem exec_tfillComplete (core : Nat) (st : State) :
    exec (.tfillComplete core) st = execTfillComplete core st := rfl
theorem exec_grantArrival (id : Nat) (st : State) :
    exec (.grantArrival id) st = execGrantArrival id st := rfl
theorem exec_transomGroupLands (id : Nat) (st : State) :
    exec (.transomGroupLands id) st = execTransomGroupLands id st := rfl
theorem exec_mirrorAreaComplete (core area : Nat) (st : State) :
    exec (.mirrorAreaComplete core area) st = execMirrorAreaComplete core area st := rfl
theorem exec_chunkAtEndpoint (id : Nat) (st : State) :
    exec (.chunkAtEndpoint id) st = execChunkAtEndpoint id st := rfl
theorem exec_translationWalk (id : Nat) (st : State) :
    exec (.translationWalk id) st = execTranslationWalk id st := rfl
theorem exec_remoteStoreApply (die id : Nat) (st : State) :
    exec (.remoteStoreApply die id) st = execRemoteStoreApply die id st := rfl
theorem exec_migrationSwitch (st : State) :
    exec (.migrationSwitch) st = execMigrationSwitch st := rfl
theorem exec_fleetAnchorRewrite (casement : Nat) (st : State) :
    exec (.fleetAnchorRewrite casement) st = execFleetAnchorRewrite casement st := rfl
theorem exec_ptpSync (grandmaster : Nat) (st : State) :
    exec (.ptpSync grandmaster) st = execPtpSync grandmaster st := rfl
theorem exec_holdover (st : State) :
    exec (.holdover) st = execHoldover st := rfl
theorem exec_ptpPortRebind (st : State) :
    exec (.ptpPortRebind) st = execPtpPortRebind st := rfl
theorem exec_sessionIngress (session : Nat) (head : SesHead) (payload : List W8) (st : State) :
    exec (.sessionIngress session head payload) st = execSessionIngress session head payload st := rfl
theorem exec_dieHeartbeat (die : Nat) (st : State) :
    exec (.dieHeartbeat die) st = execDieHeartbeat die st := rfl
theorem exec_dieLossDeclared (die : Nat) (st : State) :
    exec (.dieLossDeclared die) st = execDieLossDeclared die st := rfl
theorem exec_clockLockLoss (die : Nat) (st : State) :
    exec (.clockLockLoss die) st = execClockLockLoss die st := rfl
theorem exec_hingeClockLoss (st : State) :
    exec (.hingeClockLoss) st = execHingeClockLoss st := rfl
theorem exec_powerOfferTick (st : State) :
    exec (.powerOfferTick) st = execPowerOfferTick st := rfl
theorem exec_powerRebalance (st : State) :
    exec (.powerRebalance) st = execPowerRebalance st := rfl
theorem exec_thermalHoldEnter (stack : Nat) (st : State) :
    exec (.thermalHoldEnter stack) st = execThermalHoldEnter stack st := rfl
theorem exec_thermalHoldExit (stack : Nat) (st : State) :
    exec (.thermalHoldExit stack) st = execThermalHoldExit stack st := rfl
theorem exec_hbmSlotService (channel : Nat) (link : LinkResult) (st : State) :
    exec (.hbmSlotService channel link) st = execHbmSlotService channel link st := rfl
theorem exec_usageWindowClose (casement : Nat) (st : State) :
    exec (.usageWindowClose casement) st = execUsageWindowClose casement st := rfl
theorem exec_usageRecordComplete (casement : Nat) (st : State) :
    exec (.usageRecordComplete casement) st = execUsageRecordComplete casement st := rfl
theorem exec_scrubUnitDone (casement : Nat) (st : State) :
    exec (.scrubUnitDone casement) st = execScrubUnitDone casement st := rfl
theorem exec_bootStage (st : State) :
    exec (.bootStage) st = execBootStage st := rfl
theorem exec_vfFlr (vf : Nat) (st : State) :
    exec (.vfFlr vf) st = execVfFlr vf st := rfl
theorem exec_faultEntryWrite (ring : Nat) (st : State) :
    exec (.faultEntryWrite ring) st = execFaultEntryWrite ring st := rfl
theorem exec_hostAccess (fn : HostFn) (secure : Bool) (pa : Nat) (access : HostOp) (st : State) :
    exec (.hostAccess fn secure pa access) st = execHostAccess fn secure pa access st := rfl
theorem exec_sublinkRetire (port lane : Nat) (st : State) :
    exec (.sublinkRetire port lane) st = execSublinkRetire port lane st := rfl
theorem exec_start (queue : Nat) (st : State) :
    exec (.start queue) st = execStart queue st := rfl
theorem exec_stop (queue : Nat) (st : State) :
    exec (.stop queue) st = execStop queue st := rfl
theorem exec_setrd (queue : Nat) (index : W32) (st : State) :
    exec (.setrd queue index) st = execSetrd queue index st := rfl
theorem exec_qwrWrite (fn : HostFn) (queue : Nat) (value : W32) (st : State) :
    exec (.qwrWrite fn queue value) st = execQwrWrite fn queue value st := rfl
theorem exec_create (casement : Nat) (st : State) :
    exec (.create casement) st = execCreate casement st := rfl
theorem exec_teardown (casement : Nat) (st : State) :
    exec (.teardown casement) st = execTeardown casement st := rfl
theorem exec_drain (casement : Nat) (st : State) :
    exec (.drain casement) st = execDrain casement st := rfl
theorem exec_resume (casement : Nat) (st : State) :
    exec (.resume casement) st = execResume casement st := rfl
theorem exec_clrsave (casement : Nat) (st : State) :
    exec (.clrsave casement) st = execClrsave casement st := rfl
theorem exec_quotaWrite (casement : Nat) (field : QuotaField) (value : Nat) (st : State) :
    exec (.quotaWrite casement field value) st = execQuotaWrite casement field value st := rfl
theorem exec_warmReset (st : State) :
    exec (.warmReset) st = execWarmReset st := rfl
theorem exec_coldReset (st : State) :
    exec (.coldReset) st = execColdReset st := rfl
theorem exec_retry (ring index : Nat) (st : State) :
    exec (.retry ring index) st = execRetry ring index st := rfl
theorem exec_abort (ring index : Nat) (st : State) :
    exec (.abort ring index) st = execAbort ring index st := rfl
theorem exec_htlbiCasement (casement : Nat) (st : State) :
    exec (.htlbiCasement casement) st = execHtlbiCasement casement st := rfl
theorem exec_htlbiPage (casement va : Nat) (st : State) :
    exec (.htlbiPage casement va) st = execHtlbiPage casement va st := rfl
theorem exec_s2invAll (casement : Nat) (st : State) :
    exec (.s2invAll casement) st = execS2invAll casement st := rfl
theorem exec_s2invIpa (casement ipa : Nat) (st : State) :
    exec (.s2invIpa casement ipa) st = execS2invIpa casement ipa st := rfl
theorem exec_sessionOpen (session : Nat) (st : State) :
    exec (.sessionOpen session) st = execSessionOpen session st := rfl
theorem exec_sessionClose (session : Nat) (st : State) :
    exec (.sessionClose session) st = execSessionClose session st := rfl
theorem exec_sublinkTableWrite (port : Nat) (value : W64) (st : State) :
    exec (.sublinkTableWrite port value) st = execSublinkTableWrite port value st := rfl
theorem exec_migrationStart (oldPa newPa size : Nat) (st : State) :
    exec (.migrationStart oldPa newPa size) st = execMigrationStart oldPa newPa size st := rfl
theorem exec_migrationRelease (st : State) :
    exec (.migrationRelease) st = execMigrationRelease st := rfl
theorem exec_fuseAdvance (svn : Nat) (st : State) :
    exec (.fuseAdvance svn) st = execFuseAdvance svn st := rfl
theorem exec_registerWrite (fn : HostFn) (secure : Bool) (offset : Nat) (value : W64) (st : State) :
    exec (.registerWrite fn secure offset value) st = execRegisterWrite fn secure offset value st := rfl
theorem exec_instructionFetchComplete (core : Nat) (seq : SeqId) (address : Nat) (st : State) :
    exec (.instructionFetchComplete core seq address) st = execInstructionFetchComplete core seq address st := rfl
theorem exec_ethernetPortStateChange (port : Nat) (up : Bool) (st : State) :
    exec (.ethernetPortStateChange port up) st = execEthernetPortStateChange port up st := rfl
theorem exec_firmwareRetirement (unit : RetireUnit) (st : State) :
    exec (.firmwareRetirement unit) st = execFirmwareRetirement unit st := rfl

end Sys2Proof.Machine
end

