-- ==== Sys2Proof/Laws/State.lean ====
section
/-! SUPPORT. What each update of the state, of a core and of a sequencer leaves: one lemma for each field, so that no proof unfolds a record update. -/

namespace Sys2Proof.Machine

/-! ### The part -/

@[simp] theorem State.setCore_now (s : State) (c : Nat) (k : Core) : (s.setCore c k).now = s.now := rfl
@[simp] theorem State.setCore_cur (s : State) (c : Nat) (k : Core) : (s.setCore c k).cur = s.cur := rfl
@[simp] theorem State.setCore_nextId (s : State) (c : Nat) (k : Core) : (s.setCore c k).nextId = s.nextId := rfl
@[simp] theorem State.setCore_fresh (s : State) (c : Nat) (k : Core) : (s.setCore c k).fresh = s.fresh := rfl
@[simp] theorem State.setCore_clusters (s : State) (c : Nat) (k : Core) : (s.setCore c k).clusters = s.clusters := rfl
@[simp] theorem State.setCore_dies (s : State) (c : Nat) (k : Core) : (s.setCore c k).dies = s.dies := rfl
@[simp] theorem State.setCore_hbm (s : State) (c : Nat) (k : Core) : (s.setCore c k).hbm = s.hbm := rfl
@[simp] theorem State.setCore_channels (s : State) (c : Nat) (k : Core) : (s.setCore c k).channels = s.channels := rfl
@[simp] theorem State.setCore_mem (s : State) (c : Nat) (k : Core) : (s.setCore c k).mem = s.mem := rfl
@[simp] theorem State.setCore_lineKeys (s : State) (c : Nat) (k : Core) : (s.setCore c k).lineKeys = s.lineKeys := rfl
@[simp] theorem State.setCore_stores (s : State) (c : Nat) (k : Core) : (s.setCore c k).stores = s.stores := rfl
@[simp] theorem State.setCore_reqs (s : State) (c : Nat) (k : Core) : (s.setCore c k).reqs = s.reqs := rfl
@[simp] theorem State.setCore_sent (s : State) (c : Nat) (k : Core) : (s.setCore c k).sent = s.sent := rfl
@[simp] theorem State.setCore_chanEnds (s : State) (c : Nat) (k : Core) : (s.setCore c k).chanEnds = s.chanEnds := rfl
@[simp] theorem State.setCore_grants (s : State) (c : Nat) (k : Core) : (s.setCore c k).grants = s.grants := rfl
@[simp] theorem State.setCore_groups (s : State) (c : Nat) (k : Core) : (s.setCore c k).groups = s.groups := rfl
@[simp] theorem State.setCore_chunks (s : State) (c : Nat) (k : Core) : (s.setCore c k).chunks = s.chunks := rfl
@[simp] theorem State.setCore_mirrors (s : State) (c : Nat) (k : Core) : (s.setCore c k).mirrors = s.mirrors := rfl
@[simp] theorem State.setCore_mirrorPool (s : State) (c : Nat) (k : Core) : (s.setCore c k).mirrorPool = s.mirrorPool := rfl
@[simp] theorem State.setCore_queues (s : State) (c : Nat) (k : Core) : (s.setCore c k).queues = s.queues := rfl
@[simp] theorem State.setCore_cqs (s : State) (c : Nat) (k : Core) : (s.setCore c k).cqs = s.cqs := rfl
@[simp] theorem State.setCore_rings (s : State) (c : Nat) (k : Core) : (s.setCore c k).rings = s.rings := rfl
@[simp] theorem State.setCore_casements (s : State) (c : Nat) (k : Core) : (s.setCore c k).casements = s.casements := rfl
@[simp] theorem State.setCore_sessions (s : State) (c : Nat) (k : Core) : (s.setCore c k).sessions = s.sessions := rfl
@[simp] theorem State.setCore_tasks (s : State) (c : Nat) (k : Core) : (s.setCore c k).tasks = s.tasks := rfl
@[simp] theorem State.setCore_streams (s : State) (c : Nat) (k : Core) : (s.setCore c k).streams = s.streams := rfl
@[simp] theorem State.setCore_squall (s : State) (c : Nat) (k : Core) : (s.setCore c k).squall = s.squall := rfl
@[simp] theorem State.setCore_refuseAction (s : State) (c : Nat) (k : Core) : (s.setCore c k).refuseAction = s.refuseAction := rfl
@[simp] theorem State.setCore_lastRestore (s : State) (c : Nat) (k : Core) : (s.setCore c k).lastRestore = s.lastRestore := rfl
@[simp] theorem State.setCore_taskNo (s : State) (c : Nat) (k : Core) : (s.setCore c k).taskNo = s.taskNo := rfl
@[simp] theorem State.setCore_lastServedQueue (s : State) (c : Nat) (k : Core) : (s.setCore c k).lastServedQueue = s.lastServedQueue := rfl
@[simp] theorem State.setCore_nextDecision (s : State) (c : Nat) (k : Core) : (s.setCore c k).nextDecision = s.nextDecision := rfl
@[simp] theorem State.setCore_nextRebalance (s : State) (c : Nat) (k : Core) : (s.setCore c k).nextRebalance = s.nextRebalance := rfl
@[simp] theorem State.setCore_pool (s : State) (c : Nat) (k : Core) : (s.setCore c k).pool = s.pool := rfl
@[simp] theorem State.setCore_migration (s : State) (c : Nat) (k : Core) : (s.setCore c k).migration = s.migration := rfl
@[simp] theorem State.setCore_sublinks (s : State) (c : Nat) (k : Core) : (s.setCore c k).sublinks = s.sublinks := rfl
@[simp] theorem State.setCore_retiredLanes (s : State) (c : Nat) (k : Core) : (s.setCore c k).retiredLanes = s.retiredLanes := rfl
@[simp] theorem State.setCore_boot (s : State) (c : Nat) (k : Core) : (s.setCore c k).boot = s.boot := rfl
@[simp] theorem State.setCore_fleet (s : State) (c : Nat) (k : Core) : (s.setCore c k).fleet = s.fleet := rfl
@[simp] theorem State.setCore_wayTaint (s : State) (c : Nat) (k : Core) : (s.setCore c k).wayTaint = s.wayTaint := rfl
@[simp] theorem State.setCore_buffer (s : State) (c : Nat) (k : Core) : (s.setCore c k).buffer = s.buffer := rfl
@[simp] theorem State.setCore_rescaleDue (s : State) (c : Nat) (k : Core) : (s.setCore c k).rescaleDue = s.rescaleDue := rfl
@[simp] theorem State.setCore_scrubbed (s : State) (c : Nat) (k : Core) : (s.setCore c k).scrubbed = s.scrubbed := rfl
@[simp] theorem State.setCore_inputs (s : State) (c : Nat) (k : Core) : (s.setCore c k).inputs = s.inputs := rfl
@[simp] theorem State.setCore_out (s : State) (c : Nat) (k : Core) : (s.setCore c k).out = s.out := rfl
@[simp] theorem State.setCore_opening (s : State) (c : Nat) (k : Core) : (s.setCore c k).opening = s.opening := rfl
@[simp] theorem State.setCore_arriving (s : State) (c : Nat) (k : Core) : (s.setCore c k).arriving = s.arriving := rfl

@[simp] theorem State.modCore_now (s : State) (c : Nat) (f : Core → Core) : (s.modCore c f).now = s.now := rfl
@[simp] theorem State.modCore_cur (s : State) (c : Nat) (f : Core → Core) : (s.modCore c f).cur = s.cur := rfl
@[simp] theorem State.modCore_nextId (s : State) (c : Nat) (f : Core → Core) : (s.modCore c f).nextId = s.nextId := rfl
@[simp] theorem State.modCore_fresh (s : State) (c : Nat) (f : Core → Core) : (s.modCore c f).fresh = s.fresh := rfl
@[simp] theorem State.modCore_clusters (s : State) (c : Nat) (f : Core → Core) : (s.modCore c f).clusters = s.clusters := rfl
@[simp] theorem State.modCore_dies (s : State) (c : Nat) (f : Core → Core) : (s.modCore c f).dies = s.dies := rfl
@[simp] theorem State.modCore_hbm (s : State) (c : Nat) (f : Core → Core) : (s.modCore c f).hbm = s.hbm := rfl
@[simp] theorem State.modCore_channels (s : State) (c : Nat) (f : Core → Core) : (s.modCore c f).channels = s.channels := rfl
@[simp] theorem State.modCore_mem (s : State) (c : Nat) (f : Core → Core) : (s.modCore c f).mem = s.mem := rfl
@[simp] theorem State.modCore_lineKeys (s : State) (c : Nat) (f : Core → Core) : (s.modCore c f).lineKeys = s.lineKeys := rfl
@[simp] theorem State.modCore_stores (s : State) (c : Nat) (f : Core → Core) : (s.modCore c f).stores = s.stores := rfl
@[simp] theorem State.modCore_reqs (s : State) (c : Nat) (f : Core → Core) : (s.modCore c f).reqs = s.reqs := rfl
@[simp] theorem State.modCore_sent (s : State) (c : Nat) (f : Core → Core) : (s.modCore c f).sent = s.sent := rfl
@[simp] theorem State.modCore_chanEnds (s : State) (c : Nat) (f : Core → Core) : (s.modCore c f).chanEnds = s.chanEnds := rfl
@[simp] theorem State.modCore_grants (s : State) (c : Nat) (f : Core → Core) : (s.modCore c f).grants = s.grants := rfl
@[simp] theorem State.modCore_groups (s : State) (c : Nat) (f : Core → Core) : (s.modCore c f).groups = s.groups := rfl
@[simp] theorem State.modCore_chunks (s : State) (c : Nat) (f : Core → Core) : (s.modCore c f).chunks = s.chunks := rfl
@[simp] theorem State.modCore_mirrors (s : State) (c : Nat) (f : Core → Core) : (s.modCore c f).mirrors = s.mirrors := rfl
@[simp] theorem State.modCore_mirrorPool (s : State) (c : Nat) (f : Core → Core) : (s.modCore c f).mirrorPool = s.mirrorPool := rfl
@[simp] theorem State.modCore_queues (s : State) (c : Nat) (f : Core → Core) : (s.modCore c f).queues = s.queues := rfl
@[simp] theorem State.modCore_cqs (s : State) (c : Nat) (f : Core → Core) : (s.modCore c f).cqs = s.cqs := rfl
@[simp] theorem State.modCore_rings (s : State) (c : Nat) (f : Core → Core) : (s.modCore c f).rings = s.rings := rfl
@[simp] theorem State.modCore_casements (s : State) (c : Nat) (f : Core → Core) : (s.modCore c f).casements = s.casements := rfl
@[simp] theorem State.modCore_sessions (s : State) (c : Nat) (f : Core → Core) : (s.modCore c f).sessions = s.sessions := rfl
@[simp] theorem State.modCore_tasks (s : State) (c : Nat) (f : Core → Core) : (s.modCore c f).tasks = s.tasks := rfl
@[simp] theorem State.modCore_streams (s : State) (c : Nat) (f : Core → Core) : (s.modCore c f).streams = s.streams := rfl
@[simp] theorem State.modCore_squall (s : State) (c : Nat) (f : Core → Core) : (s.modCore c f).squall = s.squall := rfl
@[simp] theorem State.modCore_refuseAction (s : State) (c : Nat) (f : Core → Core) : (s.modCore c f).refuseAction = s.refuseAction := rfl
@[simp] theorem State.modCore_lastRestore (s : State) (c : Nat) (f : Core → Core) : (s.modCore c f).lastRestore = s.lastRestore := rfl
@[simp] theorem State.modCore_taskNo (s : State) (c : Nat) (f : Core → Core) : (s.modCore c f).taskNo = s.taskNo := rfl
@[simp] theorem State.modCore_lastServedQueue (s : State) (c : Nat) (f : Core → Core) : (s.modCore c f).lastServedQueue = s.lastServedQueue := rfl
@[simp] theorem State.modCore_nextDecision (s : State) (c : Nat) (f : Core → Core) : (s.modCore c f).nextDecision = s.nextDecision := rfl
@[simp] theorem State.modCore_nextRebalance (s : State) (c : Nat) (f : Core → Core) : (s.modCore c f).nextRebalance = s.nextRebalance := rfl
@[simp] theorem State.modCore_pool (s : State) (c : Nat) (f : Core → Core) : (s.modCore c f).pool = s.pool := rfl
@[simp] theorem State.modCore_migration (s : State) (c : Nat) (f : Core → Core) : (s.modCore c f).migration = s.migration := rfl
@[simp] theorem State.modCore_sublinks (s : State) (c : Nat) (f : Core → Core) : (s.modCore c f).sublinks = s.sublinks := rfl
@[simp] theorem State.modCore_retiredLanes (s : State) (c : Nat) (f : Core → Core) : (s.modCore c f).retiredLanes = s.retiredLanes := rfl
@[simp] theorem State.modCore_boot (s : State) (c : Nat) (f : Core → Core) : (s.modCore c f).boot = s.boot := rfl
@[simp] theorem State.modCore_fleet (s : State) (c : Nat) (f : Core → Core) : (s.modCore c f).fleet = s.fleet := rfl
@[simp] theorem State.modCore_wayTaint (s : State) (c : Nat) (f : Core → Core) : (s.modCore c f).wayTaint = s.wayTaint := rfl
@[simp] theorem State.modCore_buffer (s : State) (c : Nat) (f : Core → Core) : (s.modCore c f).buffer = s.buffer := rfl
@[simp] theorem State.modCore_rescaleDue (s : State) (c : Nat) (f : Core → Core) : (s.modCore c f).rescaleDue = s.rescaleDue := rfl
@[simp] theorem State.modCore_scrubbed (s : State) (c : Nat) (f : Core → Core) : (s.modCore c f).scrubbed = s.scrubbed := rfl
@[simp] theorem State.modCore_inputs (s : State) (c : Nat) (f : Core → Core) : (s.modCore c f).inputs = s.inputs := rfl
@[simp] theorem State.modCore_out (s : State) (c : Nat) (f : Core → Core) : (s.modCore c f).out = s.out := rfl
@[simp] theorem State.modCore_opening (s : State) (c : Nat) (f : Core → Core) : (s.modCore c f).opening = s.opening := rfl
@[simp] theorem State.modCore_arriving (s : State) (c : Nat) (f : Core → Core) : (s.modCore c f).arriving = s.arriving := rfl

@[simp] theorem State.addAct_now (s : State) (c due issued : Nat) (q : SeqId) (pc : Nat) (p : Pay) : (s.addAct c due issued q pc p).now = s.now := rfl
@[simp] theorem State.addAct_cur (s : State) (c due issued : Nat) (q : SeqId) (pc : Nat) (p : Pay) : (s.addAct c due issued q pc p).cur = s.cur := rfl
@[simp] theorem State.addAct_fresh (s : State) (c due issued : Nat) (q : SeqId) (pc : Nat) (p : Pay) : (s.addAct c due issued q pc p).fresh = s.fresh := rfl
@[simp] theorem State.addAct_clusters (s : State) (c due issued : Nat) (q : SeqId) (pc : Nat) (p : Pay) : (s.addAct c due issued q pc p).clusters = s.clusters := rfl
@[simp] theorem State.addAct_dies (s : State) (c due issued : Nat) (q : SeqId) (pc : Nat) (p : Pay) : (s.addAct c due issued q pc p).dies = s.dies := rfl
@[simp] theorem State.addAct_hbm (s : State) (c due issued : Nat) (q : SeqId) (pc : Nat) (p : Pay) : (s.addAct c due issued q pc p).hbm = s.hbm := rfl
@[simp] theorem State.addAct_channels (s : State) (c due issued : Nat) (q : SeqId) (pc : Nat) (p : Pay) : (s.addAct c due issued q pc p).channels = s.channels := rfl
@[simp] theorem State.addAct_mem (s : State) (c due issued : Nat) (q : SeqId) (pc : Nat) (p : Pay) : (s.addAct c due issued q pc p).mem = s.mem := rfl
@[simp] theorem State.addAct_lineKeys (s : State) (c due issued : Nat) (q : SeqId) (pc : Nat) (p : Pay) : (s.addAct c due issued q pc p).lineKeys = s.lineKeys := rfl
@[simp] theorem State.addAct_stores (s : State) (c due issued : Nat) (q : SeqId) (pc : Nat) (p : Pay) : (s.addAct c due issued q pc p).stores = s.stores := rfl
@[simp] theorem State.addAct_reqs (s : State) (c due issued : Nat) (q : SeqId) (pc : Nat) (p : Pay) : (s.addAct c due issued q pc p).reqs = s.reqs := rfl
@[simp] theorem State.addAct_sent (s : State) (c due issued : Nat) (q : SeqId) (pc : Nat) (p : Pay) : (s.addAct c due issued q pc p).sent = s.sent := rfl
@[simp] theorem State.addAct_chanEnds (s : State) (c due issued : Nat) (q : SeqId) (pc : Nat) (p : Pay) : (s.addAct c due issued q pc p).chanEnds = s.chanEnds := rfl
@[simp] theorem State.addAct_grants (s : State) (c due issued : Nat) (q : SeqId) (pc : Nat) (p : Pay) : (s.addAct c due issued q pc p).grants = s.grants := rfl
@[simp] theorem State.addAct_groups (s : State) (c due issued : Nat) (q : SeqId) (pc : Nat) (p : Pay) : (s.addAct c due issued q pc p).groups = s.groups := rfl
@[simp] theorem State.addAct_chunks (s : State) (c due issued : Nat) (q : SeqId) (pc : Nat) (p : Pay) : (s.addAct c due issued q pc p).chunks = s.chunks := rfl
@[simp] theorem State.addAct_mirrors (s : State) (c due issued : Nat) (q : SeqId) (pc : Nat) (p : Pay) : (s.addAct c due issued q pc p).mirrors = s.mirrors := rfl
@[simp] theorem State.addAct_mirrorPool (s : State) (c due issued : Nat) (q : SeqId) (pc : Nat) (p : Pay) : (s.addAct c due issued q pc p).mirrorPool = s.mirrorPool := rfl
@[simp] theorem State.addAct_queues (s : State) (c due issued : Nat) (q : SeqId) (pc : Nat) (p : Pay) : (s.addAct c due issued q pc p).queues = s.queues := rfl
@[simp] theorem State.addAct_cqs (s : State) (c due issued : Nat) (q : SeqId) (pc : Nat) (p : Pay) : (s.addAct c due issued q pc p).cqs = s.cqs := rfl
@[simp] theorem State.addAct_rings (s : State) (c due issued : Nat) (q : SeqId) (pc : Nat) (p : Pay) : (s.addAct c due issued q pc p).rings = s.rings := rfl
@[simp] theorem State.addAct_casements (s : State) (c due issued : Nat) (q : SeqId) (pc : Nat) (p : Pay) : (s.addAct c due issued q pc p).casements = s.casements := rfl
@[simp] theorem State.addAct_sessions (s : State) (c due issued : Nat) (q : SeqId) (pc : Nat) (p : Pay) : (s.addAct c due issued q pc p).sessions = s.sessions := rfl
@[simp] theorem State.addAct_tasks (s : State) (c due issued : Nat) (q : SeqId) (pc : Nat) (p : Pay) : (s.addAct c due issued q pc p).tasks = s.tasks := rfl
@[simp] theorem State.addAct_streams (s : State) (c due issued : Nat) (q : SeqId) (pc : Nat) (p : Pay) : (s.addAct c due issued q pc p).streams = s.streams := rfl
@[simp] theorem State.addAct_squall (s : State) (c due issued : Nat) (q : SeqId) (pc : Nat) (p : Pay) : (s.addAct c due issued q pc p).squall = s.squall := rfl
@[simp] theorem State.addAct_refuseAction (s : State) (c due issued : Nat) (q : SeqId) (pc : Nat) (p : Pay) : (s.addAct c due issued q pc p).refuseAction = s.refuseAction := rfl
@[simp] theorem State.addAct_lastRestore (s : State) (c due issued : Nat) (q : SeqId) (pc : Nat) (p : Pay) : (s.addAct c due issued q pc p).lastRestore = s.lastRestore := rfl
@[simp] theorem State.addAct_taskNo (s : State) (c due issued : Nat) (q : SeqId) (pc : Nat) (p : Pay) : (s.addAct c due issued q pc p).taskNo = s.taskNo := rfl
@[simp] theorem State.addAct_lastServedQueue (s : State) (c due issued : Nat) (q : SeqId) (pc : Nat) (p : Pay) : (s.addAct c due issued q pc p).lastServedQueue = s.lastServedQueue := rfl
@[simp] theorem State.addAct_nextDecision (s : State) (c due issued : Nat) (q : SeqId) (pc : Nat) (p : Pay) : (s.addAct c due issued q pc p).nextDecision = s.nextDecision := rfl
@[simp] theorem State.addAct_nextRebalance (s : State) (c due issued : Nat) (q : SeqId) (pc : Nat) (p : Pay) : (s.addAct c due issued q pc p).nextRebalance = s.nextRebalance := rfl
@[simp] theorem State.addAct_pool (s : State) (c due issued : Nat) (q : SeqId) (pc : Nat) (p : Pay) : (s.addAct c due issued q pc p).pool = s.pool := rfl
@[simp] theorem State.addAct_migration (s : State) (c due issued : Nat) (q : SeqId) (pc : Nat) (p : Pay) : (s.addAct c due issued q pc p).migration = s.migration := rfl
@[simp] theorem State.addAct_sublinks (s : State) (c due issued : Nat) (q : SeqId) (pc : Nat) (p : Pay) : (s.addAct c due issued q pc p).sublinks = s.sublinks := rfl
@[simp] theorem State.addAct_retiredLanes (s : State) (c due issued : Nat) (q : SeqId) (pc : Nat) (p : Pay) : (s.addAct c due issued q pc p).retiredLanes = s.retiredLanes := rfl
@[simp] theorem State.addAct_boot (s : State) (c due issued : Nat) (q : SeqId) (pc : Nat) (p : Pay) : (s.addAct c due issued q pc p).boot = s.boot := rfl
@[simp] theorem State.addAct_fleet (s : State) (c due issued : Nat) (q : SeqId) (pc : Nat) (p : Pay) : (s.addAct c due issued q pc p).fleet = s.fleet := rfl
@[simp] theorem State.addAct_wayTaint (s : State) (c due issued : Nat) (q : SeqId) (pc : Nat) (p : Pay) : (s.addAct c due issued q pc p).wayTaint = s.wayTaint := rfl
@[simp] theorem State.addAct_buffer (s : State) (c due issued : Nat) (q : SeqId) (pc : Nat) (p : Pay) : (s.addAct c due issued q pc p).buffer = s.buffer := rfl
@[simp] theorem State.addAct_rescaleDue (s : State) (c due issued : Nat) (q : SeqId) (pc : Nat) (p : Pay) : (s.addAct c due issued q pc p).rescaleDue = s.rescaleDue := rfl
@[simp] theorem State.addAct_scrubbed (s : State) (c due issued : Nat) (q : SeqId) (pc : Nat) (p : Pay) : (s.addAct c due issued q pc p).scrubbed = s.scrubbed := rfl
@[simp] theorem State.addAct_inputs (s : State) (c due issued : Nat) (q : SeqId) (pc : Nat) (p : Pay) : (s.addAct c due issued q pc p).inputs = s.inputs := rfl
@[simp] theorem State.addAct_out (s : State) (c due issued : Nat) (q : SeqId) (pc : Nat) (p : Pay) : (s.addAct c due issued q pc p).out = s.out := rfl
@[simp] theorem State.addAct_opening (s : State) (c due issued : Nat) (q : SeqId) (pc : Nat) (p : Pay) : (s.addAct c due issued q pc p).opening = s.opening := rfl
@[simp] theorem State.addAct_arriving (s : State) (c due issued : Nat) (q : SeqId) (pc : Nat) (p : Pay) : (s.addAct c due issued q pc p).arriving = s.arriving := rfl

@[simp] theorem State.modTask_now (s : State) (t : Nat) (f : Task → Task) : (s.modTask t f).now = s.now := rfl
@[simp] theorem State.modTask_cur (s : State) (t : Nat) (f : Task → Task) : (s.modTask t f).cur = s.cur := rfl
@[simp] theorem State.modTask_nextId (s : State) (t : Nat) (f : Task → Task) : (s.modTask t f).nextId = s.nextId := rfl
@[simp] theorem State.modTask_fresh (s : State) (t : Nat) (f : Task → Task) : (s.modTask t f).fresh = s.fresh := rfl
@[simp] theorem State.modTask_cores (s : State) (t : Nat) (f : Task → Task) : (s.modTask t f).cores = s.cores := rfl
@[simp] theorem State.modTask_clusters (s : State) (t : Nat) (f : Task → Task) : (s.modTask t f).clusters = s.clusters := rfl
@[simp] theorem State.modTask_dies (s : State) (t : Nat) (f : Task → Task) : (s.modTask t f).dies = s.dies := rfl
@[simp] theorem State.modTask_hbm (s : State) (t : Nat) (f : Task → Task) : (s.modTask t f).hbm = s.hbm := rfl
@[simp] theorem State.modTask_channels (s : State) (t : Nat) (f : Task → Task) : (s.modTask t f).channels = s.channels := rfl
@[simp] theorem State.modTask_mem (s : State) (t : Nat) (f : Task → Task) : (s.modTask t f).mem = s.mem := rfl
@[simp] theorem State.modTask_lineKeys (s : State) (t : Nat) (f : Task → Task) : (s.modTask t f).lineKeys = s.lineKeys := rfl
@[simp] theorem State.modTask_stores (s : State) (t : Nat) (f : Task → Task) : (s.modTask t f).stores = s.stores := rfl
@[simp] theorem State.modTask_reqs (s : State) (t : Nat) (f : Task → Task) : (s.modTask t f).reqs = s.reqs := rfl
@[simp] theorem State.modTask_sent (s : State) (t : Nat) (f : Task → Task) : (s.modTask t f).sent = s.sent := rfl
@[simp] theorem State.modTask_chanEnds (s : State) (t : Nat) (f : Task → Task) : (s.modTask t f).chanEnds = s.chanEnds := rfl
@[simp] theorem State.modTask_grants (s : State) (t : Nat) (f : Task → Task) : (s.modTask t f).grants = s.grants := rfl
@[simp] theorem State.modTask_groups (s : State) (t : Nat) (f : Task → Task) : (s.modTask t f).groups = s.groups := rfl
@[simp] theorem State.modTask_chunks (s : State) (t : Nat) (f : Task → Task) : (s.modTask t f).chunks = s.chunks := rfl
@[simp] theorem State.modTask_mirrors (s : State) (t : Nat) (f : Task → Task) : (s.modTask t f).mirrors = s.mirrors := rfl
@[simp] theorem State.modTask_mirrorPool (s : State) (t : Nat) (f : Task → Task) : (s.modTask t f).mirrorPool = s.mirrorPool := rfl
@[simp] theorem State.modTask_queues (s : State) (t : Nat) (f : Task → Task) : (s.modTask t f).queues = s.queues := rfl
@[simp] theorem State.modTask_cqs (s : State) (t : Nat) (f : Task → Task) : (s.modTask t f).cqs = s.cqs := rfl
@[simp] theorem State.modTask_rings (s : State) (t : Nat) (f : Task → Task) : (s.modTask t f).rings = s.rings := rfl
@[simp] theorem State.modTask_casements (s : State) (t : Nat) (f : Task → Task) : (s.modTask t f).casements = s.casements := rfl
@[simp] theorem State.modTask_sessions (s : State) (t : Nat) (f : Task → Task) : (s.modTask t f).sessions = s.sessions := rfl
@[simp] theorem State.modTask_streams (s : State) (t : Nat) (f : Task → Task) : (s.modTask t f).streams = s.streams := rfl
@[simp] theorem State.modTask_squall (s : State) (t : Nat) (f : Task → Task) : (s.modTask t f).squall = s.squall := rfl
@[simp] theorem State.modTask_refuseAction (s : State) (t : Nat) (f : Task → Task) : (s.modTask t f).refuseAction = s.refuseAction := rfl
@[simp] theorem State.modTask_lastRestore (s : State) (t : Nat) (f : Task → Task) : (s.modTask t f).lastRestore = s.lastRestore := rfl
@[simp] theorem State.modTask_taskNo (s : State) (t : Nat) (f : Task → Task) : (s.modTask t f).taskNo = s.taskNo := rfl
@[simp] theorem State.modTask_lastServedQueue (s : State) (t : Nat) (f : Task → Task) : (s.modTask t f).lastServedQueue = s.lastServedQueue := rfl
@[simp] theorem State.modTask_nextDecision (s : State) (t : Nat) (f : Task → Task) : (s.modTask t f).nextDecision = s.nextDecision := rfl
@[simp] theorem State.modTask_nextRebalance (s : State) (t : Nat) (f : Task → Task) : (s.modTask t f).nextRebalance = s.nextRebalance := rfl
@[simp] theorem State.modTask_pool (s : State) (t : Nat) (f : Task → Task) : (s.modTask t f).pool = s.pool := rfl
@[simp] theorem State.modTask_migration (s : State) (t : Nat) (f : Task → Task) : (s.modTask t f).migration = s.migration := rfl
@[simp] theorem State.modTask_sublinks (s : State) (t : Nat) (f : Task → Task) : (s.modTask t f).sublinks = s.sublinks := rfl
@[simp] theorem State.modTask_retiredLanes (s : State) (t : Nat) (f : Task → Task) : (s.modTask t f).retiredLanes = s.retiredLanes := rfl
@[simp] theorem State.modTask_boot (s : State) (t : Nat) (f : Task → Task) : (s.modTask t f).boot = s.boot := rfl
@[simp] theorem State.modTask_fleet (s : State) (t : Nat) (f : Task → Task) : (s.modTask t f).fleet = s.fleet := rfl
@[simp] theorem State.modTask_wayTaint (s : State) (t : Nat) (f : Task → Task) : (s.modTask t f).wayTaint = s.wayTaint := rfl
@[simp] theorem State.modTask_buffer (s : State) (t : Nat) (f : Task → Task) : (s.modTask t f).buffer = s.buffer := rfl
@[simp] theorem State.modTask_rescaleDue (s : State) (t : Nat) (f : Task → Task) : (s.modTask t f).rescaleDue = s.rescaleDue := rfl
@[simp] theorem State.modTask_scrubbed (s : State) (t : Nat) (f : Task → Task) : (s.modTask t f).scrubbed = s.scrubbed := rfl
@[simp] theorem State.modTask_inputs (s : State) (t : Nat) (f : Task → Task) : (s.modTask t f).inputs = s.inputs := rfl
@[simp] theorem State.modTask_out (s : State) (t : Nat) (f : Task → Task) : (s.modTask t f).out = s.out := rfl
@[simp] theorem State.modTask_opening (s : State) (t : Nat) (f : Task → Task) : (s.modTask t f).opening = s.opening := rfl
@[simp] theorem State.modTask_arriving (s : State) (t : Nat) (f : Task → Task) : (s.modTask t f).arriving = s.arriving := rfl

@[simp] theorem State.modCasement_now (s : State) (k : Nat) (f : Casement → Casement) : (s.modCasement k f).now = s.now := rfl
@[simp] theorem State.modCasement_cur (s : State) (k : Nat) (f : Casement → Casement) : (s.modCasement k f).cur = s.cur := rfl
@[simp] theorem State.modCasement_nextId (s : State) (k : Nat) (f : Casement → Casement) : (s.modCasement k f).nextId = s.nextId := rfl
@[simp] theorem State.modCasement_fresh (s : State) (k : Nat) (f : Casement → Casement) : (s.modCasement k f).fresh = s.fresh := rfl
@[simp] theorem State.modCasement_cores (s : State) (k : Nat) (f : Casement → Casement) : (s.modCasement k f).cores = s.cores := rfl
@[simp] theorem State.modCasement_clusters (s : State) (k : Nat) (f : Casement → Casement) : (s.modCasement k f).clusters = s.clusters := rfl
@[simp] theorem State.modCasement_dies (s : State) (k : Nat) (f : Casement → Casement) : (s.modCasement k f).dies = s.dies := rfl
@[simp] theorem State.modCasement_hbm (s : State) (k : Nat) (f : Casement → Casement) : (s.modCasement k f).hbm = s.hbm := rfl
@[simp] theorem State.modCasement_channels (s : State) (k : Nat) (f : Casement → Casement) : (s.modCasement k f).channels = s.channels := rfl
@[simp] theorem State.modCasement_mem (s : State) (k : Nat) (f : Casement → Casement) : (s.modCasement k f).mem = s.mem := rfl
@[simp] theorem State.modCasement_lineKeys (s : State) (k : Nat) (f : Casement → Casement) : (s.modCasement k f).lineKeys = s.lineKeys := rfl
@[simp] theorem State.modCasement_stores (s : State) (k : Nat) (f : Casement → Casement) : (s.modCasement k f).stores = s.stores := rfl
@[simp] theorem State.modCasement_reqs (s : State) (k : Nat) (f : Casement → Casement) : (s.modCasement k f).reqs = s.reqs := rfl
@[simp] theorem State.modCasement_sent (s : State) (k : Nat) (f : Casement → Casement) : (s.modCasement k f).sent = s.sent := rfl
@[simp] theorem State.modCasement_chanEnds (s : State) (k : Nat) (f : Casement → Casement) : (s.modCasement k f).chanEnds = s.chanEnds := rfl
@[simp] theorem State.modCasement_grants (s : State) (k : Nat) (f : Casement → Casement) : (s.modCasement k f).grants = s.grants := rfl
@[simp] theorem State.modCasement_groups (s : State) (k : Nat) (f : Casement → Casement) : (s.modCasement k f).groups = s.groups := rfl
@[simp] theorem State.modCasement_chunks (s : State) (k : Nat) (f : Casement → Casement) : (s.modCasement k f).chunks = s.chunks := rfl
@[simp] theorem State.modCasement_mirrors (s : State) (k : Nat) (f : Casement → Casement) : (s.modCasement k f).mirrors = s.mirrors := rfl
@[simp] theorem State.modCasement_mirrorPool (s : State) (k : Nat) (f : Casement → Casement) : (s.modCasement k f).mirrorPool = s.mirrorPool := rfl
@[simp] theorem State.modCasement_queues (s : State) (k : Nat) (f : Casement → Casement) : (s.modCasement k f).queues = s.queues := rfl
@[simp] theorem State.modCasement_cqs (s : State) (k : Nat) (f : Casement → Casement) : (s.modCasement k f).cqs = s.cqs := rfl
@[simp] theorem State.modCasement_rings (s : State) (k : Nat) (f : Casement → Casement) : (s.modCasement k f).rings = s.rings := rfl
@[simp] theorem State.modCasement_sessions (s : State) (k : Nat) (f : Casement → Casement) : (s.modCasement k f).sessions = s.sessions := rfl
@[simp] theorem State.modCasement_tasks (s : State) (k : Nat) (f : Casement → Casement) : (s.modCasement k f).tasks = s.tasks := rfl
@[simp] theorem State.modCasement_streams (s : State) (k : Nat) (f : Casement → Casement) : (s.modCasement k f).streams = s.streams := rfl
@[simp] theorem State.modCasement_squall (s : State) (k : Nat) (f : Casement → Casement) : (s.modCasement k f).squall = s.squall := rfl
@[simp] theorem State.modCasement_refuseAction (s : State) (k : Nat) (f : Casement → Casement) : (s.modCasement k f).refuseAction = s.refuseAction := rfl
@[simp] theorem State.modCasement_lastRestore (s : State) (k : Nat) (f : Casement → Casement) : (s.modCasement k f).lastRestore = s.lastRestore := rfl
@[simp] theorem State.modCasement_taskNo (s : State) (k : Nat) (f : Casement → Casement) : (s.modCasement k f).taskNo = s.taskNo := rfl
@[simp] theorem State.modCasement_lastServedQueue (s : State) (k : Nat) (f : Casement → Casement) : (s.modCasement k f).lastServedQueue = s.lastServedQueue := rfl
@[simp] theorem State.modCasement_nextDecision (s : State) (k : Nat) (f : Casement → Casement) : (s.modCasement k f).nextDecision = s.nextDecision := rfl
@[simp] theorem State.modCasement_nextRebalance (s : State) (k : Nat) (f : Casement → Casement) : (s.modCasement k f).nextRebalance = s.nextRebalance := rfl
@[simp] theorem State.modCasement_pool (s : State) (k : Nat) (f : Casement → Casement) : (s.modCasement k f).pool = s.pool := rfl
@[simp] theorem State.modCasement_migration (s : State) (k : Nat) (f : Casement → Casement) : (s.modCasement k f).migration = s.migration := rfl
@[simp] theorem State.modCasement_sublinks (s : State) (k : Nat) (f : Casement → Casement) : (s.modCasement k f).sublinks = s.sublinks := rfl
@[simp] theorem State.modCasement_retiredLanes (s : State) (k : Nat) (f : Casement → Casement) : (s.modCasement k f).retiredLanes = s.retiredLanes := rfl
@[simp] theorem State.modCasement_boot (s : State) (k : Nat) (f : Casement → Casement) : (s.modCasement k f).boot = s.boot := rfl
@[simp] theorem State.modCasement_fleet (s : State) (k : Nat) (f : Casement → Casement) : (s.modCasement k f).fleet = s.fleet := rfl
@[simp] theorem State.modCasement_wayTaint (s : State) (k : Nat) (f : Casement → Casement) : (s.modCasement k f).wayTaint = s.wayTaint := rfl
@[simp] theorem State.modCasement_buffer (s : State) (k : Nat) (f : Casement → Casement) : (s.modCasement k f).buffer = s.buffer := rfl
@[simp] theorem State.modCasement_rescaleDue (s : State) (k : Nat) (f : Casement → Casement) : (s.modCasement k f).rescaleDue = s.rescaleDue := rfl
@[simp] theorem State.modCasement_scrubbed (s : State) (k : Nat) (f : Casement → Casement) : (s.modCasement k f).scrubbed = s.scrubbed := rfl
@[simp] theorem State.modCasement_inputs (s : State) (k : Nat) (f : Casement → Casement) : (s.modCasement k f).inputs = s.inputs := rfl
@[simp] theorem State.modCasement_out (s : State) (k : Nat) (f : Casement → Casement) : (s.modCasement k f).out = s.out := rfl
@[simp] theorem State.modCasement_opening (s : State) (k : Nat) (f : Casement → Casement) : (s.modCasement k f).opening = s.opening := rfl
@[simp] theorem State.modCasement_arriving (s : State) (k : Nat) (f : Casement → Casement) : (s.modCasement k f).arriving = s.arriving := rfl

@[simp] theorem State.modDie_now (s : State) (d : Nat) (f : Die → Die) : (s.modDie d f).now = s.now := rfl
@[simp] theorem State.modDie_cur (s : State) (d : Nat) (f : Die → Die) : (s.modDie d f).cur = s.cur := rfl
@[simp] theorem State.modDie_nextId (s : State) (d : Nat) (f : Die → Die) : (s.modDie d f).nextId = s.nextId := rfl
@[simp] theorem State.modDie_fresh (s : State) (d : Nat) (f : Die → Die) : (s.modDie d f).fresh = s.fresh := rfl
@[simp] theorem State.modDie_cores (s : State) (d : Nat) (f : Die → Die) : (s.modDie d f).cores = s.cores := rfl
@[simp] theorem State.modDie_clusters (s : State) (d : Nat) (f : Die → Die) : (s.modDie d f).clusters = s.clusters := rfl
@[simp] theorem State.modDie_hbm (s : State) (d : Nat) (f : Die → Die) : (s.modDie d f).hbm = s.hbm := rfl
@[simp] theorem State.modDie_channels (s : State) (d : Nat) (f : Die → Die) : (s.modDie d f).channels = s.channels := rfl
@[simp] theorem State.modDie_mem (s : State) (d : Nat) (f : Die → Die) : (s.modDie d f).mem = s.mem := rfl
@[simp] theorem State.modDie_lineKeys (s : State) (d : Nat) (f : Die → Die) : (s.modDie d f).lineKeys = s.lineKeys := rfl
@[simp] theorem State.modDie_stores (s : State) (d : Nat) (f : Die → Die) : (s.modDie d f).stores = s.stores := rfl
@[simp] theorem State.modDie_reqs (s : State) (d : Nat) (f : Die → Die) : (s.modDie d f).reqs = s.reqs := rfl
@[simp] theorem State.modDie_sent (s : State) (d : Nat) (f : Die → Die) : (s.modDie d f).sent = s.sent := rfl
@[simp] theorem State.modDie_chanEnds (s : State) (d : Nat) (f : Die → Die) : (s.modDie d f).chanEnds = s.chanEnds := rfl
@[simp] theorem State.modDie_grants (s : State) (d : Nat) (f : Die → Die) : (s.modDie d f).grants = s.grants := rfl
@[simp] theorem State.modDie_groups (s : State) (d : Nat) (f : Die → Die) : (s.modDie d f).groups = s.groups := rfl
@[simp] theorem State.modDie_chunks (s : State) (d : Nat) (f : Die → Die) : (s.modDie d f).chunks = s.chunks := rfl
@[simp] theorem State.modDie_mirrors (s : State) (d : Nat) (f : Die → Die) : (s.modDie d f).mirrors = s.mirrors := rfl
@[simp] theorem State.modDie_mirrorPool (s : State) (d : Nat) (f : Die → Die) : (s.modDie d f).mirrorPool = s.mirrorPool := rfl
@[simp] theorem State.modDie_queues (s : State) (d : Nat) (f : Die → Die) : (s.modDie d f).queues = s.queues := rfl
@[simp] theorem State.modDie_cqs (s : State) (d : Nat) (f : Die → Die) : (s.modDie d f).cqs = s.cqs := rfl
@[simp] theorem State.modDie_rings (s : State) (d : Nat) (f : Die → Die) : (s.modDie d f).rings = s.rings := rfl
@[simp] theorem State.modDie_casements (s : State) (d : Nat) (f : Die → Die) : (s.modDie d f).casements = s.casements := rfl
@[simp] theorem State.modDie_sessions (s : State) (d : Nat) (f : Die → Die) : (s.modDie d f).sessions = s.sessions := rfl
@[simp] theorem State.modDie_tasks (s : State) (d : Nat) (f : Die → Die) : (s.modDie d f).tasks = s.tasks := rfl
@[simp] theorem State.modDie_streams (s : State) (d : Nat) (f : Die → Die) : (s.modDie d f).streams = s.streams := rfl
@[simp] theorem State.modDie_squall (s : State) (d : Nat) (f : Die → Die) : (s.modDie d f).squall = s.squall := rfl
@[simp] theorem State.modDie_refuseAction (s : State) (d : Nat) (f : Die → Die) : (s.modDie d f).refuseAction = s.refuseAction := rfl
@[simp] theorem State.modDie_lastRestore (s : State) (d : Nat) (f : Die → Die) : (s.modDie d f).lastRestore = s.lastRestore := rfl
@[simp] theorem State.modDie_taskNo (s : State) (d : Nat) (f : Die → Die) : (s.modDie d f).taskNo = s.taskNo := rfl
@[simp] theorem State.modDie_lastServedQueue (s : State) (d : Nat) (f : Die → Die) : (s.modDie d f).lastServedQueue = s.lastServedQueue := rfl
@[simp] theorem State.modDie_nextDecision (s : State) (d : Nat) (f : Die → Die) : (s.modDie d f).nextDecision = s.nextDecision := rfl
@[simp] theorem State.modDie_nextRebalance (s : State) (d : Nat) (f : Die → Die) : (s.modDie d f).nextRebalance = s.nextRebalance := rfl
@[simp] theorem State.modDie_pool (s : State) (d : Nat) (f : Die → Die) : (s.modDie d f).pool = s.pool := rfl
@[simp] theorem State.modDie_migration (s : State) (d : Nat) (f : Die → Die) : (s.modDie d f).migration = s.migration := rfl
@[simp] theorem State.modDie_sublinks (s : State) (d : Nat) (f : Die → Die) : (s.modDie d f).sublinks = s.sublinks := rfl
@[simp] theorem State.modDie_retiredLanes (s : State) (d : Nat) (f : Die → Die) : (s.modDie d f).retiredLanes = s.retiredLanes := rfl
@[simp] theorem State.modDie_boot (s : State) (d : Nat) (f : Die → Die) : (s.modDie d f).boot = s.boot := rfl
@[simp] theorem State.modDie_fleet (s : State) (d : Nat) (f : Die → Die) : (s.modDie d f).fleet = s.fleet := rfl
@[simp] theorem State.modDie_wayTaint (s : State) (d : Nat) (f : Die → Die) : (s.modDie d f).wayTaint = s.wayTaint := rfl
@[simp] theorem State.modDie_buffer (s : State) (d : Nat) (f : Die → Die) : (s.modDie d f).buffer = s.buffer := rfl
@[simp] theorem State.modDie_rescaleDue (s : State) (d : Nat) (f : Die → Die) : (s.modDie d f).rescaleDue = s.rescaleDue := rfl
@[simp] theorem State.modDie_scrubbed (s : State) (d : Nat) (f : Die → Die) : (s.modDie d f).scrubbed = s.scrubbed := rfl
@[simp] theorem State.modDie_inputs (s : State) (d : Nat) (f : Die → Die) : (s.modDie d f).inputs = s.inputs := rfl
@[simp] theorem State.modDie_out (s : State) (d : Nat) (f : Die → Die) : (s.modDie d f).out = s.out := rfl
@[simp] theorem State.modDie_opening (s : State) (d : Nat) (f : Die → Die) : (s.modDie d f).opening = s.opening := rfl
@[simp] theorem State.modDie_arriving (s : State) (d : Nat) (f : Die → Die) : (s.modDie d f).arriving = s.arriving := rfl

@[simp] theorem State.modQueue_now (s : State) (q : Nat) (f : Queue → Queue) : (s.modQueue q f).now = s.now := rfl
@[simp] theorem State.modQueue_cur (s : State) (q : Nat) (f : Queue → Queue) : (s.modQueue q f).cur = s.cur := rfl
@[simp] theorem State.modQueue_nextId (s : State) (q : Nat) (f : Queue → Queue) : (s.modQueue q f).nextId = s.nextId := rfl
@[simp] theorem State.modQueue_fresh (s : State) (q : Nat) (f : Queue → Queue) : (s.modQueue q f).fresh = s.fresh := rfl
@[simp] theorem State.modQueue_cores (s : State) (q : Nat) (f : Queue → Queue) : (s.modQueue q f).cores = s.cores := rfl
@[simp] theorem State.modQueue_clusters (s : State) (q : Nat) (f : Queue → Queue) : (s.modQueue q f).clusters = s.clusters := rfl
@[simp] theorem State.modQueue_dies (s : State) (q : Nat) (f : Queue → Queue) : (s.modQueue q f).dies = s.dies := rfl
@[simp] theorem State.modQueue_hbm (s : State) (q : Nat) (f : Queue → Queue) : (s.modQueue q f).hbm = s.hbm := rfl
@[simp] theorem State.modQueue_channels (s : State) (q : Nat) (f : Queue → Queue) : (s.modQueue q f).channels = s.channels := rfl
@[simp] theorem State.modQueue_mem (s : State) (q : Nat) (f : Queue → Queue) : (s.modQueue q f).mem = s.mem := rfl
@[simp] theorem State.modQueue_lineKeys (s : State) (q : Nat) (f : Queue → Queue) : (s.modQueue q f).lineKeys = s.lineKeys := rfl
@[simp] theorem State.modQueue_stores (s : State) (q : Nat) (f : Queue → Queue) : (s.modQueue q f).stores = s.stores := rfl
@[simp] theorem State.modQueue_reqs (s : State) (q : Nat) (f : Queue → Queue) : (s.modQueue q f).reqs = s.reqs := rfl
@[simp] theorem State.modQueue_sent (s : State) (q : Nat) (f : Queue → Queue) : (s.modQueue q f).sent = s.sent := rfl
@[simp] theorem State.modQueue_chanEnds (s : State) (q : Nat) (f : Queue → Queue) : (s.modQueue q f).chanEnds = s.chanEnds := rfl
@[simp] theorem State.modQueue_grants (s : State) (q : Nat) (f : Queue → Queue) : (s.modQueue q f).grants = s.grants := rfl
@[simp] theorem State.modQueue_groups (s : State) (q : Nat) (f : Queue → Queue) : (s.modQueue q f).groups = s.groups := rfl
@[simp] theorem State.modQueue_chunks (s : State) (q : Nat) (f : Queue → Queue) : (s.modQueue q f).chunks = s.chunks := rfl
@[simp] theorem State.modQueue_mirrors (s : State) (q : Nat) (f : Queue → Queue) : (s.modQueue q f).mirrors = s.mirrors := rfl
@[simp] theorem State.modQueue_mirrorPool (s : State) (q : Nat) (f : Queue → Queue) : (s.modQueue q f).mirrorPool = s.mirrorPool := rfl
@[simp] theorem State.modQueue_cqs (s : State) (q : Nat) (f : Queue → Queue) : (s.modQueue q f).cqs = s.cqs := rfl
@[simp] theorem State.modQueue_rings (s : State) (q : Nat) (f : Queue → Queue) : (s.modQueue q f).rings = s.rings := rfl
@[simp] theorem State.modQueue_casements (s : State) (q : Nat) (f : Queue → Queue) : (s.modQueue q f).casements = s.casements := rfl
@[simp] theorem State.modQueue_sessions (s : State) (q : Nat) (f : Queue → Queue) : (s.modQueue q f).sessions = s.sessions := rfl
@[simp] theorem State.modQueue_tasks (s : State) (q : Nat) (f : Queue → Queue) : (s.modQueue q f).tasks = s.tasks := rfl
@[simp] theorem State.modQueue_streams (s : State) (q : Nat) (f : Queue → Queue) : (s.modQueue q f).streams = s.streams := rfl
@[simp] theorem State.modQueue_squall (s : State) (q : Nat) (f : Queue → Queue) : (s.modQueue q f).squall = s.squall := rfl
@[simp] theorem State.modQueue_refuseAction (s : State) (q : Nat) (f : Queue → Queue) : (s.modQueue q f).refuseAction = s.refuseAction := rfl
@[simp] theorem State.modQueue_lastRestore (s : State) (q : Nat) (f : Queue → Queue) : (s.modQueue q f).lastRestore = s.lastRestore := rfl
@[simp] theorem State.modQueue_taskNo (s : State) (q : Nat) (f : Queue → Queue) : (s.modQueue q f).taskNo = s.taskNo := rfl
@[simp] theorem State.modQueue_lastServedQueue (s : State) (q : Nat) (f : Queue → Queue) : (s.modQueue q f).lastServedQueue = s.lastServedQueue := rfl
@[simp] theorem State.modQueue_nextDecision (s : State) (q : Nat) (f : Queue → Queue) : (s.modQueue q f).nextDecision = s.nextDecision := rfl
@[simp] theorem State.modQueue_nextRebalance (s : State) (q : Nat) (f : Queue → Queue) : (s.modQueue q f).nextRebalance = s.nextRebalance := rfl
@[simp] theorem State.modQueue_pool (s : State) (q : Nat) (f : Queue → Queue) : (s.modQueue q f).pool = s.pool := rfl
@[simp] theorem State.modQueue_migration (s : State) (q : Nat) (f : Queue → Queue) : (s.modQueue q f).migration = s.migration := rfl
@[simp] theorem State.modQueue_sublinks (s : State) (q : Nat) (f : Queue → Queue) : (s.modQueue q f).sublinks = s.sublinks := rfl
@[simp] theorem State.modQueue_retiredLanes (s : State) (q : Nat) (f : Queue → Queue) : (s.modQueue q f).retiredLanes = s.retiredLanes := rfl
@[simp] theorem State.modQueue_boot (s : State) (q : Nat) (f : Queue → Queue) : (s.modQueue q f).boot = s.boot := rfl
@[simp] theorem State.modQueue_fleet (s : State) (q : Nat) (f : Queue → Queue) : (s.modQueue q f).fleet = s.fleet := rfl
@[simp] theorem State.modQueue_wayTaint (s : State) (q : Nat) (f : Queue → Queue) : (s.modQueue q f).wayTaint = s.wayTaint := rfl
@[simp] theorem State.modQueue_buffer (s : State) (q : Nat) (f : Queue → Queue) : (s.modQueue q f).buffer = s.buffer := rfl
@[simp] theorem State.modQueue_rescaleDue (s : State) (q : Nat) (f : Queue → Queue) : (s.modQueue q f).rescaleDue = s.rescaleDue := rfl
@[simp] theorem State.modQueue_scrubbed (s : State) (q : Nat) (f : Queue → Queue) : (s.modQueue q f).scrubbed = s.scrubbed := rfl
@[simp] theorem State.modQueue_inputs (s : State) (q : Nat) (f : Queue → Queue) : (s.modQueue q f).inputs = s.inputs := rfl
@[simp] theorem State.modQueue_out (s : State) (q : Nat) (f : Queue → Queue) : (s.modQueue q f).out = s.out := rfl
@[simp] theorem State.modQueue_opening (s : State) (q : Nat) (f : Queue → Queue) : (s.modQueue q f).opening = s.opening := rfl
@[simp] theorem State.modQueue_arriving (s : State) (q : Nat) (f : Queue → Queue) : (s.modQueue q f).arriving = s.arriving := rfl

@[simp] theorem State.modCq_now (s : State) (q : Nat) (f : ComplQueue → ComplQueue) : (s.modCq q f).now = s.now := rfl
@[simp] theorem State.modCq_cur (s : State) (q : Nat) (f : ComplQueue → ComplQueue) : (s.modCq q f).cur = s.cur := rfl
@[simp] theorem State.modCq_nextId (s : State) (q : Nat) (f : ComplQueue → ComplQueue) : (s.modCq q f).nextId = s.nextId := rfl
@[simp] theorem State.modCq_fresh (s : State) (q : Nat) (f : ComplQueue → ComplQueue) : (s.modCq q f).fresh = s.fresh := rfl
@[simp] theorem State.modCq_cores (s : State) (q : Nat) (f : ComplQueue → ComplQueue) : (s.modCq q f).cores = s.cores := rfl
@[simp] theorem State.modCq_clusters (s : State) (q : Nat) (f : ComplQueue → ComplQueue) : (s.modCq q f).clusters = s.clusters := rfl
@[simp] theorem State.modCq_dies (s : State) (q : Nat) (f : ComplQueue → ComplQueue) : (s.modCq q f).dies = s.dies := rfl
@[simp] theorem State.modCq_hbm (s : State) (q : Nat) (f : ComplQueue → ComplQueue) : (s.modCq q f).hbm = s.hbm := rfl
@[simp] theorem State.modCq_channels (s : State) (q : Nat) (f : ComplQueue → ComplQueue) : (s.modCq q f).channels = s.channels := rfl
@[simp] theorem State.modCq_mem (s : State) (q : Nat) (f : ComplQueue → ComplQueue) : (s.modCq q f).mem = s.mem := rfl
@[simp] theorem State.modCq_lineKeys (s : State) (q : Nat) (f : ComplQueue → ComplQueue) : (s.modCq q f).lineKeys = s.lineKeys := rfl
@[simp] theorem State.modCq_stores (s : State) (q : Nat) (f : ComplQueue → ComplQueue) : (s.modCq q f).stores = s.stores := rfl
@[simp] theorem State.modCq_reqs (s : State) (q : Nat) (f : ComplQueue → ComplQueue) : (s.modCq q f).reqs = s.reqs := rfl
@[simp] theorem State.modCq_sent (s : State) (q : Nat) (f : ComplQueue → ComplQueue) : (s.modCq q f).sent = s.sent := rfl
@[simp] theorem State.modCq_chanEnds (s : State) (q : Nat) (f : ComplQueue → ComplQueue) : (s.modCq q f).chanEnds = s.chanEnds := rfl
@[simp] theorem State.modCq_grants (s : State) (q : Nat) (f : ComplQueue → ComplQueue) : (s.modCq q f).grants = s.grants := rfl
@[simp] theorem State.modCq_groups (s : State) (q : Nat) (f : ComplQueue → ComplQueue) : (s.modCq q f).groups = s.groups := rfl
@[simp] theorem State.modCq_chunks (s : State) (q : Nat) (f : ComplQueue → ComplQueue) : (s.modCq q f).chunks = s.chunks := rfl
@[simp] theorem State.modCq_mirrors (s : State) (q : Nat) (f : ComplQueue → ComplQueue) : (s.modCq q f).mirrors = s.mirrors := rfl
@[simp] theorem State.modCq_mirrorPool (s : State) (q : Nat) (f : ComplQueue → ComplQueue) : (s.modCq q f).mirrorPool = s.mirrorPool := rfl
@[simp] theorem State.modCq_queues (s : State) (q : Nat) (f : ComplQueue → ComplQueue) : (s.modCq q f).queues = s.queues := rfl
@[simp] theorem State.modCq_rings (s : State) (q : Nat) (f : ComplQueue → ComplQueue) : (s.modCq q f).rings = s.rings := rfl
@[simp] theorem State.modCq_casements (s : State) (q : Nat) (f : ComplQueue → ComplQueue) : (s.modCq q f).casements = s.casements := rfl
@[simp] theorem State.modCq_sessions (s : State) (q : Nat) (f : ComplQueue → ComplQueue) : (s.modCq q f).sessions = s.sessions := rfl
@[simp] theorem State.modCq_tasks (s : State) (q : Nat) (f : ComplQueue → ComplQueue) : (s.modCq q f).tasks = s.tasks := rfl
@[simp] theorem State.modCq_streams (s : State) (q : Nat) (f : ComplQueue → ComplQueue) : (s.modCq q f).streams = s.streams := rfl
@[simp] theorem State.modCq_squall (s : State) (q : Nat) (f : ComplQueue → ComplQueue) : (s.modCq q f).squall = s.squall := rfl
@[simp] theorem State.modCq_refuseAction (s : State) (q : Nat) (f : ComplQueue → ComplQueue) : (s.modCq q f).refuseAction = s.refuseAction := rfl
@[simp] theorem State.modCq_lastRestore (s : State) (q : Nat) (f : ComplQueue → ComplQueue) : (s.modCq q f).lastRestore = s.lastRestore := rfl
@[simp] theorem State.modCq_taskNo (s : State) (q : Nat) (f : ComplQueue → ComplQueue) : (s.modCq q f).taskNo = s.taskNo := rfl
@[simp] theorem State.modCq_lastServedQueue (s : State) (q : Nat) (f : ComplQueue → ComplQueue) : (s.modCq q f).lastServedQueue = s.lastServedQueue := rfl
@[simp] theorem State.modCq_nextDecision (s : State) (q : Nat) (f : ComplQueue → ComplQueue) : (s.modCq q f).nextDecision = s.nextDecision := rfl
@[simp] theorem State.modCq_nextRebalance (s : State) (q : Nat) (f : ComplQueue → ComplQueue) : (s.modCq q f).nextRebalance = s.nextRebalance := rfl
@[simp] theorem State.modCq_pool (s : State) (q : Nat) (f : ComplQueue → ComplQueue) : (s.modCq q f).pool = s.pool := rfl
@[simp] theorem State.modCq_migration (s : State) (q : Nat) (f : ComplQueue → ComplQueue) : (s.modCq q f).migration = s.migration := rfl
@[simp] theorem State.modCq_sublinks (s : State) (q : Nat) (f : ComplQueue → ComplQueue) : (s.modCq q f).sublinks = s.sublinks := rfl
@[simp] theorem State.modCq_retiredLanes (s : State) (q : Nat) (f : ComplQueue → ComplQueue) : (s.modCq q f).retiredLanes = s.retiredLanes := rfl
@[simp] theorem State.modCq_boot (s : State) (q : Nat) (f : ComplQueue → ComplQueue) : (s.modCq q f).boot = s.boot := rfl
@[simp] theorem State.modCq_fleet (s : State) (q : Nat) (f : ComplQueue → ComplQueue) : (s.modCq q f).fleet = s.fleet := rfl
@[simp] theorem State.modCq_wayTaint (s : State) (q : Nat) (f : ComplQueue → ComplQueue) : (s.modCq q f).wayTaint = s.wayTaint := rfl
@[simp] theorem State.modCq_buffer (s : State) (q : Nat) (f : ComplQueue → ComplQueue) : (s.modCq q f).buffer = s.buffer := rfl
@[simp] theorem State.modCq_rescaleDue (s : State) (q : Nat) (f : ComplQueue → ComplQueue) : (s.modCq q f).rescaleDue = s.rescaleDue := rfl
@[simp] theorem State.modCq_scrubbed (s : State) (q : Nat) (f : ComplQueue → ComplQueue) : (s.modCq q f).scrubbed = s.scrubbed := rfl
@[simp] theorem State.modCq_inputs (s : State) (q : Nat) (f : ComplQueue → ComplQueue) : (s.modCq q f).inputs = s.inputs := rfl
@[simp] theorem State.modCq_out (s : State) (q : Nat) (f : ComplQueue → ComplQueue) : (s.modCq q f).out = s.out := rfl
@[simp] theorem State.modCq_opening (s : State) (q : Nat) (f : ComplQueue → ComplQueue) : (s.modCq q f).opening = s.opening := rfl
@[simp] theorem State.modCq_arriving (s : State) (q : Nat) (f : ComplQueue → ComplQueue) : (s.modCq q f).arriving = s.arriving := rfl

@[simp] theorem State.modSession_now (s : State) (n : Nat) (f : Session → Session) : (s.modSession n f).now = s.now := rfl
@[simp] theorem State.modSession_cur (s : State) (n : Nat) (f : Session → Session) : (s.modSession n f).cur = s.cur := rfl
@[simp] theorem State.modSession_nextId (s : State) (n : Nat) (f : Session → Session) : (s.modSession n f).nextId = s.nextId := rfl
@[simp] theorem State.modSession_fresh (s : State) (n : Nat) (f : Session → Session) : (s.modSession n f).fresh = s.fresh := rfl
@[simp] theorem State.modSession_cores (s : State) (n : Nat) (f : Session → Session) : (s.modSession n f).cores = s.cores := rfl
@[simp] theorem State.modSession_clusters (s : State) (n : Nat) (f : Session → Session) : (s.modSession n f).clusters = s.clusters := rfl
@[simp] theorem State.modSession_dies (s : State) (n : Nat) (f : Session → Session) : (s.modSession n f).dies = s.dies := rfl
@[simp] theorem State.modSession_hbm (s : State) (n : Nat) (f : Session → Session) : (s.modSession n f).hbm = s.hbm := rfl
@[simp] theorem State.modSession_channels (s : State) (n : Nat) (f : Session → Session) : (s.modSession n f).channels = s.channels := rfl
@[simp] theorem State.modSession_mem (s : State) (n : Nat) (f : Session → Session) : (s.modSession n f).mem = s.mem := rfl
@[simp] theorem State.modSession_lineKeys (s : State) (n : Nat) (f : Session → Session) : (s.modSession n f).lineKeys = s.lineKeys := rfl
@[simp] theorem State.modSession_stores (s : State) (n : Nat) (f : Session → Session) : (s.modSession n f).stores = s.stores := rfl
@[simp] theorem State.modSession_reqs (s : State) (n : Nat) (f : Session → Session) : (s.modSession n f).reqs = s.reqs := rfl
@[simp] theorem State.modSession_sent (s : State) (n : Nat) (f : Session → Session) : (s.modSession n f).sent = s.sent := rfl
@[simp] theorem State.modSession_chanEnds (s : State) (n : Nat) (f : Session → Session) : (s.modSession n f).chanEnds = s.chanEnds := rfl
@[simp] theorem State.modSession_grants (s : State) (n : Nat) (f : Session → Session) : (s.modSession n f).grants = s.grants := rfl
@[simp] theorem State.modSession_groups (s : State) (n : Nat) (f : Session → Session) : (s.modSession n f).groups = s.groups := rfl
@[simp] theorem State.modSession_chunks (s : State) (n : Nat) (f : Session → Session) : (s.modSession n f).chunks = s.chunks := rfl
@[simp] theorem State.modSession_mirrors (s : State) (n : Nat) (f : Session → Session) : (s.modSession n f).mirrors = s.mirrors := rfl
@[simp] theorem State.modSession_mirrorPool (s : State) (n : Nat) (f : Session → Session) : (s.modSession n f).mirrorPool = s.mirrorPool := rfl
@[simp] theorem State.modSession_queues (s : State) (n : Nat) (f : Session → Session) : (s.modSession n f).queues = s.queues := rfl
@[simp] theorem State.modSession_cqs (s : State) (n : Nat) (f : Session → Session) : (s.modSession n f).cqs = s.cqs := rfl
@[simp] theorem State.modSession_rings (s : State) (n : Nat) (f : Session → Session) : (s.modSession n f).rings = s.rings := rfl
@[simp] theorem State.modSession_casements (s : State) (n : Nat) (f : Session → Session) : (s.modSession n f).casements = s.casements := rfl
@[simp] theorem State.modSession_tasks (s : State) (n : Nat) (f : Session → Session) : (s.modSession n f).tasks = s.tasks := rfl
@[simp] theorem State.modSession_streams (s : State) (n : Nat) (f : Session → Session) : (s.modSession n f).streams = s.streams := rfl
@[simp] theorem State.modSession_squall (s : State) (n : Nat) (f : Session → Session) : (s.modSession n f).squall = s.squall := rfl
@[simp] theorem State.modSession_refuseAction (s : State) (n : Nat) (f : Session → Session) : (s.modSession n f).refuseAction = s.refuseAction := rfl
@[simp] theorem State.modSession_lastRestore (s : State) (n : Nat) (f : Session → Session) : (s.modSession n f).lastRestore = s.lastRestore := rfl
@[simp] theorem State.modSession_taskNo (s : State) (n : Nat) (f : Session → Session) : (s.modSession n f).taskNo = s.taskNo := rfl
@[simp] theorem State.modSession_lastServedQueue (s : State) (n : Nat) (f : Session → Session) : (s.modSession n f).lastServedQueue = s.lastServedQueue := rfl
@[simp] theorem State.modSession_nextDecision (s : State) (n : Nat) (f : Session → Session) : (s.modSession n f).nextDecision = s.nextDecision := rfl
@[simp] theorem State.modSession_nextRebalance (s : State) (n : Nat) (f : Session → Session) : (s.modSession n f).nextRebalance = s.nextRebalance := rfl
@[simp] theorem State.modSession_pool (s : State) (n : Nat) (f : Session → Session) : (s.modSession n f).pool = s.pool := rfl
@[simp] theorem State.modSession_migration (s : State) (n : Nat) (f : Session → Session) : (s.modSession n f).migration = s.migration := rfl
@[simp] theorem State.modSession_sublinks (s : State) (n : Nat) (f : Session → Session) : (s.modSession n f).sublinks = s.sublinks := rfl
@[simp] theorem State.modSession_retiredLanes (s : State) (n : Nat) (f : Session → Session) : (s.modSession n f).retiredLanes = s.retiredLanes := rfl
@[simp] theorem State.modSession_boot (s : State) (n : Nat) (f : Session → Session) : (s.modSession n f).boot = s.boot := rfl
@[simp] theorem State.modSession_fleet (s : State) (n : Nat) (f : Session → Session) : (s.modSession n f).fleet = s.fleet := rfl
@[simp] theorem State.modSession_wayTaint (s : State) (n : Nat) (f : Session → Session) : (s.modSession n f).wayTaint = s.wayTaint := rfl
@[simp] theorem State.modSession_buffer (s : State) (n : Nat) (f : Session → Session) : (s.modSession n f).buffer = s.buffer := rfl
@[simp] theorem State.modSession_rescaleDue (s : State) (n : Nat) (f : Session → Session) : (s.modSession n f).rescaleDue = s.rescaleDue := rfl
@[simp] theorem State.modSession_scrubbed (s : State) (n : Nat) (f : Session → Session) : (s.modSession n f).scrubbed = s.scrubbed := rfl
@[simp] theorem State.modSession_inputs (s : State) (n : Nat) (f : Session → Session) : (s.modSession n f).inputs = s.inputs := rfl
@[simp] theorem State.modSession_out (s : State) (n : Nat) (f : Session → Session) : (s.modSession n f).out = s.out := rfl
@[simp] theorem State.modSession_opening (s : State) (n : Nat) (f : Session → Session) : (s.modSession n f).opening = s.opening := rfl
@[simp] theorem State.modSession_arriving (s : State) (n : Nat) (f : Session → Session) : (s.modSession n f).arriving = s.arriving := rfl

@[simp] theorem State.modChannel_now (s : State) (n : Nat) (f : Channel → Channel) : (s.modChannel n f).now = s.now := rfl
@[simp] theorem State.modChannel_cur (s : State) (n : Nat) (f : Channel → Channel) : (s.modChannel n f).cur = s.cur := rfl
@[simp] theorem State.modChannel_nextId (s : State) (n : Nat) (f : Channel → Channel) : (s.modChannel n f).nextId = s.nextId := rfl
@[simp] theorem State.modChannel_fresh (s : State) (n : Nat) (f : Channel → Channel) : (s.modChannel n f).fresh = s.fresh := rfl
@[simp] theorem State.modChannel_cores (s : State) (n : Nat) (f : Channel → Channel) : (s.modChannel n f).cores = s.cores := rfl
@[simp] theorem State.modChannel_clusters (s : State) (n : Nat) (f : Channel → Channel) : (s.modChannel n f).clusters = s.clusters := rfl
@[simp] theorem State.modChannel_dies (s : State) (n : Nat) (f : Channel → Channel) : (s.modChannel n f).dies = s.dies := rfl
@[simp] theorem State.modChannel_hbm (s : State) (n : Nat) (f : Channel → Channel) : (s.modChannel n f).hbm = s.hbm := rfl
@[simp] theorem State.modChannel_mem (s : State) (n : Nat) (f : Channel → Channel) : (s.modChannel n f).mem = s.mem := rfl
@[simp] theorem State.modChannel_lineKeys (s : State) (n : Nat) (f : Channel → Channel) : (s.modChannel n f).lineKeys = s.lineKeys := rfl
@[simp] theorem State.modChannel_stores (s : State) (n : Nat) (f : Channel → Channel) : (s.modChannel n f).stores = s.stores := rfl
@[simp] theorem State.modChannel_reqs (s : State) (n : Nat) (f : Channel → Channel) : (s.modChannel n f).reqs = s.reqs := rfl
@[simp] theorem State.modChannel_sent (s : State) (n : Nat) (f : Channel → Channel) : (s.modChannel n f).sent = s.sent := rfl
@[simp] theorem State.modChannel_chanEnds (s : State) (n : Nat) (f : Channel → Channel) : (s.modChannel n f).chanEnds = s.chanEnds := rfl
@[simp] theorem State.modChannel_grants (s : State) (n : Nat) (f : Channel → Channel) : (s.modChannel n f).grants = s.grants := rfl
@[simp] theorem State.modChannel_groups (s : State) (n : Nat) (f : Channel → Channel) : (s.modChannel n f).groups = s.groups := rfl
@[simp] theorem State.modChannel_chunks (s : State) (n : Nat) (f : Channel → Channel) : (s.modChannel n f).chunks = s.chunks := rfl
@[simp] theorem State.modChannel_mirrors (s : State) (n : Nat) (f : Channel → Channel) : (s.modChannel n f).mirrors = s.mirrors := rfl
@[simp] theorem State.modChannel_mirrorPool (s : State) (n : Nat) (f : Channel → Channel) : (s.modChannel n f).mirrorPool = s.mirrorPool := rfl
@[simp] theorem State.modChannel_queues (s : State) (n : Nat) (f : Channel → Channel) : (s.modChannel n f).queues = s.queues := rfl
@[simp] theorem State.modChannel_cqs (s : State) (n : Nat) (f : Channel → Channel) : (s.modChannel n f).cqs = s.cqs := rfl
@[simp] theorem State.modChannel_rings (s : State) (n : Nat) (f : Channel → Channel) : (s.modChannel n f).rings = s.rings := rfl
@[simp] theorem State.modChannel_casements (s : State) (n : Nat) (f : Channel → Channel) : (s.modChannel n f).casements = s.casements := rfl
@[simp] theorem State.modChannel_sessions (s : State) (n : Nat) (f : Channel → Channel) : (s.modChannel n f).sessions = s.sessions := rfl
@[simp] theorem State.modChannel_tasks (s : State) (n : Nat) (f : Channel → Channel) : (s.modChannel n f).tasks = s.tasks := rfl
@[simp] theorem State.modChannel_streams (s : State) (n : Nat) (f : Channel → Channel) : (s.modChannel n f).streams = s.streams := rfl
@[simp] theorem State.modChannel_squall (s : State) (n : Nat) (f : Channel → Channel) : (s.modChannel n f).squall = s.squall := rfl
@[simp] theorem State.modChannel_refuseAction (s : State) (n : Nat) (f : Channel → Channel) : (s.modChannel n f).refuseAction = s.refuseAction := rfl
@[simp] theorem State.modChannel_lastRestore (s : State) (n : Nat) (f : Channel → Channel) : (s.modChannel n f).lastRestore = s.lastRestore := rfl
@[simp] theorem State.modChannel_taskNo (s : State) (n : Nat) (f : Channel → Channel) : (s.modChannel n f).taskNo = s.taskNo := rfl
@[simp] theorem State.modChannel_lastServedQueue (s : State) (n : Nat) (f : Channel → Channel) : (s.modChannel n f).lastServedQueue = s.lastServedQueue := rfl
@[simp] theorem State.modChannel_nextDecision (s : State) (n : Nat) (f : Channel → Channel) : (s.modChannel n f).nextDecision = s.nextDecision := rfl
@[simp] theorem State.modChannel_nextRebalance (s : State) (n : Nat) (f : Channel → Channel) : (s.modChannel n f).nextRebalance = s.nextRebalance := rfl
@[simp] theorem State.modChannel_pool (s : State) (n : Nat) (f : Channel → Channel) : (s.modChannel n f).pool = s.pool := rfl
@[simp] theorem State.modChannel_migration (s : State) (n : Nat) (f : Channel → Channel) : (s.modChannel n f).migration = s.migration := rfl
@[simp] theorem State.modChannel_sublinks (s : State) (n : Nat) (f : Channel → Channel) : (s.modChannel n f).sublinks = s.sublinks := rfl
@[simp] theorem State.modChannel_retiredLanes (s : State) (n : Nat) (f : Channel → Channel) : (s.modChannel n f).retiredLanes = s.retiredLanes := rfl
@[simp] theorem State.modChannel_boot (s : State) (n : Nat) (f : Channel → Channel) : (s.modChannel n f).boot = s.boot := rfl
@[simp] theorem State.modChannel_fleet (s : State) (n : Nat) (f : Channel → Channel) : (s.modChannel n f).fleet = s.fleet := rfl
@[simp] theorem State.modChannel_wayTaint (s : State) (n : Nat) (f : Channel → Channel) : (s.modChannel n f).wayTaint = s.wayTaint := rfl
@[simp] theorem State.modChannel_buffer (s : State) (n : Nat) (f : Channel → Channel) : (s.modChannel n f).buffer = s.buffer := rfl
@[simp] theorem State.modChannel_rescaleDue (s : State) (n : Nat) (f : Channel → Channel) : (s.modChannel n f).rescaleDue = s.rescaleDue := rfl
@[simp] theorem State.modChannel_scrubbed (s : State) (n : Nat) (f : Channel → Channel) : (s.modChannel n f).scrubbed = s.scrubbed := rfl
@[simp] theorem State.modChannel_inputs (s : State) (n : Nat) (f : Channel → Channel) : (s.modChannel n f).inputs = s.inputs := rfl
@[simp] theorem State.modChannel_out (s : State) (n : Nat) (f : Channel → Channel) : (s.modChannel n f).out = s.out := rfl
@[simp] theorem State.modChannel_opening (s : State) (n : Nat) (f : Channel → Channel) : (s.modChannel n f).opening = s.opening := rfl
@[simp] theorem State.modChannel_arriving (s : State) (n : Nat) (f : Channel → Channel) : (s.modChannel n f).arriving = s.arriving := rfl

@[simp] theorem State.emitOut_now (s : State) (o : Output) : (s.emitOut o).now = s.now := rfl
@[simp] theorem State.emitOut_cur (s : State) (o : Output) : (s.emitOut o).cur = s.cur := rfl
@[simp] theorem State.emitOut_nextId (s : State) (o : Output) : (s.emitOut o).nextId = s.nextId := rfl
@[simp] theorem State.emitOut_fresh (s : State) (o : Output) : (s.emitOut o).fresh = s.fresh := rfl
@[simp] theorem State.emitOut_cores (s : State) (o : Output) : (s.emitOut o).cores = s.cores := rfl
@[simp] theorem State.emitOut_clusters (s : State) (o : Output) : (s.emitOut o).clusters = s.clusters := rfl
@[simp] theorem State.emitOut_dies (s : State) (o : Output) : (s.emitOut o).dies = s.dies := rfl
@[simp] theorem State.emitOut_hbm (s : State) (o : Output) : (s.emitOut o).hbm = s.hbm := rfl
@[simp] theorem State.emitOut_channels (s : State) (o : Output) : (s.emitOut o).channels = s.channels := rfl
@[simp] theorem State.emitOut_mem (s : State) (o : Output) : (s.emitOut o).mem = s.mem := rfl
@[simp] theorem State.emitOut_lineKeys (s : State) (o : Output) : (s.emitOut o).lineKeys = s.lineKeys := rfl
@[simp] theorem State.emitOut_stores (s : State) (o : Output) : (s.emitOut o).stores = s.stores := rfl
@[simp] theorem State.emitOut_reqs (s : State) (o : Output) : (s.emitOut o).reqs = s.reqs := rfl
@[simp] theorem State.emitOut_sent (s : State) (o : Output) : (s.emitOut o).sent = s.sent := rfl
@[simp] theorem State.emitOut_chanEnds (s : State) (o : Output) : (s.emitOut o).chanEnds = s.chanEnds := rfl
@[simp] theorem State.emitOut_grants (s : State) (o : Output) : (s.emitOut o).grants = s.grants := rfl
@[simp] theorem State.emitOut_groups (s : State) (o : Output) : (s.emitOut o).groups = s.groups := rfl
@[simp] theorem State.emitOut_chunks (s : State) (o : Output) : (s.emitOut o).chunks = s.chunks := rfl
@[simp] theorem State.emitOut_mirrors (s : State) (o : Output) : (s.emitOut o).mirrors = s.mirrors := rfl
@[simp] theorem State.emitOut_mirrorPool (s : State) (o : Output) : (s.emitOut o).mirrorPool = s.mirrorPool := rfl
@[simp] theorem State.emitOut_queues (s : State) (o : Output) : (s.emitOut o).queues = s.queues := rfl
@[simp] theorem State.emitOut_cqs (s : State) (o : Output) : (s.emitOut o).cqs = s.cqs := rfl
@[simp] theorem State.emitOut_rings (s : State) (o : Output) : (s.emitOut o).rings = s.rings := rfl
@[simp] theorem State.emitOut_casements (s : State) (o : Output) : (s.emitOut o).casements = s.casements := rfl
@[simp] theorem State.emitOut_sessions (s : State) (o : Output) : (s.emitOut o).sessions = s.sessions := rfl
@[simp] theorem State.emitOut_tasks (s : State) (o : Output) : (s.emitOut o).tasks = s.tasks := rfl
@[simp] theorem State.emitOut_streams (s : State) (o : Output) : (s.emitOut o).streams = s.streams := rfl
@[simp] theorem State.emitOut_squall (s : State) (o : Output) : (s.emitOut o).squall = s.squall := rfl
@[simp] theorem State.emitOut_refuseAction (s : State) (o : Output) : (s.emitOut o).refuseAction = s.refuseAction := rfl
@[simp] theorem State.emitOut_lastRestore (s : State) (o : Output) : (s.emitOut o).lastRestore = s.lastRestore := rfl
@[simp] theorem State.emitOut_taskNo (s : State) (o : Output) : (s.emitOut o).taskNo = s.taskNo := rfl
@[simp] theorem State.emitOut_lastServedQueue (s : State) (o : Output) : (s.emitOut o).lastServedQueue = s.lastServedQueue := rfl
@[simp] theorem State.emitOut_nextDecision (s : State) (o : Output) : (s.emitOut o).nextDecision = s.nextDecision := rfl
@[simp] theorem State.emitOut_nextRebalance (s : State) (o : Output) : (s.emitOut o).nextRebalance = s.nextRebalance := rfl
@[simp] theorem State.emitOut_pool (s : State) (o : Output) : (s.emitOut o).pool = s.pool := rfl
@[simp] theorem State.emitOut_migration (s : State) (o : Output) : (s.emitOut o).migration = s.migration := rfl
@[simp] theorem State.emitOut_sublinks (s : State) (o : Output) : (s.emitOut o).sublinks = s.sublinks := rfl
@[simp] theorem State.emitOut_retiredLanes (s : State) (o : Output) : (s.emitOut o).retiredLanes = s.retiredLanes := rfl
@[simp] theorem State.emitOut_boot (s : State) (o : Output) : (s.emitOut o).boot = s.boot := rfl
@[simp] theorem State.emitOut_fleet (s : State) (o : Output) : (s.emitOut o).fleet = s.fleet := rfl
@[simp] theorem State.emitOut_wayTaint (s : State) (o : Output) : (s.emitOut o).wayTaint = s.wayTaint := rfl
@[simp] theorem State.emitOut_buffer (s : State) (o : Output) : (s.emitOut o).buffer = s.buffer := rfl
@[simp] theorem State.emitOut_rescaleDue (s : State) (o : Output) : (s.emitOut o).rescaleDue = s.rescaleDue := rfl
@[simp] theorem State.emitOut_scrubbed (s : State) (o : Output) : (s.emitOut o).scrubbed = s.scrubbed := rfl
@[simp] theorem State.emitOut_inputs (s : State) (o : Output) : (s.emitOut o).inputs = s.inputs := rfl
@[simp] theorem State.emitOut_opening (s : State) (o : Output) : (s.emitOut o).opening = s.opening := rfl
@[simp] theorem State.emitOut_arriving (s : State) (o : Output) : (s.emitOut o).arriving = s.arriving := rfl

@[simp] theorem State.newId_fst (s : State) : s.newId.1 = s.nextId := rfl
@[simp] theorem State.drawDue_now (s : State) : s.drawDue.2.now = s.now := rfl
@[simp] theorem State.drawDue_cores (s : State) : s.drawDue.2.cores = s.cores := rfl
@[simp] theorem State.drawDue_mem (s : State) : s.drawDue.2.mem = s.mem := rfl

/-! ### Cores read back -/

@[simp] theorem State.core_setCore (s : State) (c : Nat) (k : Core) : (s.setCore c k).core c = k := by
  simp [State.core, State.setCore]

theorem State.core_setCore_other (s : State) {c d : Nat} (k : Core) (h : d ≠ c) : (s.setCore c k).core d = s.core d := by
  simp [State.core, State.setCore, keyGet_keySet_other _ _ h]

@[simp] theorem State.core_modCore (s : State) (c : Nat) (f : Core → Core) : (s.modCore c f).core c = f (s.core c) := by
  simp [State.modCore]

theorem State.core_modCore_other (s : State) {c d : Nat} (f : Core → Core) (h : d ≠ c) : (s.modCore c f).core d = s.core d :=
  s.core_setCore_other _ h

@[simp] theorem State.core_addAct (s : State) (c due issued : Nat) (q : SeqId) (pc : Nat) (p : Pay) :
    (s.addAct c due issued q pc p).core c =
      { s.core c with acts := (s.core c).acts ++ [{ id := s.nextId, due := due, issued := issued, by_ := q, pc := pc, pay := p }] } :=
  (State.core_modCore _ c _).trans rfl

theorem State.core_addAct_other (s : State) {c d : Nat} (due issued : Nat) (q : SeqId) (pc : Nat) (p : Pay) (h : d ≠ c) :
    (s.addAct c due issued q pc p).core d = s.core d :=
  (State.core_modCore_other _ _ h).trans rfl

/-! ### Cores -/

@[simp] theorem Core.setSeq_task (k : Core) (q : SeqId) (x : Seq) : (k.setSeq q x).task = k.task := rfl
@[simp] theorem Core.setSeq_rank (k : Core) (q : SeqId) (x : Seq) : (k.setSeq q x).rank = k.rank := rfl
@[simp] theorem Core.setSeq_phase (k : Core) (q : SeqId) (x : Seq) : (k.setSeq q x).phase = k.phase := rfl
@[simp] theorem Core.setSeq_snaps (k : Core) (q : SeqId) (x : Seq) : (k.setSeq q x).snaps = k.snaps := rfl
@[simp] theorem Core.setSeq_snap (k : Core) (q : SeqId) (x : Seq) : (k.setSeq q x).snap = k.snap := rfl
@[simp] theorem Core.setSeq_tokens (k : Core) (q : SeqId) (x : Seq) : (k.setSeq q x).tokens = k.tokens := rfl
@[simp] theorem Core.setSeq_overflowed (k : Core) (q : SeqId) (x : Seq) : (k.setSeq q x).overflowed = k.overflowed := rfl
@[simp] theorem Core.setSeq_covers (k : Core) (q : SeqId) (x : Seq) : (k.setSeq q x).covers = k.covers := rfl
@[simp] theorem Core.setSeq_timed (k : Core) (q : SeqId) (x : Seq) : (k.setSeq q x).timed = k.timed := rfl
@[simp] theorem Core.setSeq_cycle0 (k : Core) (q : SeqId) (x : Seq) : (k.setSeq q x).cycle0 = k.cycle0 := rfl
@[simp] theorem Core.setSeq_budget (k : Core) (q : SeqId) (x : Seq) : (k.setSeq q x).budget = k.budget := rfl
@[simp] theorem Core.setSeq_stamp (k : Core) (q : SeqId) (x : Seq) : (k.setSeq q x).stamp = k.stamp := rfl
@[simp] theorem Core.setSeq_liveIn (k : Core) (q : SeqId) (x : Seq) : (k.setSeq q x).liveIn = k.liveIn := rfl
@[simp] theorem Core.setSeq_rgnAddr (k : Core) (q : SeqId) (x : Seq) : (k.setSeq q x).rgnAddr = k.rgnAddr := rfl
@[simp] theorem Core.setSeq_powered (k : Core) (q : SeqId) (x : Seq) : (k.setSeq q x).powered = k.powered := rfl
@[simp] theorem Core.setSeq_alignFrom (k : Core) (q : SeqId) (x : Seq) : (k.setSeq q x).alignFrom = k.alignFrom := rfl
@[simp] theorem Core.setSeq_rcmtA (k : Core) (q : SeqId) (x : Seq) : (k.setSeq q x).rcmtA = k.rcmtA := rfl
@[simp] theorem Core.setSeq_rcmtB (k : Core) (q : SeqId) (x : Seq) : (k.setSeq q x).rcmtB = k.rcmtB := rfl
@[simp] theorem Core.setSeq_flip (k : Core) (q : SeqId) (x : Seq) : (k.setSeq q x).flip = k.flip := rfl
@[simp] theorem Core.setSeq_mirrored (k : Core) (q : SeqId) (x : Seq) : (k.setSeq q x).mirrored = k.mirrored := rfl
@[simp] theorem Core.setSeq_tiles (k : Core) (q : SeqId) (x : Seq) : (k.setSeq q x).tiles = k.tiles := rfl
@[simp] theorem Core.setSeq_masks (k : Core) (q : SeqId) (x : Seq) : (k.setSeq q x).masks = k.masks := rfl
@[simp] theorem Core.setSeq_shapes (k : Core) (q : SeqId) (x : Seq) : (k.setSeq q x).shapes = k.shapes := rfl
@[simp] theorem Core.setSeq_ports (k : Core) (q : SeqId) (x : Seq) : (k.setSeq q x).ports = k.ports := rfl
@[simp] theorem Core.setSeq_tables (k : Core) (q : SeqId) (x : Seq) : (k.setSeq q x).tables = k.tables := rfl
@[simp] theorem Core.setSeq_codebook (k : Core) (q : SeqId) (x : Seq) : (k.setSeq q x).codebook = k.codebook := rfl
@[simp] theorem Core.setSeq_banks (k : Core) (q : SeqId) (x : Seq) : (k.setSeq q x).banks = k.banks := rfl
@[simp] theorem Core.setSeq_work (k : Core) (q : SeqId) (x : Seq) : (k.setSeq q x).work = k.work := rfl
@[simp] theorem Core.setSeq_rwin (k : Core) (q : SeqId) (x : Seq) : (k.setSeq q x).rwin = k.rwin := rfl
@[simp] theorem Core.setSeq_mact (k : Core) (q : SeqId) (x : Seq) : (k.setSeq q x).mact = k.mact := rfl
@[simp] theorem Core.setSeq_mrs (k : Core) (q : SeqId) (x : Seq) : (k.setSeq q x).mrs = k.mrs := rfl
@[simp] theorem Core.setSeq_vstat (k : Core) (q : SeqId) (x : Seq) : (k.setSeq q x).vstat = k.vstat := rfl
@[simp] theorem Core.setSeq_vnew (k : Core) (q : SeqId) (x : Seq) : (k.setSeq q x).vnew = k.vnew := rfl
@[simp] theorem Core.setSeq_vcsrw (k : Core) (q : SeqId) (x : Seq) : (k.setSeq q x).vcsrw = k.vcsrw := rfl
@[simp] theorem Core.setSeq_rkey0 (k : Core) (q : SeqId) (x : Seq) : (k.setSeq q x).rkey0 = k.rkey0 := rfl
@[simp] theorem Core.setSeq_rkey1 (k : Core) (q : SeqId) (x : Seq) : (k.setSeq q x).rkey1 = k.rkey1 := rfl
@[simp] theorem Core.setSeq_rctr (k : Core) (q : SeqId) (x : Seq) : (k.setSeq q x).rctr = k.rctr := rfl
@[simp] theorem Core.setSeq_sacw (k : Core) (q : SeqId) (x : Seq) : (k.setSeq q x).sacw = k.sacw := rfl
@[simp] theorem Core.setSeq_tvec (k : Core) (q : SeqId) (x : Seq) : (k.setSeq q x).tvec = k.tvec := rfl
@[simp] theorem Core.setSeq_tsp (k : Core) (q : SeqId) (x : Seq) : (k.setSeq q x).tsp = k.tsp := rfl
@[simp] theorem Core.setSeq_tcause (k : Core) (q : SeqId) (x : Seq) : (k.setSeq q x).tcause = k.tcause := rfl
@[simp] theorem Core.setSeq_taddr (k : Core) (q : SeqId) (x : Seq) : (k.setSeq q x).taddr = k.taddr := rfl
@[simp] theorem Core.setSeq_tpc (k : Core) (q : SeqId) (x : Seq) : (k.setSeq q x).tpc = k.tpc := rfl
@[simp] theorem Core.setSeq_tcause2 (k : Core) (q : SeqId) (x : Seq) : (k.setSeq q x).tcause2 = k.tcause2 := rfl
@[simp] theorem Core.setSeq_tseq (k : Core) (q : SeqId) (x : Seq) : (k.setSeq q x).tseq = k.tseq := rfl
@[simp] theorem Core.setSeq_trgn (k : Core) (q : SeqId) (x : Seq) : (k.setSeq q x).trgn = k.trgn := rfl
@[simp] theorem Core.setSeq_dplidx (k : Core) (q : SeqId) (x : Seq) : (k.setSeq q x).dplidx = k.dplidx := rfl
@[simp] theorem Core.setSeq_domm (k : Core) (q : SeqId) (x : Seq) : (k.setSeq q x).domm = k.domm := rfl
@[simp] theorem Core.setSeq_wspace (k : Core) (q : SeqId) (x : Seq) : (k.setSeq q x).wspace = k.wspace := rfl
@[simp] theorem Core.setSeq_aspace (k : Core) (q : SeqId) (x : Seq) : (k.setSeq q x).aspace = k.aspace := rfl
@[simp] theorem Core.setSeq_blocks (k : Core) (q : SeqId) (x : Seq) : (k.setSeq q x).blocks = k.blocks := rfl
@[simp] theorem Core.setSeq_epoch (k : Core) (q : SeqId) (x : Seq) : (k.setSeq q x).epoch = k.epoch := rfl
@[simp] theorem Core.setSeq_vuFree (k : Core) (q : SeqId) (x : Seq) : (k.setSeq q x).vuFree = k.vuFree := rfl
@[simp] theorem Core.setSeq_acts (k : Core) (q : SeqId) (x : Seq) : (k.setSeq q x).acts = k.acts := rfl
@[simp] theorem Core.setSeq_held (k : Core) (q : SeqId) (x : Seq) : (k.setSeq q x).held = k.held := rfl
@[simp] theorem Core.setSeq_pushes (k : Core) (q : SeqId) (x : Seq) : (k.setSeq q x).pushes = k.pushes := rfl
@[simp] theorem Core.setSeq_mma (k : Core) (q : SeqId) (x : Seq) : (k.setSeq q x).mma = k.mma := rfl
@[simp] theorem Core.setSeq_lookup (k : Core) (q : SeqId) (x : Seq) : (k.setSeq q x).lookup = k.lookup := rfl
@[simp] theorem Core.setSeq_epi (k : Core) (q : SeqId) (x : Seq) : (k.setSeq q x).epi = k.epi := rfl
@[simp] theorem Core.setSeq_sacc (k : Core) (q : SeqId) (x : Seq) : (k.setSeq q x).sacc = k.sacc := rfl
@[simp] theorem Core.setSeq_copies (k : Core) (q : SeqId) (x : Seq) : (k.setSeq q x).copies = k.copies := rfl
@[simp] theorem Core.setSeq_copyAt (k : Core) (q : SeqId) (x : Seq) : (k.setSeq q x).copyAt = k.copyAt := rfl
@[simp] theorem Core.setSeq_liveOut (k : Core) (q : SeqId) (x : Seq) : (k.setSeq q x).liveOut = k.liveOut := rfl
@[simp] theorem Core.setSeq_ckeep (k : Core) (q : SeqId) (x : Seq) : (k.setSeq q x).ckeep = k.ckeep := rfl
@[simp] theorem Core.setSeq_liveMap (k : Core) (q : SeqId) (x : Seq) : (k.setSeq q x).liveMap = k.liveMap := rfl
@[simp] theorem Core.setSeq_realign (k : Core) (q : SeqId) (x : Seq) : (k.setSeq q x).realign = k.realign := rfl
@[simp] theorem Core.setSeq_mirrLast (k : Core) (q : SeqId) (x : Seq) : (k.setSeq q x).mirrLast = k.mirrLast := rfl
@[simp] theorem Core.setSeq_preempt (k : Core) (q : SeqId) (x : Seq) : (k.setSeq q x).preempt = k.preempt := rfl
@[simp] theorem Core.setSeq_saveKind (k : Core) (q : SeqId) (x : Seq) : (k.setSeq q x).saveKind = k.saveKind := rfl
@[simp] theorem Core.setSeq_savePark (k : Core) (q : SeqId) (x : Seq) : (k.setSeq q x).savePark = k.savePark := rfl
@[simp] theorem Core.setSeq_saveTiles (k : Core) (q : SeqId) (x : Seq) : (k.setSeq q x).saveTiles = k.saveTiles := rfl
@[simp] theorem Core.setSeq_saveDue (k : Core) (q : SeqId) (x : Seq) : (k.setSeq q x).saveDue = k.saveDue := rfl
@[simp] theorem Core.setSeq_causeUnread (k : Core) (q : SeqId) (x : Seq) : (k.setSeq q x).causeUnread = k.causeUnread := rfl
@[simp] theorem Core.setSeq_entryHot (k : Core) (q : SeqId) (x : Seq) : (k.setSeq q x).entryHot = k.entryHot := rfl
@[simp] theorem Core.setSeq_faults (k : Core) (q : SeqId) (x : Seq) : (k.setSeq q x).faults = k.faults := rfl
@[simp] theorem Core.setSeq_banksUsed (k : Core) (q : SeqId) (x : Seq) : (k.setSeq q x).banksUsed = k.banksUsed := rfl
@[simp] theorem Core.setSeq_banksCycle (k : Core) (q : SeqId) (x : Seq) : (k.setSeq q x).banksCycle = k.banksCycle := rfl
@[simp] theorem Core.setSeq_wlog (k : Core) (q : SeqId) (x : Seq) : (k.setSeq q x).wlog = k.wlog := rfl
@[simp] theorem Core.setSeq_softRun (k : Core) (q : SeqId) (x : Seq) : (k.setSeq q x).softRun = k.softRun := rfl
@[simp] theorem Core.setSeq_softCount (k : Core) (q : SeqId) (x : Seq) : (k.setSeq q x).softCount = k.softCount := rfl
@[simp] theorem Core.setSeq_tracker (k : Core) (q : SeqId) (x : Seq) : (k.setSeq q x).tracker = k.tracker := rfl
@[simp] theorem Core.setSeq_bufStamp (k : Core) (q : SeqId) (x : Seq) : (k.setSeq q x).bufStamp = k.bufStamp := rfl
@[simp] theorem Core.setSeq_past (k : Core) (q : SeqId) (x : Seq) : (k.setSeq q x).past = k.past := rfl
@[simp] theorem Core.setSeq_tlb (k : Core) (q : SeqId) (x : Seq) : (k.setSeq q x).tlb = k.tlb := rfl
@[simp] theorem Core.setSeq_units (k : Core) (q : SeqId) (x : Seq) : (k.setSeq q x).units = k.units := rfl
@[simp] theorem Core.setSeq_taint (k : Core) (q : SeqId) (x : Seq) : (k.setSeq q x).taint = k.taint := rfl

@[simp] theorem Core.modSeq_task (k : Core) (q : SeqId) (f : Seq → Seq) : (k.modSeq q f).task = k.task := rfl
@[simp] theorem Core.modSeq_rank (k : Core) (q : SeqId) (f : Seq → Seq) : (k.modSeq q f).rank = k.rank := rfl
@[simp] theorem Core.modSeq_phase (k : Core) (q : SeqId) (f : Seq → Seq) : (k.modSeq q f).phase = k.phase := rfl
@[simp] theorem Core.modSeq_snaps (k : Core) (q : SeqId) (f : Seq → Seq) : (k.modSeq q f).snaps = k.snaps := rfl
@[simp] theorem Core.modSeq_snap (k : Core) (q : SeqId) (f : Seq → Seq) : (k.modSeq q f).snap = k.snap := rfl
@[simp] theorem Core.modSeq_tokens (k : Core) (q : SeqId) (f : Seq → Seq) : (k.modSeq q f).tokens = k.tokens := rfl
@[simp] theorem Core.modSeq_overflowed (k : Core) (q : SeqId) (f : Seq → Seq) : (k.modSeq q f).overflowed = k.overflowed := rfl
@[simp] theorem Core.modSeq_covers (k : Core) (q : SeqId) (f : Seq → Seq) : (k.modSeq q f).covers = k.covers := rfl
@[simp] theorem Core.modSeq_timed (k : Core) (q : SeqId) (f : Seq → Seq) : (k.modSeq q f).timed = k.timed := rfl
@[simp] theorem Core.modSeq_cycle0 (k : Core) (q : SeqId) (f : Seq → Seq) : (k.modSeq q f).cycle0 = k.cycle0 := rfl
@[simp] theorem Core.modSeq_budget (k : Core) (q : SeqId) (f : Seq → Seq) : (k.modSeq q f).budget = k.budget := rfl
@[simp] theorem Core.modSeq_stamp (k : Core) (q : SeqId) (f : Seq → Seq) : (k.modSeq q f).stamp = k.stamp := rfl
@[simp] theorem Core.modSeq_liveIn (k : Core) (q : SeqId) (f : Seq → Seq) : (k.modSeq q f).liveIn = k.liveIn := rfl
@[simp] theorem Core.modSeq_rgnAddr (k : Core) (q : SeqId) (f : Seq → Seq) : (k.modSeq q f).rgnAddr = k.rgnAddr := rfl
@[simp] theorem Core.modSeq_powered (k : Core) (q : SeqId) (f : Seq → Seq) : (k.modSeq q f).powered = k.powered := rfl
@[simp] theorem Core.modSeq_alignFrom (k : Core) (q : SeqId) (f : Seq → Seq) : (k.modSeq q f).alignFrom = k.alignFrom := rfl
@[simp] theorem Core.modSeq_rcmtA (k : Core) (q : SeqId) (f : Seq → Seq) : (k.modSeq q f).rcmtA = k.rcmtA := rfl
@[simp] theorem Core.modSeq_rcmtB (k : Core) (q : SeqId) (f : Seq → Seq) : (k.modSeq q f).rcmtB = k.rcmtB := rfl
@[simp] theorem Core.modSeq_flip (k : Core) (q : SeqId) (f : Seq → Seq) : (k.modSeq q f).flip = k.flip := rfl
@[simp] theorem Core.modSeq_mirrored (k : Core) (q : SeqId) (f : Seq → Seq) : (k.modSeq q f).mirrored = k.mirrored := rfl
@[simp] theorem Core.modSeq_tiles (k : Core) (q : SeqId) (f : Seq → Seq) : (k.modSeq q f).tiles = k.tiles := rfl
@[simp] theorem Core.modSeq_masks (k : Core) (q : SeqId) (f : Seq → Seq) : (k.modSeq q f).masks = k.masks := rfl
@[simp] theorem Core.modSeq_shapes (k : Core) (q : SeqId) (f : Seq → Seq) : (k.modSeq q f).shapes = k.shapes := rfl
@[simp] theorem Core.modSeq_ports (k : Core) (q : SeqId) (f : Seq → Seq) : (k.modSeq q f).ports = k.ports := rfl
@[simp] theorem Core.modSeq_tables (k : Core) (q : SeqId) (f : Seq → Seq) : (k.modSeq q f).tables = k.tables := rfl
@[simp] theorem Core.modSeq_codebook (k : Core) (q : SeqId) (f : Seq → Seq) : (k.modSeq q f).codebook = k.codebook := rfl
@[simp] theorem Core.modSeq_banks (k : Core) (q : SeqId) (f : Seq → Seq) : (k.modSeq q f).banks = k.banks := rfl
@[simp] theorem Core.modSeq_work (k : Core) (q : SeqId) (f : Seq → Seq) : (k.modSeq q f).work = k.work := rfl
@[simp] theorem Core.modSeq_rwin (k : Core) (q : SeqId) (f : Seq → Seq) : (k.modSeq q f).rwin = k.rwin := rfl
@[simp] theorem Core.modSeq_mact (k : Core) (q : SeqId) (f : Seq → Seq) : (k.modSeq q f).mact = k.mact := rfl
@[simp] theorem Core.modSeq_mrs (k : Core) (q : SeqId) (f : Seq → Seq) : (k.modSeq q f).mrs = k.mrs := rfl
@[simp] theorem Core.modSeq_vstat (k : Core) (q : SeqId) (f : Seq → Seq) : (k.modSeq q f).vstat = k.vstat := rfl
@[simp] theorem Core.modSeq_vnew (k : Core) (q : SeqId) (f : Seq → Seq) : (k.modSeq q f).vnew = k.vnew := rfl
@[simp] theorem Core.modSeq_vcsrw (k : Core) (q : SeqId) (f : Seq → Seq) : (k.modSeq q f).vcsrw = k.vcsrw := rfl
@[simp] theorem Core.modSeq_rkey0 (k : Core) (q : SeqId) (f : Seq → Seq) : (k.modSeq q f).rkey0 = k.rkey0 := rfl
@[simp] theorem Core.modSeq_rkey1 (k : Core) (q : SeqId) (f : Seq → Seq) : (k.modSeq q f).rkey1 = k.rkey1 := rfl
@[simp] theorem Core.modSeq_rctr (k : Core) (q : SeqId) (f : Seq → Seq) : (k.modSeq q f).rctr = k.rctr := rfl
@[simp] theorem Core.modSeq_sacw (k : Core) (q : SeqId) (f : Seq → Seq) : (k.modSeq q f).sacw = k.sacw := rfl
@[simp] theorem Core.modSeq_tvec (k : Core) (q : SeqId) (f : Seq → Seq) : (k.modSeq q f).tvec = k.tvec := rfl
@[simp] theorem Core.modSeq_tsp (k : Core) (q : SeqId) (f : Seq → Seq) : (k.modSeq q f).tsp = k.tsp := rfl
@[simp] theorem Core.modSeq_tcause (k : Core) (q : SeqId) (f : Seq → Seq) : (k.modSeq q f).tcause = k.tcause := rfl
@[simp] theorem Core.modSeq_taddr (k : Core) (q : SeqId) (f : Seq → Seq) : (k.modSeq q f).taddr = k.taddr := rfl
@[simp] theorem Core.modSeq_tpc (k : Core) (q : SeqId) (f : Seq → Seq) : (k.modSeq q f).tpc = k.tpc := rfl
@[simp] theorem Core.modSeq_tcause2 (k : Core) (q : SeqId) (f : Seq → Seq) : (k.modSeq q f).tcause2 = k.tcause2 := rfl
@[simp] theorem Core.modSeq_tseq (k : Core) (q : SeqId) (f : Seq → Seq) : (k.modSeq q f).tseq = k.tseq := rfl
@[simp] theorem Core.modSeq_trgn (k : Core) (q : SeqId) (f : Seq → Seq) : (k.modSeq q f).trgn = k.trgn := rfl
@[simp] theorem Core.modSeq_dplidx (k : Core) (q : SeqId) (f : Seq → Seq) : (k.modSeq q f).dplidx = k.dplidx := rfl
@[simp] theorem Core.modSeq_domm (k : Core) (q : SeqId) (f : Seq → Seq) : (k.modSeq q f).domm = k.domm := rfl
@[simp] theorem Core.modSeq_wspace (k : Core) (q : SeqId) (f : Seq → Seq) : (k.modSeq q f).wspace = k.wspace := rfl
@[simp] theorem Core.modSeq_aspace (k : Core) (q : SeqId) (f : Seq → Seq) : (k.modSeq q f).aspace = k.aspace := rfl
@[simp] theorem Core.modSeq_blocks (k : Core) (q : SeqId) (f : Seq → Seq) : (k.modSeq q f).blocks = k.blocks := rfl
@[simp] theorem Core.modSeq_epoch (k : Core) (q : SeqId) (f : Seq → Seq) : (k.modSeq q f).epoch = k.epoch := rfl
@[simp] theorem Core.modSeq_vuFree (k : Core) (q : SeqId) (f : Seq → Seq) : (k.modSeq q f).vuFree = k.vuFree := rfl
@[simp] theorem Core.modSeq_acts (k : Core) (q : SeqId) (f : Seq → Seq) : (k.modSeq q f).acts = k.acts := rfl
@[simp] theorem Core.modSeq_held (k : Core) (q : SeqId) (f : Seq → Seq) : (k.modSeq q f).held = k.held := rfl
@[simp] theorem Core.modSeq_pushes (k : Core) (q : SeqId) (f : Seq → Seq) : (k.modSeq q f).pushes = k.pushes := rfl
@[simp] theorem Core.modSeq_mma (k : Core) (q : SeqId) (f : Seq → Seq) : (k.modSeq q f).mma = k.mma := rfl
@[simp] theorem Core.modSeq_lookup (k : Core) (q : SeqId) (f : Seq → Seq) : (k.modSeq q f).lookup = k.lookup := rfl
@[simp] theorem Core.modSeq_epi (k : Core) (q : SeqId) (f : Seq → Seq) : (k.modSeq q f).epi = k.epi := rfl
@[simp] theorem Core.modSeq_sacc (k : Core) (q : SeqId) (f : Seq → Seq) : (k.modSeq q f).sacc = k.sacc := rfl
@[simp] theorem Core.modSeq_copies (k : Core) (q : SeqId) (f : Seq → Seq) : (k.modSeq q f).copies = k.copies := rfl
@[simp] theorem Core.modSeq_copyAt (k : Core) (q : SeqId) (f : Seq → Seq) : (k.modSeq q f).copyAt = k.copyAt := rfl
@[simp] theorem Core.modSeq_liveOut (k : Core) (q : SeqId) (f : Seq → Seq) : (k.modSeq q f).liveOut = k.liveOut := rfl
@[simp] theorem Core.modSeq_ckeep (k : Core) (q : SeqId) (f : Seq → Seq) : (k.modSeq q f).ckeep = k.ckeep := rfl
@[simp] theorem Core.modSeq_liveMap (k : Core) (q : SeqId) (f : Seq → Seq) : (k.modSeq q f).liveMap = k.liveMap := rfl
@[simp] theorem Core.modSeq_realign (k : Core) (q : SeqId) (f : Seq → Seq) : (k.modSeq q f).realign = k.realign := rfl
@[simp] theorem Core.modSeq_mirrLast (k : Core) (q : SeqId) (f : Seq → Seq) : (k.modSeq q f).mirrLast = k.mirrLast := rfl
@[simp] theorem Core.modSeq_preempt (k : Core) (q : SeqId) (f : Seq → Seq) : (k.modSeq q f).preempt = k.preempt := rfl
@[simp] theorem Core.modSeq_saveKind (k : Core) (q : SeqId) (f : Seq → Seq) : (k.modSeq q f).saveKind = k.saveKind := rfl
@[simp] theorem Core.modSeq_savePark (k : Core) (q : SeqId) (f : Seq → Seq) : (k.modSeq q f).savePark = k.savePark := rfl
@[simp] theorem Core.modSeq_saveTiles (k : Core) (q : SeqId) (f : Seq → Seq) : (k.modSeq q f).saveTiles = k.saveTiles := rfl
@[simp] theorem Core.modSeq_saveDue (k : Core) (q : SeqId) (f : Seq → Seq) : (k.modSeq q f).saveDue = k.saveDue := rfl
@[simp] theorem Core.modSeq_causeUnread (k : Core) (q : SeqId) (f : Seq → Seq) : (k.modSeq q f).causeUnread = k.causeUnread := rfl
@[simp] theorem Core.modSeq_entryHot (k : Core) (q : SeqId) (f : Seq → Seq) : (k.modSeq q f).entryHot = k.entryHot := rfl
@[simp] theorem Core.modSeq_faults (k : Core) (q : SeqId) (f : Seq → Seq) : (k.modSeq q f).faults = k.faults := rfl
@[simp] theorem Core.modSeq_banksUsed (k : Core) (q : SeqId) (f : Seq → Seq) : (k.modSeq q f).banksUsed = k.banksUsed := rfl
@[simp] theorem Core.modSeq_banksCycle (k : Core) (q : SeqId) (f : Seq → Seq) : (k.modSeq q f).banksCycle = k.banksCycle := rfl
@[simp] theorem Core.modSeq_wlog (k : Core) (q : SeqId) (f : Seq → Seq) : (k.modSeq q f).wlog = k.wlog := rfl
@[simp] theorem Core.modSeq_softRun (k : Core) (q : SeqId) (f : Seq → Seq) : (k.modSeq q f).softRun = k.softRun := rfl
@[simp] theorem Core.modSeq_softCount (k : Core) (q : SeqId) (f : Seq → Seq) : (k.modSeq q f).softCount = k.softCount := rfl
@[simp] theorem Core.modSeq_tracker (k : Core) (q : SeqId) (f : Seq → Seq) : (k.modSeq q f).tracker = k.tracker := rfl
@[simp] theorem Core.modSeq_bufStamp (k : Core) (q : SeqId) (f : Seq → Seq) : (k.modSeq q f).bufStamp = k.bufStamp := rfl
@[simp] theorem Core.modSeq_past (k : Core) (q : SeqId) (f : Seq → Seq) : (k.modSeq q f).past = k.past := rfl
@[simp] theorem Core.modSeq_tlb (k : Core) (q : SeqId) (f : Seq → Seq) : (k.modSeq q f).tlb = k.tlb := rfl
@[simp] theorem Core.modSeq_units (k : Core) (q : SeqId) (f : Seq → Seq) : (k.modSeq q f).units = k.units := rfl
@[simp] theorem Core.modSeq_taint (k : Core) (q : SeqId) (f : Seq → Seq) : (k.modSeq q f).taint = k.taint := rfl

@[simp] theorem Core.dropAct_task (k : Core) (id : Nat) : (k.dropAct id).task = k.task := rfl
@[simp] theorem Core.dropAct_rank (k : Core) (id : Nat) : (k.dropAct id).rank = k.rank := rfl
@[simp] theorem Core.dropAct_phase (k : Core) (id : Nat) : (k.dropAct id).phase = k.phase := rfl
@[simp] theorem Core.dropAct_seqs (k : Core) (id : Nat) : (k.dropAct id).seqs = k.seqs := rfl
@[simp] theorem Core.dropAct_snaps (k : Core) (id : Nat) : (k.dropAct id).snaps = k.snaps := rfl
@[simp] theorem Core.dropAct_snap (k : Core) (id : Nat) : (k.dropAct id).snap = k.snap := rfl
@[simp] theorem Core.dropAct_tokens (k : Core) (id : Nat) : (k.dropAct id).tokens = k.tokens := rfl
@[simp] theorem Core.dropAct_overflowed (k : Core) (id : Nat) : (k.dropAct id).overflowed = k.overflowed := rfl
@[simp] theorem Core.dropAct_covers (k : Core) (id : Nat) : (k.dropAct id).covers = k.covers := rfl
@[simp] theorem Core.dropAct_timed (k : Core) (id : Nat) : (k.dropAct id).timed = k.timed := rfl
@[simp] theorem Core.dropAct_cycle0 (k : Core) (id : Nat) : (k.dropAct id).cycle0 = k.cycle0 := rfl
@[simp] theorem Core.dropAct_budget (k : Core) (id : Nat) : (k.dropAct id).budget = k.budget := rfl
@[simp] theorem Core.dropAct_stamp (k : Core) (id : Nat) : (k.dropAct id).stamp = k.stamp := rfl
@[simp] theorem Core.dropAct_liveIn (k : Core) (id : Nat) : (k.dropAct id).liveIn = k.liveIn := rfl
@[simp] theorem Core.dropAct_rgnAddr (k : Core) (id : Nat) : (k.dropAct id).rgnAddr = k.rgnAddr := rfl
@[simp] theorem Core.dropAct_powered (k : Core) (id : Nat) : (k.dropAct id).powered = k.powered := rfl
@[simp] theorem Core.dropAct_alignFrom (k : Core) (id : Nat) : (k.dropAct id).alignFrom = k.alignFrom := rfl
@[simp] theorem Core.dropAct_rcmtA (k : Core) (id : Nat) : (k.dropAct id).rcmtA = k.rcmtA := rfl
@[simp] theorem Core.dropAct_rcmtB (k : Core) (id : Nat) : (k.dropAct id).rcmtB = k.rcmtB := rfl
@[simp] theorem Core.dropAct_flip (k : Core) (id : Nat) : (k.dropAct id).flip = k.flip := rfl
@[simp] theorem Core.dropAct_mirrored (k : Core) (id : Nat) : (k.dropAct id).mirrored = k.mirrored := rfl
@[simp] theorem Core.dropAct_tiles (k : Core) (id : Nat) : (k.dropAct id).tiles = k.tiles := rfl
@[simp] theorem Core.dropAct_masks (k : Core) (id : Nat) : (k.dropAct id).masks = k.masks := rfl
@[simp] theorem Core.dropAct_shapes (k : Core) (id : Nat) : (k.dropAct id).shapes = k.shapes := rfl
@[simp] theorem Core.dropAct_ports (k : Core) (id : Nat) : (k.dropAct id).ports = k.ports := rfl
@[simp] theorem Core.dropAct_tables (k : Core) (id : Nat) : (k.dropAct id).tables = k.tables := rfl
@[simp] theorem Core.dropAct_codebook (k : Core) (id : Nat) : (k.dropAct id).codebook = k.codebook := rfl
@[simp] theorem Core.dropAct_banks (k : Core) (id : Nat) : (k.dropAct id).banks = k.banks := rfl
@[simp] theorem Core.dropAct_work (k : Core) (id : Nat) : (k.dropAct id).work = k.work := rfl
@[simp] theorem Core.dropAct_rwin (k : Core) (id : Nat) : (k.dropAct id).rwin = k.rwin := rfl
@[simp] theorem Core.dropAct_mact (k : Core) (id : Nat) : (k.dropAct id).mact = k.mact := rfl
@[simp] theorem Core.dropAct_mrs (k : Core) (id : Nat) : (k.dropAct id).mrs = k.mrs := rfl
@[simp] theorem Core.dropAct_vstat (k : Core) (id : Nat) : (k.dropAct id).vstat = k.vstat := rfl
@[simp] theorem Core.dropAct_vnew (k : Core) (id : Nat) : (k.dropAct id).vnew = k.vnew := rfl
@[simp] theorem Core.dropAct_vcsrw (k : Core) (id : Nat) : (k.dropAct id).vcsrw = k.vcsrw := rfl
@[simp] theorem Core.dropAct_rkey0 (k : Core) (id : Nat) : (k.dropAct id).rkey0 = k.rkey0 := rfl
@[simp] theorem Core.dropAct_rkey1 (k : Core) (id : Nat) : (k.dropAct id).rkey1 = k.rkey1 := rfl
@[simp] theorem Core.dropAct_rctr (k : Core) (id : Nat) : (k.dropAct id).rctr = k.rctr := rfl
@[simp] theorem Core.dropAct_sacw (k : Core) (id : Nat) : (k.dropAct id).sacw = k.sacw := rfl
@[simp] theorem Core.dropAct_tvec (k : Core) (id : Nat) : (k.dropAct id).tvec = k.tvec := rfl
@[simp] theorem Core.dropAct_tsp (k : Core) (id : Nat) : (k.dropAct id).tsp = k.tsp := rfl
@[simp] theorem Core.dropAct_tcause (k : Core) (id : Nat) : (k.dropAct id).tcause = k.tcause := rfl
@[simp] theorem Core.dropAct_taddr (k : Core) (id : Nat) : (k.dropAct id).taddr = k.taddr := rfl
@[simp] theorem Core.dropAct_tpc (k : Core) (id : Nat) : (k.dropAct id).tpc = k.tpc := rfl
@[simp] theorem Core.dropAct_tcause2 (k : Core) (id : Nat) : (k.dropAct id).tcause2 = k.tcause2 := rfl
@[simp] theorem Core.dropAct_tseq (k : Core) (id : Nat) : (k.dropAct id).tseq = k.tseq := rfl
@[simp] theorem Core.dropAct_trgn (k : Core) (id : Nat) : (k.dropAct id).trgn = k.trgn := rfl
@[simp] theorem Core.dropAct_dplidx (k : Core) (id : Nat) : (k.dropAct id).dplidx = k.dplidx := rfl
@[simp] theorem Core.dropAct_domm (k : Core) (id : Nat) : (k.dropAct id).domm = k.domm := rfl
@[simp] theorem Core.dropAct_wspace (k : Core) (id : Nat) : (k.dropAct id).wspace = k.wspace := rfl
@[simp] theorem Core.dropAct_aspace (k : Core) (id : Nat) : (k.dropAct id).aspace = k.aspace := rfl
@[simp] theorem Core.dropAct_blocks (k : Core) (id : Nat) : (k.dropAct id).blocks = k.blocks := rfl
@[simp] theorem Core.dropAct_epoch (k : Core) (id : Nat) : (k.dropAct id).epoch = k.epoch := rfl
@[simp] theorem Core.dropAct_vuFree (k : Core) (id : Nat) : (k.dropAct id).vuFree = k.vuFree := rfl
@[simp] theorem Core.dropAct_held (k : Core) (id : Nat) : (k.dropAct id).held = k.held := rfl
@[simp] theorem Core.dropAct_pushes (k : Core) (id : Nat) : (k.dropAct id).pushes = k.pushes := rfl
@[simp] theorem Core.dropAct_mma (k : Core) (id : Nat) : (k.dropAct id).mma = k.mma := rfl
@[simp] theorem Core.dropAct_lookup (k : Core) (id : Nat) : (k.dropAct id).lookup = k.lookup := rfl
@[simp] theorem Core.dropAct_epi (k : Core) (id : Nat) : (k.dropAct id).epi = k.epi := rfl
@[simp] theorem Core.dropAct_sacc (k : Core) (id : Nat) : (k.dropAct id).sacc = k.sacc := rfl
@[simp] theorem Core.dropAct_copies (k : Core) (id : Nat) : (k.dropAct id).copies = k.copies := rfl
@[simp] theorem Core.dropAct_copyAt (k : Core) (id : Nat) : (k.dropAct id).copyAt = k.copyAt := rfl
@[simp] theorem Core.dropAct_liveOut (k : Core) (id : Nat) : (k.dropAct id).liveOut = k.liveOut := rfl
@[simp] theorem Core.dropAct_ckeep (k : Core) (id : Nat) : (k.dropAct id).ckeep = k.ckeep := rfl
@[simp] theorem Core.dropAct_liveMap (k : Core) (id : Nat) : (k.dropAct id).liveMap = k.liveMap := rfl
@[simp] theorem Core.dropAct_realign (k : Core) (id : Nat) : (k.dropAct id).realign = k.realign := rfl
@[simp] theorem Core.dropAct_mirrLast (k : Core) (id : Nat) : (k.dropAct id).mirrLast = k.mirrLast := rfl
@[simp] theorem Core.dropAct_preempt (k : Core) (id : Nat) : (k.dropAct id).preempt = k.preempt := rfl
@[simp] theorem Core.dropAct_saveKind (k : Core) (id : Nat) : (k.dropAct id).saveKind = k.saveKind := rfl
@[simp] theorem Core.dropAct_savePark (k : Core) (id : Nat) : (k.dropAct id).savePark = k.savePark := rfl
@[simp] theorem Core.dropAct_saveTiles (k : Core) (id : Nat) : (k.dropAct id).saveTiles = k.saveTiles := rfl
@[simp] theorem Core.dropAct_saveDue (k : Core) (id : Nat) : (k.dropAct id).saveDue = k.saveDue := rfl
@[simp] theorem Core.dropAct_causeUnread (k : Core) (id : Nat) : (k.dropAct id).causeUnread = k.causeUnread := rfl
@[simp] theorem Core.dropAct_entryHot (k : Core) (id : Nat) : (k.dropAct id).entryHot = k.entryHot := rfl
@[simp] theorem Core.dropAct_faults (k : Core) (id : Nat) : (k.dropAct id).faults = k.faults := rfl
@[simp] theorem Core.dropAct_banksUsed (k : Core) (id : Nat) : (k.dropAct id).banksUsed = k.banksUsed := rfl
@[simp] theorem Core.dropAct_banksCycle (k : Core) (id : Nat) : (k.dropAct id).banksCycle = k.banksCycle := rfl
@[simp] theorem Core.dropAct_wlog (k : Core) (id : Nat) : (k.dropAct id).wlog = k.wlog := rfl
@[simp] theorem Core.dropAct_softRun (k : Core) (id : Nat) : (k.dropAct id).softRun = k.softRun := rfl
@[simp] theorem Core.dropAct_softCount (k : Core) (id : Nat) : (k.dropAct id).softCount = k.softCount := rfl
@[simp] theorem Core.dropAct_tracker (k : Core) (id : Nat) : (k.dropAct id).tracker = k.tracker := rfl
@[simp] theorem Core.dropAct_bufStamp (k : Core) (id : Nat) : (k.dropAct id).bufStamp = k.bufStamp := rfl
@[simp] theorem Core.dropAct_past (k : Core) (id : Nat) : (k.dropAct id).past = k.past := rfl
@[simp] theorem Core.dropAct_tlb (k : Core) (id : Nat) : (k.dropAct id).tlb = k.tlb := rfl
@[simp] theorem Core.dropAct_units (k : Core) (id : Nat) : (k.dropAct id).units = k.units := rfl
@[simp] theorem Core.dropAct_taint (k : Core) (id : Nat) : (k.dropAct id).taint = k.taint := rfl

@[simp] theorem Core.addStatus_task (k : Core) (st : Status) : (k.addStatus st).task = k.task := by unfold Core.addStatus; split <;> rfl
@[simp] theorem Core.addStatus_rank (k : Core) (st : Status) : (k.addStatus st).rank = k.rank := by unfold Core.addStatus; split <;> rfl
@[simp] theorem Core.addStatus_phase (k : Core) (st : Status) : (k.addStatus st).phase = k.phase := by unfold Core.addStatus; split <;> rfl
@[simp] theorem Core.addStatus_seqs (k : Core) (st : Status) : (k.addStatus st).seqs = k.seqs := by unfold Core.addStatus; split <;> rfl
@[simp] theorem Core.addStatus_snaps (k : Core) (st : Status) : (k.addStatus st).snaps = k.snaps := by unfold Core.addStatus; split <;> rfl
@[simp] theorem Core.addStatus_snap (k : Core) (st : Status) : (k.addStatus st).snap = k.snap := by unfold Core.addStatus; split <;> rfl
@[simp] theorem Core.addStatus_tokens (k : Core) (st : Status) : (k.addStatus st).tokens = k.tokens := by unfold Core.addStatus; split <;> rfl
@[simp] theorem Core.addStatus_overflowed (k : Core) (st : Status) : (k.addStatus st).overflowed = k.overflowed := by unfold Core.addStatus; split <;> rfl
@[simp] theorem Core.addStatus_covers (k : Core) (st : Status) : (k.addStatus st).covers = k.covers := by unfold Core.addStatus; split <;> rfl
@[simp] theorem Core.addStatus_timed (k : Core) (st : Status) : (k.addStatus st).timed = k.timed := by unfold Core.addStatus; split <;> rfl
@[simp] theorem Core.addStatus_cycle0 (k : Core) (st : Status) : (k.addStatus st).cycle0 = k.cycle0 := by unfold Core.addStatus; split <;> rfl
@[simp] theorem Core.addStatus_budget (k : Core) (st : Status) : (k.addStatus st).budget = k.budget := by unfold Core.addStatus; split <;> rfl
@[simp] theorem Core.addStatus_stamp (k : Core) (st : Status) : (k.addStatus st).stamp = k.stamp := by unfold Core.addStatus; split <;> rfl
@[simp] theorem Core.addStatus_liveIn (k : Core) (st : Status) : (k.addStatus st).liveIn = k.liveIn := by unfold Core.addStatus; split <;> rfl
@[simp] theorem Core.addStatus_rgnAddr (k : Core) (st : Status) : (k.addStatus st).rgnAddr = k.rgnAddr := by unfold Core.addStatus; split <;> rfl
@[simp] theorem Core.addStatus_powered (k : Core) (st : Status) : (k.addStatus st).powered = k.powered := by unfold Core.addStatus; split <;> rfl
@[simp] theorem Core.addStatus_alignFrom (k : Core) (st : Status) : (k.addStatus st).alignFrom = k.alignFrom := by unfold Core.addStatus; split <;> rfl
@[simp] theorem Core.addStatus_rcmtA (k : Core) (st : Status) : (k.addStatus st).rcmtA = k.rcmtA := by unfold Core.addStatus; split <;> rfl
@[simp] theorem Core.addStatus_rcmtB (k : Core) (st : Status) : (k.addStatus st).rcmtB = k.rcmtB := by unfold Core.addStatus; split <;> rfl
@[simp] theorem Core.addStatus_flip (k : Core) (st : Status) : (k.addStatus st).flip = k.flip := by unfold Core.addStatus; split <;> rfl
@[simp] theorem Core.addStatus_mirrored (k : Core) (st : Status) : (k.addStatus st).mirrored = k.mirrored := by unfold Core.addStatus; split <;> rfl
@[simp] theorem Core.addStatus_tiles (k : Core) (st : Status) : (k.addStatus st).tiles = k.tiles := by unfold Core.addStatus; split <;> rfl
@[simp] theorem Core.addStatus_masks (k : Core) (st : Status) : (k.addStatus st).masks = k.masks := by unfold Core.addStatus; split <;> rfl
@[simp] theorem Core.addStatus_shapes (k : Core) (st : Status) : (k.addStatus st).shapes = k.shapes := by unfold Core.addStatus; split <;> rfl
@[simp] theorem Core.addStatus_ports (k : Core) (st : Status) : (k.addStatus st).ports = k.ports := by unfold Core.addStatus; split <;> rfl
@[simp] theorem Core.addStatus_tables (k : Core) (st : Status) : (k.addStatus st).tables = k.tables := by unfold Core.addStatus; split <;> rfl
@[simp] theorem Core.addStatus_codebook (k : Core) (st : Status) : (k.addStatus st).codebook = k.codebook := by unfold Core.addStatus; split <;> rfl
@[simp] theorem Core.addStatus_banks (k : Core) (st : Status) : (k.addStatus st).banks = k.banks := by unfold Core.addStatus; split <;> rfl
@[simp] theorem Core.addStatus_work (k : Core) (st : Status) : (k.addStatus st).work = k.work := by unfold Core.addStatus; split <;> rfl
@[simp] theorem Core.addStatus_rwin (k : Core) (st : Status) : (k.addStatus st).rwin = k.rwin := by unfold Core.addStatus; split <;> rfl
@[simp] theorem Core.addStatus_mact (k : Core) (st : Status) : (k.addStatus st).mact = k.mact := by unfold Core.addStatus; split <;> rfl
@[simp] theorem Core.addStatus_mrs (k : Core) (st : Status) : (k.addStatus st).mrs = k.mrs := by unfold Core.addStatus; split <;> rfl
@[simp] theorem Core.addStatus_vcsrw (k : Core) (st : Status) : (k.addStatus st).vcsrw = k.vcsrw := by unfold Core.addStatus; split <;> rfl
@[simp] theorem Core.addStatus_rkey0 (k : Core) (st : Status) : (k.addStatus st).rkey0 = k.rkey0 := by unfold Core.addStatus; split <;> rfl
@[simp] theorem Core.addStatus_rkey1 (k : Core) (st : Status) : (k.addStatus st).rkey1 = k.rkey1 := by unfold Core.addStatus; split <;> rfl
@[simp] theorem Core.addStatus_rctr (k : Core) (st : Status) : (k.addStatus st).rctr = k.rctr := by unfold Core.addStatus; split <;> rfl
@[simp] theorem Core.addStatus_sacw (k : Core) (st : Status) : (k.addStatus st).sacw = k.sacw := by unfold Core.addStatus; split <;> rfl
@[simp] theorem Core.addStatus_tvec (k : Core) (st : Status) : (k.addStatus st).tvec = k.tvec := by unfold Core.addStatus; split <;> rfl
@[simp] theorem Core.addStatus_tsp (k : Core) (st : Status) : (k.addStatus st).tsp = k.tsp := by unfold Core.addStatus; split <;> rfl
@[simp] theorem Core.addStatus_tcause (k : Core) (st : Status) : (k.addStatus st).tcause = k.tcause := by unfold Core.addStatus; split <;> rfl
@[simp] theorem Core.addStatus_taddr (k : Core) (st : Status) : (k.addStatus st).taddr = k.taddr := by unfold Core.addStatus; split <;> rfl
@[simp] theorem Core.addStatus_tpc (k : Core) (st : Status) : (k.addStatus st).tpc = k.tpc := by unfold Core.addStatus; split <;> rfl
@[simp] theorem Core.addStatus_tcause2 (k : Core) (st : Status) : (k.addStatus st).tcause2 = k.tcause2 := by unfold Core.addStatus; split <;> rfl
@[simp] theorem Core.addStatus_tseq (k : Core) (st : Status) : (k.addStatus st).tseq = k.tseq := by unfold Core.addStatus; split <;> rfl
@[simp] theorem Core.addStatus_trgn (k : Core) (st : Status) : (k.addStatus st).trgn = k.trgn := by unfold Core.addStatus; split <;> rfl
@[simp] theorem Core.addStatus_dplidx (k : Core) (st : Status) : (k.addStatus st).dplidx = k.dplidx := by unfold Core.addStatus; split <;> rfl
@[simp] theorem Core.addStatus_domm (k : Core) (st : Status) : (k.addStatus st).domm = k.domm := by unfold Core.addStatus; split <;> rfl
@[simp] theorem Core.addStatus_wspace (k : Core) (st : Status) : (k.addStatus st).wspace = k.wspace := by unfold Core.addStatus; split <;> rfl
@[simp] theorem Core.addStatus_aspace (k : Core) (st : Status) : (k.addStatus st).aspace = k.aspace := by unfold Core.addStatus; split <;> rfl
@[simp] theorem Core.addStatus_blocks (k : Core) (st : Status) : (k.addStatus st).blocks = k.blocks := by unfold Core.addStatus; split <;> rfl
@[simp] theorem Core.addStatus_epoch (k : Core) (st : Status) : (k.addStatus st).epoch = k.epoch := by unfold Core.addStatus; split <;> rfl
@[simp] theorem Core.addStatus_vuFree (k : Core) (st : Status) : (k.addStatus st).vuFree = k.vuFree := by unfold Core.addStatus; split <;> rfl
@[simp] theorem Core.addStatus_acts (k : Core) (st : Status) : (k.addStatus st).acts = k.acts := by unfold Core.addStatus; split <;> rfl
@[simp] theorem Core.addStatus_held (k : Core) (st : Status) : (k.addStatus st).held = k.held := by unfold Core.addStatus; split <;> rfl
@[simp] theorem Core.addStatus_pushes (k : Core) (st : Status) : (k.addStatus st).pushes = k.pushes := by unfold Core.addStatus; split <;> rfl
@[simp] theorem Core.addStatus_mma (k : Core) (st : Status) : (k.addStatus st).mma = k.mma := by unfold Core.addStatus; split <;> rfl
@[simp] theorem Core.addStatus_lookup (k : Core) (st : Status) : (k.addStatus st).lookup = k.lookup := by unfold Core.addStatus; split <;> rfl
@[simp] theorem Core.addStatus_epi (k : Core) (st : Status) : (k.addStatus st).epi = k.epi := by unfold Core.addStatus; split <;> rfl
@[simp] theorem Core.addStatus_sacc (k : Core) (st : Status) : (k.addStatus st).sacc = k.sacc := by unfold Core.addStatus; split <;> rfl
@[simp] theorem Core.addStatus_copies (k : Core) (st : Status) : (k.addStatus st).copies = k.copies := by unfold Core.addStatus; split <;> rfl
@[simp] theorem Core.addStatus_copyAt (k : Core) (st : Status) : (k.addStatus st).copyAt = k.copyAt := by unfold Core.addStatus; split <;> rfl
@[simp] theorem Core.addStatus_liveOut (k : Core) (st : Status) : (k.addStatus st).liveOut = k.liveOut := by unfold Core.addStatus; split <;> rfl
@[simp] theorem Core.addStatus_ckeep (k : Core) (st : Status) : (k.addStatus st).ckeep = k.ckeep := by unfold Core.addStatus; split <;> rfl
@[simp] theorem Core.addStatus_liveMap (k : Core) (st : Status) : (k.addStatus st).liveMap = k.liveMap := by unfold Core.addStatus; split <;> rfl
@[simp] theorem Core.addStatus_realign (k : Core) (st : Status) : (k.addStatus st).realign = k.realign := by unfold Core.addStatus; split <;> rfl
@[simp] theorem Core.addStatus_mirrLast (k : Core) (st : Status) : (k.addStatus st).mirrLast = k.mirrLast := by unfold Core.addStatus; split <;> rfl
@[simp] theorem Core.addStatus_preempt (k : Core) (st : Status) : (k.addStatus st).preempt = k.preempt := by unfold Core.addStatus; split <;> rfl
@[simp] theorem Core.addStatus_saveKind (k : Core) (st : Status) : (k.addStatus st).saveKind = k.saveKind := by unfold Core.addStatus; split <;> rfl
@[simp] theorem Core.addStatus_savePark (k : Core) (st : Status) : (k.addStatus st).savePark = k.savePark := by unfold Core.addStatus; split <;> rfl
@[simp] theorem Core.addStatus_saveTiles (k : Core) (st : Status) : (k.addStatus st).saveTiles = k.saveTiles := by unfold Core.addStatus; split <;> rfl
@[simp] theorem Core.addStatus_saveDue (k : Core) (st : Status) : (k.addStatus st).saveDue = k.saveDue := by unfold Core.addStatus; split <;> rfl
@[simp] theorem Core.addStatus_causeUnread (k : Core) (st : Status) : (k.addStatus st).causeUnread = k.causeUnread := by unfold Core.addStatus; split <;> rfl
@[simp] theorem Core.addStatus_entryHot (k : Core) (st : Status) : (k.addStatus st).entryHot = k.entryHot := by unfold Core.addStatus; split <;> rfl
@[simp] theorem Core.addStatus_faults (k : Core) (st : Status) : (k.addStatus st).faults = k.faults := by unfold Core.addStatus; split <;> rfl
@[simp] theorem Core.addStatus_banksUsed (k : Core) (st : Status) : (k.addStatus st).banksUsed = k.banksUsed := by unfold Core.addStatus; split <;> rfl
@[simp] theorem Core.addStatus_banksCycle (k : Core) (st : Status) : (k.addStatus st).banksCycle = k.banksCycle := by unfold Core.addStatus; split <;> rfl
@[simp] theorem Core.addStatus_wlog (k : Core) (st : Status) : (k.addStatus st).wlog = k.wlog := by unfold Core.addStatus; split <;> rfl
@[simp] theorem Core.addStatus_softRun (k : Core) (st : Status) : (k.addStatus st).softRun = k.softRun := by unfold Core.addStatus; split <;> rfl
@[simp] theorem Core.addStatus_softCount (k : Core) (st : Status) : (k.addStatus st).softCount = k.softCount := by unfold Core.addStatus; split <;> rfl
@[simp] theorem Core.addStatus_tracker (k : Core) (st : Status) : (k.addStatus st).tracker = k.tracker := by unfold Core.addStatus; split <;> rfl
@[simp] theorem Core.addStatus_bufStamp (k : Core) (st : Status) : (k.addStatus st).bufStamp = k.bufStamp := by unfold Core.addStatus; split <;> rfl
@[simp] theorem Core.addStatus_past (k : Core) (st : Status) : (k.addStatus st).past = k.past := by unfold Core.addStatus; split <;> rfl
@[simp] theorem Core.addStatus_tlb (k : Core) (st : Status) : (k.addStatus st).tlb = k.tlb := by unfold Core.addStatus; split <;> rfl
@[simp] theorem Core.addStatus_units (k : Core) (st : Status) : (k.addStatus st).units = k.units := by unfold Core.addStatus; split <;> rfl
@[simp] theorem Core.addStatus_taint (k : Core) (st : Status) : (k.addStatus st).taint = k.taint := by unfold Core.addStatus; split <;> rfl

@[simp] theorem Core.setTileRow_task (k : Core) (t r : Nat) (lanes : W64) (v : Row) : (k.setTileRow t r lanes v).task = k.task := rfl
@[simp] theorem Core.setTileRow_rank (k : Core) (t r : Nat) (lanes : W64) (v : Row) : (k.setTileRow t r lanes v).rank = k.rank := rfl
@[simp] theorem Core.setTileRow_phase (k : Core) (t r : Nat) (lanes : W64) (v : Row) : (k.setTileRow t r lanes v).phase = k.phase := rfl
@[simp] theorem Core.setTileRow_seqs (k : Core) (t r : Nat) (lanes : W64) (v : Row) : (k.setTileRow t r lanes v).seqs = k.seqs := rfl
@[simp] theorem Core.setTileRow_snaps (k : Core) (t r : Nat) (lanes : W64) (v : Row) : (k.setTileRow t r lanes v).snaps = k.snaps := rfl
@[simp] theorem Core.setTileRow_snap (k : Core) (t r : Nat) (lanes : W64) (v : Row) : (k.setTileRow t r lanes v).snap = k.snap := rfl
@[simp] theorem Core.setTileRow_tokens (k : Core) (t r : Nat) (lanes : W64) (v : Row) : (k.setTileRow t r lanes v).tokens = k.tokens := rfl
@[simp] theorem Core.setTileRow_overflowed (k : Core) (t r : Nat) (lanes : W64) (v : Row) : (k.setTileRow t r lanes v).overflowed = k.overflowed := rfl
@[simp] theorem Core.setTileRow_covers (k : Core) (t r : Nat) (lanes : W64) (v : Row) : (k.setTileRow t r lanes v).covers = k.covers := rfl
@[simp] theorem Core.setTileRow_timed (k : Core) (t r : Nat) (lanes : W64) (v : Row) : (k.setTileRow t r lanes v).timed = k.timed := rfl
@[simp] theorem Core.setTileRow_cycle0 (k : Core) (t r : Nat) (lanes : W64) (v : Row) : (k.setTileRow t r lanes v).cycle0 = k.cycle0 := rfl
@[simp] theorem Core.setTileRow_budget (k : Core) (t r : Nat) (lanes : W64) (v : Row) : (k.setTileRow t r lanes v).budget = k.budget := rfl
@[simp] theorem Core.setTileRow_stamp (k : Core) (t r : Nat) (lanes : W64) (v : Row) : (k.setTileRow t r lanes v).stamp = k.stamp := rfl
@[simp] theorem Core.setTileRow_liveIn (k : Core) (t r : Nat) (lanes : W64) (v : Row) : (k.setTileRow t r lanes v).liveIn = k.liveIn := rfl
@[simp] theorem Core.setTileRow_rgnAddr (k : Core) (t r : Nat) (lanes : W64) (v : Row) : (k.setTileRow t r lanes v).rgnAddr = k.rgnAddr := rfl
@[simp] theorem Core.setTileRow_powered (k : Core) (t r : Nat) (lanes : W64) (v : Row) : (k.setTileRow t r lanes v).powered = k.powered := rfl
@[simp] theorem Core.setTileRow_alignFrom (k : Core) (t r : Nat) (lanes : W64) (v : Row) : (k.setTileRow t r lanes v).alignFrom = k.alignFrom := rfl
@[simp] theorem Core.setTileRow_rcmtA (k : Core) (t r : Nat) (lanes : W64) (v : Row) : (k.setTileRow t r lanes v).rcmtA = k.rcmtA := rfl
@[simp] theorem Core.setTileRow_rcmtB (k : Core) (t r : Nat) (lanes : W64) (v : Row) : (k.setTileRow t r lanes v).rcmtB = k.rcmtB := rfl
@[simp] theorem Core.setTileRow_flip (k : Core) (t r : Nat) (lanes : W64) (v : Row) : (k.setTileRow t r lanes v).flip = k.flip := rfl
@[simp] theorem Core.setTileRow_mirrored (k : Core) (t r : Nat) (lanes : W64) (v : Row) : (k.setTileRow t r lanes v).mirrored = k.mirrored := rfl
@[simp] theorem Core.setTileRow_masks (k : Core) (t r : Nat) (lanes : W64) (v : Row) : (k.setTileRow t r lanes v).masks = k.masks := rfl
@[simp] theorem Core.setTileRow_shapes (k : Core) (t r : Nat) (lanes : W64) (v : Row) : (k.setTileRow t r lanes v).shapes = k.shapes := rfl
@[simp] theorem Core.setTileRow_ports (k : Core) (t r : Nat) (lanes : W64) (v : Row) : (k.setTileRow t r lanes v).ports = k.ports := rfl
@[simp] theorem Core.setTileRow_tables (k : Core) (t r : Nat) (lanes : W64) (v : Row) : (k.setTileRow t r lanes v).tables = k.tables := rfl
@[simp] theorem Core.setTileRow_codebook (k : Core) (t r : Nat) (lanes : W64) (v : Row) : (k.setTileRow t r lanes v).codebook = k.codebook := rfl
@[simp] theorem Core.setTileRow_banks (k : Core) (t r : Nat) (lanes : W64) (v : Row) : (k.setTileRow t r lanes v).banks = k.banks := rfl
@[simp] theorem Core.setTileRow_work (k : Core) (t r : Nat) (lanes : W64) (v : Row) : (k.setTileRow t r lanes v).work = k.work := rfl
@[simp] theorem Core.setTileRow_rwin (k : Core) (t r : Nat) (lanes : W64) (v : Row) : (k.setTileRow t r lanes v).rwin = k.rwin := rfl
@[simp] theorem Core.setTileRow_mact (k : Core) (t r : Nat) (lanes : W64) (v : Row) : (k.setTileRow t r lanes v).mact = k.mact := rfl
@[simp] theorem Core.setTileRow_mrs (k : Core) (t r : Nat) (lanes : W64) (v : Row) : (k.setTileRow t r lanes v).mrs = k.mrs := rfl
@[simp] theorem Core.setTileRow_vstat (k : Core) (t r : Nat) (lanes : W64) (v : Row) : (k.setTileRow t r lanes v).vstat = k.vstat := rfl
@[simp] theorem Core.setTileRow_vnew (k : Core) (t r : Nat) (lanes : W64) (v : Row) : (k.setTileRow t r lanes v).vnew = k.vnew := rfl
@[simp] theorem Core.setTileRow_vcsrw (k : Core) (t r : Nat) (lanes : W64) (v : Row) : (k.setTileRow t r lanes v).vcsrw = k.vcsrw := rfl
@[simp] theorem Core.setTileRow_rkey0 (k : Core) (t r : Nat) (lanes : W64) (v : Row) : (k.setTileRow t r lanes v).rkey0 = k.rkey0 := rfl
@[simp] theorem Core.setTileRow_rkey1 (k : Core) (t r : Nat) (lanes : W64) (v : Row) : (k.setTileRow t r lanes v).rkey1 = k.rkey1 := rfl
@[simp] theorem Core.setTileRow_rctr (k : Core) (t r : Nat) (lanes : W64) (v : Row) : (k.setTileRow t r lanes v).rctr = k.rctr := rfl
@[simp] theorem Core.setTileRow_sacw (k : Core) (t r : Nat) (lanes : W64) (v : Row) : (k.setTileRow t r lanes v).sacw = k.sacw := rfl
@[simp] theorem Core.setTileRow_tvec (k : Core) (t r : Nat) (lanes : W64) (v : Row) : (k.setTileRow t r lanes v).tvec = k.tvec := rfl
@[simp] theorem Core.setTileRow_tsp (k : Core) (t r : Nat) (lanes : W64) (v : Row) : (k.setTileRow t r lanes v).tsp = k.tsp := rfl
@[simp] theorem Core.setTileRow_tcause (k : Core) (t r : Nat) (lanes : W64) (v : Row) : (k.setTileRow t r lanes v).tcause = k.tcause := rfl
@[simp] theorem Core.setTileRow_taddr (k : Core) (t r : Nat) (lanes : W64) (v : Row) : (k.setTileRow t r lanes v).taddr = k.taddr := rfl
@[simp] theorem Core.setTileRow_tpc (k : Core) (t r : Nat) (lanes : W64) (v : Row) : (k.setTileRow t r lanes v).tpc = k.tpc := rfl
@[simp] theorem Core.setTileRow_tcause2 (k : Core) (t r : Nat) (lanes : W64) (v : Row) : (k.setTileRow t r lanes v).tcause2 = k.tcause2 := rfl
@[simp] theorem Core.setTileRow_tseq (k : Core) (t r : Nat) (lanes : W64) (v : Row) : (k.setTileRow t r lanes v).tseq = k.tseq := rfl
@[simp] theorem Core.setTileRow_trgn (k : Core) (t r : Nat) (lanes : W64) (v : Row) : (k.setTileRow t r lanes v).trgn = k.trgn := rfl
@[simp] theorem Core.setTileRow_dplidx (k : Core) (t r : Nat) (lanes : W64) (v : Row) : (k.setTileRow t r lanes v).dplidx = k.dplidx := rfl
@[simp] theorem Core.setTileRow_domm (k : Core) (t r : Nat) (lanes : W64) (v : Row) : (k.setTileRow t r lanes v).domm = k.domm := rfl
@[simp] theorem Core.setTileRow_wspace (k : Core) (t r : Nat) (lanes : W64) (v : Row) : (k.setTileRow t r lanes v).wspace = k.wspace := rfl
@[simp] theorem Core.setTileRow_aspace (k : Core) (t r : Nat) (lanes : W64) (v : Row) : (k.setTileRow t r lanes v).aspace = k.aspace := rfl
@[simp] theorem Core.setTileRow_blocks (k : Core) (t r : Nat) (lanes : W64) (v : Row) : (k.setTileRow t r lanes v).blocks = k.blocks := rfl
@[simp] theorem Core.setTileRow_epoch (k : Core) (t r : Nat) (lanes : W64) (v : Row) : (k.setTileRow t r lanes v).epoch = k.epoch := rfl
@[simp] theorem Core.setTileRow_vuFree (k : Core) (t r : Nat) (lanes : W64) (v : Row) : (k.setTileRow t r lanes v).vuFree = k.vuFree := rfl
@[simp] theorem Core.setTileRow_acts (k : Core) (t r : Nat) (lanes : W64) (v : Row) : (k.setTileRow t r lanes v).acts = k.acts := rfl
@[simp] theorem Core.setTileRow_held (k : Core) (t r : Nat) (lanes : W64) (v : Row) : (k.setTileRow t r lanes v).held = k.held := rfl
@[simp] theorem Core.setTileRow_pushes (k : Core) (t r : Nat) (lanes : W64) (v : Row) : (k.setTileRow t r lanes v).pushes = k.pushes := rfl
@[simp] theorem Core.setTileRow_mma (k : Core) (t r : Nat) (lanes : W64) (v : Row) : (k.setTileRow t r lanes v).mma = k.mma := rfl
@[simp] theorem Core.setTileRow_lookup (k : Core) (t r : Nat) (lanes : W64) (v : Row) : (k.setTileRow t r lanes v).lookup = k.lookup := rfl
@[simp] theorem Core.setTileRow_epi (k : Core) (t r : Nat) (lanes : W64) (v : Row) : (k.setTileRow t r lanes v).epi = k.epi := rfl
@[simp] theorem Core.setTileRow_sacc (k : Core) (t r : Nat) (lanes : W64) (v : Row) : (k.setTileRow t r lanes v).sacc = k.sacc := rfl
@[simp] theorem Core.setTileRow_copies (k : Core) (t r : Nat) (lanes : W64) (v : Row) : (k.setTileRow t r lanes v).copies = k.copies := rfl
@[simp] theorem Core.setTileRow_copyAt (k : Core) (t r : Nat) (lanes : W64) (v : Row) : (k.setTileRow t r lanes v).copyAt = k.copyAt := rfl
@[simp] theorem Core.setTileRow_liveOut (k : Core) (t r : Nat) (lanes : W64) (v : Row) : (k.setTileRow t r lanes v).liveOut = k.liveOut := rfl
@[simp] theorem Core.setTileRow_ckeep (k : Core) (t r : Nat) (lanes : W64) (v : Row) : (k.setTileRow t r lanes v).ckeep = k.ckeep := rfl
@[simp] theorem Core.setTileRow_liveMap (k : Core) (t r : Nat) (lanes : W64) (v : Row) : (k.setTileRow t r lanes v).liveMap = k.liveMap := rfl
@[simp] theorem Core.setTileRow_realign (k : Core) (t r : Nat) (lanes : W64) (v : Row) : (k.setTileRow t r lanes v).realign = k.realign := rfl
@[simp] theorem Core.setTileRow_mirrLast (k : Core) (t r : Nat) (lanes : W64) (v : Row) : (k.setTileRow t r lanes v).mirrLast = k.mirrLast := rfl
@[simp] theorem Core.setTileRow_preempt (k : Core) (t r : Nat) (lanes : W64) (v : Row) : (k.setTileRow t r lanes v).preempt = k.preempt := rfl
@[simp] theorem Core.setTileRow_saveKind (k : Core) (t r : Nat) (lanes : W64) (v : Row) : (k.setTileRow t r lanes v).saveKind = k.saveKind := rfl
@[simp] theorem Core.setTileRow_savePark (k : Core) (t r : Nat) (lanes : W64) (v : Row) : (k.setTileRow t r lanes v).savePark = k.savePark := rfl
@[simp] theorem Core.setTileRow_saveTiles (k : Core) (t r : Nat) (lanes : W64) (v : Row) : (k.setTileRow t r lanes v).saveTiles = k.saveTiles := rfl
@[simp] theorem Core.setTileRow_saveDue (k : Core) (t r : Nat) (lanes : W64) (v : Row) : (k.setTileRow t r lanes v).saveDue = k.saveDue := rfl
@[simp] theorem Core.setTileRow_causeUnread (k : Core) (t r : Nat) (lanes : W64) (v : Row) : (k.setTileRow t r lanes v).causeUnread = k.causeUnread := rfl
@[simp] theorem Core.setTileRow_entryHot (k : Core) (t r : Nat) (lanes : W64) (v : Row) : (k.setTileRow t r lanes v).entryHot = k.entryHot := rfl
@[simp] theorem Core.setTileRow_faults (k : Core) (t r : Nat) (lanes : W64) (v : Row) : (k.setTileRow t r lanes v).faults = k.faults := rfl
@[simp] theorem Core.setTileRow_banksUsed (k : Core) (t r : Nat) (lanes : W64) (v : Row) : (k.setTileRow t r lanes v).banksUsed = k.banksUsed := rfl
@[simp] theorem Core.setTileRow_banksCycle (k : Core) (t r : Nat) (lanes : W64) (v : Row) : (k.setTileRow t r lanes v).banksCycle = k.banksCycle := rfl
@[simp] theorem Core.setTileRow_wlog (k : Core) (t r : Nat) (lanes : W64) (v : Row) : (k.setTileRow t r lanes v).wlog = k.wlog := rfl
@[simp] theorem Core.setTileRow_softRun (k : Core) (t r : Nat) (lanes : W64) (v : Row) : (k.setTileRow t r lanes v).softRun = k.softRun := rfl
@[simp] theorem Core.setTileRow_softCount (k : Core) (t r : Nat) (lanes : W64) (v : Row) : (k.setTileRow t r lanes v).softCount = k.softCount := rfl
@[simp] theorem Core.setTileRow_tracker (k : Core) (t r : Nat) (lanes : W64) (v : Row) : (k.setTileRow t r lanes v).tracker = k.tracker := rfl
@[simp] theorem Core.setTileRow_bufStamp (k : Core) (t r : Nat) (lanes : W64) (v : Row) : (k.setTileRow t r lanes v).bufStamp = k.bufStamp := rfl
@[simp] theorem Core.setTileRow_past (k : Core) (t r : Nat) (lanes : W64) (v : Row) : (k.setTileRow t r lanes v).past = k.past := rfl
@[simp] theorem Core.setTileRow_tlb (k : Core) (t r : Nat) (lanes : W64) (v : Row) : (k.setTileRow t r lanes v).tlb = k.tlb := rfl
@[simp] theorem Core.setTileRow_units (k : Core) (t r : Nat) (lanes : W64) (v : Row) : (k.setTileRow t r lanes v).units = k.units := rfl
@[simp] theorem Core.setTileRow_taint (k : Core) (t r : Nat) (lanes : W64) (v : Row) : (k.setTileRow t r lanes v).taint = k.taint := rfl

@[simp] theorem Core.setBank_task (k : Core) (p : Bool) (b : Bank) : (k.setBank p b).task = k.task := rfl
@[simp] theorem Core.setBank_rank (k : Core) (p : Bool) (b : Bank) : (k.setBank p b).rank = k.rank := rfl
@[simp] theorem Core.setBank_phase (k : Core) (p : Bool) (b : Bank) : (k.setBank p b).phase = k.phase := rfl
@[simp] theorem Core.setBank_seqs (k : Core) (p : Bool) (b : Bank) : (k.setBank p b).seqs = k.seqs := rfl
@[simp] theorem Core.setBank_snaps (k : Core) (p : Bool) (b : Bank) : (k.setBank p b).snaps = k.snaps := rfl
@[simp] theorem Core.setBank_snap (k : Core) (p : Bool) (b : Bank) : (k.setBank p b).snap = k.snap := rfl
@[simp] theorem Core.setBank_tokens (k : Core) (p : Bool) (b : Bank) : (k.setBank p b).tokens = k.tokens := rfl
@[simp] theorem Core.setBank_overflowed (k : Core) (p : Bool) (b : Bank) : (k.setBank p b).overflowed = k.overflowed := rfl
@[simp] theorem Core.setBank_covers (k : Core) (p : Bool) (b : Bank) : (k.setBank p b).covers = k.covers := rfl
@[simp] theorem Core.setBank_timed (k : Core) (p : Bool) (b : Bank) : (k.setBank p b).timed = k.timed := rfl
@[simp] theorem Core.setBank_cycle0 (k : Core) (p : Bool) (b : Bank) : (k.setBank p b).cycle0 = k.cycle0 := rfl
@[simp] theorem Core.setBank_budget (k : Core) (p : Bool) (b : Bank) : (k.setBank p b).budget = k.budget := rfl
@[simp] theorem Core.setBank_stamp (k : Core) (p : Bool) (b : Bank) : (k.setBank p b).stamp = k.stamp := rfl
@[simp] theorem Core.setBank_liveIn (k : Core) (p : Bool) (b : Bank) : (k.setBank p b).liveIn = k.liveIn := rfl
@[simp] theorem Core.setBank_rgnAddr (k : Core) (p : Bool) (b : Bank) : (k.setBank p b).rgnAddr = k.rgnAddr := rfl
@[simp] theorem Core.setBank_powered (k : Core) (p : Bool) (b : Bank) : (k.setBank p b).powered = k.powered := rfl
@[simp] theorem Core.setBank_alignFrom (k : Core) (p : Bool) (b : Bank) : (k.setBank p b).alignFrom = k.alignFrom := rfl
@[simp] theorem Core.setBank_rcmtA (k : Core) (p : Bool) (b : Bank) : (k.setBank p b).rcmtA = k.rcmtA := rfl
@[simp] theorem Core.setBank_rcmtB (k : Core) (p : Bool) (b : Bank) : (k.setBank p b).rcmtB = k.rcmtB := rfl
@[simp] theorem Core.setBank_flip (k : Core) (p : Bool) (b : Bank) : (k.setBank p b).flip = k.flip := rfl
@[simp] theorem Core.setBank_mirrored (k : Core) (p : Bool) (b : Bank) : (k.setBank p b).mirrored = k.mirrored := rfl
@[simp] theorem Core.setBank_tiles (k : Core) (p : Bool) (b : Bank) : (k.setBank p b).tiles = k.tiles := rfl
@[simp] theorem Core.setBank_masks (k : Core) (p : Bool) (b : Bank) : (k.setBank p b).masks = k.masks := rfl
@[simp] theorem Core.setBank_shapes (k : Core) (p : Bool) (b : Bank) : (k.setBank p b).shapes = k.shapes := rfl
@[simp] theorem Core.setBank_ports (k : Core) (p : Bool) (b : Bank) : (k.setBank p b).ports = k.ports := rfl
@[simp] theorem Core.setBank_tables (k : Core) (p : Bool) (b : Bank) : (k.setBank p b).tables = k.tables := rfl
@[simp] theorem Core.setBank_codebook (k : Core) (p : Bool) (b : Bank) : (k.setBank p b).codebook = k.codebook := rfl
@[simp] theorem Core.setBank_work (k : Core) (p : Bool) (b : Bank) : (k.setBank p b).work = k.work := rfl
@[simp] theorem Core.setBank_rwin (k : Core) (p : Bool) (b : Bank) : (k.setBank p b).rwin = k.rwin := rfl
@[simp] theorem Core.setBank_mact (k : Core) (p : Bool) (b : Bank) : (k.setBank p b).mact = k.mact := rfl
@[simp] theorem Core.setBank_mrs (k : Core) (p : Bool) (b : Bank) : (k.setBank p b).mrs = k.mrs := rfl
@[simp] theorem Core.setBank_vstat (k : Core) (p : Bool) (b : Bank) : (k.setBank p b).vstat = k.vstat := rfl
@[simp] theorem Core.setBank_vnew (k : Core) (p : Bool) (b : Bank) : (k.setBank p b).vnew = k.vnew := rfl
@[simp] theorem Core.setBank_vcsrw (k : Core) (p : Bool) (b : Bank) : (k.setBank p b).vcsrw = k.vcsrw := rfl
@[simp] theorem Core.setBank_rkey0 (k : Core) (p : Bool) (b : Bank) : (k.setBank p b).rkey0 = k.rkey0 := rfl
@[simp] theorem Core.setBank_rkey1 (k : Core) (p : Bool) (b : Bank) : (k.setBank p b).rkey1 = k.rkey1 := rfl
@[simp] theorem Core.setBank_rctr (k : Core) (p : Bool) (b : Bank) : (k.setBank p b).rctr = k.rctr := rfl
@[simp] theorem Core.setBank_sacw (k : Core) (p : Bool) (b : Bank) : (k.setBank p b).sacw = k.sacw := rfl
@[simp] theorem Core.setBank_tvec (k : Core) (p : Bool) (b : Bank) : (k.setBank p b).tvec = k.tvec := rfl
@[simp] theorem Core.setBank_tsp (k : Core) (p : Bool) (b : Bank) : (k.setBank p b).tsp = k.tsp := rfl
@[simp] theorem Core.setBank_tcause (k : Core) (p : Bool) (b : Bank) : (k.setBank p b).tcause = k.tcause := rfl
@[simp] theorem Core.setBank_taddr (k : Core) (p : Bool) (b : Bank) : (k.setBank p b).taddr = k.taddr := rfl
@[simp] theorem Core.setBank_tpc (k : Core) (p : Bool) (b : Bank) : (k.setBank p b).tpc = k.tpc := rfl
@[simp] theorem Core.setBank_tcause2 (k : Core) (p : Bool) (b : Bank) : (k.setBank p b).tcause2 = k.tcause2 := rfl
@[simp] theorem Core.setBank_tseq (k : Core) (p : Bool) (b : Bank) : (k.setBank p b).tseq = k.tseq := rfl
@[simp] theorem Core.setBank_trgn (k : Core) (p : Bool) (b : Bank) : (k.setBank p b).trgn = k.trgn := rfl
@[simp] theorem Core.setBank_dplidx (k : Core) (p : Bool) (b : Bank) : (k.setBank p b).dplidx = k.dplidx := rfl
@[simp] theorem Core.setBank_domm (k : Core) (p : Bool) (b : Bank) : (k.setBank p b).domm = k.domm := rfl
@[simp] theorem Core.setBank_wspace (k : Core) (p : Bool) (b : Bank) : (k.setBank p b).wspace = k.wspace := rfl
@[simp] theorem Core.setBank_aspace (k : Core) (p : Bool) (b : Bank) : (k.setBank p b).aspace = k.aspace := rfl
@[simp] theorem Core.setBank_blocks (k : Core) (p : Bool) (b : Bank) : (k.setBank p b).blocks = k.blocks := rfl
@[simp] theorem Core.setBank_epoch (k : Core) (p : Bool) (b : Bank) : (k.setBank p b).epoch = k.epoch := rfl
@[simp] theorem Core.setBank_vuFree (k : Core) (p : Bool) (b : Bank) : (k.setBank p b).vuFree = k.vuFree := rfl
@[simp] theorem Core.setBank_acts (k : Core) (p : Bool) (b : Bank) : (k.setBank p b).acts = k.acts := rfl
@[simp] theorem Core.setBank_held (k : Core) (p : Bool) (b : Bank) : (k.setBank p b).held = k.held := rfl
@[simp] theorem Core.setBank_pushes (k : Core) (p : Bool) (b : Bank) : (k.setBank p b).pushes = k.pushes := rfl
@[simp] theorem Core.setBank_mma (k : Core) (p : Bool) (b : Bank) : (k.setBank p b).mma = k.mma := rfl
@[simp] theorem Core.setBank_lookup (k : Core) (p : Bool) (b : Bank) : (k.setBank p b).lookup = k.lookup := rfl
@[simp] theorem Core.setBank_epi (k : Core) (p : Bool) (b : Bank) : (k.setBank p b).epi = k.epi := rfl
@[simp] theorem Core.setBank_sacc (k : Core) (p : Bool) (b : Bank) : (k.setBank p b).sacc = k.sacc := rfl
@[simp] theorem Core.setBank_copies (k : Core) (p : Bool) (b : Bank) : (k.setBank p b).copies = k.copies := rfl
@[simp] theorem Core.setBank_copyAt (k : Core) (p : Bool) (b : Bank) : (k.setBank p b).copyAt = k.copyAt := rfl
@[simp] theorem Core.setBank_liveOut (k : Core) (p : Bool) (b : Bank) : (k.setBank p b).liveOut = k.liveOut := rfl
@[simp] theorem Core.setBank_ckeep (k : Core) (p : Bool) (b : Bank) : (k.setBank p b).ckeep = k.ckeep := rfl
@[simp] theorem Core.setBank_liveMap (k : Core) (p : Bool) (b : Bank) : (k.setBank p b).liveMap = k.liveMap := rfl
@[simp] theorem Core.setBank_realign (k : Core) (p : Bool) (b : Bank) : (k.setBank p b).realign = k.realign := rfl
@[simp] theorem Core.setBank_mirrLast (k : Core) (p : Bool) (b : Bank) : (k.setBank p b).mirrLast = k.mirrLast := rfl
@[simp] theorem Core.setBank_preempt (k : Core) (p : Bool) (b : Bank) : (k.setBank p b).preempt = k.preempt := rfl
@[simp] theorem Core.setBank_saveKind (k : Core) (p : Bool) (b : Bank) : (k.setBank p b).saveKind = k.saveKind := rfl
@[simp] theorem Core.setBank_savePark (k : Core) (p : Bool) (b : Bank) : (k.setBank p b).savePark = k.savePark := rfl
@[simp] theorem Core.setBank_saveTiles (k : Core) (p : Bool) (b : Bank) : (k.setBank p b).saveTiles = k.saveTiles := rfl
@[simp] theorem Core.setBank_saveDue (k : Core) (p : Bool) (b : Bank) : (k.setBank p b).saveDue = k.saveDue := rfl
@[simp] theorem Core.setBank_causeUnread (k : Core) (p : Bool) (b : Bank) : (k.setBank p b).causeUnread = k.causeUnread := rfl
@[simp] theorem Core.setBank_entryHot (k : Core) (p : Bool) (b : Bank) : (k.setBank p b).entryHot = k.entryHot := rfl
@[simp] theorem Core.setBank_faults (k : Core) (p : Bool) (b : Bank) : (k.setBank p b).faults = k.faults := rfl
@[simp] theorem Core.setBank_banksUsed (k : Core) (p : Bool) (b : Bank) : (k.setBank p b).banksUsed = k.banksUsed := rfl
@[simp] theorem Core.setBank_banksCycle (k : Core) (p : Bool) (b : Bank) : (k.setBank p b).banksCycle = k.banksCycle := rfl
@[simp] theorem Core.setBank_wlog (k : Core) (p : Bool) (b : Bank) : (k.setBank p b).wlog = k.wlog := rfl
@[simp] theorem Core.setBank_softRun (k : Core) (p : Bool) (b : Bank) : (k.setBank p b).softRun = k.softRun := rfl
@[simp] theorem Core.setBank_softCount (k : Core) (p : Bool) (b : Bank) : (k.setBank p b).softCount = k.softCount := rfl
@[simp] theorem Core.setBank_tracker (k : Core) (p : Bool) (b : Bank) : (k.setBank p b).tracker = k.tracker := rfl
@[simp] theorem Core.setBank_bufStamp (k : Core) (p : Bool) (b : Bank) : (k.setBank p b).bufStamp = k.bufStamp := rfl
@[simp] theorem Core.setBank_past (k : Core) (p : Bool) (b : Bank) : (k.setBank p b).past = k.past := rfl
@[simp] theorem Core.setBank_tlb (k : Core) (p : Bool) (b : Bank) : (k.setBank p b).tlb = k.tlb := rfl
@[simp] theorem Core.setBank_units (k : Core) (p : Bool) (b : Bank) : (k.setBank p b).units = k.units := rfl
@[simp] theorem Core.setBank_taint (k : Core) (p : Bool) (b : Bank) : (k.setBank p b).taint = k.taint := rfl

@[simp] theorem Core.takeToken_task (k : Core) (i : Nat) : (k.takeToken i).task = k.task := rfl
@[simp] theorem Core.takeToken_rank (k : Core) (i : Nat) : (k.takeToken i).rank = k.rank := rfl
@[simp] theorem Core.takeToken_phase (k : Core) (i : Nat) : (k.takeToken i).phase = k.phase := rfl
@[simp] theorem Core.takeToken_seqs (k : Core) (i : Nat) : (k.takeToken i).seqs = k.seqs := rfl
@[simp] theorem Core.takeToken_snaps (k : Core) (i : Nat) : (k.takeToken i).snaps = k.snaps := rfl
@[simp] theorem Core.takeToken_snap (k : Core) (i : Nat) : (k.takeToken i).snap = k.snap := rfl
@[simp] theorem Core.takeToken_overflowed (k : Core) (i : Nat) : (k.takeToken i).overflowed = k.overflowed := rfl
@[simp] theorem Core.takeToken_covers (k : Core) (i : Nat) : (k.takeToken i).covers = k.covers := rfl
@[simp] theorem Core.takeToken_timed (k : Core) (i : Nat) : (k.takeToken i).timed = k.timed := rfl
@[simp] theorem Core.takeToken_cycle0 (k : Core) (i : Nat) : (k.takeToken i).cycle0 = k.cycle0 := rfl
@[simp] theorem Core.takeToken_budget (k : Core) (i : Nat) : (k.takeToken i).budget = k.budget := rfl
@[simp] theorem Core.takeToken_stamp (k : Core) (i : Nat) : (k.takeToken i).stamp = k.stamp := rfl
@[simp] theorem Core.takeToken_liveIn (k : Core) (i : Nat) : (k.takeToken i).liveIn = k.liveIn := rfl
@[simp] theorem Core.takeToken_rgnAddr (k : Core) (i : Nat) : (k.takeToken i).rgnAddr = k.rgnAddr := rfl
@[simp] theorem Core.takeToken_powered (k : Core) (i : Nat) : (k.takeToken i).powered = k.powered := rfl
@[simp] theorem Core.takeToken_alignFrom (k : Core) (i : Nat) : (k.takeToken i).alignFrom = k.alignFrom := rfl
@[simp] theorem Core.takeToken_rcmtA (k : Core) (i : Nat) : (k.takeToken i).rcmtA = k.rcmtA := rfl
@[simp] theorem Core.takeToken_rcmtB (k : Core) (i : Nat) : (k.takeToken i).rcmtB = k.rcmtB := rfl
@[simp] theorem Core.takeToken_flip (k : Core) (i : Nat) : (k.takeToken i).flip = k.flip := rfl
@[simp] theorem Core.takeToken_mirrored (k : Core) (i : Nat) : (k.takeToken i).mirrored = k.mirrored := rfl
@[simp] theorem Core.takeToken_tiles (k : Core) (i : Nat) : (k.takeToken i).tiles = k.tiles := rfl
@[simp] theorem Core.takeToken_masks (k : Core) (i : Nat) : (k.takeToken i).masks = k.masks := rfl
@[simp] theorem Core.takeToken_shapes (k : Core) (i : Nat) : (k.takeToken i).shapes = k.shapes := rfl
@[simp] theorem Core.takeToken_ports (k : Core) (i : Nat) : (k.takeToken i).ports = k.ports := rfl
@[simp] theorem Core.takeToken_tables (k : Core) (i : Nat) : (k.takeToken i).tables = k.tables := rfl
@[simp] theorem Core.takeToken_codebook (k : Core) (i : Nat) : (k.takeToken i).codebook = k.codebook := rfl
@[simp] theorem Core.takeToken_banks (k : Core) (i : Nat) : (k.takeToken i).banks = k.banks := rfl
@[simp] theorem Core.takeToken_work (k : Core) (i : Nat) : (k.takeToken i).work = k.work := rfl
@[simp] theorem Core.takeToken_rwin (k : Core) (i : Nat) : (k.takeToken i).rwin = k.rwin := rfl
@[simp] theorem Core.takeToken_mact (k : Core) (i : Nat) : (k.takeToken i).mact = k.mact := rfl
@[simp] theorem Core.takeToken_mrs (k : Core) (i : Nat) : (k.takeToken i).mrs = k.mrs := rfl
@[simp] theorem Core.takeToken_vstat (k : Core) (i : Nat) : (k.takeToken i).vstat = k.vstat := rfl
@[simp] theorem Core.takeToken_vnew (k : Core) (i : Nat) : (k.takeToken i).vnew = k.vnew := rfl
@[simp] theorem Core.takeToken_vcsrw (k : Core) (i : Nat) : (k.takeToken i).vcsrw = k.vcsrw := rfl
@[simp] theorem Core.takeToken_rkey0 (k : Core) (i : Nat) : (k.takeToken i).rkey0 = k.rkey0 := rfl
@[simp] theorem Core.takeToken_rkey1 (k : Core) (i : Nat) : (k.takeToken i).rkey1 = k.rkey1 := rfl
@[simp] theorem Core.takeToken_rctr (k : Core) (i : Nat) : (k.takeToken i).rctr = k.rctr := rfl
@[simp] theorem Core.takeToken_sacw (k : Core) (i : Nat) : (k.takeToken i).sacw = k.sacw := rfl
@[simp] theorem Core.takeToken_tvec (k : Core) (i : Nat) : (k.takeToken i).tvec = k.tvec := rfl
@[simp] theorem Core.takeToken_tsp (k : Core) (i : Nat) : (k.takeToken i).tsp = k.tsp := rfl
@[simp] theorem Core.takeToken_tcause (k : Core) (i : Nat) : (k.takeToken i).tcause = k.tcause := rfl
@[simp] theorem Core.takeToken_taddr (k : Core) (i : Nat) : (k.takeToken i).taddr = k.taddr := rfl
@[simp] theorem Core.takeToken_tpc (k : Core) (i : Nat) : (k.takeToken i).tpc = k.tpc := rfl
@[simp] theorem Core.takeToken_tcause2 (k : Core) (i : Nat) : (k.takeToken i).tcause2 = k.tcause2 := rfl
@[simp] theorem Core.takeToken_tseq (k : Core) (i : Nat) : (k.takeToken i).tseq = k.tseq := rfl
@[simp] theorem Core.takeToken_trgn (k : Core) (i : Nat) : (k.takeToken i).trgn = k.trgn := rfl
@[simp] theorem Core.takeToken_dplidx (k : Core) (i : Nat) : (k.takeToken i).dplidx = k.dplidx := rfl
@[simp] theorem Core.takeToken_domm (k : Core) (i : Nat) : (k.takeToken i).domm = k.domm := rfl
@[simp] theorem Core.takeToken_wspace (k : Core) (i : Nat) : (k.takeToken i).wspace = k.wspace := rfl
@[simp] theorem Core.takeToken_aspace (k : Core) (i : Nat) : (k.takeToken i).aspace = k.aspace := rfl
@[simp] theorem Core.takeToken_blocks (k : Core) (i : Nat) : (k.takeToken i).blocks = k.blocks := rfl
@[simp] theorem Core.takeToken_epoch (k : Core) (i : Nat) : (k.takeToken i).epoch = k.epoch := rfl
@[simp] theorem Core.takeToken_vuFree (k : Core) (i : Nat) : (k.takeToken i).vuFree = k.vuFree := rfl
@[simp] theorem Core.takeToken_acts (k : Core) (i : Nat) : (k.takeToken i).acts = k.acts := rfl
@[simp] theorem Core.takeToken_held (k : Core) (i : Nat) : (k.takeToken i).held = k.held := rfl
@[simp] theorem Core.takeToken_pushes (k : Core) (i : Nat) : (k.takeToken i).pushes = k.pushes := rfl
@[simp] theorem Core.takeToken_mma (k : Core) (i : Nat) : (k.takeToken i).mma = k.mma := rfl
@[simp] theorem Core.takeToken_lookup (k : Core) (i : Nat) : (k.takeToken i).lookup = k.lookup := rfl
@[simp] theorem Core.takeToken_epi (k : Core) (i : Nat) : (k.takeToken i).epi = k.epi := rfl
@[simp] theorem Core.takeToken_sacc (k : Core) (i : Nat) : (k.takeToken i).sacc = k.sacc := rfl
@[simp] theorem Core.takeToken_copies (k : Core) (i : Nat) : (k.takeToken i).copies = k.copies := rfl
@[simp] theorem Core.takeToken_copyAt (k : Core) (i : Nat) : (k.takeToken i).copyAt = k.copyAt := rfl
@[simp] theorem Core.takeToken_liveOut (k : Core) (i : Nat) : (k.takeToken i).liveOut = k.liveOut := rfl
@[simp] theorem Core.takeToken_ckeep (k : Core) (i : Nat) : (k.takeToken i).ckeep = k.ckeep := rfl
@[simp] theorem Core.takeToken_liveMap (k : Core) (i : Nat) : (k.takeToken i).liveMap = k.liveMap := rfl
@[simp] theorem Core.takeToken_realign (k : Core) (i : Nat) : (k.takeToken i).realign = k.realign := rfl
@[simp] theorem Core.takeToken_mirrLast (k : Core) (i : Nat) : (k.takeToken i).mirrLast = k.mirrLast := rfl
@[simp] theorem Core.takeToken_preempt (k : Core) (i : Nat) : (k.takeToken i).preempt = k.preempt := rfl
@[simp] theorem Core.takeToken_saveKind (k : Core) (i : Nat) : (k.takeToken i).saveKind = k.saveKind := rfl
@[simp] theorem Core.takeToken_savePark (k : Core) (i : Nat) : (k.takeToken i).savePark = k.savePark := rfl
@[simp] theorem Core.takeToken_saveTiles (k : Core) (i : Nat) : (k.takeToken i).saveTiles = k.saveTiles := rfl
@[simp] theorem Core.takeToken_saveDue (k : Core) (i : Nat) : (k.takeToken i).saveDue = k.saveDue := rfl
@[simp] theorem Core.takeToken_causeUnread (k : Core) (i : Nat) : (k.takeToken i).causeUnread = k.causeUnread := rfl
@[simp] theorem Core.takeToken_entryHot (k : Core) (i : Nat) : (k.takeToken i).entryHot = k.entryHot := rfl
@[simp] theorem Core.takeToken_faults (k : Core) (i : Nat) : (k.takeToken i).faults = k.faults := rfl
@[simp] theorem Core.takeToken_banksUsed (k : Core) (i : Nat) : (k.takeToken i).banksUsed = k.banksUsed := rfl
@[simp] theorem Core.takeToken_banksCycle (k : Core) (i : Nat) : (k.takeToken i).banksCycle = k.banksCycle := rfl
@[simp] theorem Core.takeToken_wlog (k : Core) (i : Nat) : (k.takeToken i).wlog = k.wlog := rfl
@[simp] theorem Core.takeToken_softRun (k : Core) (i : Nat) : (k.takeToken i).softRun = k.softRun := rfl
@[simp] theorem Core.takeToken_softCount (k : Core) (i : Nat) : (k.takeToken i).softCount = k.softCount := rfl
@[simp] theorem Core.takeToken_tracker (k : Core) (i : Nat) : (k.takeToken i).tracker = k.tracker := rfl
@[simp] theorem Core.takeToken_bufStamp (k : Core) (i : Nat) : (k.takeToken i).bufStamp = k.bufStamp := rfl
@[simp] theorem Core.takeToken_past (k : Core) (i : Nat) : (k.takeToken i).past = k.past := rfl
@[simp] theorem Core.takeToken_tlb (k : Core) (i : Nat) : (k.takeToken i).tlb = k.tlb := rfl
@[simp] theorem Core.takeToken_units (k : Core) (i : Nat) : (k.takeToken i).units = k.units := rfl
@[simp] theorem Core.takeToken_taint (k : Core) (i : Nat) : (k.takeToken i).taint = k.taint := rfl

@[simp] theorem Core.acquireToken_task (k : Core) (q : SeqId) (i : Nat) : (k.acquireToken q i).task = k.task := rfl
@[simp] theorem Core.acquireToken_rank (k : Core) (q : SeqId) (i : Nat) : (k.acquireToken q i).rank = k.rank := rfl
@[simp] theorem Core.acquireToken_phase (k : Core) (q : SeqId) (i : Nat) : (k.acquireToken q i).phase = k.phase := rfl
@[simp] theorem Core.acquireToken_snaps (k : Core) (q : SeqId) (i : Nat) : (k.acquireToken q i).snaps = k.snaps := rfl
@[simp] theorem Core.acquireToken_snap (k : Core) (q : SeqId) (i : Nat) : (k.acquireToken q i).snap = k.snap := rfl
@[simp] theorem Core.acquireToken_tokens (k : Core) (q : SeqId) (i : Nat) : (k.acquireToken q i).tokens = k.tokens := rfl
@[simp] theorem Core.acquireToken_overflowed (k : Core) (q : SeqId) (i : Nat) : (k.acquireToken q i).overflowed = k.overflowed := rfl
@[simp] theorem Core.acquireToken_covers (k : Core) (q : SeqId) (i : Nat) : (k.acquireToken q i).covers = k.covers := rfl
@[simp] theorem Core.acquireToken_timed (k : Core) (q : SeqId) (i : Nat) : (k.acquireToken q i).timed = k.timed := rfl
@[simp] theorem Core.acquireToken_cycle0 (k : Core) (q : SeqId) (i : Nat) : (k.acquireToken q i).cycle0 = k.cycle0 := rfl
@[simp] theorem Core.acquireToken_budget (k : Core) (q : SeqId) (i : Nat) : (k.acquireToken q i).budget = k.budget := rfl
@[simp] theorem Core.acquireToken_stamp (k : Core) (q : SeqId) (i : Nat) : (k.acquireToken q i).stamp = k.stamp := rfl
@[simp] theorem Core.acquireToken_liveIn (k : Core) (q : SeqId) (i : Nat) : (k.acquireToken q i).liveIn = k.liveIn := rfl
@[simp] theorem Core.acquireToken_rgnAddr (k : Core) (q : SeqId) (i : Nat) : (k.acquireToken q i).rgnAddr = k.rgnAddr := rfl
@[simp] theorem Core.acquireToken_powered (k : Core) (q : SeqId) (i : Nat) : (k.acquireToken q i).powered = k.powered := rfl
@[simp] theorem Core.acquireToken_alignFrom (k : Core) (q : SeqId) (i : Nat) : (k.acquireToken q i).alignFrom = k.alignFrom := rfl
@[simp] theorem Core.acquireToken_rcmtA (k : Core) (q : SeqId) (i : Nat) : (k.acquireToken q i).rcmtA = k.rcmtA := rfl
@[simp] theorem Core.acquireToken_rcmtB (k : Core) (q : SeqId) (i : Nat) : (k.acquireToken q i).rcmtB = k.rcmtB := rfl
@[simp] theorem Core.acquireToken_flip (k : Core) (q : SeqId) (i : Nat) : (k.acquireToken q i).flip = k.flip := rfl
@[simp] theorem Core.acquireToken_mirrored (k : Core) (q : SeqId) (i : Nat) : (k.acquireToken q i).mirrored = k.mirrored := rfl
@[simp] theorem Core.acquireToken_tiles (k : Core) (q : SeqId) (i : Nat) : (k.acquireToken q i).tiles = k.tiles := rfl
@[simp] theorem Core.acquireToken_masks (k : Core) (q : SeqId) (i : Nat) : (k.acquireToken q i).masks = k.masks := rfl
@[simp] theorem Core.acquireToken_shapes (k : Core) (q : SeqId) (i : Nat) : (k.acquireToken q i).shapes = k.shapes := rfl
@[simp] theorem Core.acquireToken_ports (k : Core) (q : SeqId) (i : Nat) : (k.acquireToken q i).ports = k.ports := rfl
@[simp] theorem Core.acquireToken_tables (k : Core) (q : SeqId) (i : Nat) : (k.acquireToken q i).tables = k.tables := rfl
@[simp] theorem Core.acquireToken_codebook (k : Core) (q : SeqId) (i : Nat) : (k.acquireToken q i).codebook = k.codebook := rfl
@[simp] theorem Core.acquireToken_banks (k : Core) (q : SeqId) (i : Nat) : (k.acquireToken q i).banks = k.banks := rfl
@[simp] theorem Core.acquireToken_work (k : Core) (q : SeqId) (i : Nat) : (k.acquireToken q i).work = k.work := rfl
@[simp] theorem Core.acquireToken_rwin (k : Core) (q : SeqId) (i : Nat) : (k.acquireToken q i).rwin = k.rwin := rfl
@[simp] theorem Core.acquireToken_mact (k : Core) (q : SeqId) (i : Nat) : (k.acquireToken q i).mact = k.mact := rfl
@[simp] theorem Core.acquireToken_mrs (k : Core) (q : SeqId) (i : Nat) : (k.acquireToken q i).mrs = k.mrs := rfl
@[simp] theorem Core.acquireToken_vstat (k : Core) (q : SeqId) (i : Nat) : (k.acquireToken q i).vstat = k.vstat := rfl
@[simp] theorem Core.acquireToken_vnew (k : Core) (q : SeqId) (i : Nat) : (k.acquireToken q i).vnew = k.vnew := rfl
@[simp] theorem Core.acquireToken_vcsrw (k : Core) (q : SeqId) (i : Nat) : (k.acquireToken q i).vcsrw = k.vcsrw := rfl
@[simp] theorem Core.acquireToken_rkey0 (k : Core) (q : SeqId) (i : Nat) : (k.acquireToken q i).rkey0 = k.rkey0 := rfl
@[simp] theorem Core.acquireToken_rkey1 (k : Core) (q : SeqId) (i : Nat) : (k.acquireToken q i).rkey1 = k.rkey1 := rfl
@[simp] theorem Core.acquireToken_rctr (k : Core) (q : SeqId) (i : Nat) : (k.acquireToken q i).rctr = k.rctr := rfl
@[simp] theorem Core.acquireToken_sacw (k : Core) (q : SeqId) (i : Nat) : (k.acquireToken q i).sacw = k.sacw := rfl
@[simp] theorem Core.acquireToken_tvec (k : Core) (q : SeqId) (i : Nat) : (k.acquireToken q i).tvec = k.tvec := rfl
@[simp] theorem Core.acquireToken_tsp (k : Core) (q : SeqId) (i : Nat) : (k.acquireToken q i).tsp = k.tsp := rfl
@[simp] theorem Core.acquireToken_tcause (k : Core) (q : SeqId) (i : Nat) : (k.acquireToken q i).tcause = k.tcause := rfl
@[simp] theorem Core.acquireToken_taddr (k : Core) (q : SeqId) (i : Nat) : (k.acquireToken q i).taddr = k.taddr := rfl
@[simp] theorem Core.acquireToken_tpc (k : Core) (q : SeqId) (i : Nat) : (k.acquireToken q i).tpc = k.tpc := rfl
@[simp] theorem Core.acquireToken_tcause2 (k : Core) (q : SeqId) (i : Nat) : (k.acquireToken q i).tcause2 = k.tcause2 := rfl
@[simp] theorem Core.acquireToken_tseq (k : Core) (q : SeqId) (i : Nat) : (k.acquireToken q i).tseq = k.tseq := rfl
@[simp] theorem Core.acquireToken_trgn (k : Core) (q : SeqId) (i : Nat) : (k.acquireToken q i).trgn = k.trgn := rfl
@[simp] theorem Core.acquireToken_dplidx (k : Core) (q : SeqId) (i : Nat) : (k.acquireToken q i).dplidx = k.dplidx := rfl
@[simp] theorem Core.acquireToken_domm (k : Core) (q : SeqId) (i : Nat) : (k.acquireToken q i).domm = k.domm := rfl
@[simp] theorem Core.acquireToken_wspace (k : Core) (q : SeqId) (i : Nat) : (k.acquireToken q i).wspace = k.wspace := rfl
@[simp] theorem Core.acquireToken_aspace (k : Core) (q : SeqId) (i : Nat) : (k.acquireToken q i).aspace = k.aspace := rfl
@[simp] theorem Core.acquireToken_blocks (k : Core) (q : SeqId) (i : Nat) : (k.acquireToken q i).blocks = k.blocks := rfl
@[simp] theorem Core.acquireToken_epoch (k : Core) (q : SeqId) (i : Nat) : (k.acquireToken q i).epoch = k.epoch := rfl
@[simp] theorem Core.acquireToken_vuFree (k : Core) (q : SeqId) (i : Nat) : (k.acquireToken q i).vuFree = k.vuFree := rfl
@[simp] theorem Core.acquireToken_acts (k : Core) (q : SeqId) (i : Nat) : (k.acquireToken q i).acts = k.acts := rfl
@[simp] theorem Core.acquireToken_held (k : Core) (q : SeqId) (i : Nat) : (k.acquireToken q i).held = k.held := rfl
@[simp] theorem Core.acquireToken_pushes (k : Core) (q : SeqId) (i : Nat) : (k.acquireToken q i).pushes = k.pushes := rfl
@[simp] theorem Core.acquireToken_mma (k : Core) (q : SeqId) (i : Nat) : (k.acquireToken q i).mma = k.mma := rfl
@[simp] theorem Core.acquireToken_lookup (k : Core) (q : SeqId) (i : Nat) : (k.acquireToken q i).lookup = k.lookup := rfl
@[simp] theorem Core.acquireToken_epi (k : Core) (q : SeqId) (i : Nat) : (k.acquireToken q i).epi = k.epi := rfl
@[simp] theorem Core.acquireToken_sacc (k : Core) (q : SeqId) (i : Nat) : (k.acquireToken q i).sacc = k.sacc := rfl
@[simp] theorem Core.acquireToken_copies (k : Core) (q : SeqId) (i : Nat) : (k.acquireToken q i).copies = k.copies := rfl
@[simp] theorem Core.acquireToken_copyAt (k : Core) (q : SeqId) (i : Nat) : (k.acquireToken q i).copyAt = k.copyAt := rfl
@[simp] theorem Core.acquireToken_liveOut (k : Core) (q : SeqId) (i : Nat) : (k.acquireToken q i).liveOut = k.liveOut := rfl
@[simp] theorem Core.acquireToken_ckeep (k : Core) (q : SeqId) (i : Nat) : (k.acquireToken q i).ckeep = k.ckeep := rfl
@[simp] theorem Core.acquireToken_liveMap (k : Core) (q : SeqId) (i : Nat) : (k.acquireToken q i).liveMap = k.liveMap := rfl
@[simp] theorem Core.acquireToken_realign (k : Core) (q : SeqId) (i : Nat) : (k.acquireToken q i).realign = k.realign := rfl
@[simp] theorem Core.acquireToken_mirrLast (k : Core) (q : SeqId) (i : Nat) : (k.acquireToken q i).mirrLast = k.mirrLast := rfl
@[simp] theorem Core.acquireToken_preempt (k : Core) (q : SeqId) (i : Nat) : (k.acquireToken q i).preempt = k.preempt := rfl
@[simp] theorem Core.acquireToken_saveKind (k : Core) (q : SeqId) (i : Nat) : (k.acquireToken q i).saveKind = k.saveKind := rfl
@[simp] theorem Core.acquireToken_savePark (k : Core) (q : SeqId) (i : Nat) : (k.acquireToken q i).savePark = k.savePark := rfl
@[simp] theorem Core.acquireToken_saveTiles (k : Core) (q : SeqId) (i : Nat) : (k.acquireToken q i).saveTiles = k.saveTiles := rfl
@[simp] theorem Core.acquireToken_saveDue (k : Core) (q : SeqId) (i : Nat) : (k.acquireToken q i).saveDue = k.saveDue := rfl
@[simp] theorem Core.acquireToken_causeUnread (k : Core) (q : SeqId) (i : Nat) : (k.acquireToken q i).causeUnread = k.causeUnread := rfl
@[simp] theorem Core.acquireToken_entryHot (k : Core) (q : SeqId) (i : Nat) : (k.acquireToken q i).entryHot = k.entryHot := rfl
@[simp] theorem Core.acquireToken_faults (k : Core) (q : SeqId) (i : Nat) : (k.acquireToken q i).faults = k.faults := rfl
@[simp] theorem Core.acquireToken_banksUsed (k : Core) (q : SeqId) (i : Nat) : (k.acquireToken q i).banksUsed = k.banksUsed := rfl
@[simp] theorem Core.acquireToken_banksCycle (k : Core) (q : SeqId) (i : Nat) : (k.acquireToken q i).banksCycle = k.banksCycle := rfl
@[simp] theorem Core.acquireToken_wlog (k : Core) (q : SeqId) (i : Nat) : (k.acquireToken q i).wlog = k.wlog := rfl
@[simp] theorem Core.acquireToken_softRun (k : Core) (q : SeqId) (i : Nat) : (k.acquireToken q i).softRun = k.softRun := rfl
@[simp] theorem Core.acquireToken_softCount (k : Core) (q : SeqId) (i : Nat) : (k.acquireToken q i).softCount = k.softCount := rfl
@[simp] theorem Core.acquireToken_tracker (k : Core) (q : SeqId) (i : Nat) : (k.acquireToken q i).tracker = k.tracker := rfl
@[simp] theorem Core.acquireToken_bufStamp (k : Core) (q : SeqId) (i : Nat) : (k.acquireToken q i).bufStamp = k.bufStamp := rfl
@[simp] theorem Core.acquireToken_past (k : Core) (q : SeqId) (i : Nat) : (k.acquireToken q i).past = k.past := rfl
@[simp] theorem Core.acquireToken_tlb (k : Core) (q : SeqId) (i : Nat) : (k.acquireToken q i).tlb = k.tlb := rfl
@[simp] theorem Core.acquireToken_units (k : Core) (q : SeqId) (i : Nat) : (k.acquireToken q i).units = k.units := rfl
@[simp] theorem Core.acquireToken_taint (k : Core) (q : SeqId) (i : Nat) : (k.acquireToken q i).taint = k.taint := rfl

/-! ### Sequencers and registers read back -/

theorem seqIdx_inj {p q : SeqId} (h : seqIdx p = seqIdx q) : p = q := by
  cases p <;> cases q <;> first | rfl | simp [seqIdx] at h

@[simp] theorem Core.seq_setSeq (k : Core) (q : SeqId) (x : Seq) : (k.setSeq q x).seq q = x := getD_putAt_same _ _ _ _

theorem Core.seq_setSeq_other (k : Core) {p q : SeqId} (x : Seq) (h : p ≠ q) : (k.setSeq q x).seq p = k.seq p :=
  getD_putAt_other _ _ _ fun e => h (seqIdx_inj e)

@[simp] theorem Core.seq_modSeq (k : Core) (q : SeqId) (f : Seq → Seq) : (k.modSeq q f).seq q = f (k.seq q) := k.seq_setSeq q _

theorem Core.seq_modSeq_other (k : Core) {p q : SeqId} (f : Seq → Seq) (h : p ≠ q) : (k.modSeq q f).seq p = k.seq p :=
  k.seq_setSeq_other _ h

@[simp] theorem Seq.reg_zero (x : Seq) : x.reg 0 = 0 := rfl

theorem Seq.reg_setReg (x : Seq) (r j : Nat) (v : W64) : (x.setReg r v).reg j = if j = r ∧ r ≠ 0 then v else x.reg j := by
  unfold Seq.setReg Seq.reg
  by_cases h0 : r = 0
  · simp [h0]
  · by_cases hj : j = r
    · subst j; rw [if_neg h0, if_neg h0, if_pos ⟨rfl, h0⟩]; exact getD_putAt_same _ _ _ _
    · rw [if_neg h0, if_neg (fun h : j = r ∧ r ≠ 0 => hj h.1), getD_putAt_other x.regs 0 v hj]

/-- A change of a sequencer that keeps its registers changes no register of the core. -/
theorem Core.reg_modSeq (k : Core) (q : SeqId) (f : Seq → Seq) (h : (f (k.seq q)).regs = (k.seq q).regs) (p : SeqId) (r : Nat) :
    (k.modSeq q f).reg p r = k.reg p r := by
  by_cases hp : p = q
  · subst p; simp [Core.reg, Seq.reg, h]
  · simp [Core.reg, Core.seq_modSeq_other _ _ hp]

end Sys2Proof.Machine
end

