-- ==== Sys2Proof/Laws/Issue.lean ====
section
/-! SUPPORT. The laws of a word's issue: what `issue` does with a word that passes its checks, every outcome it has, and what a word that has issued
leaves alone. -/

namespace Sys2Proof.Machine

/-! ### Where a word stands -/

theorem State.ctx_cur {s : State} {x : Ctx} (h : s.ctx = some x) : s.cur = some (x.c, x.q) := by
  unfold State.ctx at h
  split at h
  · cases h
  · dsimp only at h; split at h
    · cases h; assumption
    · cases h

theorem State.ctx_core {s : State} {x : Ctx} (h : s.ctx = some x) : x.k = s.core x.c ∧ x.x = (s.core x.c).seq x.q := by
  unfold State.ctx at h
  split at h
  · cases h
  · dsimp only at h; split at h
    · cases h; exact ⟨rfl, rfl⟩
    · cases h

theorem State.ctx_runs {s : State} {x : Ctx} (h : s.ctx = some x) : ((s.core x.c).seq x.q).st = .run ∧ (s.core x.c).task.isSome = true := by
  unfold State.ctx at h
  split at h
  · cases h
  · dsimp only at h; split at h
    · cases h; rename_i hc; simp only [Bool.and_eq_true, beq_iff_eq] at hc; exact ⟨hc.1.1, hc.1.2⟩
    · cases h

/-! ### The outcomes of an issue -/

/-- What a word's own effect comes to: it has issued, it waits, or it faults. -/
def Ctx.settled (x : Ctx) (h : Hdr) (s : State) : Iss → State
  | .ok t lat next extra => x.issued h t lat next extra
  | .hold t => x.held t
  | .trap code ta kind xcode => (x.taken s h).raise x.c { (x.fault s code ta) with xkind := kind, xcode := xcode }

/-- A word that passes its checks has its own effect. -/
theorem issueAt_of_issues {h : Hdr} {gate : Ctx → Gate} {body : Ctx → State → Iss} {s : State} {x : Ctx} (hi : s.Issues h gate x) :
    issueAt h gate body s = .next (x.settled h s (body x s)) := by
  have h1 : ((gate x).illegalOp || !(gate x).seqs.contains x.q) = false := by
    simp [hi.legal, hi.seq]
  have h2 : ((gate x).ruleBad || !(gate x).admits (x.k.place x.q)) = false := by
    simp [hi.rule, hi.place]
  have h3 : ((gate x).uses.any (fun r => x.x.pend.contains r.toNat) || !x.k.waitsMet x.q h.wp h.wn) = false := by
    simp only [hi.waits, Bool.not_true, Bool.or_false, List.any_eq_false, List.contains_eq_mem, decide_eq_true_eq]
    exact hi.free
  unfold issueAt
  simp only [hi.here, h1, h2, h3, hi.operands, Bool.false_eq_true, if_false]
  cases body x s <;> rfl

theorem issue_of_issues {h : Hdr} {g : Gate} {body : Ctx → State → Iss} {s : State} {x : Ctx} (hi : s.Issues h (fun _ => g) x) :
    issue h g body s = .next (x.settled h s (body x s)) := issueAt_of_issues hi

/-- Every outcome of an issue: refused without a sequencer at its issue, else a next state. -/
theorem issueAt_next {h : Hdr} {gate : Ctx → Gate} {body : Ctx → State → Iss} {s : State} {x : Ctx} (hx : s.ctx = some x) :
    ∃ t, issueAt h gate body s = .next t ∧
      ((∃ code ta, t = s.raise x.c (x.fault s code ta)) ∨ t = x.held s ∨ t = x.settled h s (body x s)) := by
  unfold issueAt
  simp only [hx]
  split
  · exact ⟨_, rfl, .inl ⟨_, _, rfl⟩⟩
  split
  · exact ⟨_, rfl, .inl ⟨_, _, rfl⟩⟩
  split
  · exact ⟨_, rfl, .inl ⟨_, _, rfl⟩⟩
  split
  · exact ⟨_, rfl, .inr (.inl rfl)⟩
  · cases hb : body x s <;> exact ⟨_, rfl, .inr (.inr rfl)⟩

/-! ### What stays -/

theorem Core.SameData.refl (k : Core) : k.SameData k :=
  ⟨fun _ _ => rfl, fun _ _ => rfl, rfl, rfl, rfl, rfl, rfl, fun _ => rfl, fun _ => rfl, rfl, rfl, rfl⟩

theorem Core.SameData.trans {k l m : Core} (a : k.SameData l) (b : l.SameData m) : k.SameData m :=
  ⟨fun q r => (b.regs q r).trans (a.regs q r), fun t r => (b.tiles t r).trans (a.tiles t r), b.masks.trans a.masks, b.vstat.trans a.vstat,
    b.window.trans a.window, b.csrs.trans a.csrs, b.trap.trans a.trap, fun x => (b.wspace x).trans (a.wspace x),
    fun x => (b.aspace x).trans (a.aspace x), b.banks.trans a.banks, b.tables.trans a.tables, b.shapes.trans a.shapes⟩

theorem Core.sameData_modSeq (k : Core) (q : SeqId) (f : Seq → Seq) (h : (f (k.seq q)).regs = (k.seq q).regs) : k.SameData (k.modSeq q f) :=
  ⟨k.reg_modSeq q f h, fun _ _ => rfl, rfl, rfl, rfl, rfl, rfl, fun _ => rfl, fun _ => rfl, rfl, rfl, rfl⟩

theorem Core.sameData_takeToken (k : Core) (i : Nat) : k.SameData (k.takeToken i) :=
  ⟨fun _ _ => rfl, fun _ _ => rfl, rfl, rfl, rfl, rfl, rfl, fun _ => rfl, fun _ => rfl, rfl, rfl, rfl⟩

/-- A wait taken: a counter, and what it acquires. -/
theorem Core.sameData_wait (k : Core) (q : SeqId) (i : Nat) : k.SameData ((k.takeToken i).acquireToken q i) :=
  (k.sameData_takeToken i).trans ((k.takeToken i).sameData_modSeq q _ rfl)

theorem Core.sameData_takeWaits (k : Core) (q : SeqId) (wp wn : Bool) : k.SameData (k.takeWaits q wp wn) := by
  unfold Core.takeWaits
  cases wp <;> cases wn
  · exact .refl k
  · exact k.sameData_wait q _
  · exact k.sameData_wait q _
  · exact (k.sameData_wait q _).trans (Core.sameData_wait _ q _)

theorem State.OnlyCore.refl (s : State) (c : Nat) : s.OnlyCore s c :=
  ⟨fun _ => rfl, fun _ _ => rfl, .refl _, ⟨rfl, rfl, rfl, rfl⟩, ⟨rfl, rfl, rfl, rfl⟩, ⟨rfl, rfl, rfl, rfl⟩⟩

theorem State.OnlyCore.trans {s t u : State} {c : Nat} (a : s.OnlyCore t c) (b : t.OnlyCore u c) : s.OnlyCore u c where
  memory x := (b.memory x).trans (a.memory x)
  others d hd := (b.others d hd).trans (a.others d hd)
  data := a.data.trans b.data
  dispatch := ⟨b.dispatch.1.trans a.dispatch.1, b.dispatch.2.1.trans a.dispatch.2.1, b.dispatch.2.2.1.trans a.dispatch.2.2.1,
    b.dispatch.2.2.2.trans a.dispatch.2.2.2⟩
  exchange := ⟨b.exchange.1.trans a.exchange.1, b.exchange.2.1.trans a.exchange.2.1, b.exchange.2.2.1.trans a.exchange.2.2.1,
    b.exchange.2.2.2.trans a.exchange.2.2.2⟩
  device := ⟨b.device.1.trans a.device.1, b.device.2.1.trans a.device.2.1, b.device.2.2.1.trans a.device.2.2.1,
    b.device.2.2.2.trans a.device.2.2.2⟩

theorem State.onlyCore_modCore (s : State) (c : Nat) (f : Core → Core) (h : (s.core c).SameData (f (s.core c))) : s.OnlyCore (s.modCore c f) c :=
  ⟨fun _ => rfl, fun _ hd => s.core_modCore_other f hd, by simpa using h, ⟨rfl, rfl, rfl, rfl⟩, ⟨rfl, rfl, rfl, rfl⟩, ⟨rfl, rfl, rfl, rfl⟩⟩

theorem State.onlyCore_addAct (s : State) (c due issued : Nat) (q : SeqId) (pc : Nat) (p : Pay) :
    s.OnlyCore (s.addAct c due issued q pc p) c :=
  ⟨fun _ => rfl, fun _ hd => s.core_addAct_other due issued q pc p hd, by
    rw [State.core_addAct]
    exact ⟨fun _ _ => rfl, fun _ _ => rfl, rfl, rfl, rfl, rfl, rfl, fun _ => rfl, fun _ => rfl, rfl, rfl, rfl⟩,
    ⟨rfl, rfl, rfl, rfl⟩, ⟨rfl, rfl, rfl, rfl⟩, ⟨rfl, rfl, rfl, rfl⟩⟩

/-- A word that has issued changes nothing but what is in flight on its core, its tokens and its place in the program. -/
theorem Ctx.issued_onlyCore (x : Ctx) (h : Hdr) (s : State) (lat : Option Nat) (next extra : Nat) :
    s.OnlyCore (x.issued h s lat next extra) x.c := by
  have h1 : s.OnlyCore (s.modCore x.c fun k => (k.takeWaits x.q h.wp h.wn).modSeq x.q fun y =>
      { y with pc := next, base := s.now + 1 + extra, retry := none,
               jump := if next = y.pc + 4 || isPair y.curWord then y.jump else some (y.pc, next) }) x.c :=
    s.onlyCore_modCore _ _ ((Core.sameData_takeWaits _ _ _ _).trans (Core.sameData_modSeq _ _ _ rfl))
  unfold Ctx.issued
  cases lat with
  | none => exact h1
  | some l =>
    simp only
    split
    · exact h1.trans (State.onlyCore_addAct _ _ _ _ _ _ _)
    · exact h1

theorem Ctx.land_onlyCore (x : Ctx) (s : State) (r : BitVec 5) (v : W64) (lat : Nat) : s.OnlyCore (x.land s r v lat) x.c := by
  unfold Ctx.land
  split
  · exact .refl s x.c
  · exact s.onlyCore_addAct _ _ _ _ _ _

/-! ### Words at their issue -/

/-- A word that stands at its issue meets every check of a gate that admits it there. -/
theorem State.AtWord.issues {s : State} {h : Hdr} {x : Ctx} {seqs : List SeqId} {places : List Place} {uses : List (BitVec 5)}
    (ha : s.AtWord h x seqs places uses) (gate : Ctx → Gate) (hop : (gate x).illegalOp = false) (hod : (gate x).operandBad = false)
    (hru : (gate x).ruleBad = false) (hs : ∀ q ∈ seqs, q ∈ (gate x).seqs) (hp : ∀ p ∈ places, (gate x).admits p = true)
    (hu : ∀ r ∈ (gate x).uses, r ∈ uses) : s.Issues h gate x :=
  ⟨ha.here, hop, hs _ ha.seq, hod, hru, hp _ ha.place, fun r hr => ha.free r (hu r hr), ha.waits⟩

/-- A word that names fewer registers stands there too. -/
theorem State.AtWord.imp {s : State} {h : Hdr} {x : Ctx} {seqs : List SeqId} {places : List Place} {uses us : List (BitVec 5)}
    (ha : s.AtWord h x seqs places uses) (hu : ∀ r ∈ us, r ∈ uses) : s.AtWord h x seqs places us :=
  ⟨ha.here, ha.seq, ha.place, fun r hr => ha.free r (hu r hr), ha.waits⟩

/-- Every sequencer, in every place. -/
theorem mem_allSeqs (q : SeqId) : q ∈ allSeqs := by cases q <;> decide

theorem admits_open {g : Gate} (h1 : g.gap = true) (h2 : g.region = true) (h3 : g.timed = true) (h4 : g.handler = true) (p : Place) :
    g.admits p = true := by cases p <;> simp [Gate.admits, *]

theorem admits_regions {g : Gate} (h2 : g.region = true) (h3 : g.timed = true) : ∀ p ∈ regions, g.admits p = true := by
  intro p hp; cases p <;> simp [Gate.admits, *] at *

/-- A word whose effect is one value in a scalar register. -/
theorem yields_writes {s : State} {h : Hdr} {x : Ctx} {d : BitVec 5} {v : W64} {lat : Nat} {i : Instr}
    {gate : Ctx → Gate} {body : Ctx → State → Iss} (hi : s.Issues h gate x)
    (he : exec i s = issueAt h gate body s) (hb : body x s = x.go (x.land s d v lat) lat) : s.Yields i (x.writes s h d v lat) x.c := by
  refine ⟨?_, (x.land_onlyCore s d v lat).trans (x.issued_onlyCore h (x.land s d v lat) (some lat) x.next 0)⟩
  rw [he, issueAt_of_issues hi, hb]; rfl

end Sys2Proof.Machine
end

