-- ==== Sys2Proof/Laws/Memory.lean ====
section
/-! SUPPORT. What a store performed at memory does to the rest of the machine, said once: memory keeps its canonical form, and nothing changes but the
coherence order, what the dies have applied of it, the counts of bytes carried, and the waits of the queues whose lines it writes (R208, R211, R250,
R305). -/

namespace Sys2Proof.Machine

/-- All of a state that a store to memory leaves alone. -/
structure State.StoreKeeps (s t : State) : Prop where
  now : t.now = s.now
  cur : t.cur = s.cur
  cores : t.cores = s.cores
  clusters : t.clusters = s.clusters
  hbm : t.hbm = s.hbm
  channels : t.channels = s.channels
  reqs : t.reqs = s.reqs
  chanEnds : t.chanEnds = s.chanEnds
  grants : t.grants = s.grants
  groups : t.groups = s.groups
  chunks : t.chunks = s.chunks
  mirrors : t.mirrors = s.mirrors
  mirrorPool : t.mirrorPool = s.mirrorPool
  cqs : t.cqs = s.cqs
  rings : t.rings = s.rings
  sessions : t.sessions = s.sessions
  tasks : t.tasks = s.tasks
  streams : t.streams = s.streams
  squall : t.squall = s.squall
  refuseAction : t.refuseAction = s.refuseAction
  lastRestore : t.lastRestore = s.lastRestore
  taskNo : t.taskNo = s.taskNo
  lastServedQueue : t.lastServedQueue = s.lastServedQueue
  nextDecision : t.nextDecision = s.nextDecision
  nextRebalance : t.nextRebalance = s.nextRebalance
  pool : t.pool = s.pool
  sublinks : t.sublinks = s.sublinks
  retiredLanes : t.retiredLanes = s.retiredLanes
  boot : t.boot = s.boot
  fleet : t.fleet = s.fleet
  wayTaint : t.wayTaint = s.wayTaint
  buffer : t.buffer = s.buffer
  rescaleDue : t.rescaleDue = s.rescaleDue
  scrubbed : t.scrubbed = s.scrubbed
  inputs : t.inputs = s.inputs
  out : t.out = s.out
  opening : t.opening = s.opening
  arriving : t.arriving = s.arriving

theorem State.StoreKeeps.refl (s : State) : s.StoreKeeps s := by constructor <;> rfl

theorem State.StoreKeeps.trans {s t u : State} (h : s.StoreKeeps t) (g : t.StoreKeeps u) : s.StoreKeeps u := by
  constructor
  · exact g.now.trans h.now
  · exact g.cur.trans h.cur
  · exact g.cores.trans h.cores
  · exact g.clusters.trans h.clusters
  · exact g.hbm.trans h.hbm
  · exact g.channels.trans h.channels
  · exact g.reqs.trans h.reqs
  · exact g.chanEnds.trans h.chanEnds
  · exact g.grants.trans h.grants
  · exact g.groups.trans h.groups
  · exact g.chunks.trans h.chunks
  · exact g.mirrors.trans h.mirrors
  · exact g.mirrorPool.trans h.mirrorPool
  · exact g.cqs.trans h.cqs
  · exact g.rings.trans h.rings
  · exact g.sessions.trans h.sessions
  · exact g.tasks.trans h.tasks
  · exact g.streams.trans h.streams
  · exact g.squall.trans h.squall
  · exact g.refuseAction.trans h.refuseAction
  · exact g.lastRestore.trans h.lastRestore
  · exact g.taskNo.trans h.taskNo
  · exact g.lastServedQueue.trans h.lastServedQueue
  · exact g.nextDecision.trans h.nextDecision
  · exact g.nextRebalance.trans h.nextRebalance
  · exact g.pool.trans h.pool
  · exact g.sublinks.trans h.sublinks
  · exact g.retiredLanes.trans h.retiredLanes
  · exact g.boot.trans h.boot
  · exact g.fleet.trans h.fleet
  · exact g.wayTaint.trans h.wayTaint
  · exact g.buffer.trans h.buffer
  · exact g.rescaleDue.trans h.rescaleDue
  · exact g.scrubbed.trans h.scrubbed
  · exact g.inputs.trans h.inputs
  · exact g.out.trans h.out
  · exact g.opening.trans h.opening
  · exact g.arriving.trans h.arriving

/-- A fold keeps what each of its steps keeps. -/
theorem State.StoreKeeps.foldl {α : Type} (f : State → α → State) (h : ∀ (s : State) (a : α), s.StoreKeeps (f s a)) (l : List α) (s : State) :
    s.StoreKeeps (l.foldl f s) := by
  induction l generalizing s with
  | nil => exact .refl s
  | cons a l ih => exact (h s a).trans (ih (f s a))

theorem foldl_wf {α : Type} (f : Cells → α → Cells) (h : ∀ m a, m.wf = true → (f m a).wf = true) (l : List α) (m : Cells) (hm : m.wf = true) :
    (l.foldl f m).wf = true := by
  induction l generalizing m with
  | nil => exact hm
  | cons a l ih => exact ih _ (h m a hm)

/-! ### Folding a store into the base -/

theorem State.foldBytes_keeps (s : State) (r : StoreRec) : s.StoreKeeps (s.foldBytes r) := by
  unfold State.foldBytes
  cases r.key <;> constructor <;> rfl

theorem State.foldBytes_wf (s : State) (r : StoreRec) (h : s.mem.wf = true) : (s.foldBytes r).mem.wf = true := by
  unfold State.foldBytes
  cases r.key with
  | none => exact Cells.wf_writeAll _ h
  | some tag =>
    refine Cells.wf_writeAll _ (foldl_wf _ (fun m l hm => ?_) _ _ h)
    split
    · exact hm
    · split
      · exact hm
      · exact Cells.wf_writeAll _ hm

theorem State.foldStores_keeps (s : State) (n : Nat) : s.StoreKeeps (s.foldStores n) := by
  induction n generalizing s with
  | zero => exact .refl s
  | succ n ih =>
    unfold State.foldStores
    split
    · exact .refl s
    · rename_i r rest _
      split
      · have h1 : (s.foldBytes r).StoreKeeps { s.foldBytes r with stores := rest } := by constructor <;> rfl
        exact (s.foldBytes_keeps r).trans (h1.trans (ih _))
      · exact .refl s

theorem State.foldStores_wf (s : State) (n : Nat) (h : s.mem.wf = true) : (s.foldStores n).mem.wf = true := by
  induction n generalizing s with
  | zero => exact h
  | succ n ih =>
    unfold State.foldStores
    split
    · exact h
    · split
      · exact ih _ (s.foldBytes_wf _ h)
      · exact h

/-! ### Applying and performing -/

theorem State.applyOn_keeps (s : State) (d id : Nat) : s.StoreKeeps (s.applyOn d id) := by
  unfold State.applyOn
  split
  · exact .refl s
  · constructor <;> rfl

theorem State.applyOn_mem (s : State) (d id : Nat) : (s.applyOn d id).mem = s.mem := by
  unfold State.applyOn
  split <;> rfl

theorem State.applyAll_mem (l : List StoreRec) (s : State) (d : Nat) : (l.foldl (fun s r => s.applyOn d r.id) s).mem = s.mem := by
  induction l generalizing s with
  | nil => rfl
  | cons r l ih => exact (ih _).trans (s.applyOn_mem d r.id)

theorem State.catchUp_keeps (s : State) (d : Nat) (stamp : List Nat) : s.StoreKeeps (s.catchUp d stamp) :=
  (State.StoreKeeps.foldl (fun s (r : StoreRec) => s.applyOn d r.id) (fun s r => s.applyOn_keeps d r.id) _ s).trans (State.foldStores_keeps _ _)

theorem State.catchUp_wf (s : State) (d : Nat) (stamp : List Nat) (h : s.mem.wf = true) : (s.catchUp d stamp).mem.wf = true :=
  State.foldStores_wf _ _ (by rw [State.applyAll_mem]; exact h)

/-- Drawing the cycles at which a store reaches the dies changes nothing else. -/
theorem State.drawDues_keeps (l : List Nat) (acc : List Nat) (s : State) :
    s.StoreKeeps (l.foldl (fun (p : List Nat × State) _ => (p.1 ++ [p.2.drawDue.1], p.2.drawDue.2)) (acc, s)).2 ∧
      (l.foldl (fun (p : List Nat × State) _ => (p.1 ++ [p.2.drawDue.1], p.2.drawDue.2)) (acc, s)).2.mem = s.mem := by
  induction l generalizing acc s with
  | nil => exact ⟨.refl s, rfl⟩
  | cons x l ih =>
    refine ⟨State.StoreKeeps.trans ?_ (ih _ s.drawDue.2).1, ((ih _ s.drawDue.2).2).trans rfl⟩
    constructor <;> rfl

/-- A store performed at memory leaves all that `StoreKeeps` names. -/
theorem State.performStoreOf_keeps (s : State) (task die core : Nat) (q : SeqId) (slot : Nat) (bs : List (Nat × W8)) :
    s.StoreKeeps (s.performStoreOf task die core q slot bs) := by
  unfold State.performStoreOf
  cases bs with
  | nil => exact .refl s
  | cons b bs =>
    dsimp only
    have hd := State.drawDues_keeps (List.range 9) [] s.newId.2
    have h0 : s.StoreKeeps s.newId.2 := by constructor <;> rfl
    split
    · exact .refl s
    · split
      · refine h0.trans (hd.1.trans ?_)
        constructor <;> rfl
      · refine h0.trans (hd.1.trans (State.StoreKeeps.trans ?_ (State.foldStores_keeps _ _)))
        split <;> constructor <;> rfl

theorem State.performStoreOf_wf (s : State) (task die core : Nat) (q : SeqId) (slot : Nat) (bs : List (Nat × W8)) (h : s.mem.wf = true) :
    (s.performStoreOf task die core q slot bs).mem.wf = true := by
  unfold State.performStoreOf
  cases bs with
  | nil => exact h
  | cons b bs =>
    dsimp only
    have hd := (State.drawDues_keeps (List.range 9) [] s.newId.2).2
    have h1 : (List.foldl (fun (p : List Nat × State) (_ : Nat) => (p.1 ++ [p.2.drawDue.1], p.2.drawDue.2)) ([], s.newId.2) (List.range 9)).2.mem.wf = true := by
      rw [hd]; exact h
    split
    · exact h
    · split
      · exact h1
      · refine State.foldStores_wf _ _ ?_
        split <;> exact h1

theorem State.performStore_keeps (s : State) (die core : Nat) (q : SeqId) (slot : Nat) (bs : List (Nat × W8)) :
    s.StoreKeeps (s.performStore die core q slot bs) := s.performStoreOf_keeps ..

theorem State.performStore_wf (s : State) (die core : Nat) (q : SeqId) (slot : Nat) (bs : List (Nat × W8)) (h : s.mem.wf = true) :
    (s.performStore die core q slot bs).mem.wf = true := s.performStoreOf_wf _ _ _ _ _ _ h

theorem State.storeBytes_keeps (s : State) (die core : Nat) (q : SeqId) (slot a : Nat) (bs : List W8) :
    s.StoreKeeps (s.storeBytes die core q slot a bs) := s.performStore_keeps ..

theorem State.storeBytes_wf (s : State) (die core : Nat) (q : SeqId) (slot a : Nat) (bs : List W8) (h : s.mem.wf = true) :
    (s.storeBytes die core q slot a bs).mem.wf = true := s.performStore_wf _ _ _ _ _ h

theorem State.orDesc_keeps (s : State) (die core slot a m : Nat) : s.StoreKeeps (s.orDesc die core slot a m) := by
  unfold State.orDesc
  dsimp only
  split
  · exact .refl s
  · exact s.performStore_keeps ..

theorem State.orDesc_wf (s : State) (die core slot a m : Nat) (h : s.mem.wf = true) : (s.orDesc die core slot a m).mem.wf = true := by
  unfold State.orDesc
  dsimp only
  split
  · exact h
  · exact s.performStore_wf _ _ _ _ _ h

/-- A page moved keeps the canonical form (R223). -/
theorem State.copyPage_wf (s : State) (o n size : Nat) (h : s.mem.wf = true) : (s.copyPage o n size).mem.wf = true :=
  Cells.wf_writeAll _ (Cells.wf_filter _ h)

end Sys2Proof.Machine
end

