-- ==== Sys2Proof/Laws/PerInstr.lean ====
section
/-! SUPPORT. Encodings read back, one lemma per instruction: the fields that the encoder gives a word decode to that word. A step of the machine that is
not a word has no encoding. -/

namespace Sys2Proof.Laws

open Sys2Proof

/-- The fields that the encoder gives an instruction, with its second word if it has one, decode to it; a word without a second one decodes whatever word
follows it. -/
def Roundtrip.Statement (i : Instr) : Prop :=
  i.wf = true → ∀ f, encodeFields i = some f → ∀ w, decodeFields f ((secondWord i).getD w) = .ok i

theorem join9 (k : BitVec 9) : k.extractLsb' 4 5 ++ k.extractLsb' 0 4 = k := by
  rw [BitVec.extractLsb'_append_extractLsb'_eq_extractLsb' (by rfl), BitVec.extractLsb'_eq_self]

theorem join6 (k : BitVec 6) : k.extractLsb' 4 2 ++ k.extractLsb' 0 4 = k := by
  rw [BitVec.extractLsb'_append_extractLsb'_eq_extractLsb' (by rfl), BitVec.extractLsb'_eq_self]

theorem join14 (k : BitVec 14) : k.extractLsb' 9 5 ++ k.extractLsb' 4 5 ++ k.extractLsb' 0 4 = k := by
  rw [BitVec.extractLsb'_append_extractLsb'_eq_extractLsb' (by rfl), BitVec.extractLsb'_append_extractLsb'_eq_extractLsb' (by rfl),
    BitVec.extractLsb'_eq_self]

theorem join19 (k : BitVec 19) : k.extractLsb' 14 5 ++ k.extractLsb' 9 5 ++ k.extractLsb' 4 5 ++ k.extractLsb' 0 4 = k := by
  rw [BitVec.extractLsb'_append_extractLsb'_eq_extractLsb' (by rfl), BitVec.extractLsb'_append_extractLsb'_eq_extractLsb' (by rfl),
    BitVec.extractLsb'_append_extractLsb'_eq_extractLsb' (by rfl), BitVec.extractLsb'_eq_self]

theorem join32 (k : W32) : k.extractLsb' 28 4 ++ k.extractLsb' 0 28 = k := by
  rw [BitVec.extractLsb'_append_extractLsb'_eq_extractLsb' (by rfl), BitVec.extractLsb'_eq_self]

/-- The high field of two, from its place. -/
theorem field_high {n m : Nat} (u : BitVec n) (v : BitVec m) : (u ++ v).extractLsb' m n = u :=
  (extract_append_high u v 0 n).trans BitVec.extractLsb'_eq_self

/-- The low field of two. -/
theorem field_low {n m : Nat} (u : BitVec n) (v : BitVec m) : (u ++ v).extractLsb' 0 m = v := extract_append_low u v

theorem pair_fence (k : BitVec 2) (s : BitVec 3) : (k ++ s).extractLsb' 3 2 = k ∧ (k ++ s).extractLsb' 0 3 = s := ⟨field_high k s, field_low k s⟩

theorem pair_slice (k : BitVec 3) (s : BitVec 2) : (k ++ s).extractLsb' 2 3 = k ∧ (k ++ s).extractLsb' 0 2 = s := ⟨field_high k s, field_low k s⟩

theorem pair_width (k s : BitVec 2) : (k ++ s).extractLsb' 2 2 = k ∧ (k ++ s).extractLsb' 0 2 = s := ⟨field_high k s, field_low k s⟩

theorem pair_bit (z : Bool) (k : BitVec 3) : (BitVec.ofBool z ++ k).extractLsb' 0 3 = k ∧ (BitVec.ofBool z ++ k).getLsbD 3 = z :=
  ⟨field_low _ k, by revert z k; decide⟩

theorem bits_mma (z f r : Bool) : (BitVec.ofBool z ++ BitVec.ofBool f ++ BitVec.ofBool r ++ 0#1).extractLsb' 0 1 = 0#1 ∧
    (BitVec.ofBool z ++ BitVec.ofBool f ++ BitVec.ofBool r ++ 0#1).getLsbD 3 = z ∧
    (BitVec.ofBool z ++ BitVec.ofBool f ++ BitVec.ofBool r ++ 0#1).getLsbD 2 = f ∧
    (BitVec.ofBool z ++ BitVec.ofBool f ++ BitVec.ofBool r ++ 0#1).getLsbD 1 = r := by revert z f r; decide

theorem bits_lmma (z f : Bool) : (BitVec.ofBool z ++ BitVec.ofBool f ++ 0#2).extractLsb' 0 2 = 0#2 ∧
    (BitVec.ofBool z ++ BitVec.ofBool f ++ 0#2).getLsbD 3 = z ∧ (BitVec.ofBool z ++ BitVec.ofBool f ++ 0#2).getLsbD 2 = f := by revert z f; decide

theorem bits_narrow (m s : Bool) (r : BitVec 2) : (BitVec.ofBool m ++ BitVec.ofBool s ++ r).extractLsb' 0 2 = r ∧
    (BitVec.ofBool m ++ BitVec.ofBool s ++ r).getLsbD 3 = m ∧ (BitVec.ofBool m ++ BitVec.ofBool s ++ r).getLsbD 2 = s := by revert m s r; decide

theorem pair_type (k : BitVec 1) (s : BitVec 4) : (k ++ s).extractLsb' 4 1 = k ∧ (k ++ s).extractLsb' 0 4 = s := ⟨field_high k s, field_low k s⟩

theorem Roundtrip.nop : ∀ h, Statement (.nop h) := by
  intro h ok f hf w
  cases hf
  rfl

theorem Roundtrip.trap : ∀ h a, Statement (.trap h a) := by
  intro h a ok f hf w
  cases hf
  rfl

theorem Roundtrip.eret : ∀ h, Statement (.eret h) := by
  intro h ok f hf w
  cases hf
  rfl

theorem Roundtrip.eretSa : ∀ h a, Statement (.eretSa h a) := by
  intro h a ok f hf w
  cases hf
  have h : ¬ a = 0 := fun e => by subst e; simp [Instr.wf] at ok
  show (if a = 0 then _ else _) = _
  rw [if_neg h]; rfl

theorem Roundtrip.brk : ∀ h, Statement (.brk h) := by
  intro h ok f hf w
  cases hf
  rfl

theorem Roundtrip.fenceFull : ∀ h s, Statement (.fenceFull h s) := by
  intro h s ok f hf w
  cases hf
  have ok : s.toNat ≤ 4 := by simpa [Instr.wf] using ok
  change decodeFence _ = _
  simp only [decodeFence, (pair_fence _ _).1, (pair_fence _ _).2]
  simp [reserved, ok]

theorem Roundtrip.fenceAcq : ∀ h s, Statement (.fenceAcq h s) := by
  intro h s ok f hf w
  cases hf
  have ok : s.toNat ≤ 4 := by simpa [Instr.wf] using ok
  change decodeFence _ = _
  simp only [decodeFence, (pair_fence _ _).1, (pair_fence _ _).2]
  simp [reserved, ok]

theorem Roundtrip.fenceRel : ∀ h s, Statement (.fenceRel h s) := by
  intro h s ok f hf w
  cases hf
  have ok : s.toNat ≤ 4 := by simpa [Instr.wf] using ok
  change decodeFence _ = _
  simp only [decodeFence, (pair_fence _ _).1, (pair_fence _ _).2]
  simp [reserved, ok]

theorem Roundtrip.xfence : ∀ h, Statement (.xfence h) := by
  intro h ok f hf w
  cases hf
  rfl

theorem Roundtrip.step : ∀ h l, Statement (.step h l) := by
  intro h l ok f hf w
  cases hf
  rfl

theorem Roundtrip.realign : ∀ h a, Statement (.realign h a) := by
  intro h a ok f hf w
  cases hf
  rfl

theorem Roundtrip.rcmt : ∀ h a b, Statement (.rcmt h a b) := by
  intro h a b ok f hf w
  cases hf
  rfl

theorem Roundtrip.tail : ∀ h, Statement (.tail h) := by
  intro h ok f hf w
  cases hf
  rfl

theorem Roundtrip.msel : ∀ h m, Statement (.msel h m) := by
  intro h m ok f hf w
  cases hf
  rfl

theorem Roundtrip.idle : ∀ h n, Statement (.idle h n) := by
  intro h n ok f hf w
  cases hf
  exact congrArg (fun v => Except.ok (Instr.idle h v)) (join14 n)

theorem Roundtrip.rgnT : ∀ h b s m, Statement (.rgnT h b s m) := by
  intro h b s m ok f hf w
  cases hf
  rfl

theorem Roundtrip.rgn : ∀ h b s m, Statement (.rgn h b s m) := by
  intro h b s m ok f hf w
  cases hf
  rfl

theorem Roundtrip.csrr : ∀ h d c, Statement (.csrr h d c) := by
  intro h d c ok f hf w
  cases hf
  exact congrArg (fun v => Except.ok (Instr.csrr h d v)) (join9 c)

theorem Roundtrip.csrw : ∀ h a c, Statement (.csrw h a c) := by
  intro h a c ok f hf w
  cases hf
  exact congrArg (fun v => Except.ok (Instr.csrw h a v)) (join9 c)

theorem Roundtrip.add : ∀ h d a b, Statement (.add h d a b) := by
  intro h d a b ok f hf w
  cases hf
  rfl

theorem Roundtrip.sub : ∀ h d a b, Statement (.sub h d a b) := by
  intro h d a b ok f hf w
  cases hf
  rfl

theorem Roundtrip.and : ∀ h d a b, Statement (.and h d a b) := by
  intro h d a b ok f hf w
  cases hf
  rfl

theorem Roundtrip.or : ∀ h d a b, Statement (.or h d a b) := by
  intro h d a b ok f hf w
  cases hf
  rfl

theorem Roundtrip.xor : ∀ h d a b, Statement (.xor h d a b) := by
  intro h d a b ok f hf w
  cases hf
  rfl

theorem Roundtrip.shl : ∀ h d a b, Statement (.shl h d a b) := by
  intro h d a b ok f hf w
  cases hf
  rfl

theorem Roundtrip.shr : ∀ h d a b, Statement (.shr h d a b) := by
  intro h d a b ok f hf w
  cases hf
  rfl

theorem Roundtrip.sra : ∀ h d a b, Statement (.sra h d a b) := by
  intro h d a b ok f hf w
  cases hf
  rfl

theorem Roundtrip.slt : ∀ h d a b, Statement (.slt h d a b) := by
  intro h d a b ok f hf w
  cases hf
  rfl

theorem Roundtrip.sltu : ∀ h d a b, Statement (.sltu h d a b) := by
  intro h d a b ok f hf w
  cases hf
  rfl

theorem Roundtrip.min : ∀ h d a b, Statement (.min h d a b) := by
  intro h d a b ok f hf w
  cases hf
  rfl

theorem Roundtrip.max : ∀ h d a b, Statement (.max h d a b) := by
  intro h d a b ok f hf w
  cases hf
  rfl

theorem Roundtrip.minu : ∀ h d a b, Statement (.minu h d a b) := by
  intro h d a b ok f hf w
  cases hf
  rfl

theorem Roundtrip.maxu : ∀ h d a b, Statement (.maxu h d a b) := by
  intro h d a b ok f hf w
  cases hf
  rfl

theorem Roundtrip.mul : ∀ h d a b, Statement (.mul h d a b) := by
  intro h d a b ok f hf w
  cases hf
  rfl

theorem Roundtrip.mulh : ∀ h d a b, Statement (.mulh h d a b) := by
  intro h d a b ok f hf w
  cases hf
  rfl

theorem Roundtrip.mulhu : ∀ h d a b, Statement (.mulhu h d a b) := by
  intro h d a b ok f hf w
  cases hf
  rfl

theorem Roundtrip.div : ∀ h d a b, Statement (.div h d a b) := by
  intro h d a b ok f hf w
  cases hf
  rfl

theorem Roundtrip.divu : ∀ h d a b, Statement (.divu h d a b) := by
  intro h d a b ok f hf w
  cases hf
  rfl

theorem Roundtrip.rem : ∀ h d a b, Statement (.rem h d a b) := by
  intro h d a b ok f hf w
  cases hf
  rfl

theorem Roundtrip.remu : ∀ h d a b, Statement (.remu h d a b) := by
  intro h d a b ok f hf w
  cases hf
  rfl

theorem Roundtrip.clz : ∀ h d a w, Statement (.clz h d a w) := by
  intro h d a w ok f hf w
  cases hf
  change decodeBits _ = _
  simp only [decodeBits, (pair_width _ _).1, (pair_width _ _).2]; rfl

theorem Roundtrip.ffs : ∀ h d a w, Statement (.ffs h d a w) := by
  intro h d a w ok f hf w
  cases hf
  change decodeBits _ = _
  simp only [decodeBits, (pair_width _ _).1, (pair_width _ _).2]; rfl

theorem Roundtrip.popc : ∀ h d a w, Statement (.popc h d a w) := by
  intro h d a w ok f hf w
  cases hf
  change decodeBits _ = _
  simp only [decodeBits, (pair_width _ _).1, (pair_width _ _).2]; rfl

theorem Roundtrip.addi : ∀ h d a k, Statement (.addi h d a k) := by
  intro h d a k ok f hf w
  cases hf
  exact congrArg (fun v => Except.ok (Instr.addi h d a v)) (join9 k)

theorem Roundtrip.andi : ∀ h d a k, Statement (.andi h d a k) := by
  intro h d a k ok f hf w
  cases hf
  exact congrArg (fun v => Except.ok (Instr.andi h d a v)) (join9 k)

theorem Roundtrip.ori : ∀ h d a k, Statement (.ori h d a k) := by
  intro h d a k ok f hf w
  cases hf
  exact congrArg (fun v => Except.ok (Instr.ori h d a v)) (join9 k)

theorem Roundtrip.xori : ∀ h d a k, Statement (.xori h d a k) := by
  intro h d a k ok f hf w
  cases hf
  exact congrArg (fun v => Except.ok (Instr.xori h d a v)) (join9 k)

theorem Roundtrip.slti : ∀ h d a k, Statement (.slti h d a k) := by
  intro h d a k ok f hf w
  cases hf
  exact congrArg (fun v => Except.ok (Instr.slti h d a v)) (join9 k)

theorem Roundtrip.shli : ∀ h d a n, Statement (.shli h d a n) := by
  intro h d a n ok f hf w
  cases hf
  change decodeShiftI _ = _
  simp only [decodeShiftI, (pair_slice _ _).1, (pair_slice _ _).2, join6]; rfl

theorem Roundtrip.shri : ∀ h d a n, Statement (.shri h d a n) := by
  intro h d a n ok f hf w
  cases hf
  change decodeShiftI _ = _
  simp only [decodeShiftI, (pair_slice _ _).1, (pair_slice _ _).2, join6]; rfl

theorem Roundtrip.srai : ∀ h d a n, Statement (.srai h d a n) := by
  intro h d a n ok f hf w
  cases hf
  change decodeShiftI _ = _
  simp only [decodeShiftI, (pair_slice _ _).1, (pair_slice _ _).2, join6]; rfl

theorem Roundtrip.li : ∀ h d k, Statement (.li h d k) := by
  intro h d k ok f hf w
  cases hf
  exact congrArg (fun v => Except.ok (Instr.li h d v)) (join14 k)

theorem Roundtrip.lit : ∀ h d k, Statement (.lit h d k) := by
  intro h d k ok f hf w
  cases hf
  show (if (0#4 ++ k.extractLsb' 0 28).extractLsb' 28 4 = 0 then Except.ok (Instr.lit h d (k.extractLsb' 28 4 ++ (0#4 ++ k.extractLsb' 0 28).extractLsb' 0 28)) else _) = _
  rw [field_high, field_low, join32]; rfl

theorem Roundtrip.lith : ∀ h d k, Statement (.lith h d k) := by
  intro h d k ok f hf w
  cases hf
  show (if (0#4 ++ k.extractLsb' 0 28).extractLsb' 28 4 = 0 then Except.ok (Instr.lith h d (k.extractLsb' 28 4 ++ (0#4 ++ k.extractLsb' 0 28).extractLsb' 0 28)) else _) = _
  rw [field_high, field_low, join32]; rfl

theorem Roundtrip.ldB : ∀ h d a n, Statement (.ldB h d a n) := by
  intro h d a n ok f hf w
  cases hf
  change decodeLd _ = _
  simp only [decodeLd, (pair_slice _ _).1, (pair_slice _ _).2, join6]; rfl

theorem Roundtrip.ldBu : ∀ h d a n, Statement (.ldBu h d a n) := by
  intro h d a n ok f hf w
  cases hf
  change decodeLd _ = _
  simp only [decodeLd, (pair_slice _ _).1, (pair_slice _ _).2, join6]; rfl

theorem Roundtrip.ldH : ∀ h d a n, Statement (.ldH h d a n) := by
  intro h d a n ok f hf w
  cases hf
  change decodeLd _ = _
  simp only [decodeLd, (pair_slice _ _).1, (pair_slice _ _).2, join6]; rfl

theorem Roundtrip.ldHu : ∀ h d a n, Statement (.ldHu h d a n) := by
  intro h d a n ok f hf w
  cases hf
  change decodeLd _ = _
  simp only [decodeLd, (pair_slice _ _).1, (pair_slice _ _).2, join6]; rfl

theorem Roundtrip.ldW : ∀ h d a n, Statement (.ldW h d a n) := by
  intro h d a n ok f hf w
  cases hf
  change decodeLd _ = _
  simp only [decodeLd, (pair_slice _ _).1, (pair_slice _ _).2, join6]; rfl

theorem Roundtrip.ldWu : ∀ h d a n, Statement (.ldWu h d a n) := by
  intro h d a n ok f hf w
  cases hf
  change decodeLd _ = _
  simp only [decodeLd, (pair_slice _ _).1, (pair_slice _ _).2, join6]; rfl

theorem Roundtrip.ldD : ∀ h d a n, Statement (.ldD h d a n) := by
  intro h d a n ok f hf w
  cases hf
  change decodeLd _ = _
  simp only [decodeLd, (pair_slice _ _).1, (pair_slice _ _).2, join6]; rfl

theorem Roundtrip.ldDAq : ∀ h d a n, Statement (.ldDAq h d a n) := by
  intro h d a n ok f hf w
  cases hf
  change decodeLd _ = _
  simp only [decodeLd, (pair_slice _ _).1, (pair_slice _ _).2, join6]; rfl

theorem Roundtrip.stB : ∀ h v a n, Statement (.stB h v a n) := by
  intro h v a n ok f hf w
  cases hf
  change decodeSt _ = _
  simp only [decodeSt, (pair_slice _ _).1, (pair_slice _ _).2, join6]; rfl

theorem Roundtrip.stH : ∀ h v a n, Statement (.stH h v a n) := by
  intro h v a n ok f hf w
  cases hf
  change decodeSt _ = _
  simp only [decodeSt, (pair_slice _ _).1, (pair_slice _ _).2, join6]; rfl

theorem Roundtrip.stW : ∀ h v a n, Statement (.stW h v a n) := by
  intro h v a n ok f hf w
  cases hf
  change decodeSt _ = _
  simp only [decodeSt, (pair_slice _ _).1, (pair_slice _ _).2, join6]; rfl

theorem Roundtrip.stD : ∀ h v a n, Statement (.stD h v a n) := by
  intro h v a n ok f hf w
  cases hf
  change decodeSt _ = _
  simp only [decodeSt, (pair_slice _ _).1, (pair_slice _ _).2, join6]; rfl

theorem Roundtrip.stWRl : ∀ h v a n, Statement (.stWRl h v a n) := by
  intro h v a n ok f hf w
  cases hf
  change decodeSt _ = _
  simp only [decodeSt, (pair_slice _ _).1, (pair_slice _ _).2, join6]; rfl

theorem Roundtrip.stDRl : ∀ h v a n, Statement (.stDRl h v a n) := by
  intro h v a n ok f hf w
  cases hf
  change decodeSt _ = _
  simp only [decodeSt, (pair_slice _ _).1, (pair_slice _ _).2, join6]; rfl

theorem Roundtrip.amocAdd : ∀ h a b d z, Statement (.amocAdd h a b d z) := by
  intro h a b d z ok f hf w
  cases hf
  change decodeAmoc _ = _
  simp only [decodeAmoc, (pair_bit _ _).1, (pair_bit _ _).2]; rfl

theorem Roundtrip.amocAnd : ∀ h a b d z, Statement (.amocAnd h a b d z) := by
  intro h a b d z ok f hf w
  cases hf
  change decodeAmoc _ = _
  simp only [decodeAmoc, (pair_bit _ _).1, (pair_bit _ _).2]; rfl

theorem Roundtrip.amocOr : ∀ h a b d z, Statement (.amocOr h a b d z) := by
  intro h a b d z ok f hf w
  cases hf
  change decodeAmoc _ = _
  simp only [decodeAmoc, (pair_bit _ _).1, (pair_bit _ _).2]; rfl

theorem Roundtrip.amocXor : ∀ h a b d z, Statement (.amocXor h a b d z) := by
  intro h a b d z ok f hf w
  cases hf
  change decodeAmoc _ = _
  simp only [decodeAmoc, (pair_bit _ _).1, (pair_bit _ _).2]; rfl

theorem Roundtrip.amocXchg : ∀ h a b d z, Statement (.amocXchg h a b d z) := by
  intro h a b d z ok f hf w
  cases hf
  change decodeAmoc _ = _
  simp only [decodeAmoc, (pair_bit _ _).1, (pair_bit _ _).2]; rfl

theorem Roundtrip.amocMax : ∀ h a b d z, Statement (.amocMax h a b d z) := by
  intro h a b d z ok f hf w
  cases hf
  change decodeAmoc _ = _
  simp only [decodeAmoc, (pair_bit _ _).1, (pair_bit _ _).2]; rfl

theorem Roundtrip.amocMin : ∀ h a b d z, Statement (.amocMin h a b d z) := by
  intro h a b d z ok f hf w
  cases hf
  change decodeAmoc _ = _
  simp only [decodeAmoc, (pair_bit _ _).1, (pair_bit _ _).2]; rfl

theorem Roundtrip.amocCas : ∀ h a b d z, Statement (.amocCas h a b d z) := by
  intro h a b d z ok f hf w
  cases hf
  change decodeAmoc _ = _
  simp only [decodeAmoc, (pair_bit _ _).1, (pair_bit _ _).2]; rfl

theorem Roundtrip.beq : ∀ h a b k, Statement (.beq h a b k) := by
  intro h a b k ok f hf w
  cases hf
  exact congrArg (fun v => Except.ok (Instr.beq h a b v)) (join9 k)

theorem Roundtrip.bne : ∀ h a b k, Statement (.bne h a b k) := by
  intro h a b k ok f hf w
  cases hf
  exact congrArg (fun v => Except.ok (Instr.bne h a b v)) (join9 k)

theorem Roundtrip.blt : ∀ h a b k, Statement (.blt h a b k) := by
  intro h a b k ok f hf w
  cases hf
  exact congrArg (fun v => Except.ok (Instr.blt h a b v)) (join9 k)

theorem Roundtrip.bge : ∀ h a b k, Statement (.bge h a b k) := by
  intro h a b k ok f hf w
  cases hf
  exact congrArg (fun v => Except.ok (Instr.bge h a b v)) (join9 k)

theorem Roundtrip.bltu : ∀ h a b k, Statement (.bltu h a b k) := by
  intro h a b k ok f hf w
  cases hf
  exact congrArg (fun v => Except.ok (Instr.bltu h a b v)) (join9 k)

theorem Roundtrip.bgeu : ∀ h a b k, Statement (.bgeu h a b k) := by
  intro h a b k ok f hf w
  cases hf
  exact congrArg (fun v => Except.ok (Instr.bgeu h a b v)) (join9 k)

theorem Roundtrip.beqz : ∀ h a k, Statement (.beqz h a k) := by
  intro h a k ok f hf w
  cases hf
  exact congrArg (fun v => Except.ok (Instr.beqz h a v)) (join14 k)

theorem Roundtrip.bnez : ∀ h a k, Statement (.bnez h a k) := by
  intro h a k ok f hf w
  cases hf
  exact congrArg (fun v => Except.ok (Instr.bnez h a v)) (join14 k)

theorem Roundtrip.loop : ∀ h a k, Statement (.loop h a k) := by
  intro h a k ok f hf w
  cases hf
  exact congrArg (fun v => Except.ok (Instr.loop h a v)) (join14 k)

theorem Roundtrip.jmp : ∀ h k, Statement (.jmp h k) := by
  intro h k ok f hf w
  cases hf
  exact congrArg (fun v => Except.ok (Instr.jmp h v)) (join19 k)

theorem Roundtrip.jal : ∀ h k, Statement (.jal h k) := by
  intro h k ok f hf w
  cases hf
  exact congrArg (fun v => Except.ok (Instr.jal h v)) (join19 k)

theorem Roundtrip.jr : ∀ h a, Statement (.jr h a) := by
  intro h a ok f hf w
  cases hf
  rfl

theorem Roundtrip.bstat : ∀ h a b k, Statement (.bstat h a b k) := by
  intro h a b k ok f hf w
  cases hf
  exact congrArg (fun v => Except.ok (Instr.bstat h a b v)) (join9 k)

theorem Roundtrip.vadd : ∀ h d a b m, Statement (.vadd h d a b m) := by
  intro h d a b m ok f hf w
  cases hf
  change decodeVfa _ = _
  simp only [decodeVfa, (pair_bit _ _).1, (pair_bit _ _).2]; rfl

theorem Roundtrip.vsub : ∀ h d a b m, Statement (.vsub h d a b m) := by
  intro h d a b m ok f hf w
  cases hf
  change decodeVfa _ = _
  simp only [decodeVfa, (pair_bit _ _).1, (pair_bit _ _).2]; rfl

theorem Roundtrip.vmul : ∀ h d a b m, Statement (.vmul h d a b m) := by
  intro h d a b m ok f hf w
  cases hf
  change decodeVfa _ = _
  simp only [decodeVfa, (pair_bit _ _).1, (pair_bit _ _).2]; rfl

theorem Roundtrip.vmin : ∀ h d a b m, Statement (.vmin h d a b m) := by
  intro h d a b m ok f hf w
  cases hf
  change decodeVfa _ = _
  simp only [decodeVfa, (pair_bit _ _).1, (pair_bit _ _).2]; rfl

theorem Roundtrip.vmax : ∀ h d a b m, Statement (.vmax h d a b m) := by
  intro h d a b m ok f hf w
  cases hf
  change decodeVfa _ = _
  simp only [decodeVfa, (pair_bit _ _).1, (pair_bit _ _).2]; rfl

theorem Roundtrip.vabsd : ∀ h d a b m, Statement (.vabsd h d a b m) := by
  intro h d a b m ok f hf w
  cases hf
  change decodeVfa _ = _
  simp only [decodeVfa, (pair_bit _ _).1, (pair_bit _ _).2]; rfl

theorem Roundtrip.vmov : ∀ h d a m, Statement (.vmov h d a m) := by
  intro h d a m ok f hf w
  cases hf
  change decodeVfa _ = _
  simp only [decodeVfa, (pair_bit _ _).1, (pair_bit _ _).2]; rfl

theorem Roundtrip.vsel : ∀ h d a b, Statement (.vsel h d a b) := by
  intro h d a b ok f hf w
  cases hf
  simp [decodeFields, decodeVfa, reserved]

theorem Roundtrip.vfma : ∀ h d a b m, Statement (.vfma h d a b m) := by
  intro h d a b m ok f hf w
  cases hf
  change decodeVfma _ = _
  simp only [decodeVfma, (pair_bit _ _).1, (pair_bit _ _).2]; rfl

theorem Roundtrip.vfms : ∀ h d a b m, Statement (.vfms h d a b m) := by
  intro h d a b m ok f hf w
  cases hf
  change decodeVfma _ = _
  simp only [decodeVfma, (pair_bit _ _).1, (pair_bit _ _).2]; rfl

theorem Roundtrip.vfnma : ∀ h d a b m, Statement (.vfnma h d a b m) := by
  intro h d a b m ok f hf w
  cases hf
  change decodeVfma _ = _
  simp only [decodeVfma, (pair_bit _ _).1, (pair_bit _ _).2]; rfl

theorem Roundtrip.viadd : ∀ h d a b m, Statement (.viadd h d a b m) := by
  intro h d a b m ok f hf w
  cases hf
  change decodeVia _ = _
  simp only [decodeVia, (pair_bit _ _).1, (pair_bit _ _).2]; rfl

theorem Roundtrip.visub : ∀ h d a b m, Statement (.visub h d a b m) := by
  intro h d a b m ok f hf w
  cases hf
  change decodeVia _ = _
  simp only [decodeVia, (pair_bit _ _).1, (pair_bit _ _).2]; rfl

theorem Roundtrip.vimul : ∀ h d a b m, Statement (.vimul h d a b m) := by
  intro h d a b m ok f hf w
  cases hf
  change decodeVia _ = _
  simp only [decodeVia, (pair_bit _ _).1, (pair_bit _ _).2]; rfl

theorem Roundtrip.vimin : ∀ h d a b m, Statement (.vimin h d a b m) := by
  intro h d a b m ok f hf w
  cases hf
  change decodeVia _ = _
  simp only [decodeVia, (pair_bit _ _).1, (pair_bit _ _).2]; rfl

theorem Roundtrip.vimax : ∀ h d a b m, Statement (.vimax h d a b m) := by
  intro h d a b m ok f hf w
  cases hf
  change decodeVia _ = _
  simp only [decodeVia, (pair_bit _ _).1, (pair_bit _ _).2]; rfl

theorem Roundtrip.vand : ∀ h d a b m, Statement (.vand h d a b m) := by
  intro h d a b m ok f hf w
  cases hf
  change decodeVia _ = _
  simp only [decodeVia, (pair_bit _ _).1, (pair_bit _ _).2]; rfl

theorem Roundtrip.vor : ∀ h d a b m, Statement (.vor h d a b m) := by
  intro h d a b m ok f hf w
  cases hf
  change decodeVia _ = _
  simp only [decodeVia, (pair_bit _ _).1, (pair_bit _ _).2]; rfl

theorem Roundtrip.vxor : ∀ h d a b m, Statement (.vxor h d a b m) := by
  intro h d a b m ok f hf w
  cases hf
  change decodeVia _ = _
  simp only [decodeVia, (pair_bit _ _).1, (pair_bit _ _).2]; rfl

theorem Roundtrip.vshl : ∀ h d a b m, Statement (.vshl h d a b m) := by
  intro h d a b m ok f hf w
  cases hf
  change decodeVsh _ = _
  simp only [decodeVsh, (pair_bit _ _).1, (pair_bit _ _).2]; rfl

theorem Roundtrip.vshr : ∀ h d a b m, Statement (.vshr h d a b m) := by
  intro h d a b m ok f hf w
  cases hf
  change decodeVsh _ = _
  simp only [decodeVsh, (pair_bit _ _).1, (pair_bit _ _).2]; rfl

theorem Roundtrip.vsra : ∀ h d a b m, Statement (.vsra h d a b m) := by
  intro h d a b m ok f hf w
  cases hf
  change decodeVsh _ = _
  simp only [decodeVsh, (pair_bit _ _).1, (pair_bit _ _).2]; rfl

theorem Roundtrip.vclz : ∀ h d a w m, Statement (.vclz h d a w m) := by
  intro h d a w m ok f hf w
  cases hf
  change decodeVbit _ = _
  simp only [decodeVbit, (pair_bit _ _).1, (pair_bit _ _).2]; rfl

theorem Roundtrip.vffs : ∀ h d a w m, Statement (.vffs h d a w m) := by
  intro h d a w m ok f hf w
  cases hf
  change decodeVbit _ = _
  simp only [decodeVbit, (pair_bit _ _).1, (pair_bit _ _).2]; rfl

theorem Roundtrip.vpopc : ∀ h d a w m, Statement (.vpopc h d a w m) := by
  intro h d a w m ok f hf w
  cases hf
  change decodeVbit _ = _
  simp only [decodeVbit, (pair_bit _ _).1, (pair_bit _ _).2]; rfl

theorem Roundtrip.vcmpFeq : ∀ h d a b m, Statement (.vcmpFeq h d a b m) := by
  intro h d a b m ok f hf w
  cases hf
  change decodeVcmp _ = _
  simp only [decodeVcmp, (pair_bit _ _).1, (pair_bit _ _).2]; rfl

theorem Roundtrip.vcmpFlt : ∀ h d a b m, Statement (.vcmpFlt h d a b m) := by
  intro h d a b m ok f hf w
  cases hf
  change decodeVcmp _ = _
  simp only [decodeVcmp, (pair_bit _ _).1, (pair_bit _ _).2]; rfl

theorem Roundtrip.vcmpFle : ∀ h d a b m, Statement (.vcmpFle h d a b m) := by
  intro h d a b m ok f hf w
  cases hf
  change decodeVcmp _ = _
  simp only [decodeVcmp, (pair_bit _ _).1, (pair_bit _ _).2]; rfl

theorem Roundtrip.vcmpFun : ∀ h d a b m, Statement (.vcmpFun h d a b m) := by
  intro h d a b m ok f hf w
  cases hf
  change decodeVcmp _ = _
  simp only [decodeVcmp, (pair_bit _ _).1, (pair_bit _ _).2]; rfl

theorem Roundtrip.vcmpIeq : ∀ h d a b m, Statement (.vcmpIeq h d a b m) := by
  intro h d a b m ok f hf w
  cases hf
  change decodeVcmp _ = _
  simp only [decodeVcmp, (pair_bit _ _).1, (pair_bit _ _).2]; rfl

theorem Roundtrip.vcmpIlt : ∀ h d a b m, Statement (.vcmpIlt h d a b m) := by
  intro h d a b m ok f hf w
  cases hf
  change decodeVcmp _ = _
  simp only [decodeVcmp, (pair_bit _ _).1, (pair_bit _ _).2]; rfl

theorem Roundtrip.vcmpIltu : ∀ h d a b m, Statement (.vcmpIltu h d a b m) := by
  intro h d a b m ok f hf w
  cases hf
  change decodeVcmp _ = _
  simp only [decodeVcmp, (pair_bit _ _).1, (pair_bit _ _).2]; rfl

theorem Roundtrip.vcvtNar : ∀ h d a t m s r, Statement (.vcvtNar h d a t m s r) := by
  intro h d a t m s r ok f hf w
  cases hf
  change decodeVcvt _ = _
  simp only [decodeVcvt, (pair_type _ _).1, (pair_type _ _).2, (bits_narrow m s r).1, (bits_narrow m s r).2.1, (bits_narrow m s r).2.2]; rfl

theorem Roundtrip.vcvtWid : ∀ h d a t m, Statement (.vcvtWid h d a t m) := by
  intro h d a t m ok f hf w
  cases hf
  change decodeVcvt _ = _
  simp only [decodeVcvt, (pair_type _ _).1, (pair_type _ _).2, (pair_bit _ _).1, (pair_bit _ _).2]; rfl

theorem Roundtrip.vsfnExp2 : ∀ h d a m, Statement (.vsfnExp2 h d a m) := by
  intro h d a m ok f hf w
  cases hf
  change decodeVsfn _ = _
  simp only [decodeVsfn, (pair_bit _ _).1, (pair_bit _ _).2]; rfl

theorem Roundtrip.vsfnLog2 : ∀ h d a m, Statement (.vsfnLog2 h d a m) := by
  intro h d a m ok f hf w
  cases hf
  change decodeVsfn _ = _
  simp only [decodeVsfn, (pair_bit _ _).1, (pair_bit _ _).2]; rfl

theorem Roundtrip.vsfnRcp : ∀ h d a m, Statement (.vsfnRcp h d a m) := by
  intro h d a m ok f hf w
  cases hf
  change decodeVsfn _ = _
  simp only [decodeVsfn, (pair_bit _ _).1, (pair_bit _ _).2]; rfl

theorem Roundtrip.vsfnRsqrt : ∀ h d a m, Statement (.vsfnRsqrt h d a m) := by
  intro h d a m ok f hf w
  cases hf
  change decodeVsfn _ = _
  simp only [decodeVsfn, (pair_bit _ _).1, (pair_bit _ _).2]; rfl

theorem Roundtrip.vsfnSqrt : ∀ h d a m, Statement (.vsfnSqrt h d a m) := by
  intro h d a m ok f hf w
  cases hf
  change decodeVsfn _ = _
  simp only [decodeVsfn, (pair_bit _ _).1, (pair_bit _ _).2]; rfl

theorem Roundtrip.vsfnTanh : ∀ h d a m, Statement (.vsfnTanh h d a m) := by
  intro h d a m ok f hf w
  cases hf
  change decodeVsfn _ = _
  simp only [decodeVsfn, (pair_bit _ _).1, (pair_bit _ _).2]; rfl

theorem Roundtrip.vsfnSigm : ∀ h d a m, Statement (.vsfnSigm h d a m) := by
  intro h d a m ok f hf w
  cases hf
  change decodeVsfn _ = _
  simp only [decodeVsfn, (pair_bit _ _).1, (pair_bit _ _).2]; rfl

theorem Roundtrip.vsfnSilu : ∀ h d a m, Statement (.vsfnSilu h d a m) := by
  intro h d a m ok f hf w
  cases hf
  change decodeVsfn _ = _
  simp only [decodeVsfn, (pair_bit _ _).1, (pair_bit _ _).2]; rfl

theorem Roundtrip.vrotr : ∀ h d a n m, Statement (.vrotr h d a n m) := by
  intro h d a n m ok f hf w
  cases hf
  change decodeVaxis _ = _
  simp only [decodeVaxis, (pair_bit _ _).1, (pair_bit _ _).2]; rfl

theorem Roundtrip.vrotrHi : ∀ h d a n m, Statement (.vrotrHi h d a n m) := by
  intro h d a n m ok f hf w
  cases hf
  change decodeVaxis _ = _
  simp only [decodeVaxis, (pair_bit _ _).1, (pair_bit _ _).2]; rfl

theorem Roundtrip.vrotc : ∀ h d a n m, Statement (.vrotc h d a n m) := by
  intro h d a n m ok f hf w
  cases hf
  change decodeVaxis _ = _
  simp only [decodeVaxis, (pair_bit _ _).1, (pair_bit _ _).2]; rfl

theorem Roundtrip.vbcr : ∀ h d a c m, Statement (.vbcr h d a c m) := by
  intro h d a c m ok f hf w
  cases hf
  change decodeVaxis _ = _
  simp only [decodeVaxis, (pair_bit _ _).1, (pair_bit _ _).2]; rfl

theorem Roundtrip.vbcrHi : ∀ h d a c m, Statement (.vbcrHi h d a c m) := by
  intro h d a c m ok f hf w
  cases hf
  change decodeVaxis _ = _
  simp only [decodeVaxis, (pair_bit _ _).1, (pair_bit _ _).2]; rfl

theorem Roundtrip.vbcc : ∀ h d a r m, Statement (.vbcc h d a r m) := by
  intro h d a r m ok f hf w
  cases hf
  change decodeVaxis _ = _
  simp only [decodeVaxis, (pair_bit _ _).1, (pair_bit _ _).2]; rfl

theorem Roundtrip.vredrAdd : ∀ h d a m, Statement (.vredrAdd h d a m) := by
  intro h d a m ok f hf w
  cases hf
  change decodeVred _ = _
  simp only [decodeVred, (pair_bit _ _).1, (pair_bit _ _).2]; rfl

theorem Roundtrip.vredrMax : ∀ h d a m, Statement (.vredrMax h d a m) := by
  intro h d a m ok f hf w
  cases hf
  change decodeVred _ = _
  simp only [decodeVred, (pair_bit _ _).1, (pair_bit _ _).2]; rfl

theorem Roundtrip.vredrMin : ∀ h d a m, Statement (.vredrMin h d a m) := by
  intro h d a m ok f hf w
  cases hf
  change decodeVred _ = _
  simp only [decodeVred, (pair_bit _ _).1, (pair_bit _ _).2]; rfl

theorem Roundtrip.vredrIadd : ∀ h d a m, Statement (.vredrIadd h d a m) := by
  intro h d a m ok f hf w
  cases hf
  change decodeVred _ = _
  simp only [decodeVred, (pair_bit _ _).1, (pair_bit _ _).2]; rfl

theorem Roundtrip.vredcAdd : ∀ h d a m, Statement (.vredcAdd h d a m) := by
  intro h d a m ok f hf w
  cases hf
  change decodeVred _ = _
  simp only [decodeVred, (pair_bit _ _).1, (pair_bit _ _).2]; rfl

theorem Roundtrip.vredcMax : ∀ h d a m, Statement (.vredcMax h d a m) := by
  intro h d a m ok f hf w
  cases hf
  change decodeVred _ = _
  simp only [decodeVred, (pair_bit _ _).1, (pair_bit _ _).2]; rfl

theorem Roundtrip.vredcMin : ∀ h d a m, Statement (.vredcMin h d a m) := by
  intro h d a m ok f hf w
  cases hf
  change decodeVred _ = _
  simp only [decodeVred, (pair_bit _ _).1, (pair_bit _ _).2]; rfl

theorem Roundtrip.vredcIadd : ∀ h d a m, Statement (.vredcIadd h d a m) := by
  intro h d a m ok f hf w
  cases hf
  change decodeVred _ = _
  simp only [decodeVred, (pair_bit _ _).1, (pair_bit _ _).2]; rfl

theorem Roundtrip.vbcs : ∀ h d a m, Statement (.vbcs h d a m) := by
  intro h d a m ok f hf w
  cases hf
  change decodeVscl _ = _
  simp only [decodeVscl, (pair_bit _ _).1, (pair_bit _ _).2]; rfl

theorem Roundtrip.vext : ∀ h d a c, Statement (.vext h d a c) := by
  intro h d a c ok f hf w
  cases hf
  simp [decodeFields, decodeVscl, reserved]

theorem Roundtrip.vextHi : ∀ h d a c, Statement (.vextHi h d a c) := by
  intro h d a c ok f hf w
  cases hf
  simp [decodeFields, decodeVscl, reserved]

theorem Roundtrip.vrand : ∀ h d a m, Statement (.vrand h d a m) := by
  intro h d a m ok f hf w
  cases hf
  change decodeVrand _ = _
  simp only [decodeVrand, (pair_bit _ _).1, (pair_bit _ _).2]; rfl

theorem Roundtrip.osmx : ∀ h e a b, Statement (.osmx h e a b) := by
  intro h e a b ok f hf w
  cases hf
  rfl

theorem Roundtrip.osmf : ∀ h d e, Statement (.osmf h d e) := by
  intro h d e ok f hf w
  cases hf
  rfl

theorem Roundtrip.pcfg : ∀ h g a, Statement (.pcfg h g a) := by
  intro h g a ok f hf w
  cases hf
  rfl

theorem Roundtrip.prwd : ∀ h g, Statement (.prwd h g) := by
  intro h g ok f hf w
  cases hf
  rfl

theorem Roundtrip.shld : ∀ h x a, Statement (.shld h x a) := by
  intro h x a ok f hf w
  cases hf
  rfl

theorem Roundtrip.mma : ∀ h c a b z f r, Statement (.mma h c a b z f r) := by
  intro h c a b z f r ok f hf w
  cases hf
  have ok : ¬ (z = true ∧ r = true) := by
    simp only [Instr.wf, Bool.and_eq_true, Bool.not_eq_true'] at ok
    rintro ⟨rfl, rfl⟩; simp at ok
  change decodeMma _ = _
  simp only [decodeMma, (bits_mma z f r).1, (bits_mma z f r).2.1, (bits_mma z f r).2.2.1, (bits_mma z f r).2.2.2, reserved, if_pos ok]; rfl

theorem Roundtrip.lmma : ∀ h c q w z f, Statement (.lmma h c q w z f) := by
  intro h c q w z f ok f hf w
  cases hf
  change decodeLmma _ = _
  simp only [decodeLmma, (bits_lmma z f).1, (bits_lmma z f).2.1, (bits_lmma z f).2.2]; rfl

theorem Roundtrip.tbuildZ : ∀ h q a, Statement (.tbuildZ h q a) := by
  intro h q a ok f hf w
  cases hf
  rfl

theorem Roundtrip.tbuildC : ∀ h q a, Statement (.tbuildC h q a) := by
  intro h q a ok f hf w
  cases hf
  rfl

theorem Roundtrip.tbuildC2 : ∀ h q a, Statement (.tbuildC2 h q a) := by
  intro h q a ok f hf w
  cases hf
  rfl

theorem Roundtrip.tinv : ∀ h q, Statement (.tinv h q) := by
  intro h q ok f hf w
  cases hf
  rfl

theorem Roundtrip.tspill : ∀ h q a, Statement (.tspill h q a) := by
  intro h q a ok f hf w
  cases hf
  rfl

theorem Roundtrip.tfill : ∀ h q a, Statement (.tfill h q a) := by
  intro h q a ok f hf w
  cases hf
  rfl

theorem Roundtrip.cbld : ∀ h a, Statement (.cbld h a) := by
  intro h a ok f hf w
  cases hf
  rfl

theorem Roundtrip.epi : ∀ h a, Statement (.epi h a) := by
  intro h a ok f hf w
  cases hf
  rfl

theorem Roundtrip.cpy : ∀ h a, Statement (.cpy h a) := by
  intro h a ok f hf w
  cases hf
  rfl

theorem Roundtrip.saccFadd : ∀ h d x v, Statement (.saccFadd h d x v) := by
  intro h d x v ok f hf w
  cases hf
  rfl

theorem Roundtrip.saccFmax : ∀ h d x v, Statement (.saccFmax h d x v) := by
  intro h d x v ok f hf w
  cases hf
  rfl

theorem Roundtrip.saccFmin : ∀ h d x v, Statement (.saccFmin h d x v) := by
  intro h d x v ok f hf w
  cases hf
  rfl

theorem Roundtrip.saccIadd : ∀ h d x v, Statement (.saccIadd h d x v) := by
  intro h d x v ok f hf w
  cases hf
  rfl

theorem Roundtrip.arm : ∀ h a b, Statement (.arm h a b) := by
  intro h a b ok f hf w
  cases hf
  rfl

theorem Roundtrip.await : ∀ h a b, Statement (.await h a b) := by
  intro h a b ok f hf w
  cases hf
  rfl

theorem Roundtrip.arrv : ∀ h a b, Statement (.arrv h a b) := by
  intro h a b ok f hf w
  cases hf
  rfl

theorem Roundtrip.awaitX : ∀ h a b, Statement (.awaitX h a b) := by
  intro h a b ok f hf w
  cases hf
  rfl

theorem Roundtrip.xgrant : ∀ h a b k, Statement (.xgrant h a b k) := by
  intro h a b k ok f hf w
  cases hf
  change decodeXch _ = _
  simp only [decodeXch, (pair_width _ _).1, (pair_width _ _).2]; rfl

theorem Roundtrip.xsend : ∀ h a b k, Statement (.xsend h a b k) := by
  intro h a b k ok f hf w
  cases hf
  change decodeXch _ = _
  simp only [decodeXch, (pair_width _ _).1, (pair_width _ _).2]; rfl

theorem Roundtrip.xstat : ∀ h a d, Statement (.xstat h a d) := by
  intro h a d ok f hf w
  cases hf
  simp [decodeFields, decodeXch, reserved]

theorem Roundtrip.emit : ∀ h a b, Statement (.emit h a b) := by
  intro h a b ok f hf w
  cases hf
  rfl

theorem Roundtrip.mirr : ∀ h a b, Statement (.mirr h a b) := by
  intro h a b ok f hf w
  cases hf
  rfl

theorem Roundtrip.tsub : ∀ h a b, Statement (.tsub h a b) := by
  intro h a b ok f hf w
  cases hf
  rfl

theorem Roundtrip.qctl : ∀ h a b, Statement (.qctl h a b) := by
  intro h a b ok f hf w
  cases hf
  rfl

theorem Roundtrip.tlbiCasement : ∀ x0, Statement (.tlbiCasement x0) := by
  intro x0 _ _ h
  cases h

theorem Roundtrip.tlbiPage : ∀ x0, Statement (.tlbiPage x0) := by
  intro x0 _ _ h
  cases h

theorem Roundtrip.resultLands : ∀ x0 x1, Statement (.resultLands x0 x1) := by
  intro x0 x1 _ _ h
  cases h

theorem Roundtrip.loadValueLands : ∀ x0, Statement (.loadValueLands x0) := by
  intro x0 _ _ h
  cases h

theorem Roundtrip.amocOldValueLands : ∀ x0, Statement (.amocOldValueLands x0) := by
  intro x0 _ _ h
  cases h

theorem Roundtrip.regionAlignment : ∀ x0, Statement (.regionAlignment x0) := by
  intro x0 _ _ h
  cases h

theorem Roundtrip.closingAlignment : ∀ x0, Statement (.closingAlignment x0) := by
  intro x0 _ _ h
  cases h

theorem Roundtrip.realignVisible : ∀ x0 x1, Statement (.realignVisible x0 x1) := by
  intro x0 x1 _ _ h
  cases h

theorem Roundtrip.budgetExceeded : ∀ x0, Statement (.budgetExceeded x0) := by
  intro x0 _ _ h
  cases h

theorem Roundtrip.taskBudgetExpiry : ∀ x0, Statement (.taskBudgetExpiry x0) := by
  intro x0 _ _ h
  cases h

theorem Roundtrip.softErrorReexec : ∀ x0 x1, Statement (.softErrorReexec x0 x1) := by
  intro x0 x1 _ _ h
  cases h

theorem Roundtrip.dispatchDecision : Statement (.dispatchDecision) := by
  intro _ _ h
  cases h

theorem Roundtrip.queueRecordRead : ∀ x0, Statement (.queueRecordRead x0) := by
  intro x0 _ _ h
  cases h

theorem Roundtrip.waitRecheck : ∀ x0, Statement (.waitRecheck x0) := by
  intro x0 _ _ h
  cases h

theorem Roundtrip.markRecord : ∀ x0, Statement (.markRecord x0) := by
  intro x0 _ _ h
  cases h

theorem Roundtrip.waitFaultTimeout : ∀ x0, Statement (.waitFaultTimeout x0) := by
  intro x0 _ _ h
  cases h

theorem Roundtrip.preemptRequest : ∀ x0, Statement (.preemptRequest x0) := by
  intro x0 _ _ h
  cases h

theorem Roundtrip.saveComplete : ∀ x0, Statement (.saveComplete x0) := by
  intro x0 _ _ h
  cases h

theorem Roundtrip.saveFault : ∀ x0, Statement (.saveFault x0) := by
  intro x0 _ _ h
  cases h

theorem Roundtrip.completionEntryWrite : ∀ x0, Statement (.completionEntryWrite x0) := by
  intro x0 _ _ h
  cases h

theorem Roundtrip.cqInterrupt : ∀ x0, Statement (.cqInterrupt x0) := by
  intro x0 _ _ h
  cases h

theorem Roundtrip.trackerEntryFree : ∀ x0 x1, Statement (.trackerEntryFree x0 x1) := by
  intro x0 x1 _ _ h
  cases h

theorem Roundtrip.heldEffectDrain : ∀ x0 x1, Statement (.heldEffectDrain x0 x1) := by
  intro x0 x1 _ _ h
  cases h

theorem Roundtrip.copyBeat : ∀ x0 x1, Statement (.copyBeat x0 x1) := by
  intro x0 x1 _ _ h
  cases h

theorem Roundtrip.portDrain : ∀ x0 x1, Statement (.portDrain x0 x1) := by
  intro x0 x1 _ _ h
  cases h

theorem Roundtrip.engineCommandStart : ∀ x0 x1, Statement (.engineCommandStart x0 x1) := by
  intro x0 x1 _ _ h
  cases h

theorem Roundtrip.mmaStep : ∀ x0, Statement (.mmaStep x0) := by
  intro x0 _ _ h
  cases h

theorem Roundtrip.mmaComplete : ∀ x0, Statement (.mmaComplete x0) := by
  intro x0 _ _ h
  cases h

theorem Roundtrip.lmmaLookup : ∀ x0, Statement (.lmmaLookup x0) := by
  intro x0 _ _ h
  cases h

theorem Roundtrip.lmmaComplete : ∀ x0, Statement (.lmmaComplete x0) := by
  intro x0 _ _ h
  cases h

theorem Roundtrip.tbuildComplete : ∀ x0, Statement (.tbuildComplete x0) := by
  intro x0 _ _ h
  cases h

theorem Roundtrip.epiComplete : ∀ x0, Statement (.epiComplete x0) := by
  intro x0 _ _ h
  cases h

theorem Roundtrip.saccUpdate : ∀ x0, Statement (.saccUpdate x0) := by
  intro x0 _ _ h
  cases h

theorem Roundtrip.tinvComplete : ∀ x0, Statement (.tinvComplete x0) := by
  intro x0 _ _ h
  cases h

theorem Roundtrip.tspillComplete : ∀ x0, Statement (.tspillComplete x0) := by
  intro x0 _ _ h
  cases h

theorem Roundtrip.tfillComplete : ∀ x0, Statement (.tfillComplete x0) := by
  intro x0 _ _ h
  cases h

theorem Roundtrip.grantArrival : ∀ x0, Statement (.grantArrival x0) := by
  intro x0 _ _ h
  cases h

theorem Roundtrip.transomGroupLands : ∀ x0, Statement (.transomGroupLands x0) := by
  intro x0 _ _ h
  cases h

theorem Roundtrip.mirrorAreaComplete : ∀ x0 x1, Statement (.mirrorAreaComplete x0 x1) := by
  intro x0 x1 _ _ h
  cases h

theorem Roundtrip.chunkAtEndpoint : ∀ x0, Statement (.chunkAtEndpoint x0) := by
  intro x0 _ _ h
  cases h

theorem Roundtrip.translationWalk : ∀ x0, Statement (.translationWalk x0) := by
  intro x0 _ _ h
  cases h

theorem Roundtrip.remoteStoreApply : ∀ x0 x1, Statement (.remoteStoreApply x0 x1) := by
  intro x0 x1 _ _ h
  cases h

theorem Roundtrip.migrationSwitch : Statement (.migrationSwitch) := by
  intro _ _ h
  cases h

theorem Roundtrip.fleetAnchorRewrite : ∀ x0, Statement (.fleetAnchorRewrite x0) := by
  intro x0 _ _ h
  cases h

theorem Roundtrip.ptpSync : ∀ x0, Statement (.ptpSync x0) := by
  intro x0 _ _ h
  cases h

theorem Roundtrip.holdover : Statement (.holdover) := by
  intro _ _ h
  cases h

theorem Roundtrip.ptpPortRebind : Statement (.ptpPortRebind) := by
  intro _ _ h
  cases h

theorem Roundtrip.sessionIngress : ∀ x0 x1 x2, Statement (.sessionIngress x0 x1 x2) := by
  intro x0 x1 x2 _ _ h
  cases h

theorem Roundtrip.dieHeartbeat : ∀ x0, Statement (.dieHeartbeat x0) := by
  intro x0 _ _ h
  cases h

theorem Roundtrip.dieLossDeclared : ∀ x0, Statement (.dieLossDeclared x0) := by
  intro x0 _ _ h
  cases h

theorem Roundtrip.clockLockLoss : ∀ x0, Statement (.clockLockLoss x0) := by
  intro x0 _ _ h
  cases h

theorem Roundtrip.hingeClockLoss : Statement (.hingeClockLoss) := by
  intro _ _ h
  cases h

theorem Roundtrip.powerOfferTick : Statement (.powerOfferTick) := by
  intro _ _ h
  cases h

theorem Roundtrip.powerRebalance : Statement (.powerRebalance) := by
  intro _ _ h
  cases h

theorem Roundtrip.thermalHoldEnter : ∀ x0, Statement (.thermalHoldEnter x0) := by
  intro x0 _ _ h
  cases h

theorem Roundtrip.thermalHoldExit : ∀ x0, Statement (.thermalHoldExit x0) := by
  intro x0 _ _ h
  cases h

theorem Roundtrip.hbmSlotService : ∀ x0 x1, Statement (.hbmSlotService x0 x1) := by
  intro x0 x1 _ _ h
  cases h

theorem Roundtrip.usageWindowClose : ∀ x0, Statement (.usageWindowClose x0) := by
  intro x0 _ _ h
  cases h

theorem Roundtrip.usageRecordComplete : ∀ x0, Statement (.usageRecordComplete x0) := by
  intro x0 _ _ h
  cases h

theorem Roundtrip.scrubUnitDone : ∀ x0, Statement (.scrubUnitDone x0) := by
  intro x0 _ _ h
  cases h

theorem Roundtrip.bootStage : Statement (.bootStage) := by
  intro _ _ h
  cases h

theorem Roundtrip.vfFlr : ∀ x0, Statement (.vfFlr x0) := by
  intro x0 _ _ h
  cases h

theorem Roundtrip.faultEntryWrite : ∀ x0, Statement (.faultEntryWrite x0) := by
  intro x0 _ _ h
  cases h

theorem Roundtrip.hostAccess : ∀ x0 x1 x2 x3, Statement (.hostAccess x0 x1 x2 x3) := by
  intro x0 x1 x2 x3 _ _ h
  cases h

theorem Roundtrip.sublinkRetire : ∀ x0 x1, Statement (.sublinkRetire x0 x1) := by
  intro x0 x1 _ _ h
  cases h

theorem Roundtrip.start : ∀ x0, Statement (.start x0) := by
  intro x0 _ _ h
  cases h

theorem Roundtrip.stop : ∀ x0, Statement (.stop x0) := by
  intro x0 _ _ h
  cases h

theorem Roundtrip.setrd : ∀ x0 x1, Statement (.setrd x0 x1) := by
  intro x0 x1 _ _ h
  cases h

theorem Roundtrip.qwrWrite : ∀ x0 x1 x2, Statement (.qwrWrite x0 x1 x2) := by
  intro x0 x1 x2 _ _ h
  cases h

theorem Roundtrip.create : ∀ x0, Statement (.create x0) := by
  intro x0 _ _ h
  cases h

theorem Roundtrip.teardown : ∀ x0, Statement (.teardown x0) := by
  intro x0 _ _ h
  cases h

theorem Roundtrip.drain : ∀ x0, Statement (.drain x0) := by
  intro x0 _ _ h
  cases h

theorem Roundtrip.resume : ∀ x0, Statement (.resume x0) := by
  intro x0 _ _ h
  cases h

theorem Roundtrip.clrsave : ∀ x0, Statement (.clrsave x0) := by
  intro x0 _ _ h
  cases h

theorem Roundtrip.quotaWrite : ∀ x0 x1 x2, Statement (.quotaWrite x0 x1 x2) := by
  intro x0 x1 x2 _ _ h
  cases h

theorem Roundtrip.warmReset : Statement (.warmReset) := by
  intro _ _ h
  cases h

theorem Roundtrip.coldReset : Statement (.coldReset) := by
  intro _ _ h
  cases h

theorem Roundtrip.retry : ∀ x0 x1, Statement (.retry x0 x1) := by
  intro x0 x1 _ _ h
  cases h

theorem Roundtrip.abort : ∀ x0 x1, Statement (.abort x0 x1) := by
  intro x0 x1 _ _ h
  cases h

theorem Roundtrip.htlbiCasement : ∀ x0, Statement (.htlbiCasement x0) := by
  intro x0 _ _ h
  cases h

theorem Roundtrip.htlbiPage : ∀ x0 x1, Statement (.htlbiPage x0 x1) := by
  intro x0 x1 _ _ h
  cases h

theorem Roundtrip.s2invAll : ∀ x0, Statement (.s2invAll x0) := by
  intro x0 _ _ h
  cases h

theorem Roundtrip.s2invIpa : ∀ x0 x1, Statement (.s2invIpa x0 x1) := by
  intro x0 x1 _ _ h
  cases h

theorem Roundtrip.sessionOpen : ∀ x0, Statement (.sessionOpen x0) := by
  intro x0 _ _ h
  cases h

theorem Roundtrip.sessionClose : ∀ x0, Statement (.sessionClose x0) := by
  intro x0 _ _ h
  cases h

theorem Roundtrip.sublinkTableWrite : ∀ x0 x1, Statement (.sublinkTableWrite x0 x1) := by
  intro x0 x1 _ _ h
  cases h

theorem Roundtrip.migrationStart : ∀ x0 x1 x2, Statement (.migrationStart x0 x1 x2) := by
  intro x0 x1 x2 _ _ h
  cases h

theorem Roundtrip.migrationRelease : Statement (.migrationRelease) := by
  intro _ _ h
  cases h

theorem Roundtrip.fuseAdvance : ∀ x0, Statement (.fuseAdvance x0) := by
  intro x0 _ _ h
  cases h

theorem Roundtrip.registerWrite : ∀ x0 x1 x2 x3, Statement (.registerWrite x0 x1 x2 x3) := by
  intro x0 x1 x2 x3 _ _ h
  cases h

theorem Roundtrip.instructionFetchComplete : ∀ x0 x1 x2, Statement (.instructionFetchComplete x0 x1 x2) := by
  intro x0 x1 x2 _ _ h
  cases h

theorem Roundtrip.ethernetPortStateChange : ∀ x0 x1, Statement (.ethernetPortStateChange x0 x1) := by
  intro x0 x1 _ _ h
  cases h

theorem Roundtrip.firmwareRetirement : ∀ x0, Statement (.firmwareRetirement x0) := by
  intro x0 _ _ h
  cases h

end Sys2Proof.Laws
end

