-- ==== Sys2Proof/Laws/Words.lean ====
section
/-! SUPPORT. One law for each form of word: what it comes to, and what it leaves alone, once it stands at its issue. -/

namespace Sys2Proof.Machine

/-- A word that any sequencer may execute anywhere meets its checks. -/
theorem issues_open {s : State} {h : Hdr} {x : Ctx} {uses us : List (BitVec 5)} (ha : s.AtWord h x allSeqs everywhere uses)
    (hu : ∀ r ∈ us, r ∈ uses) : s.Issues h (fun _ => { uses := us }) x :=
  ha.issues _ rfl rfl rfl (fun q _ => mem_allSeqs q) (fun p _ => admits_open rfl rfl rfl rfl p) hu

/-- A word of register operands. -/
theorem yields_scalarR {s : State} {h : Hdr} {x : Ctx} {d a b : BitVec 5} {lat : Nat} {f : W64 → W64 → W64} {i : Instr}
    (ha : s.AtWord h x allSeqs everywhere [d, a, b]) (he : exec i s = scalarR h d a b lat f s) :
    s.Yields i (x.writes s h d (f (x.reg a) (x.reg b)) lat) x.c :=
  yields_writes (body := fun x s => x.go (x.land s d (f (x.reg a) (x.reg b)) lat) lat) (issues_open ha fun _ hr => hr)
    (by rw [he]; rfl) rfl

/-- A word of one register operand. -/
theorem yields_scalarI {s : State} {h : Hdr} {x : Ctx} {d a : BitVec 5} {f : W64 → W64} {i : Instr}
    (ha : s.AtWord h x allSeqs everywhere [d, a]) (he : exec i s = scalarI h d a f s) :
    s.Yields i (x.writes s h d (f (x.reg a)) 1) x.c :=
  yields_writes (body := fun x s => x.go (x.land s d (f (x.reg a)) 1) 1) (issues_open ha fun _ hr => hr) (by rw [he]; rfl) rfl

/-- A two-word literal. -/
theorem yields_scalarLit {s : State} {h : Hdr} {x : Ctx} {d : BitVec 5} {f : W64 → W64} {i : Instr}
    (ha : s.AtWord h x allSeqs everywhere [d]) (he : exec i s = scalarLit h d f s) :
    s.Yields i (x.issued h (x.land s d (f (x.reg d)) 1) (some 1) (x.x.pc + 8) 0) x.c := by
  refine ⟨?_, (x.land_onlyCore s d _ 1).trans (x.issued_onlyCore h (x.land s d (f (x.reg d)) 1) (some 1) (x.x.pc + 8) 0)⟩
  rw [he]; unfold scalarLit; rw [issue_of_issues (issues_open ha fun _ hr => hr)]; rfl

/-- Noting a jump's target changes nothing but the sequencer's place in the program. -/
theorem Ctx.goes_onlyCore (x : Ctx) (s : State) (tgt : Nat) : s.OnlyCore (x.goes s tgt) x.c := by
  unfold Ctx.goes
  split
  · exact s.onlyCore_modCore x.c _ ((s.core x.c).sameData_modSeq x.q _ rfl)
  · exact .refl s x.c

/-- A branch. -/
theorem yields_branchWord {s : State} {h : Hdr} {x : Ctx} {w : Nat} {k : BitVec w} {us : List (BitVec 5)} {taken : Ctx → Bool} {i : Instr}
    (ha : s.AtWord h x allSeqs everywhere us) (he : exec i s = branchWord h us k taken s) :
    s.Yields i (if taken x then x.issued h (x.goes s (branchTarget x.x.pc k)) (some 1) (branchTarget x.x.pc k) 0 else x.issued h s (some 1) x.next 0)
      x.c := by
  constructor
  · rw [he]; unfold branchWord; rw [issue_of_issues (issues_open ha fun _ hr => hr)]
    unfold Ctx.jump; split <;> rfl
  · split
    · exact (x.goes_onlyCore s _).trans (x.issued_onlyCore h _ _ _ _)
    · exact x.issued_onlyCore h s _ _ _

/-! ### Tile words -/

theorem Core.sameData_vuFree (k : Core) (n : Nat) : k.SameData { k with vuFree := n } :=
  ⟨fun _ _ => rfl, fun _ _ => rfl, rfl, rfl, rfl, rfl, rfl, fun _ => rfl, fun _ => rfl, rfl, rfl, rfl⟩

theorem tileGate_free {k : Core} {tiles : List Nat} (h : ∀ v ∈ tiles, k.liveInTile v = false) : tiles.any k.liveInTile = false := by
  simpa using h

/-- A tile word that names what it may. -/
theorem yields_tileWord {s : State} {h : Hdr} {x : Ctx} {fn : TileFn} {d : Nat} {a b : Option Nat} {m : Bool} {tiles : List Nat} {uses us : List (BitVec 5)}
    {srcs dsts : List Nat} {ok : Ctx → Bool} {scalar : Ctx → W64} {occ lat : Nat} {i : Instr}
    (ht : s.AtTile h x us tiles srcs dsts) (hu : ∀ r ∈ uses, r ∈ us) (hok : ok x = true)
    (hs : srcs = a.toList ++ b.toList)
    (hd : dsts = match fn with
      | .cmp _ => []
      | .ext _ => []
      | _ => [d])
    (ho : occ = match fn with
      | .ext _ => 1
      | .rand => 4 * x.k.winCount
      | _ => x.k.winCount)
    (hl : lat = fn.latency) (he : exec i s = tileWord h fn d a b m tiles uses ok scalar s) :
    s.Yields i (x.startsRows s h (x.tileJob fn d a b m (scalar x)) occ lat) x.c := by
  have hf := tileGate_free ht.mine
  subst hs hd ho hl
  refine ⟨?_, .trans (.trans (s.onlyCore_modCore _ _ (Core.sameData_vuFree _ _)) (State.onlyCore_addAct _ _ _ _ _ _ _)) (x.issued_onlyCore h _ (some _) x.next 0)⟩
  rw [he]
  unfold tileWord
  have hp := ht.set
  have hr := ht.ready
  have hv : ¬ s.now < x.k.vuFree := by have := ht.unit; omega
  rw [issueAt_of_issues (ht.word.issues _ rfl (by simp only [hok, hf, Bool.not_true, Bool.false_or, Bool.and_eq_false_imp]; intro _; exact congrArg not hp) (by simp [hf]) (fun q hq => hq) (admits_regions rfl rfl) (by simpa using hu))]
  cases fn <;> simp only [hr, hv, Bool.not_true, Bool.false_eq_true, if_false, decide_false, Bool.or_self] at hp ⊢ <;> rw [if_neg (by rw [hp]; decide)] <;> rfl

end Sys2Proof.Machine
end

