-- ==== Sys2Proof/Tests/Slice0.lean ====
section
/-! SUPPORT. Tests: ill-formed terms that WellFormed refuses, words of every row of the opcode table that decode to it, a witness for the hypotheses of
every statement, and single steps whose results the spec gives. -/

-- One test at a time: many at once, each with a thread of its own, take more memory than the check allows.
set_option Elab.async false

namespace Sys2Proof.Tests

open Sys2Proof Sys2Proof.Machine

/-! ### States to stand on -/

/-- The part after its boot, with one running task and cores. -/
def part (ks : List (Nat × Core)) (cur : Option (Nat × SeqId)) : State :=
  { State.reset with cores := ks, cur := cur, tasks := [placedTask 0], boot := { Boot.reset with ready := true, stage := 6, nextAt := none } }

/-- Core 0 in the task, one sequencer at its issue at a place, with some registers. -/
def coreAt (q : SeqId) (p : Place) (regs : List (Nat × W64)) : Core :=
  ({ Core.idle with task := some 0, phase := p.phase, timed := p == .timed } : Core).setSeq q
    (regs.foldl (fun x r => x.setReg r.1 r.2) { Seq.idle with st := .run, pc := 0x1000, gapStart := 0x1000 })

/-- A core whose sequencer's word is at its issue. -/
def onCore (q : SeqId) (k : Core) : State := part [(0, k)] (some (0, q))

/-- A word at its issue. -/
def word (q : SeqId) (p : Place) (regs : List (Nat × W64)) : State := onCore q (coreAt q p regs)

/-- The word's context. -/
def here (s : State) : Ctx :=
  match s.ctx with
  | some x => x
  | none => { c := 0, q := .ct, k := Core.idle, x := Seq.idle }

/-- What State.AtWord asks, as a test. -/
def atWordB (s : State) (h : Hdr) (seqs : List SeqId) (places : List Place) (uses : List (BitVec 5)) : Bool :=
  match s.ctx with
  | some x => decide (x.q ∈ seqs) && decide (x.k.place x.q ∈ places) && uses.all (fun r => !x.x.pend.contains r.toNat) && x.k.waitsMet x.q h.wp h.wn
  | none => false

theorem atWord_of {s : State} {h : Hdr} {seqs : List SeqId} {places : List Place} {uses : List (BitVec 5)}
    (t : atWordB s h seqs places uses = true) : s.AtWord h (here s) seqs places uses := by
  unfold atWordB at t
  unfold here
  split at t
  · rename_i x hx
    simp only [Bool.and_eq_true, decide_eq_true_eq, List.all_eq_true, Bool.not_eq_eq_eq_not, Bool.not_true] at t
    obtain ⟨⟨⟨a, b⟩, c⟩, d⟩ := t
    refine ⟨by simp [hx], by simpa [hx] using a, by simpa [hx] using b, ?_, by simpa [hx] using d⟩
    intro r hr
    have := c r hr
    simpa [hx] using this
  · exact absurd t (by simp)

/-- A word at its issue that meets further conditions. -/
def Meets (s : State) (h : Hdr) (seqs : List SeqId) (places : List Place) (uses : List (BitVec 5)) (P : State → Ctx → Prop) : Prop :=
  ∃ x, s.AtWord h x seqs places uses ∧ P s x

theorem meets_of {s : State} {h : Hdr} {seqs : List SeqId} {places : List Place} {uses : List (BitVec 5)} {P : State → Ctx → Prop}
    [∀ s x, Decidable (P s x)] (t : (atWordB s h seqs places uses && decide (P s (here s))) = true) : Meets s h seqs places uses P := by
  rw [Bool.and_eq_true, decide_eq_true_eq] at t
  exact ⟨here s, atWord_of t.1, t.2⟩

/-- A tile word at its issue that meets further conditions. -/
def MeetsTile (s : State) (h : Hdr) (uses : List (BitVec 5)) (tiles srcs dsts : List Nat) (P : State → Ctx → Prop) : Prop :=
  ∃ x, s.AtTile h x uses tiles srcs dsts ∧ P s x

theorem meetsTile_of {s : State} {h : Hdr} {uses : List (BitVec 5)} {tiles srcs dsts : List Nat} {P : State → Ctx → Prop} [∀ s x, Decidable (P s x)]
    (t : (atWordB s h [.cm] regions uses && decide ((∀ v ∈ tiles, (here s).k.liveInTile v = false) ∧ (here s).k.portsSet (srcs ++ dsts) = true ∧
      (here s).k.sourcesReady s.now srcs = true ∧ (here s).k.vuFree ≤ s.now ∧ P s (here s))) = true) :
    MeetsTile s h uses tiles srcs dsts P := by
  rw [Bool.and_eq_true, decide_eq_true_eq] at t
  obtain ⟨w, a, b, c, d, e⟩ := t
  exact ⟨here s, ⟨atWord_of w, a, b, c, d⟩, e⟩

/-- An access to memory goes on, in a state that meets a condition. -/
def touched (t : Touch) (p : State → Bool) : Bool :=
  match t with
  | .ok s => p s
  | _ => false

/-- An access of the device goes on, with a state and an answer that meet a condition. -/
def answered {α : Type} (d : Dev α) (p : State → α → Bool) : Bool :=
  match d with
  | .ok s a => p s a
  | _ => false

/-- An access of the device is not permitted. -/
def denied {α : Type} (d : Dev α) : Bool :=
  match d with
  | .fault _ _ => true
  | _ => false

/-- An access of the device is to be tried again. -/
def delayed {α : Type} (d : Dev α) : Bool :=
  match d with
  | .wait _ => true
  | _ => false

/-! ### Words of every row, written from the encoding tables of the spec -/

/-- A word, with the word behind it, decodes to a well-formed instruction. -/
def reads (e : W32 × W32 × Instr) : Bool :=
  match decodeWords e.1 e.2.1 with
  | .ok i => decide (i = e.2.2) && i.wf
  | .error _ => false

theorem test_decodes_scalar : [
    (0x9428C850, 0x0, .add { y := 9, i := 2 } 3 4 5),
    (0x9428C851, 0x0, .sub { y := 9, i := 2 } 3 4 5),
    (0x9428C852, 0x0, .and { y := 9, i := 2 } 3 4 5),
    (0x9428C853, 0x0, .or { y := 9, i := 2 } 3 4 5),
    (0x9428C854, 0x0, .xor { y := 9, i := 2 } 3 4 5),
    (0x9428C855, 0x0, .shl { y := 9, i := 2 } 3 4 5),
    (0x9428C856, 0x0, .shr { y := 9, i := 2 } 3 4 5),
    (0x9428C857, 0x0, .sra { y := 9, i := 2 } 3 4 5),
    (0x9428C858, 0x0, .slt { y := 9, i := 2 } 3 4 5),
    (0x9428C859, 0x0, .sltu { y := 9, i := 2 } 3 4 5),
    (0x9428C85A, 0x0, .min { y := 9, i := 2 } 3 4 5),
    (0x9428C85B, 0x0, .max { y := 9, i := 2 } 3 4 5),
    (0x9428C85C, 0x0, .minu { y := 9, i := 2 } 3 4 5),
    (0x9428C85D, 0x0, .maxu { y := 9, i := 2 } 3 4 5),
    (0x9430C850, 0x0, .mul { y := 9, i := 2 } 3 4 5),
    (0x9430C851, 0x0, .mulh { y := 9, i := 2 } 3 4 5),
    (0x9430C852, 0x0, .mulhu { y := 9, i := 2 } 3 4 5),
    (0x9430C853, 0x0, .div { y := 9, i := 2 } 3 4 5),
    (0x9430C854, 0x0, .divu { y := 9, i := 2 } 3 4 5),
    (0x9430C855, 0x0, .rem { y := 9, i := 2 } 3 4 5),
    (0x9430C856, 0x0, .remu { y := 9, i := 2 } 3 4 5),
    (0x9438C801, 0x0, .clz { y := 9, i := 2 } 3 4 1),
    (0x9438C805, 0x0, .ffs { y := 9, i := 2 } 3 4 1),
    (0x9438C809, 0x0, .popc { y := 9, i := 2 } 3 4 1),
    (0x9440C805, 0x0, .addi { y := 9, i := 2 } 3 4 5),
    (0x9448C805, 0x0, .andi { y := 9, i := 2 } 3 4 5),
    (0x9450C805, 0x0, .ori { y := 9, i := 2 } 3 4 5),
    (0x9458C805, 0x0, .xori { y := 9, i := 2 } 3 4 5),
    (0x9460C805, 0x0, .slti { y := 9, i := 2 } 3 4 5),
    (0x9468C803, 0x0, .shli { y := 9, i := 2 } 3 4 3),
    (0x9468C883, 0x0, .shri { y := 9, i := 2 } 3 4 3),
    (0x9468C903, 0x0, .srai { y := 9, i := 2 } 3 4 3),
    (0x9470FFFE, 0x0, .li { y := 9, i := 2 } 3 16382),
    (0x9478C00A, 0x1234567, .lit { y := 9, i := 2 } 3 0xA1234567),
    (0x9480C00A, 0x1234567, .lith { y := 9, i := 2 } 3 0xA1234567)].all reads = true := by decide

theorem test_decodes_branch : [
    (0x94A10A05, 0x0, .beq { y := 9, i := 2 } 4 5 5),
    (0x94A90A05, 0x0, .bne { y := 9, i := 2 } 4 5 5),
    (0x94B10A05, 0x0, .blt { y := 9, i := 2 } 4 5 5),
    (0x94B90A05, 0x0, .bge { y := 9, i := 2 } 4 5 5),
    (0x94C10A05, 0x0, .bltu { y := 9, i := 2 } 4 5 5),
    (0x94C90A05, 0x0, .bgeu { y := 9, i := 2 } 4 5 5),
    (0x94D13FFE, 0x0, .beqz { y := 9, i := 2 } 4 16382),
    (0x94D93FFE, 0x0, .bnez { y := 9, i := 2 } 4 16382),
    (0x94E13FFE, 0x0, .loop { y := 9, i := 2 } 4 16382),
    (0x94EFFFFE, 0x0, .jmp { y := 9, i := 2 } 524286),
    (0x94F7FFFE, 0x0, .jal { y := 9, i := 2 } 524286),
    (0x94F80800, 0x0, .jr { y := 9, i := 2 } 4),
    (0x95010A05, 0x0, .bstat { y := 9, i := 2 } 4 5 5)].all reads = true := by decide

theorem test_decodes_memory : [
    (0x9488C803, 0x0, .ldB { y := 9, i := 2 } 3 4 3),
    (0x9488C843, 0x0, .ldBu { y := 9, i := 2 } 3 4 3),
    (0x9488C883, 0x0, .ldH { y := 9, i := 2 } 3 4 3),
    (0x9488C8C3, 0x0, .ldHu { y := 9, i := 2 } 3 4 3),
    (0x9488C903, 0x0, .ldW { y := 9, i := 2 } 3 4 3),
    (0x9488C943, 0x0, .ldWu { y := 9, i := 2 } 3 4 3),
    (0x9488C983, 0x0, .ldD { y := 9, i := 2 } 3 4 3),
    (0x9488C9C3, 0x0, .ldDAq { y := 9, i := 2 } 3 4 3),
    (0x94918803, 0x0, .stB { y := 9, i := 2 } 6 4 3),
    (0x94918843, 0x0, .stH { y := 9, i := 2 } 6 4 3),
    (0x94918883, 0x0, .stW { y := 9, i := 2 } 6 4 3),
    (0x949188C3, 0x0, .stD { y := 9, i := 2 } 6 4 3),
    (0x94918903, 0x0, .stWRl { y := 9, i := 2 } 6 4 3),
    (0x94918943, 0x0, .stDRl { y := 9, i := 2 } 6 4 3),
    (0x94990A38, 0x0, .amocAdd { y := 9, i := 2 } 4 5 3 true),
    (0x94990A39, 0x0, .amocAnd { y := 9, i := 2 } 4 5 3 true),
    (0x94990A3A, 0x0, .amocOr { y := 9, i := 2 } 4 5 3 true),
    (0x94990A3B, 0x0, .amocXor { y := 9, i := 2 } 4 5 3 true),
    (0x94990A3C, 0x0, .amocXchg { y := 9, i := 2 } 4 5 3 true),
    (0x94990A3D, 0x0, .amocMax { y := 9, i := 2 } 4 5 3 true),
    (0x94990A3E, 0x0, .amocMin { y := 9, i := 2 } 4 5 3 true),
    (0x94990A3F, 0x0, .amocCas { y := 9, i := 2 } 4 5 3 true)].all reads = true := by decide

theorem test_decodes_system : [
    (0x94000000, 0x0, .nop { y := 9, i := 2 }),
    (0x94000801, 0x0, .trap { y := 9, i := 2 } 4),
    (0x94000002, 0x0, .eret { y := 9, i := 2 }),
    (0x94000802, 0x0, .eretSa { y := 9, i := 2 } 4),
    (0x94000003, 0x0, .brk { y := 9, i := 2 }),
    (0x9400C004, 0x0, .fenceFull { y := 9, i := 2 } 3),
    (0x9402C004, 0x0, .fenceAcq { y := 9, i := 2 } 3),
    (0x9404C004, 0x0, .fenceRel { y := 9, i := 2 } 3),
    (0x94000005, 0x0, .xfence { y := 9, i := 2 }),
    (0x94000406, 0x0, .step { y := 9, i := 2 } 2),
    (0x94000807, 0x0, .realign { y := 9, i := 2 } 4),
    (0x94000858, 0x0, .rcmt { y := 9, i := 2 } 4 5),
    (0x94000009, 0x0, .tail { y := 9, i := 2 }),
    (0x9400020A, 0x0, .msel { y := 9, i := 2 } 1),
    (0x94083FFE, 0x0, .idle { y := 9, i := 2 } 16382),
    (0x94114611, 0x0, .rgnT { y := 9, i := 2 } 5 3 1),
    (0x94114610, 0x0, .rgn { y := 9, i := 2 } 5 3 1),
    (0x9418C020, 0x0, .csrr { y := 9, i := 2 } 3 32),
    (0x94200820, 0x0, .csrw { y := 9, i := 2 } 4 32)].all reads = true := by decide

theorem test_decodes_tile : [
    (0x9508C858, 0x0, .vadd { y := 9, i := 2 } 3 4 5 true),
    (0x9508C859, 0x0, .vsub { y := 9, i := 2 } 3 4 5 true),
    (0x9508C85A, 0x0, .vmul { y := 9, i := 2 } 3 4 5 true),
    (0x9508C85B, 0x0, .vmin { y := 9, i := 2 } 3 4 5 true),
    (0x9508C85C, 0x0, .vmax { y := 9, i := 2 } 3 4 5 true),
    (0x9508C85D, 0x0, .vabsd { y := 9, i := 2 } 3 4 5 true),
    (0x9508C80E, 0x0, .vmov { y := 9, i := 2 } 3 4 true),
    (0x9508C857, 0x0, .vsel { y := 9, i := 2 } 3 4 5),
    (0x9510C858, 0x0, .vfma { y := 9, i := 2 } 3 4 5 true),
    (0x9510C859, 0x0, .vfms { y := 9, i := 2 } 3 4 5 true),
    (0x9510C85A, 0x0, .vfnma { y := 9, i := 2 } 3 4 5 true),
    (0x9518C858, 0x0, .viadd { y := 9, i := 2 } 3 4 5 true),
    (0x9518C859, 0x0, .visub { y := 9, i := 2 } 3 4 5 true),
    (0x9518C85A, 0x0, .vimul { y := 9, i := 2 } 3 4 5 true),
    (0x9518C85B, 0x0, .vimin { y := 9, i := 2 } 3 4 5 true),
    (0x9518C85C, 0x0, .vimax { y := 9, i := 2 } 3 4 5 true),
    (0x9518C85D, 0x0, .vand { y := 9, i := 2 } 3 4 5 true),
    (0x9518C85E, 0x0, .vor { y := 9, i := 2 } 3 4 5 true),
    (0x9518C85F, 0x0, .vxor { y := 9, i := 2 } 3 4 5 true),
    (0x9520C858, 0x0, .vshl { y := 9, i := 2 } 3 4 5 true),
    (0x9520C859, 0x0, .vshr { y := 9, i := 2 } 3 4 5 true),
    (0x9520C85A, 0x0, .vsra { y := 9, i := 2 } 3 4 5 true),
    (0x9528C818, 0x0, .vclz { y := 9, i := 2 } 3 4 1 true),
    (0x9528C819, 0x0, .vffs { y := 9, i := 2 } 3 4 1 true),
    (0x9528C81A, 0x0, .vpopc { y := 9, i := 2 } 3 4 1 true),
    (0x9530C858, 0x0, .vcmpFeq { y := 9, i := 2 } 3 4 5 true),
    (0x9530C859, 0x0, .vcmpFlt { y := 9, i := 2 } 3 4 5 true),
    (0x9530C85A, 0x0, .vcmpFle { y := 9, i := 2 } 3 4 5 true),
    (0x9530C85B, 0x0, .vcmpFun { y := 9, i := 2 } 3 4 5 true),
    (0x9530C85C, 0x0, .vcmpIeq { y := 9, i := 2 } 3 4 5 true),
    (0x9530C85D, 0x0, .vcmpIlt { y := 9, i := 2 } 3 4 5 true),
    (0x9530C85E, 0x0, .vcmpIltu { y := 9, i := 2 } 3 4 5 true),
    (0x9538C88D, 0x0, .vcvtNar { y := 9, i := 2 } 3 4 8 true true 1),
    (0x9538C988, 0x0, .vcvtWid { y := 9, i := 2 } 3 4 8 true),
    (0x9540C808, 0x0, .vsfnExp2 { y := 9, i := 2 } 3 4 true),
    (0x9540C809, 0x0, .vsfnLog2 { y := 9, i := 2 } 3 4 true),
    (0x9540C80A, 0x0, .vsfnRcp { y := 9, i := 2 } 3 4 true),
    (0x9540C80B, 0x0, .vsfnRsqrt { y := 9, i := 2 } 3 4 true),
    (0x9540C80C, 0x0, .vsfnSqrt { y := 9, i := 2 } 3 4 true),
    (0x9540C80D, 0x0, .vsfnTanh { y := 9, i := 2 } 3 4 true)].all reads = true := by decide

theorem test_decodes_tile_2 : [
    (0x9540C80E, 0x0, .vsfnSigm { y := 9, i := 2 } 3 4 true),
    (0x9540C80F, 0x0, .vsfnSilu { y := 9, i := 2 } 3 4 true),
    (0x9548C838, 0x0, .vrotr { y := 9, i := 2 } 3 4 3 true),
    (0x9548C839, 0x0, .vrotrHi { y := 9, i := 2 } 3 4 3 true),
    (0x9548C83A, 0x0, .vrotc { y := 9, i := 2 } 3 4 3 true),
    (0x9548C86C, 0x0, .vbcr { y := 9, i := 2 } 3 4 6 true),
    (0x9548C86D, 0x0, .vbcrHi { y := 9, i := 2 } 3 4 6 true),
    (0x9548C81E, 0x0, .vbcc { y := 9, i := 2 } 3 4 1 true),
    (0x9550C808, 0x0, .vredrAdd { y := 9, i := 2 } 3 4 true),
    (0x9550C809, 0x0, .vredrMax { y := 9, i := 2 } 3 4 true),
    (0x9550C80A, 0x0, .vredrMin { y := 9, i := 2 } 3 4 true),
    (0x9550C80B, 0x0, .vredrIadd { y := 9, i := 2 } 3 4 true),
    (0x9550C80C, 0x0, .vredcAdd { y := 9, i := 2 } 3 4 true),
    (0x9550C80D, 0x0, .vredcMax { y := 9, i := 2 } 3 4 true),
    (0x9550C80E, 0x0, .vredcMin { y := 9, i := 2 } 3 4 true),
    (0x9550C80F, 0x0, .vredcIadd { y := 9, i := 2 } 3 4 true),
    (0x955D4808, 0x0, .vbcs { y := 9, i := 2 } 21 4 true),
    (0x9558C861, 0x0, .vext { y := 9, i := 2 } 3 4 6),
    (0x9558C862, 0x0, .vextHi { y := 9, i := 2 } 3 4 6),
    (0x9560C808, 0x0, .vrand { y := 9, i := 2 } 3 4 true),
    (0x95688850, 0x0, .osmx { y := 9, i := 2 } 2 4 5),
    (0x9568C401, 0x0, .osmf { y := 9, i := 2 } 3 2)].all reads = true := by decide

theorem test_decodes_engine : [
    (0x95708800, 0x0, .pcfg { y := 9, i := 2 } 2 4),
    (0x95708001, 0x0, .prwd { y := 9, i := 2 } 2),
    (0x9579C800, 0x0, .shld { y := 9, i := 2 } 7 4),
    (0x95818856, 0x0, .mma { y := 9, i := 2 } 6 4 5 false true true),
    (0x9589821C, 0x0, .lmma { y := 9, i := 2 } 6 1 1 true true),
    (0x95904800, 0x0, .tbuildZ { y := 9, i := 2 } 1 4),
    (0x95904801, 0x0, .tbuildC { y := 9, i := 2 } 1 4),
    (0x95904802, 0x0, .tbuildC2 { y := 9, i := 2 } 1 4),
    (0x95984000, 0x0, .tinv { y := 9, i := 2 } 1),
    (0x95984801, 0x0, .tspill { y := 9, i := 2 } 1 4),
    (0x95984802, 0x0, .tfill { y := 9, i := 2 } 1 4),
    (0x95980803, 0x0, .cbld { y := 9, i := 2 } 4),
    (0x95A00800, 0x0, .epi { y := 9, i := 2 } 4),
    (0x95A80800, 0x0, .cpy { y := 9, i := 2 } 4),
    (0x95B0E300, 0x0, .saccFadd { y := 9, i := 2 } 3 17 16),
    (0x95B0E301, 0x0, .saccFmax { y := 9, i := 2 } 3 17 16),
    (0x95B0E302, 0x0, .saccFmin { y := 9, i := 2 } 3 17 16),
    (0x95B0E303, 0x0, .saccIadd { y := 9, i := 2 } 3 17 16),
    (0x95B90A00, 0x0, .arm { y := 9, i := 2 } 4 5),
    (0x95B90A01, 0x0, .await { y := 9, i := 2 } 4 5),
    (0x95B90A02, 0x0, .arrv { y := 9, i := 2 } 4 5),
    (0x95B90A05, 0x0, .awaitX { y := 9, i := 2 } 4 5),
    (0x95C10A04, 0x0, .xgrant { y := 9, i := 2 } 4 5 1),
    (0x95C10A05, 0x0, .xsend { y := 9, i := 2 } 4 5 1),
    (0x95C10032, 0x0, .xstat { y := 9, i := 2 } 4 3),
    (0x95C90A00, 0x0, .emit { y := 9, i := 2 } 4 5),
    (0x95C90A01, 0x0, .mirr { y := 9, i := 2 } 4 5),
    (0x95D10A00, 0x0, .tsub { y := 9, i := 2 } 4 5),
    (0x95D10A01, 0x0, .qctl { y := 9, i := 2 } 4 5)].all reads = true := by decide

/-! ### Words that the spec writes out beside an assembly form -/

theorem test_spec_words_1 : [
    (0x0028C850, 0x00000000, .add Hdr.none 3 4 5),
    (0x0040C9FF, 0x00000000, .addi Hdr.none 3 4 0x1FF),
    (0x00990A30, 0x00000000, .amocAdd Hdr.none 4 5 3 false),
    (0x009A127F, 0x00000000, .amocCas Hdr.none 8 9 7 true),
    (0x0028C852, 0x00000000, .and Hdr.none 3 4 5),
    (0x004D28FF, 0x00000000, .andi Hdr.none 20 20 0xFF),
    (0x01B90A00, 0x00000000, .arm Hdr.none 4 5),
    (0x01000C04, 0x00000000, .bstat Hdr.none 0 6 4),
    (0x01980C03, 0x00000000, .cbld Hdr.none 6),
    (0x01A81400, 0x00000000, .cpy Hdr.none 10),
    (0x0030C853, 0x00000000, .div Hdr.none 3 4 5),
    (0x0030C854, 0x00000000, .divu Hdr.none 3 4 5),
    (0x01C90A00, 0x00000000, .emit Hdr.none 4 5),
    (0x01A01200, 0x00000000, .epi Hdr.none 9),
    (0x00001802, 0x00000000, .eretSa Hdr.none 12),
    (0x0004C004, 0x00000000, .fenceRel Hdr.none 3),
    (0x000803E8, 0x00000000, .idle Hdr.none 1000),
    (0x00F83E00, 0x00000000, .jr Hdr.none 31),
    (0x00717FFF, 0x00000000, .li Hdr.none 5 0x3FFF),
    (0x00714020, 0x00000000, .li Hdr.none 5 0x20),
    (0x00724004, 0x00000000, .li Hdr.none 9 4),
    (0x01898258, 0x00000000, .lmma Hdr.none 6 1 5 true false),
    (0x01C90A01, 0x00000000, .mirr Hdr.none 4 5),
    (0x01800222, 0x00000000, .mma Hdr.none 0 1 2 false false true),
    (0x0182043C, 0x00000000, .mma Hdr.none 8 2 3 true true false),
    (0x0000020A, 0x00000000, .msel Hdr.none 1),
    (0x0000100A, 0x00000000, .msel Hdr.none 8),
    (0x90000000, 0x00000000, .nop ⟨9, 0⟩),
    (0x0028C853, 0x00000000, .or Hdr.none 3 4 5),
    (0x0050C801, 0x00000000, .ori Hdr.none 3 4 1),
    (0x01D10A01, 0x00000000, .qctl Hdr.none 4 5),
    (0x00000008, 0x00000000, .rcmt Hdr.none 0 0),
    (0x00000E88, 0x00000000, .rcmt Hdr.none 7 8),
    (0x00000A07, 0x00000000, .realign Hdr.none 5),
    (0x0030C855, 0x00000000, .rem Hdr.none 3 4 5),
    (0x0030C856, 0x00000000, .remu Hdr.none 3 4 5),
    (0x00110A60, 0x00000000, .rgn Hdr.none 4 5 6),
    (0x00100001, 0x00000000, .rgnT Hdr.none 0 0 0),
    (0x00110A61, 0x00000000, .rgnT Hdr.none 4 5 6),
    (0x01B0E110, 0x00000000, .saccFadd Hdr.none 3 16 17),
    (0x0178CA00, 0x00000000, .shld Hdr.none 3 5),
    (0x00000006, 0x00000000, .step Hdr.none 0),
    (0x00000406, 0x00000000, .step Hdr.none 2),
    (0x00000A06, 0x00000000, .step Hdr.none 5),
    (0x0028C851, 0x00000000, .sub Hdr.none 3 4 5),
    (0x01908801, 0x00000000, .tbuildC Hdr.none 2 4),
    (0x0198CE02, 0x00000000, .tfill Hdr.none 3 7),
    (0x01984000, 0x00000000, .tinv Hdr.none 1),
    (0x00000A01, 0x00000000, .trap Hdr.none 5),
    (0x0198CE01, 0x00000000, .tspill Hdr.none 3 7),
    (0x01D10A00, 0x00000000, .tsub Hdr.none 4 5),
    (0x01610200, 0x00000000, .vrand Hdr.none 4 1 false),
    (0x01612008, 0x00000000, .vrand Hdr.none 4 16 true),
    (0x01C10A04, 0x00000000, .xgrant Hdr.none 4 5 1),
    (0x0028C854, 0x00000000, .xor Hdr.none 3 4 5),
    (0x0058C9FF, 0x00000000, .xori Hdr.none 3 4 0x1FF),
    (0x01C10C05, 0x00000000, .xsend Hdr.none 4 6 1),
    (0x01C11001, 0x00000000, .xsend Hdr.none 4 8 0),
    (0x01C10002, 0x00000000, .xstat Hdr.none 4 0),
    (0x01C10072, 0x00000000, .xstat Hdr.none 4 7)].all reads = true := by decide

theorem test_spec_words_2 : [
    (0x00990A31, 0x00000000, .amocAnd Hdr.none 4 5 3 false),
    (0x00990A3D, 0x00000000, .amocMax Hdr.none 4 5 3 true),
    (0x00990A3E, 0x00000000, .amocMin Hdr.none 4 5 3 true),
    (0x00990A32, 0x00000000, .amocOr Hdr.none 4 5 3 false),
    (0x00990A0C, 0x00000000, .amocXchg Hdr.none 4 5 0 true),
    (0x00990A33, 0x00000000, .amocXor Hdr.none 4 5 3 false),
    (0x00A0C9FD, 0x00000000, .beq Hdr.none 3 4 0x1FD),
    (0x00D24005, 0x00000000, .beqz Hdr.none 9 5),
    (0x00B8C802, 0x00000000, .bge Hdr.none 3 4 2),
    (0x00C8C802, 0x00000000, .bgeu Hdr.none 3 4 2),
    (0x00B0C802, 0x00000000, .blt Hdr.none 3 4 2),
    (0x00C0C802, 0x00000000, .bltu Hdr.none 3 4 2),
    (0x00A9D5FC, 0x00000000, .bne Hdr.none 7 10 0x1FC),
    (0x00DA4005, 0x00000000, .bnez Hdr.none 9 5),
    (0x00000003, 0x00000000, .brk Hdr.none),
    (0x00394C01, 0x00000000, .clz Hdr.none 5 6 1),
    (0x00394C02, 0x00000000, .clz Hdr.none 5 6 2),
    (0x00394C03, 0x00000000, .clz Hdr.none 5 6 3),
    (0x00394C00, 0x00000000, .clz Hdr.none 5 6 0),
    (0x00188003, 0x00000000, .csrr Hdr.none 2 3),
    (0x00200A10, 0x00000000, .csrw Hdr.none 5 0x10),
    (0x00000002, 0x00000000, .eret Hdr.none),
    (0x00394C05, 0x00000000, .ffs Hdr.none 5 6 1),
    (0x00394C06, 0x00000000, .ffs Hdr.none 5 6 2),
    (0x00394C07, 0x00000000, .ffs Hdr.none 5 6 3),
    (0x00394C04, 0x00000000, .ffs Hdr.none 5 6 0),
    (0x0088C800, 0x00000000, .ldB Hdr.none 3 4 0),
    (0x0088C841, 0x00000000, .ldBu Hdr.none 3 4 1),
    (0x0089D180, 0x00000000, .ldD Hdr.none 7 8 0),
    (0x00898FC3, 0x00000000, .ldDAq Hdr.none 6 7 3),
    (0x0088C882, 0x00000000, .ldH Hdr.none 3 4 2),
    (0x0088C8C0, 0x00000000, .ldHu Hdr.none 3 4 0),
    (0x0088C905, 0x00000000, .ldW Hdr.none 3 4 5),
    (0x0088C940, 0x00000000, .ldWu Hdr.none 3 4 0),
    (0x007AC000, 0x00058000, .lit Hdr.none 11 0x00058000),
    (0x00794001, 0x02345678, .lit Hdr.none 5 0x12345678),
    (0x0082C000, 0x0000FF00, .lith Hdr.none 11 0xFF00),
    (0x0081400D, 0x0EADBEEF, .lith Hdr.none 5 0xDEADBEEF),
    (0x01700000, 0x00000000, .pcfg Hdr.none 0 0),
    (0x01710C00, 0x00000000, .pcfg Hdr.none 4 6),
    (0x01700001, 0x00000000, .prwd Hdr.none 0),
    (0x01714001, 0x00000000, .prwd Hdr.none 5),
    (0x0028C855, 0x00000000, .shl Hdr.none 3 4 5),
    (0x0068C804, 0x00000000, .shli Hdr.none 3 4 4),
    (0x0028C856, 0x00000000, .shr Hdr.none 3 4 5),
    (0x0068C884, 0x00000000, .shri Hdr.none 3 4 4),
    (0x0028C858, 0x00000000, .slt Hdr.none 3 4 5),
    (0x0060C9FF, 0x00000000, .slti Hdr.none 3 4 0x1FF),
    (0x0028C859, 0x00000000, .sltu Hdr.none 3 4 5),
    (0x0028C857, 0x00000000, .sra Hdr.none 3 4 5),
    (0x0068C904, 0x00000000, .srai Hdr.none 3 4 4),
    (0x0090C801, 0x00000000, .stB Hdr.none 3 4 1),
    (0x0090C4C0, 0x00000000, .stD Hdr.none 3 2 0),
    (0x0090C940, 0x00000000, .stDRl Hdr.none 3 4 0),
    (0x0090C842, 0x00000000, .stH Hdr.none 3 4 2),
    (0x0090C480, 0x00000000, .stW Hdr.none 3 2 0),
    (0x0090C900, 0x00000000, .stWRl Hdr.none 3 4 0)].all reads = true := by decide

theorem test_spec_words_3 : [
    (0x01084435, 0x00000000, .vabsd Hdr.none 1 2 3 false),
    (0x01084430, 0x00000000, .vadd Hdr.none 1 2 3 false),
    (0x01484406, 0x00000000, .vbcc Hdr.none 1 2 0 false),
    (0x01484485, 0x00000000, .vbcrHi Hdr.none 1 2 8 false),
    (0x01584A00, 0x00000000, .vbcs Hdr.none 1 5 false),
    (0x01284420, 0x00000000, .vclz Hdr.none 1 2 2 false),
    (0x01284400, 0x00000000, .vclz Hdr.none 1 2 0 false),
    (0x01384462, 0x00000000, .vcvtNar Hdr.none 1 2 6 false false 2),
    (0x01384430, 0x00000000, .vcvtNar Hdr.none 1 2 3 false false 0),
    (0x01384434, 0x00000000, .vcvtNar Hdr.none 1 2 3 false true 0),
    (0x01384445, 0x00000000, .vcvtNar Hdr.none 1 2 4 false true 1),
    (0x01384480, 0x00000000, .vcvtNar Hdr.none 1 2 8 false false 0),
    (0x01384510, 0x00000000, .vcvtWid Hdr.none 1 2 1 false),
    (0x01384530, 0x00000000, .vcvtWid Hdr.none 1 2 3 false),
    (0x013845A0, 0x00000000, .vcvtWid Hdr.none 1 2 10 false),
    (0x0159C482, 0x00000000, .vextHi Hdr.none 7 2 8),
    (0x0159C451, 0x00000000, .vext Hdr.none 7 2 5),
    (0x01284411, 0x00000000, .vffs Hdr.none 1 2 1 false),
    (0x01284401, 0x00000000, .vffs Hdr.none 1 2 0 false),
    (0x01084434, 0x00000000, .vmax Hdr.none 1 2 3 false),
    (0x01084433, 0x00000000, .vmin Hdr.none 1 2 3 false),
    (0x01084406, 0x00000000, .vmov Hdr.none 1 2 false),
    (0x01084432, 0x00000000, .vmul Hdr.none 1 2 3 false),
    (0x01284422, 0x00000000, .vpopc Hdr.none 1 2 2 false),
    (0x01284402, 0x00000000, .vpopc Hdr.none 1 2 0 false),
    (0x01484432, 0x00000000, .vrotc Hdr.none 1 2 3 false),
    (0x0148C851, 0x00000000, .vrotrHi Hdr.none 3 4 5 false),
    (0x01084437, 0x00000000, .vsel Hdr.none 1 2 3),
    (0x01084431, 0x00000000, .vsub Hdr.none 1 2 3 false),
    (0x01B90A02, 0x00000000, .arrv Hdr.none 4 5),
    (0x01B90A01, 0x00000000, .await Hdr.none 4 5),
    (0x01B90A05, 0x00000000, .awaitX Hdr.none 4 5),
    (0x0002C004, 0x00000000, .fenceAcq Hdr.none 3),
    (0x0000C004, 0x00000000, .fenceFull Hdr.none 3)].all reads = true := by decide

/-- Log entry 51: IDLE 16383 in the field placement of R75 and R80; the word that R379 writes for it has an rd that is not 0. -/
theorem test_idle_16383 : reads (0x00083FFF, 0, .idle Hdr.none 16383) = true ∧ (match decodeWords 0x000BFFFF 0 with | .ok _ => false | .error _ => true) = true := by
  decide

/-! ### Ill-formed terms: each is refused -/

theorem test_ill_formed_1 : (([
    .eretSa Hdr.none 0, .fenceFull Hdr.none 5, .fenceAcq Hdr.none 5, .fenceRel Hdr.none 5,
    .step Hdr.none 6, .msel Hdr.none 9, .csrr Hdr.none 2 0x19, .csrw Hdr.none 4 0x19,
    .loop Hdr.none 0 1, .vadd Hdr.none 16 4 6 false, .vadd Hdr.none 2 20 6 false, .vadd Hdr.none 2 4 20 false,
    .vadd Hdr.none 2 16 16 false, .vsub Hdr.none 16 4 6 false, .vsub Hdr.none 2 20 6 false, .vsub Hdr.none 2 4 20 false,
    .vsub Hdr.none 2 16 16 false, .vmul Hdr.none 16 4 6 false, .vmul Hdr.none 2 20 6 false, .vmul Hdr.none 2 4 20 false,
    .vmul Hdr.none 2 16 16 false, .vmin Hdr.none 16 4 6 false, .vmin Hdr.none 2 20 6 false, .vmin Hdr.none 2 4 20 false,
    .vmin Hdr.none 2 16 16 false, .vmax Hdr.none 16 4 6 false, .vmax Hdr.none 2 20 6 false, .vmax Hdr.none 2 4 20 false,
    .vmax Hdr.none 2 16 16 false, .vabsd Hdr.none 16 4 6 false, .vabsd Hdr.none 2 20 6 false, .vabsd Hdr.none 2 4 20 false,
    .vabsd Hdr.none 2 16 16 false, .vmov Hdr.none 16 4 false, .vmov Hdr.none 2 20 false, .vsel Hdr.none 16 4 6,
    .vsel Hdr.none 2 20 6, .vsel Hdr.none 2 4 20, .vsel Hdr.none 2 16 16, .vfma Hdr.none 16 4 6 false,
    .vfma Hdr.none 2 20 6 false, .vfma Hdr.none 2 4 20 false, .vfma Hdr.none 2 16 16 false, .vfms Hdr.none 16 4 6 false,
    .vfms Hdr.none 2 20 6 false, .vfms Hdr.none 2 4 20 false, .vfms Hdr.none 2 16 16 false, .vfnma Hdr.none 16 4 6 false,
    .vfnma Hdr.none 2 20 6 false, .vfnma Hdr.none 2 4 20 false, .vfnma Hdr.none 2 16 16 false, .viadd Hdr.none 16 4 6 false,
    .viadd Hdr.none 2 20 6 false, .viadd Hdr.none 2 4 20 false, .viadd Hdr.none 2 16 16 false, .visub Hdr.none 16 4 6 false,
    .visub Hdr.none 2 20 6 false, .visub Hdr.none 2 4 20 false, .visub Hdr.none 2 16 16 false, .vimul Hdr.none 16 4 6 false,
    .vimul Hdr.none 2 20 6 false, .vimul Hdr.none 2 4 20 false, .vimul Hdr.none 2 16 16 false, .vimin Hdr.none 16 4 6 false,
    .vimin Hdr.none 2 20 6 false, .vimin Hdr.none 2 4 20 false, .vimin Hdr.none 2 16 16 false, .vimax Hdr.none 16 4 6 false,
    .vimax Hdr.none 2 20 6 false, .vimax Hdr.none 2 4 20 false] : List Instr).all fun i => !i.wf) = true := by decide

theorem test_ill_formed_2 : (([
    .vimax Hdr.none 2 16 16 false, .vand Hdr.none 16 4 6 false, .vand Hdr.none 2 20 6 false, .vand Hdr.none 2 4 20 false,
    .vand Hdr.none 2 16 16 false, .vor Hdr.none 16 4 6 false, .vor Hdr.none 2 20 6 false, .vor Hdr.none 2 4 20 false,
    .vor Hdr.none 2 16 16 false, .vxor Hdr.none 16 4 6 false, .vxor Hdr.none 2 20 6 false, .vxor Hdr.none 2 4 20 false,
    .vxor Hdr.none 2 16 16 false, .vshl Hdr.none 16 4 6 false, .vshl Hdr.none 2 20 6 false, .vshl Hdr.none 2 4 20 false,
    .vshl Hdr.none 2 16 16 false, .vshr Hdr.none 16 4 6 false, .vshr Hdr.none 2 20 6 false, .vshr Hdr.none 2 4 20 false,
    .vshr Hdr.none 2 16 16 false, .vsra Hdr.none 16 4 6 false, .vsra Hdr.none 2 20 6 false, .vsra Hdr.none 2 4 20 false,
    .vsra Hdr.none 2 16 16 false, .vclz Hdr.none 16 4 1 false, .vclz Hdr.none 2 20 1 false, .vclz Hdr.none 2 4 3 false,
    .vffs Hdr.none 16 4 1 false, .vffs Hdr.none 2 20 1 false, .vffs Hdr.none 2 4 3 false, .vpopc Hdr.none 16 4 1 false,
    .vpopc Hdr.none 2 20 1 false, .vpopc Hdr.none 2 4 3 false, .vcmpFeq Hdr.none 8 4 6 false, .vcmpFeq Hdr.none 2 20 6 false,
    .vcmpFeq Hdr.none 2 4 20 false, .vcmpFeq Hdr.none 2 16 16 false, .vcmpFlt Hdr.none 8 4 6 false, .vcmpFlt Hdr.none 2 20 6 false,
    .vcmpFlt Hdr.none 2 4 20 false, .vcmpFlt Hdr.none 2 16 16 false, .vcmpFle Hdr.none 8 4 6 false, .vcmpFle Hdr.none 2 20 6 false,
    .vcmpFle Hdr.none 2 4 20 false, .vcmpFle Hdr.none 2 16 16 false, .vcmpFun Hdr.none 8 4 6 false, .vcmpFun Hdr.none 2 20 6 false,
    .vcmpFun Hdr.none 2 4 20 false, .vcmpFun Hdr.none 2 16 16 false, .vcmpIeq Hdr.none 8 4 6 false, .vcmpIeq Hdr.none 2 20 6 false,
    .vcmpIeq Hdr.none 2 4 20 false, .vcmpIeq Hdr.none 2 16 16 false, .vcmpIlt Hdr.none 8 4 6 false, .vcmpIlt Hdr.none 2 20 6 false,
    .vcmpIlt Hdr.none 2 4 20 false, .vcmpIlt Hdr.none 2 16 16 false, .vcmpIltu Hdr.none 8 4 6 false, .vcmpIltu Hdr.none 2 20 6 false,
    .vcmpIltu Hdr.none 2 4 20 false, .vcmpIltu Hdr.none 2 16 16 false, .vcvtNar Hdr.none 16 4 1 false false 1, .vcvtNar Hdr.none 2 20 1 false false 1,
    .vcvtNar Hdr.none 2 4 12 false false 1, .vcvtWid Hdr.none 16 4 1 false, .vcvtWid Hdr.none 2 20 1 false, .vcvtWid Hdr.none 2 4 12 false,
    .vsfnExp2 Hdr.none 16 4 false, .vsfnExp2 Hdr.none 2 20 false] : List Instr).all fun i => !i.wf) = true := by decide

theorem test_ill_formed_3 : (([
    .vsfnLog2 Hdr.none 16 4 false, .vsfnLog2 Hdr.none 2 20 false, .vsfnRcp Hdr.none 16 4 false, .vsfnRcp Hdr.none 2 20 false,
    .vsfnRsqrt Hdr.none 16 4 false, .vsfnRsqrt Hdr.none 2 20 false, .vsfnSqrt Hdr.none 16 4 false, .vsfnSqrt Hdr.none 2 20 false,
    .vsfnTanh Hdr.none 16 4 false, .vsfnTanh Hdr.none 2 20 false, .vsfnSigm Hdr.none 16 4 false, .vsfnSigm Hdr.none 2 20 false,
    .vsfnSilu Hdr.none 16 4 false, .vsfnSilu Hdr.none 2 20 false, .vrotr Hdr.none 16 4 1 false, .vrotr Hdr.none 2 20 1 false,
    .vrotrHi Hdr.none 16 4 1 false, .vrotrHi Hdr.none 2 20 1 false, .vrotc Hdr.none 16 4 1 false, .vrotc Hdr.none 2 20 1 false,
    .vrotc Hdr.none 2 4 16 false, .vbcr Hdr.none 16 4 1 false, .vbcr Hdr.none 2 20 1 false, .vbcrHi Hdr.none 16 4 1 false,
    .vbcrHi Hdr.none 2 20 1 false, .vbcc Hdr.none 16 4 1 false, .vbcc Hdr.none 2 20 1 false, .vbcc Hdr.none 2 4 16 false,
    .vredrAdd Hdr.none 16 4 false, .vredrAdd Hdr.none 2 20 false, .vredrMax Hdr.none 16 4 false, .vredrMax Hdr.none 2 20 false,
    .vredrMin Hdr.none 16 4 false, .vredrMin Hdr.none 2 20 false, .vredrIadd Hdr.none 16 4 false, .vredrIadd Hdr.none 2 20 false,
    .vredcAdd Hdr.none 16 4 false, .vredcAdd Hdr.none 2 20 false, .vredcMax Hdr.none 16 4 false, .vredcMax Hdr.none 2 20 false,
    .vredcMin Hdr.none 16 4 false, .vredcMin Hdr.none 2 20 false, .vredcIadd Hdr.none 16 4 false, .vredcIadd Hdr.none 2 20 false,
    .vbcs Hdr.none 16 4 false, .vext Hdr.none 2 20 1, .vextHi Hdr.none 2 20 1, .vrand Hdr.none 16 4 false,
    .vrand Hdr.none 2 20 false, .osmx Hdr.none 3 4 6, .osmx Hdr.none 2 20 6, .osmx Hdr.none 2 4 16,
    .osmf Hdr.none 16 2, .osmf Hdr.none 2 3, .pcfg Hdr.none 8 4, .prwd Hdr.none 8,
    .shld Hdr.none 16 4, .mma Hdr.none 16 4 6 false false false, .mma Hdr.none 1 16 6 false false false, .mma Hdr.none 1 4 16 false false false, .mma Hdr.none 1 4 6 true false true,
    .lmma Hdr.none 16 1 1 false false, .lmma Hdr.none 1 4 1 false false, .lmma Hdr.none 1 1 16 false false, .tbuildZ Hdr.none 4 4,
    .tbuildZ Hdr.none 1 16, .tbuildC Hdr.none 4 4, .tbuildC Hdr.none 1 16, .tbuildC2 Hdr.none 4 4,
    .tbuildC2 Hdr.none 1 16, .tinv Hdr.none 4] : List Instr).all fun i => !i.wf) = true := by decide

theorem test_ill_formed_4 : (([
    .tspill Hdr.none 4 4, .tfill Hdr.none 4 4, .saccFadd Hdr.none 16 16 17, .saccFadd Hdr.none 2 20 17,
    .saccFadd Hdr.none 2 16 20, .saccFadd Hdr.none 2 16 16, .saccFmax Hdr.none 16 16 17, .saccFmax Hdr.none 2 20 17,
    .saccFmax Hdr.none 2 16 20, .saccFmax Hdr.none 2 16 16, .saccFmin Hdr.none 16 16 17, .saccFmin Hdr.none 2 20 17,
    .saccFmin Hdr.none 2 16 20, .saccFmin Hdr.none 2 16 16, .saccIadd Hdr.none 16 16 17, .saccIadd Hdr.none 2 20 17,
    .saccIadd Hdr.none 2 16 20, .saccIadd Hdr.none 2 16 16, .tlbiCasement 2304, .tlbiPage 2304,
    .resultLands 2304 0, .regionAlignment 2304, .closingAlignment 2304, .realignVisible 16 0,
    .realignVisible 0 9, .budgetExceeded 2304, .softErrorReexec 2304 .value, .queueRecordRead 256,
    .waitRecheck 256, .markRecord 256, .waitFaultTimeout 256, .preemptRequest 2304,
    .saveComplete 2304, .saveFault 2304, .completionEntryWrite 256, .cqInterrupt 256,
    .trackerEntryFree 2304 0, .heldEffectDrain 2304 0, .copyBeat 2304 0, .portDrain 2304 0,
    .engineCommandStart 2304 .matrix, .mmaStep 2304, .mmaComplete 2304, .lmmaLookup 2304,
    .lmmaComplete 2304, .tbuildComplete 2304, .epiComplete 2304, .saccUpdate 2304,
    .tinvComplete 2304, .tspillComplete 2304, .tfillComplete 2304, .mirrorAreaComplete 2304 0,
    .remoteStoreApply 9 0, .fleetAnchorRewrite 16, .dieHeartbeat 9, .dieLossDeclared 9,
    .clockLockLoss 9, .thermalHoldEnter 16, .thermalHoldExit 16, .hbmSlotService 512 .clean,
    .usageWindowClose 16, .usageRecordComplete 16, .scrubUnitDone 16, .vfFlr 16,
    .sublinkRetire 16 0, .sublinkRetire 0 8, .start 256, .stop 256,
    .setrd 256 1, .qwrWrite .pf 256 1] : List Instr).all fun i => !i.wf) = true := by decide

theorem test_ill_formed_5 : (([
    .create 16, .teardown 16, .drain 16, .resume 16,
    .clrsave 16, .quotaWrite 16 .mina 0, .htlbiCasement 16, .htlbiPage 16 0,
    .s2invAll 16, .s2invIpa 16 0, .sublinkTableWrite 16 1, .instructionFetchComplete 2304 .ld 0] : List Instr).all fun i => !i.wf) = true := by decide

/-! ### Witnesses: scalar words, loads and stores -/

theorem witness_AluWords :
    Meets (word .ld .gap [(1, 5), (2, 0xFFFFFFFFFFFFFFFF)]) Hdr.none allSeqs everywhere [31, 1, 2] (fun _ _ => True) ∧
    Meets (word .ct .handler [(1, 5)]) { y := 0, i := 7 } allSeqs everywhere [0, 1] (fun _ _ => True) ∧
    (64#9).getLsbD 6 = true ∧ (384#9).extractLsb' 7 2 = 3 :=
  ⟨meets_of (by decide), meets_of (by decide), by decide, by decide⟩

theorem witness_ImmediateAndBitWords :
    Meets (word .st .timed [(1, 5)]) Hdr.none allSeqs everywhere [2, 1] (fun _ _ => True) ∧
    Meets (word .cm .tokened []) Hdr.none allSeqs everywhere [0] (fun _ _ => True) ∧
    7 < 64 / (8 * 2 ^ (0#2).toNat) ∧ 3 < 64 / (8 * 2 ^ (1#2).toNat) ∧ 1 < 64 / (8 * 2 ^ (2#2).toNat) ∧ 0 < 64 / (8 * 2 ^ (3#2).toNat) :=
  ⟨meets_of (by decide), meets_of (by decide), by decide, by decide, by decide, by decide⟩

theorem witness_MulDivWords :
    Meets (word .ct .gap [(1, 0x8000000000000000), (2, 0xFFFFFFFFFFFFFFFF)]) Hdr.none allSeqs everywhere [3, 1, 2]
      (fun _ x => x.reg 1 = 0x8000000000000000 ∧ x.reg 2 = 0xFFFFFFFFFFFFFFFF) ∧
    Meets (word .ct .gap [(1, 7)]) Hdr.none allSeqs everywhere [3, 1, 2] (fun _ x => x.reg 2 = 0) ∧
    Meets (word .ct .gap [(1, 7), (2, 2)]) Hdr.none allSeqs everywhere [3, 1, 2] (fun _ x => x.reg 2 ≠ 0 ∧ x.reg 1 ≠ 0x8000000000000000) :=
  ⟨meets_of (by decide), meets_of (by decide), meets_of (by decide)⟩

theorem witness_Branches :
    Meets (word .ld .tokened [(1, 3), (2, 3)]) Hdr.none allSeqs everywhere [1, 2] (fun _ _ => True) ∧
    Meets (word .cm .timed [(1, 1)]) Hdr.none allSeqs everywhere [31, 1] (fun _ _ => (1#5) ≠ 0 ∧ (0#5) = 0) ∧
    Meets (word .ct .gap [(1, 0xFFFFFFFFFFFFFFFC), (2, 1)]) Hdr.none allSeqs everywhere [1, 2] (fun _ x => (x.reg 1).toNat % 4 = 0) ∧
    Meets (word .ct .gap [(1, 0xFFFFFFFFFFFFFFFE), (2, 1)]) Hdr.none allSeqs everywhere [1, 2] (fun _ x => (x.reg 1).toNat % 4 ≠ 0) ∧
    Meets (word .ct .gap [(1, 98296)]) Hdr.none allSeqs everywhere [1, 2]
      (fun s x => (x.reg 1).toNat % 8 = 0 ∧ (x.reg 1).toNat + 8 ≤ 98304 ∧ x.k.bankConflict s.now true (banksOf 98296 8) s.now x.q = none) ∧
    Meets (word .ct .gap [(1, 98300)]) Hdr.none allSeqs everywhere [1, 2] (fun _ x => (x.reg 1).toNat % 8 ≠ 0) ∧
    Meets (word .ct .gap [(1, 98304)]) Hdr.none allSeqs everywhere [1, 2] (fun _ x => (x.reg 1).toNat % 8 = 0 ∧ 98304 < (x.reg 1).toNat + 8) :=
  ⟨meets_of (by decide), meets_of (by decide), meets_of (by decide), meets_of (by decide), meets_of (by decide), meets_of (by decide),
    meets_of (by decide)⟩

theorem witness_Loads :
    Meets (word .ld .timed [(1, 0xFF0000057FF8)]) Hdr.none allSeqs everywhere [2, 1]
      (fun _ x => ((x.reg 1).toNat + 0 * 8) % 2 ^ 64 % 8 = 0 ∧ locate x.c (((x.reg 1).toNat + 0 * 8) % 2 ^ 64) 8 = .own true 98296 ∧
        x.k.place x.q = .timed) ∧
    Meets (word .ld .gap [(1, 0xFF000002FE00)]) Hdr.none allSeqs everywhere [2, 1]
      (fun _ x => ((x.reg 1).toNat + 63 * 8) % 2 ^ 64 % 8 = 0 ∧ locate x.c (((x.reg 1).toNat + 63 * 8) % 2 ^ 64) 8 = .own false 196600 ∧
        x.k.place x.q ≠ .timed) ∧
    Meets (word .ct .handler [(1, 0xFCFFFFFFFFF8)]) Hdr.none allSeqs [.tokened, .handler] [2, 1]
      (fun _ x => ((x.reg 1).toNat + 0 * 8) % 2 ^ 64 % 8 = 0 ∧ ((x.reg 1).toNat + 0 * 8) % 2 ^ 64 < 0xFD0000000000) ∧
    Meets (word .ld .gap [(1, 0xFCFFFFFFFFFF)]) Hdr.none allSeqs [.timed, .gap] [2, 1]
      (fun _ x => ((x.reg 1).toNat + 0 * 8) % 2 ^ 64 < 0xFD0000000000) :=
  ⟨meets_of (by decide), meets_of (by decide), meets_of (by decide), meets_of (by decide)⟩

theorem witness_Stores :
    Meets (word .st .gap [(1, 0xFF0000057FF8)]) Hdr.none allSeqs everywhere [2, 1]
      (fun s x => ((x.reg 1).toNat + 0 * 8) % 2 ^ 64 % 8 = 0 ∧ locate x.c (((x.reg 1).toNat + 0 * 8) % 2 ^ 64) 8 = .own true 98296 ∧
        x.ownRelease s Hdr.none = true) ∧
    Meets (word .st .timed [(1, 0xFCFFFFFFFFF8)]) Hdr.none allSeqs regions [2, 1]
      (fun _ x => ((x.reg 1).toNat + 0 * 8) % 2 ^ 64 % 8 = 0 ∧ ((x.reg 1).toNat + 0 * 8) % 2 ^ 64 < 0xFD0000000000) ∧
    Meets (word .ct .gap [(1, 0)]) Hdr.none allSeqs [.gap] [2, 1] (fun _ x => ((x.reg 1).toNat + 63 * 8) % 2 ^ 64 < 0xFD0000000000) ∧
    Meets (word .ct .tokened [(1, 1)]) Hdr.none allSeqs [.tokened] [2, 1]
      (fun _ x => ((x.reg 1).toNat + 0 * 2) % 2 ^ 64 % 2 ≠ 0 ∧ ((x.reg 1).toNat + 0 * 4) % 2 ^ 64 % 4 ≠ 0 ∧ ((x.reg 1).toNat + 0 * 8) % 2 ^ 64 % 8 ≠ 0) ∧
    Meets (word .ct .tokened [(1, 0xFF0000030000)]) Hdr.none allSeqs [.tokened] [2, 1]
      (fun _ x => locate x.c (((x.reg 1).toNat + 0 * 1) % 2 ^ 64) 1 = .unmapped) :=
  ⟨meets_of (by decide), meets_of (by decide), meets_of (by decide), meets_of (by decide), meets_of (by decide)⟩

theorem witness_Amocs :
    Meets (word .ct .tokened [(1, 0xFCFFFFFFFFF8)]) Hdr.none [.ct] [.tokened] [3, 1, 2]
      (fun _ x => (x.reg 1).toNat % 8 = 0 ∧ (x.reg 1).toNat < 0xFD0000000000) ∧
    Meets (word .ct .tokened [(1, 6)]) Hdr.none [.ct] [.tokened] [3, 1, 2] (fun _ x => (x.reg 1).toNat % 4 ≠ 0) ∧
    Meets (word .ct .tokened [(1, 0xFE0000000000)]) Hdr.none [.ct] [.tokened] [3, 1, 2]
      (fun _ x => (x.reg 1).toNat % 8 = 0 ∧ 0xFE0000000000 ≤ (x.reg 1).toNat ∧ (x.reg 1).toNat < 2 ^ 48) ∧
    Meets (word .ct .tokened [(1, 0xFFFFFFFFFFF8)]) Hdr.none [.ct] [.tokened] [3, 1, 2]
      (fun _ x => (x.reg 1).toNat % 8 = 0 ∧ 0xFE0000000000 ≤ (x.reg 1).toNat ∧ (x.reg 1).toNat < 2 ^ 48) ∧
    Meets (word .ct .timed []) Hdr.none [.ct] [.gap, .timed, .handler] [3, 1, 2] (fun _ _ => True) ∧
    (2 ^ 32 - 1 < 2 ^ (8 * 4) ∧ 2 ^ 64 - 1 < 2 ^ (8 * 8)) :=
  ⟨meets_of (by decide), meets_of (by decide), meets_of (by decide), meets_of (by decide), meets_of (by decide), by decide⟩

/-! ### Witnesses: tiles and ports -/

/-- A record of given fields: (byte, value). -/
def fieldsOf (fs : List (Nat × Nat)) : BitVec 512 := BitVec.ofNat 512 (fs.map fun f => f.2 * 256 ^ f.1).sum

/-- A shape record: format, space, rows, columns, base, row stride. -/
def shapeOf (fmt space rows cols base stride : Nat) : BitVec 512 :=
  fieldsOf [(0, fmt), (1, space), (4, rows), (6, cols), (8, base), (12, stride)]

/-- CM in a tokened region, its window whole, its ports configured. -/
def tileCore : Core :=
  { coreAt .cm .tokened [(1, 7)] with rwin := 0x100, ports := List.replicate 8 { Port.none with set := some 0 } }

theorem witness_TileWords :
    MeetsTile (onCore .cm tileCore) Hdr.none [] [15] [19, 24] [15]
      (fun _ _ => srcOk 19 = true ∧ srcOk 24 = true ∧ portsApart 19 24 = true ∧ dstOk 15 = true ∧ tileOk 15 = true) ∧
    MeetsTile (onCore .cm tileCore) Hdr.none [] [23] [15, 0] [23]
      (fun _ _ => srcOk 15 = true ∧ srcOk 0 = true ∧ portsApart 15 0 = true ∧ dstOk 23 = true ∧ (7#5).toNat ≤ 7) ∧
    MeetsTile (onCore .cm tileCore) Hdr.none [] [] [16, 17] [] (fun _ _ => srcOk 16 = true ∧ srcOk 17 = true ∧ portsApart 16 17 = true) ∧
    MeetsTile (onCore .cm tileCore) Hdr.none [] [3] [18] [3]
      (fun _ x => (2#5).toNat ≤ 2 ∧ (11#4).toNat ≤ 11 ∧ (15#5).toNat ≤ 15 ∧ (15#5).toNat < x.k.winCount) :=
  ⟨meetsTile_of (by decide), meetsTile_of (by decide), meetsTile_of (by decide), meetsTile_of (by decide)⟩

theorem witness_TileScalarWordsAndFaults :
    MeetsTile (onCore .cm tileCore) Hdr.none [1] [20] [] [20] (fun _ _ => dstOk 20 = true) ∧
    MeetsTile (onCore .cm tileCore) Hdr.none [31] [] [19] [] (fun _ _ => srcOk 19 = true) ∧
    MeetsTile (onCore .cm { tileCore with rwin := 0x40 }) Hdr.none [] [15] [24] [15]
      (fun _ x => tileOk 15 = true ∧ srcOk 24 = true ∧ x.k.winFirst + 4 * x.k.winCount ≤ 16) ∧
    MeetsTile (onCore .cm tileCore) Hdr.none [] [14, 15, 0] [5] [0]
      (fun _ _ => evenTileOk 14 = true ∧ srcOk 5 = true ∧ dstOk 0 = true ∧ (0 ≠ 14 ∧ 0 ≠ 15)) ∧
    MeetsTile (onCore .cm tileCore) Hdr.none [] [23] [] [23] (fun _ _ => dstOk 23 = true ∧ evenTileOk 14 = true) ∧
    (dstOk 15 = true ∧ srcOk 0 = true ∧ srcOk 24 = true ∧ portsApart 0 24 = true) ∧
    Meets (word .ld .gap []) Hdr.none [.ld, .st, .ct] everywhere [] (fun _ _ => True) ∧
    Meets (word .cm .gap []) Hdr.none [.cm] [.gap] [] (fun _ _ => True) ∧
    Meets (onCore .cm { tileCore with liveIn := 0x8000 }) Hdr.none [.cm] regions []
      (fun _ x => x.k.portsSet [0, 24, 15] = true ∧ x.k.liveIn.getLsbD 15 = true) ∧
    Meets (word .cm .timed []) Hdr.none [.cm] [.timed] [] (fun _ x => x.k.portsSet [0, 16, 15] = false) ∧
    Meets (onCore .cm { coreAt .cm .tokened [] with liveIn := 0x8000 }) Hdr.none [.cm] [.tokened] []
      (fun _ x => x.k.portsSet [0, 16, 15] = false ∧ x.k.liveInTile 15 = true) ∧
    Meets (word .cm .tokened []) Hdr.none [.cm] [.tokened] [] (fun _ x => x.k.portsSet [0, 16, 15] = false ∧ x.k.liveInTile 15 = false) :=
  ⟨meetsTile_of (by decide), meetsTile_of (by decide), meetsTile_of (by decide), meetsTile_of (by decide),
    meetsTile_of (by decide), by decide, meets_of (by decide), meets_of (by decide), meets_of (by decide), meets_of (by decide), meets_of (by decide),
    meets_of (by decide)⟩

/-- A core on which one act is due. -/
def dueOn (k : Core) (p : Pay) : State := part [(0, { k with acts := [{ id := 7, due := 0, issued := 0, by_ := .cm, pc := 0x1000, pay := p }] })] none

/-- The act that is due. -/
def dueAct (p : Pay) : Act := { id := 7, due := 0, issued := 0, by_ := .cm, pc := 0x1000, pay := p }

/-- That act stands on the core and is due. -/
def DueOn (k : Core) (p : Pay) : Prop :=
  ((dueOn k p).core 0).acts.find? (fun b => b.id == (dueAct p).id) = some (dueAct p) ∧ (dueAct p).due ≤ (dueOn k p).now

/-- A tile word of two tiles, 15 and 0, whose window has two rows. -/
def jobOf (fn : TileFn) : TileJob :=
  { fn := fn, d := 7, a := some 15, b := some 0, lanes := BitVec.allOnes 64, active := 1, first := 14, count := 2, flushing := true
    scalar := 0, key0 := 0, key1 := 0, rows := [], gathered := 0, gotA := none, gotB := none }

theorem witness_TileRows :
    DueOn tileCore (.rowRead (jobOf .iadd) 0) ∧ (jobOf .iadd).gotA = none ∧ (jobOf .iadd).gotB = none ∧ (jobOf .iadd).a = some 15 ∧ (jobOf .iadd).b = some 0 ∧ 0 + 1 < (jobOf .iadd).count ∧ (jobOf .iadd).d < 16 ∧
    DueOn tileCore (.rowRead (jobOf (.cmp .iltu)) 1) ∧
    (jobOf (.cmp .iltu)).fn ∈ [.cmp .ieq, .cmp .ilt, .cmp .iltu] ∧
    (jobOf .iadd).fn ∈ [.iadd, .isub, .imul, .imin, .imax, .and, .or, .xor, .shl, .shr, .sra, .sel] := by
  unfold DueOn; decide

theorem witness_TileAndMaskLandings :
    DueOn tileCore (.tileRow 15 15 (BitVec.allOnes 64) []) ∧ DueOn tileCore (.status 0x100) ∧ DueOn { tileCore with vcsrw := true } (.status 1) ∧
    DueOn tileCore (.maskRow 7 1 1 0) := by
  unfold DueOn; decide

theorem witness_PortAndRecordWords :
    Meets (word .ld .timed [(1, 98240)]) Hdr.none [.ld] regions [1]
      (fun _ x => (3#5).toNat < 4 ∧ (x.reg 1).toNat % 64 = 0 ∧ (x.reg 1).toNat + 64 ≤ 98304 ∧ (15#5).toNat < 16 ∧ x.k.liveInTile 15 = false ∧ x.k.liveInTile (15#5).toNat = false) ∧
    Meets (onCore .ld { coreAt .ld .timed [] with liveIn := 0x8000 }) Hdr.none [.ld] regions [1] (fun _ x => x.k.liveInTile 15 = true) ∧
    Meets (word .st .tokened [(1, 0)]) Hdr.none [.st] regions [1]
      (fun _ x => 4 ≤ (7#5).toNat ∧ (7#5).toNat < 8 ∧ (x.reg 1).toNat % 64 = 0 ∧ x.k.pushDue 7 = false) ∧
    Meets (word .ld .timed [(1, 32)]) Hdr.none [.ld] regions [1] (fun _ x => (x.reg 1).toNat % 64 ≠ 0) ∧
    Meets (word .ld .timed [(1, 98304)]) Hdr.none [.ld] regions [1] (fun _ x => (x.reg 1).toNat % 64 = 0 ∧ 98304 < (x.reg 1).toNat + 64) ∧
    Meets (onCore .ld { coreAt .ld .tokened [] with ports := List.replicate 8 { Port.none with set := some 0 } }) Hdr.none [.ld] regions [1]
      (fun _ x => x.k.portSet 0 = true) ∧
    Meets (word .st .tokened []) Hdr.none [.st] regions [1] (fun _ x => x.k.portSet 4 = false) ∧
    Meets (word .cm .gap []) Hdr.none [.cm, .st, .ct] everywhere [1] (fun _ _ => True) ∧
    Meets (word .ld .gap []) Hdr.none [.ld, .cm, .ct] everywhere [1] (fun _ _ => True) ∧
    Meets (word .cm .timed [(1, 196576)]) Hdr.none [.cm] regions [1] (fun _ x => (x.reg 1).toNat % 32 = 0 ∧ (x.reg 1).toNat + 32 ≤ 196608) ∧
    Meets (word .cm .timed [(1, 16)]) Hdr.none [.cm] regions [1] (fun _ x => (x.reg 1).toNat % 32 ≠ 0) ∧
    Meets (word .cm .timed [(1, 196608)]) Hdr.none [.cm] regions [1] (fun _ x => (x.reg 1).toNat % 32 = 0 ∧ 196608 < (x.reg 1).toNat + 32) :=
  ⟨meets_of (by decide), meets_of (by decide), meets_of (by decide), meets_of (by decide), meets_of (by decide), meets_of (by decide), meets_of (by decide),
    meets_of (by decide), meets_of (by decide), meets_of (by decide), meets_of (by decide), meets_of (by decide)⟩

/-- A core whose A-space holds one byte run. -/
def withA (k : Core) (off : Nat) (bs : List W8) : Core := { k with aspace := Cells.write [] off bs }

theorem witness_RecordReads :
    (let k := withA tileCore 98240 (leBytes 64 (fieldsOf [(2, 1), (8, 1), (16, 256)]).toNat)
     DueOn k (.paramRead 7 98240) ∧ k.bankConflict 0 true (banksOf 98240 64) 0 .cm = none ∧ pFault 7 (recordOf (k.readBuf true 98240 64)) = none) ∧
    (let k := withA tileCore 0 (leBytes 64 (shapeOf 0 0 1 2 0 8).toNat)
     DueOn k (.shapeRead 15 0) ∧ k.bankConflict 0 true (banksOf 0 64) 0 .cm = none ∧ hMismatch (recordOf (k.readBuf true 0 64)) = false) ∧
    (DueOn tileCore (.codebookRead 196576) ∧ tileCore.bankConflict 0 false (banksOf 196576 32) 0 .cm = none) ∧
    (DueOn tileCore (.portLand 7 0) ∧ 7 < tileCore.ports.length) ∧ DueOn tileCore (.shapeLand 15 0) ∧ DueOn tileCore (.codebookLand []) := by
  unfold DueOn; decide +kernel

/-! ### Witnesses: engines, copies, arrivals -/

/-- CM in a tokened region, with shape records from h0 on and a register. -/
def engineCore (shapes : List (BitVec 512)) (v : W64) : Core :=
  { coreAt .cm .tokened [(1, v)] with shapes := shapes ++ List.replicate (16 - shapes.length) 0, ports := List.replicate 8 { Port.none with set := some 0 } }

/-- C, A and B of an MMA of two rows, four columns and a depth of three. -/
def mmaShapes : List (BitVec 512) := [shapeOf 0 2 2 4 0 16, shapeOf 0 0 2 3 0 16, shapeOf 0 1 3 4 0 16]

theorem witness_MatrixAndLookupWords :
    (let s := onCore .cm (engineCore mmaShapes 0)
     let ra := mmaShapes.getD 1 0; let rb := mmaShapes.getD 2 0; let rc := mmaShapes.getD 0 0
     Meets s Hdr.none [.cm] regions [] (fun s x => (x.k.mma.filter fun m => m.open_ s.now).length < 2 ∧
       [x.k.shape 0, x.k.shape 1, x.k.shape 2] = [rc, ra, rb] ∧ hSpace ra = 0 ∧ hSpace rb = 1 ∧ hSpace rc = 2 ∧ hFmt ra < 12 ∧
       hCols ra = hRows rb ∧ hKoff ra = hKoff rb ∧ hRows rc = hRows ra ∧ hCols rc = hCols rb ∧ hScl rc = false ∧ hRows rc ≤ 16)) ∧
    hSpace (shapeOf 0 1 2 3 0 16) ≠ 0 ∧ hSpace (shapeOf 0 2 3 4 0 16) ≠ 1 ∧ hSpace (shapeOf 0 0 2 4 0 16) ≠ 2 ∧ 12 ≤ hFmt (shapeOf 12 0 2 3 0 16) ∧
    hCols (shapeOf 0 0 2 3 0 16) ≠ hRows (shapeOf 0 1 4 4 0 16) ∧ hRows (shapeOf 0 2 3 4 0 16) ≠ hRows (shapeOf 0 0 2 3 0 16) ∧
    (let s := onCore .cm (engineCore [shapeOf 0 2 16 8 0 32, shapeOf 8 1 4 8 0 16, shapeOf 0 0 16 64 0 256, shapeOf 0 0 16 16 0 64] 0)
     Meets s Hdr.none [.cm] regions [] (fun s x => x.k.lookupFull s.now = false ∧ (3#5).toNat ≤ 3 ∧ hSpace (x.k.shape 1) = 1 ∧ hSpace (x.k.shape 0) = 2 ∧
       hRows (x.k.shape 0) = 16 ∧ hCols (x.k.shape 0) = hCols (x.k.shape 1) ∧ hFmt (x.k.shape 1) ∈ [8, 0xA, 0xB, 0xC, 0xD, 0xE, 0xF] ∧
       hSpace (x.k.shape 2) = 0 ∧ hFmt (x.k.shape 2) < 12 ∧ hRows (x.k.shape 2) = 16 ∧ (hSpan (x.k.shape 2)).2 ≤ 16 ∧ hCols (x.k.shape 2) = 64 ∧
       hSpace (x.k.shape 3) = 0 ∧ hFmt (x.k.shape 3) < 12 ∧ hRows (x.k.shape 3) = 16 ∧ (hSpan (x.k.shape 3)).2 ≤ 16 ∧ hCols (x.k.shape 3) = 16)) ∧
    Meets (onCore .cm (engineCore [] 0xFCFFFFFFBFC0)) Hdr.none [.cm] regions [1]
      (fun _ x => (x.reg 1).toNat % 64 = 0 ∧ (x.reg 1).toNat + 16448 ≤ 0xFD0000000000 ∧ x.k.place x.q = .tokened) ∧
    Meets (onCore .cm (engineCore [] 0xFF0000053FC0)) Hdr.none [.cm] regions [1]
      (fun _ x => (x.reg 1).toNat % 64 = 0 ∧ 0xFF0000040000 ≤ (x.reg 1).toNat ∧ (x.reg 1).toNat + 16448 ≤ 0xFF0000040000 + 98304) ∧
    Meets (onCore .cm (engineCore [] 32)) Hdr.none [.cm] regions [1] (fun _ x => (x.reg 1).toNat % 64 ≠ 0 ∧ x.k.place x.q = .tokened) ∧
    Meets (word .cm .timed [(1, 0)]) Hdr.none [.cm] regions [1] (fun _ x => (x.reg 1).toNat < 0xFD0000000000 ∧ x.k.place x.q = .timed) :=
  ⟨meets_of (by decide +kernel), by decide +kernel, by decide +kernel, by decide +kernel, by decide +kernel, by decide +kernel, by decide +kernel,
    meets_of (by decide +kernel), meets_of (by decide), meets_of (by decide), meets_of (by decide), meets_of (by decide)⟩

/-- An EPI record of one row and one column, FP32, its output at 512. -/
def epiRecord : BitVec 512 := fieldsOf [(4, 1), (6, 1), (12, 4), (16, 512), (20, 8), (28, 0x3F800000)]

/-- A copy record: two elements of 8 bytes from A-space 0 to a destination of a kind. -/
def copyRecord (kind dst : Nat) : List W8 :=
  leBytes 128 ([(0, 0x13), (2, 2), (3, kind), (6, 0x8000), (16, dst), (32, 2), (64, 8), (96, 8)].map fun f => f.2 * 256 ^ f.1).sum

/-- A copy record has beats the core may make, all to its own buffers or not. -/
def copyOk (s : State) (c : Nat) (r : List W8) (own : Bool) : Bool :=
  match copyBeats c r with
  | .ok beats => decide (copyFault r = none) && s.copyAllowed c beats && ((beats.all fun b => b.dsts.all fun e => decide (e.core? = some c)) == own)
  | .error _ => false

theorem witness_EpilogueScatterAndCopyWords :
    (let k := withA (coreAt .cm .tokened [(1, 98240)]) 98240 (leBytes 64 epiRecord.toNat)
     Meets (onCore .cm k) Hdr.none [.cm] regions [1]
      (fun _ x => x.k.epi.length < 2 ∧ (x.reg 1).toNat % 64 = 0 ∧ (x.reg 1).toNat + 64 ≤ 98304 ∧ epiFault (recordOf (x.k.startA 98240 64)) = none)) ∧
    Meets (word .cm .timed [(1, 0)]) Hdr.none [.cm] regions [1] (fun _ x => epiFault (recordOf (x.k.startA 0 64)) = some 6) ∧
    Meets (word .cm .timed [(1, 32)]) Hdr.none [.cm] regions [1] (fun _ x => (x.reg 1).toNat % 64 ≠ 0) ∧
    Meets (word .cm .timed [(1, 98304)]) Hdr.none [.cm] regions [1] (fun _ x => (x.reg 1).toNat % 64 = 0 ∧ 98304 < (x.reg 1).toNat + 64) ∧
    Meets (onCore .cm (engineCore [shapeOf 0 0 4 4 0 16, shapeOf 0 1 4 4 0 16, shapeOf 1 0 4 4 0 8] 0)) Hdr.none [.cm] regions []
      (fun s x => x.k.sacc.length < 2 ∧ readPortOk 16 = true ∧ readPortOk 19 = true ∧ (16#5) ≠ 19 ∧ x.k.portsSet [16, 19] = true ∧
        x.k.sourcesReady s.now [16, 19] = true ∧ hSpace (x.k.shape 0) = 0 ∧ hFmt (x.k.shape 0) = 0 ∧ hScl (x.k.shape 0) = false ∧
        hSpace (x.k.shape 1) ≠ 0 ∧ hSpace (x.k.shape 2) = 0 ∧ hFmt (x.k.shape 2) ≠ 0) ∧
    Meets (word .ld .timed [(1, 64)]) Hdr.none [.ld, .st, .ct] regions [1] (fun _ x => (x.reg 1).toNat % 128 ≠ 0) ∧
    Meets (word .st .timed [(1, 98304)]) Hdr.none [.ld, .st, .ct] regions [1] (fun _ x => (x.reg 1).toNat % 128 = 0 ∧ 98304 < (x.reg 1).toNat + 128) ∧
    Meets (onCore .ct (withA (coreAt .ct .timed [(1, 98176)]) 98176 (copyRecord 2 512))) Hdr.none [.ld, .st, .ct] regions [1]
      (fun s x => (x.reg 1).toNat % 128 = 0 ∧ (x.reg 1).toNat + 128 ≤ 98304 ∧ x.k.bankConflict s.now true (banksOf 98176 128) s.now x.q = none ∧
        x.k.readBuf true 98176 128 = copyRecord 2 512 ∧ copyOk s x.c (copyRecord 2 512) true = true ∧ x.k.copies.length < 64) ∧
    Meets (onCore .ct (withA (coreAt .ct .timed [(1, 0)]) 0 (copyRecord 0 0x2000))) Hdr.none [.ld, .st, .ct] regions [1]
      (fun s x => x.k.readBuf true 0 128 = copyRecord 0 0x2000 ∧ copyOk s x.c (copyRecord 0 0x2000) false = true) :=
  ⟨meets_of (by decide +kernel), meets_of (by decide +kernel), meets_of (by decide), meets_of (by decide), meets_of (by decide +kernel),
    meets_of (by decide), meets_of (by decide), meets_of (by decide +kernel), meets_of (by decide +kernel)⟩

theorem witness_ArrivalWords :
    Meets (word .ld .timed [(1, 98288), (2, 0xFFFFFFFF)]) Hdr.none [.ld, .st, .ct] regions [1, 2]
      (fun _ x => (x.reg 1).toNat % 16 = 0 ∧ (x.reg 1).toNat + 16 ≤ 98304 ∧ (x.reg 2).toNat < 2 ^ 32) ∧
    Meets (word .ct .tokened [(1, 16), (2, 0x8001)]) Hdr.none [.ld, .st, .ct] regions [1, 2]
      (fun _ x => (x.reg 2).toNat < 2 ^ 16 ∧ (leNat (x.k.startA 16 16)).testBit 80 = false ∧
        (leNat (x.k.startA 16 16) / 2 ^ 64 % 2 ^ 16 + 2 ^ 16 - (x.reg 2).toNat) % 2 ^ 16 < 2 ^ 15) ∧
    Meets (onCore .ct (withA (coreAt .ct .tokened [(1, 16)]) 26 [1])) Hdr.none [.ld, .st, .ct] [.tokened] [1, 2]
      (fun _ x => (leNat (x.k.startA 16 16)).testBit 80 = true) ∧
    Meets (word .ct .tokened [(1, 16), (2, 0x8000)]) Hdr.none [.ld, .st, .ct] [.tokened] [1, 2]
      (fun _ x => (leNat (x.k.startA 16 16)).testBit 80 = false ∧
        ¬ (leNat (x.k.startA 16 16) / 2 ^ 64 % 2 ^ 16 + 2 ^ 16 - (x.reg 2).toNat) % 2 ^ 16 < 2 ^ 15) ∧
    Meets (word .st .timed [(1, 8)]) Hdr.none [.ld, .st, .ct] [.timed] [1, 2] (fun _ x => (x.reg 1).toNat % 16 ≠ 0) ∧
    Meets (word .st .timed [(1, 98304)]) Hdr.none [.ld, .st, .ct] regions [1, 2] (fun _ x => (x.reg 1).toNat % 16 = 0 ∧ 98304 < (x.reg 1).toNat + 16) ∧
    Meets (word .st .timed [(1, 0), (2, 0x100000000)]) Hdr.none [.ld, .st, .ct] regions [1, 2] (fun _ x => 2 ^ 32 ≤ (x.reg 2).toNat) ∧
    (let w := 64 + 60 * 2 ^ 32 + 0xFFFF * 2 ^ 64
     w < 2 ^ 128 ∧ w % 2 ^ 32 ≠ 0 ∧ min (w / 2 ^ 32 % 2 ^ 32 + 3) (2 ^ 32 - 1) < w % 2 ^ 32 ∧ min (w / 2 ^ 32 % 2 ^ 32 + 4) (2 ^ 32 - 1) = w % 2 ^ 32 ∧
       w % 2 ^ 32 < min (w / 2 ^ 32 % 2 ^ 32 + 5) (2 ^ 32 - 1) ∧ (0 : Nat) % 2 ^ 32 = 0 ∧ 2 ^ 32 - 1 < 2 ^ 32) :=
  ⟨meets_of (by decide), meets_of (by decide), meets_of (by decide), meets_of (by decide), meets_of (by decide), meets_of (by decide),
    meets_of (by decide), by decide⟩

/-! ### Witnesses: channels, queues, system words -/

/-- A channel end of core 0's task, its channel with four slots. -/
def endAt (ch : Nat) (receive : Bool) (slots : List Slot) : ChanEnd :=
  { task := 0, rank := 0, ch := ch, receive := receive, nslot := 2, peerRank := 0, peerCh := ch, slots := slots, gerr := false, offered := [], free := 0 }

/-- A slot without and with a permit, and one that is reserved. -/
def slotOf (granted reserved : Bool) : Slot := { granted := granted, reserved := reserved, nseq := 0, off := 0, len := 16, darv := 0 }

/-- CT in a timed region, channel 7 receiving, channel 6 sending with a permit in slot 0 and slot 1 reserved, channel 5 sending without a permit. -/
def channels (ch sb : W64) : State :=
  { word .ct .timed [(1, ch), (2, sb)] with
    chanEnds := [endAt 7 true [], endAt 6 false [slotOf true false, slotOf false true, slotOf false false], endAt 5 false [slotOf false false]] }

theorem witness_ExchangeWords :
    Meets (channels 8 0) Hdr.none [.ct] regions [1, 2] (fun _ x => 7 < (x.reg 1).toNat) ∧
    Meets (channels 0 0) Hdr.none [.ct] regions [1, 2] (fun s x => (x.reg 1).toNat ≤ 7 ∧ s.chanEnd x.c (x.reg 1).toNat = none) ∧
    Meets (channels 7 98288) Hdr.none [.ct] regions [1, 2]
      (fun s x => (x.reg 1).toNat ≤ 7 ∧ s.chanEnd x.c 7 = some (endAt 7 true []) ∧ (2#2).toNat ≤ (endAt 7 true []).nslot ∧ (endAt 7 true []).nslot < (3#2).toNat ∧
        (x.reg 2).toNat % 16 = 0 ∧ (x.reg 2).toNat + 16 ≤ 98304) ∧
    Meets (channels 7 8) Hdr.none [.ct] regions [1, 2] (fun _ x => (x.reg 2).toNat % 16 ≠ 0) ∧
    Meets (channels 7 98304) Hdr.none [.ct] regions [1, 2] (fun _ x => (x.reg 2).toNat % 16 = 0 ∧ 98304 < (x.reg 2).toNat + 16) ∧
    Meets (channels 6 98288) Hdr.none [.ct] regions [1, 2] (fun s x => ∃ e, s.chanEnd x.c (x.reg 1).toNat = some e ∧ e.receive = false ∧
      (e.slot 0).granted = true ∧ (e.slot 0).reserved = false ∧ (e.slot 1).reserved = true ∧
      (e.slot 2).granted = false ∧ (e.slot 2).reserved = false ∧ e.permits ≠ 0 ∧ (x.reg 2).toNat + 16 ≤ 98304) ∧
    Meets (channels 5 0) Hdr.none [.ct] regions [1, 2] (fun s x => ∃ e, s.chanEnd x.c (x.reg 1).toNat = some e ∧ e.receive = false ∧
      (e.slot 0).granted = false ∧ (e.slot 0).reserved = false ∧ e.permits = 0) :=
  ⟨meets_of (by decide), meets_of (by decide), meets_of (by decide), meets_of (by decide), meets_of (by decide),
    ⟨_, atWord_of (by decide), _, rfl, by decide⟩, ⟨_, atWord_of (by decide), _, rfl, by decide⟩⟩

/-- CT in a tokened region, its task MIRR, queue 255 its casement's with TCTL. -/
def submits (u v : W64) (k : Core) (q : Queue) : State :=
  { part [(0, (k.setSeq .ct (((k.seq .ct).setReg 1 u).setReg 2 v)))] (some (0, .ct)) with
    tasks := [{ placedTask 0 with record := [1, 8] ++ List.replicate 126 0 }], queues := [(255, q)] }

/-- CT in a tokened region. -/
def ctCore : Core := coreAt .ct .tokened []

/-- A queue of casement 0 with TCTL. -/
def ctlQueue (qwr : W32) : Queue := { Queue.reset with tctl := true, qwr := qwr }

theorem witness_SubmissionWords :
    Meets (word .st .timed [(1, 65535), (2, 98240)]) Hdr.none [.st, .ct] regions [1, 2]
      (fun _ x => (x.reg 1).toNat ≤ 65535 ∧ (x.reg 2).toNat % 64 = 0 ∧ (x.reg 2).toNat + 64 ≤ 98304) ∧
    Meets (word .st .timed [(1, 65536), (2, 0)]) Hdr.none [.st, .ct] regions [1, 2] (fun _ x => 65535 < (x.reg 1).toNat) ∧
    Meets (word .st .timed [(1, 0), (2, 32)]) Hdr.none [.st, .ct] regions [1, 2] (fun _ x => (x.reg 2).toNat % 64 ≠ 0) ∧
    Meets (word .st .timed [(1, 0), (2, 98304)]) Hdr.none [.st, .ct] regions [1, 2]
      (fun _ x => (x.reg 2).toNat % 64 = 0 ∧ 98304 < (x.reg 2).toNat + 64) ∧
    Meets (submits 1 0xFFFFFFFF { ctCore with mirrLast := some 0xFFFFFFFE } Queue.reset) Hdr.none [.st, .ct] regions [1, 2]
      (fun s x => (x.reg 1).toNat ≤ 1 ∧ (x.reg 2).toNat < 2 ^ 32 ∧ (s.taskOf x.c).map Task.mirr = some true ∧ x.k.mirrored = false ∧
        x.k.mirrLast.all (fun n => decide (n < (x.reg 2).toNat)) = true) ∧
    Meets (submits 1 1 { ctCore with mirrored := true } Queue.reset) Hdr.none [.st, .ct] regions [1, 2]
      (fun s x => (s.taskOf x.c).map Task.mirr = some true ∧ x.k.mirrored = true) ∧
    Meets (word .ct .tokened [(1, 1), (2, 1)]) Hdr.none [.st, .ct] regions [1, 2] (fun s x => (s.taskOf x.c).map Task.mirr = some false) ∧
    Meets (word .ct .tokened [(1, 2), (2, 0x100000000)]) Hdr.none [.st, .ct] regions [1, 2] (fun _ x => 1 < (x.reg 1).toNat ∧ 2 ^ 32 ≤ (x.reg 2).toNat) ∧
    Meets (word .ct .tokened [(1, 256)]) Hdr.none [.ct] regions [1, 2] (fun _ x => 255 < (x.reg 1).toNat) ∧
    Meets (word .ct .tokened [(1, 255)]) Hdr.none [.ct] regions [1, 2]
      (fun s x => (x.reg 1).toNat ≤ 255 ∧ ¬ ((s.queue 255).owner = s.casementOf x.c ∧ (s.queue 255).tctl = true)) ∧
    Meets (submits 255 98176 ctCore (ctlQueue 15)) Hdr.none [.ct] regions [1, 2]
      (fun s x => (s.queue 255).owner = s.casementOf x.c ∧ (s.queue 255).tctl = true ∧ (x.reg 2).toNat % 128 = 0 ∧ (x.reg 2).toNat + 128 ≤ 98304 ∧
        (s.queue 255).room ≠ 0) ∧
    Meets (submits 255 0 ctCore (ctlQueue 16)) Hdr.none [.ct] regions [1, 2] (fun s x => (s.queue 255).room = 0 ∧ (x.reg 2).toNat % 128 = 0) ∧
    Meets (submits 255 0x1234567800000002 ctCore (ctlQueue 0)) Hdr.none [.ct] regions [1, 2]
      (fun _ x => (x.reg 2).toNat % 128 ≠ 0 ∧ (x.reg 2).toNat % 16 ≤ 2 ∧ (x.reg 2).toNat / 16 % 2 ^ 28 = 0) ∧
    Meets (submits 255 98304 ctCore (ctlQueue 0)) Hdr.none [.ct] regions [1, 2]
      (fun _ x => (x.reg 2).toNat % 128 = 0 ∧ 98304 < (x.reg 2).toNat + 128 ∧ (x.reg 2).toNat / 16 % 2 ^ 28 ≠ 0) ∧
    Meets (submits 255 3 ctCore (ctlQueue 0)) Hdr.none [.ct] regions [1, 2] (fun _ x => 2 < (x.reg 2).toNat % 16) :=
  ⟨meets_of (by decide), meets_of (by decide), meets_of (by decide), meets_of (by decide), meets_of (by decide), meets_of (by decide),
    meets_of (by decide), meets_of (by decide), meets_of (by decide), meets_of (by decide), meets_of (by decide), meets_of (by decide),
    meets_of (by decide), meets_of (by decide), meets_of (by decide)⟩

theorem witness_FenceAndMinorWords :
    Meets (word .ct .handler []) Hdr.none allSeqs everywhere [] (fun _ _ => True) ∧
    Meets (word .cm .gap []) Hdr.none [.cm] everywhere [] (fun _ _ => (8#5).toNat ≤ 8 ∧ 8 < (9#5).toNat) ∧
    Meets (word .st .tokened []) Hdr.none [.ld, .st, .ct] everywhere [] (fun _ _ => True) ∧
    Meets (word .ld .timed []) Hdr.none allSeqs [.timed] [] (fun _ _ => (4#3).toNat ≤ 4) ∧
    Meets (word .ld .gap []) Hdr.none allSeqs [.gap, .tokened, .handler] [] (fun _ _ => (0#3).toNat ≤ 4) ∧
    Meets (word .ld .tokened []) Hdr.none allSeqs everywhere [] (fun _ _ => 4 < (5#3).toNat) ∧
    Meets (word .cm .tokened []) Hdr.none [.cm] regions [] (fun _ _ => True) ∧
    Meets (word .cm .gap []) Hdr.none [.cm] [.gap] [] (fun _ _ => True) :=
  ⟨meets_of (by decide), meets_of (by decide), meets_of (by decide), meets_of (by decide), meets_of (by decide), meets_of (by decide), meets_of (by decide), meets_of (by decide)⟩

theorem witness_CsrWords :
    Meets (word .st .gap []) Hdr.none allSeqs everywhere [1] (fun _ _ => csrAssigned 0x09 = false) ∧
    Meets (word .cm .gap []) Hdr.none [.cm] everywhere [1] (fun _ _ => True) ∧
    Meets (word .ct .handler []) Hdr.none [.ct] everywhere [1] (fun _ _ => True) ∧
    Meets (word .ld .timed []) Hdr.none [.ld, .st, .ct] everywhere [1] (fun _ _ => 0x10 ≤ (0x17#9).toNat ∧ (0x17#9).toNat ≤ 0x17) ∧
    Meets (word .cm .tokened []) Hdr.none [.ld, .cm, .st] everywhere [1]
      (fun _ _ => (0x40#9).toNat ∈ [0x20, 0x21, 0x22, 0x23, 0x24, 0x25, 0x26, 0x27, 0x31, 0x32, 0x40]) ∧
    Meets (word .cm .gap [(1, 0x18)]) Hdr.none [.cm] everywhere [1]
      (fun _ x => (x.reg 1).toNat / 16 % 32 ≠ 0 ∧ (x.reg 1).toNat % 16 + (x.reg 1).toNat / 16 % 32 ≤ 16 ∧ (x.reg 1).toNat % 16 ≤ 8 ∧ ¬ (x.reg 1).toNat % 32 ≤ 16) ∧
    Meets (word .cm .gap [(1, 0x10F)]) Hdr.none [.cm] everywhere [1]
      (fun _ x => ¬ (x.reg 1).toNat % 16 + (x.reg 1).toNat / 16 % 32 ≤ 16 ∧ ¬ (x.reg 1).toNat % 16 ≤ 8 ∧ (x.reg 1).toNat % 32 ≠ 0 ∧ (x.reg 1).toNat % 32 ≤ 16) ∧
    Meets (word .ct .gap [(1, 0xFFFFFFFFFFFC)]) Hdr.none [.ct] everywhere [1] (fun _ x => (x.reg 1).toNat % 4 = 0 ∧ (x.reg 1).toNat < 2 ^ 48) ∧
    Meets (word .ct .gap [(1, 0x31)]) Hdr.none [.ct] everywhere [1]
      (fun _ x => (x.reg 1).toNat % 4 ≠ 0 ∧ (x.reg 1).toNat / 8 % 2 = 0 ∧ (x.reg 1).toNat / 128 % 2 = 0 ∧
        (x.reg 1).toNat % 16 < 2 ∧ (x.reg 1).toNat / 16 % 8 < 4 ∧ (x.reg 1).toNat / 128 % 32 = 0 ∧ (x.reg 1).toNat < 2 ^ 48 ∧ x.k.place x.q ≠ .timed ∧
        (0x18#9).toNat ∈ [0x22, 0x23, 0x24, 0x25, 0x26, 0x27, 0x30, 0x32, 0, 1, 2, 3, 4, 5, 6, 7, 8, 0x18]) ∧
    Meets (word .ct .gap [(1, 0x1000000000000)]) Hdr.none [.ct] everywhere [1] (fun _ x => (x.reg 1).toNat % 4 = 0 ∧ 2 ^ 48 ≤ (x.reg 1).toNat) ∧
    Meets (word .ct .timed [(1, 0x10)]) Hdr.none [.ct] everywhere [1]
      (fun _ x => (x.reg 1).toNat % 16 < 2 ∧ (x.reg 1).toNat / 16 % 8 < 4 ∧ (x.reg 1).toNat / 128 % 32 = 0 ∧ (x.reg 1).toNat < 2 ^ 48 ∧
        (x.reg 1).toNat / 16 % 8 ≠ 0 ∧ x.k.place x.q = .timed) ∧
    Meets (word .ct .timed [(1, 0x88)]) Hdr.none [.ct] everywhere [1]
      (fun _ x => ¬ ((x.reg 1).toNat / 8 % 2 = 0 ∧ (x.reg 1).toNat / 128 % 2 = 0) ∧ 2 ≤ (x.reg 1).toNat % 16) :=
  ⟨meets_of (by decide), meets_of (by decide), meets_of (by decide), meets_of (by decide), meets_of (by decide), meets_of (by decide),
    meets_of (by decide), meets_of (by decide), meets_of (by decide), meets_of (by decide), meets_of (by decide), meets_of (by decide)⟩

theorem witness_CsrLandings : ∀ n ∈ [0x10, 0x11, 0x12, 0x13, 0x14, 0x15, 0x16, 0x17, 0x20, 0x21, 0x31], n ≠ 0x40 ∧ DueOn Core.idle (.csr n 0xFFFFFFFFFFFFFFFF) := by
  unfold DueOn; decide

theorem witness_RegionAndTailWords :
    Meets (word .ld .gap []) { y := 0, i := 0 } allSeqs [.gap] [1, 2, 3] (fun s x => (5#5).toNat ≤ 5 ∧
      s.releaseMet x.c x.q s.now (stepScope 5) (x.acquired { y := 0, i := 0 }) = true) ∧
    Meets (word .ct .tokened []) Hdr.none allSeqs regions [1, 2] (fun _ _ => True) ∧
    Meets (word .ld .timed []) Hdr.none allSeqs everywhere [] (fun _ _ => 5 < (6#5).toNat) ∧
    Meets (word .ct .timed []) Hdr.none [.ct] regions [1] (fun _ _ => True) ∧
    Meets (word .ct .handler []) Hdr.none [.ct] [.timed, .tokened, .handler] [] (fun _ _ => True) ∧
    Meets (word .ct .gap []) Hdr.none [.ct] [.gap, .handler] [] (fun _ _ => True) ∧
    Meets (onCore .ct { coreAt .ct .gap [] with tracker := List.replicate 16 { task := 9, closed := false } }) Hdr.none allSeqs [.gap] []
      (fun _ x => x.k.task = some 0 ∧ x.k.seqs.length = 4 ∧ (¬ ∃ e ∈ x.k.tracker, e.task = 0) ∧ 16 ≤ x.k.tracker.length) ∧
    Meets (onCore .ct { coreAt .ct .gap [] with tracker := List.replicate 15 { task := 9, closed := false } }) Hdr.none allSeqs [.gap] []
      (fun _ x => x.k.tracker.length < 16 ∧ (x.k.seq .ld).st = .off ∧ (x.k.seq .cm).st = .off ∧ (x.k.seq .st).st = .off) ∧
    Meets (onCore .ct ((coreAt .ct .gap []).setSeq .ld { Seq.idle with st := .run })) Hdr.none allSeqs [.gap] []
      (fun _ x => SeqId.ld ≠ x.q ∧ (x.k.seq .ld).st ≠ .off) :=
  ⟨meets_of (by decide), meets_of (by decide), meets_of (by decide), meets_of (by decide), meets_of (by decide), meets_of (by decide),
    meets_of (by decide), meets_of (by decide), meets_of (by decide)⟩

/-! ### Witnesses: tokens, results, exceptions, encodings, steps -/

/-- A word that waits for the next ring counter, in a place. -/
def awaits (p : Place) (count : Nat) : State := onCore .ct { coreAt .ct p [] with tokens := List.replicate 8 count }

theorem witness_TokenRing :
    (∃ x, (awaits .tokened 0).ctx = some x ∧ x.k.tokens.length = 8 ∧ x.k.place x.q ≠ .timed ∧ ¬ 0 < x.k.token 2) ∧
    (∃ x, (awaits .timed 0).ctx = some x ∧ x.k.place x.q = .timed ∧ ¬ 0 < x.k.token 7) ∧
    (∃ x, (awaits .timed 15).ctx = some x ∧ x.k.tokens.length = 8 ∧ 0 < x.k.token 2 ∧ 0 < x.k.token 7) ∧
    (let s := onCore .ct { awaits .gap 15 |>.core 0 with acts := [dueAct (.signal .ct true true)] }
     ∃ x, s.ctx = some x ∧ x.k.acts.find? (fun b => b.id == 7) = some (dueAct (.signal .ct true true)) ∧ (dueAct (.signal .ct true true)).due ≤ s.now) :=
  ⟨⟨_, rfl, by decide⟩, ⟨_, rfl, by decide⟩, ⟨_, rfl, by decide⟩, ⟨_, rfl, by decide⟩⟩

theorem witness_ResultsLand :
    (DueOn Core.idle (.reg .ct 31 5 true) ∧ (Core.idle.seq .ct).regs.length = 32) ∧
    (DueOn Core.idle (.loadBank .ld 1 true 98303 1 true false true false) ∧ Core.idle.bankConflict 0 true (banksOf 98303 1) 0 .cm = none) ∧
    (DueOn Core.idle (.loadBank .ld 1 false 196600 8 false false false false) ∧ Core.idle.bankConflict 0 false (banksOf 196600 8) 0 .cm = none) ∧
    (DueOn Core.idle (.storeBank .st true 98296 (leBytes 8 1) false false) ∧ Core.idle.bankConflict 0 true (banksOf 98296 8) 0 .cm = none) ∧
    (DueOn Core.idle (.storeBank .st false 0 [1] false false) ∧ Core.idle.bankConflict 0 false (banksOf 0 1) 0 .cm = none) := by
  unfold DueOn; decide

/-- A fault of a code on CT. -/
def faultOf (code : Nat) (q : SeqId) (issued : Nat) : FaultRec := { code := code, by_ := q, issued := issued, pc := 0x1000, taddr := 8, xkind := 1, xcode := 0 }

theorem witness_Traps :
    Meets (word .ct .handler [(1, 9)]) Hdr.none [.ct] everywhere [1] (fun _ _ => True) ∧
    Meets (word .cm .timed []) Hdr.none allSeqs everywhere [] (fun _ _ => True) ∧
    Meets (word .ld .gap []) Hdr.none [.ld, .cm, .st] everywhere [] (fun _ _ => True) ∧
    (∃ t, (word .ct .timed []).taskOf 0 = some t ∧ ((word .ct .timed []).core 0).phase ≠ .trapped ∧ (faultOf 0x0C .ct 0).code ≠ 0x15 ∧
      (faultOf 0x15 .ct 0).xkind = 1) ∧
    (∃ t, (word .ct .gap []).taskOf 0 = some t ∧ ((word .ct .gap []).core 0).phase ≠ .trapped ∧ ((word .ct .gap []).core 0).phase ≠ .run) :=
  ⟨meets_of (by decide), meets_of (by decide), meets_of (by decide), ⟨_, rfl, by decide⟩, ⟨_, rfl, by decide⟩⟩

/-- A core in a region whose handler is at 0x2000, its page kept and pinned, its stack in its A-space. -/
def handlerCore : Core :=
  { coreAt .ct .timed [] with
    tvec := 0x2000, tsp := 0xFF0000058000
    tlb := [{ casement := 0, va := 0x2000, size := 4096, pa := 0x5000, key := 0, w := false, x := true, pin := true, dirty := false
              stage2 := false, ipa := 0x2000, pin2 := true }] }

/-- A core in its handler, its cause read or not. -/
def inHandler (unread : Bool) : State := onCore .ct { coreAt .ct .handler [] with causeUnread := unread }

theorem witness_Handlers :
    (let s := onCore .ct handlerCore
     let h := (s.modCore 0 fun k =>
       { k with phase := .trapped, causeUnread := true, seqs := k.seqs.map fun x => { x with st := .trapHeld } }).modCore 0 fun k => { k with entryHot := false }
     locate 0 ((s.core 0).tsp - 8).toNat 8 = .own true 98296 ∧ untranslated (s.core 0).tvec.toNat = false ∧
       h.translate 0 (s.core 0).tvec.toNat .fetch = .ok (h, 0x5000, 0) ∧ touched (h.touch (h.casementOf 0) 0x5000 0 4 false) (fun _ => true) = true ∧
       (s.core 0).seqs.length = 4) ∧
    ((inHandler true).taskOf 0 = some (placedTask 0) ∧ (inHandler true).task? 0 = some (placedTask 0) ∧ ((inHandler true).core 0).phase = .trapped ∧
      ((inHandler true).core 0).causeUnread = true ∧ (placedTask 0).st ≠ .ending) ∧
    ((inHandler false).taskOf 0 = some (placedTask 0) ∧ (inHandler false).task? 0 = some (placedTask 0) ∧ ((inHandler false).core 0).phase = .trapped ∧
      ((inHandler false).core 0).causeUnread = false) :=
  ⟨⟨by decide, by decide, rfl, by decide +kernel, by decide⟩, by decide, by decide⟩

theorem witness_FaultChoiceAndPolicy :
    [faultOf 0x0C .ld 3, faultOf 0x03 .ct 3, faultOf 0x0A .ct 4, faultOf 0x0A .ct 2] ≠ [] ∧
    (let s := part [] none; let t := { placedTask 0 with retries := 1 }
     ({ s with tasks := [t] }).task? t.id = some t ∧ t.st ≠ .ending ∧ (false = false ∧ t.fpol ≠ 2 ∧ 0 < t.retries)) ∧
    ((part [] none).task? 0 = some (placedTask 0) ∧ (placedTask 0).st ≠ .ending ∧ ¬ 0 < (placedTask 0).retries) := by
  decide

theorem witness_ErrorReturn :
    Meets (word .ct .handler [(1, 0xFFFFFFFFFFFC)]) Hdr.none [.ct] [.handler] [1] (fun _ x => (x.reg 1).toNat % 4 = 0) ∧
    Meets (word .ct .handler [(1, 2)]) Hdr.none [.ct] [.handler] [1] (fun _ x => (x.reg 1).toNat % 4 ≠ 0) ∧
    Meets (word .ct .timed []) Hdr.none [.ct] [.gap, .timed, .tokened] [] (fun _ _ => True) ∧
    Meets (word .cm .gap []) Hdr.none [.ld, .cm, .st] everywhere [] (fun _ _ => True) :=
  ⟨meets_of (by decide), meets_of (by decide), meets_of (by decide), meets_of (by decide)⟩

theorem witness_EncodingsRoundTrip :
    ∀ i ∈ [Instr.lith { y := 15, i := 7 } 31 0xFFFFFFFF, .csrw { y := 0, i := 0 } 31 0x40, .step { y := 0, i := 0 } 5, .mma { y := 1, i := 2 } 15 14 13 true true false],
      i.wf = true ∧ encodeFields i ≠ none := by
  decide

/-- A word fetched at an address. -/
def fetchedAt (a : Nat) (w : W32) : Fetched := { addr := a, word := w, fault := 0, xcode := 0 }

/-- CT in a timed region with words fetched at its program counter and behind it. -/
def fetchedCore (w v : W32) : Core :=
  let k := coreAt .ct .timed []
  k.setSeq .ct { (k.seq .ct) with fetched := [fetchedAt 0x1000 w, fetchedAt 0x1004 v] }

theorem witness_StepRunsTheDecodedWord :
    (∃ x, (onCore .ct (fetchedCore 0x0028C851 0)).ctx = some x ∧ x.x.ready? = some (fetchedAt 0x1000 0x0028C851) ∧
      (x.k.place x.q = .timed ∧ (onCore .ct (fetchedCore 0x0028C851 0)).now ≤ x.x.dueAt (fetchedAt 0x1000 0x0028C851)) ∧
      isPair 0x0028C851 = false ∧ decodeWords 0x0028C851 0x0028C851 = .ok (.sub Hdr.none 3 4 5)) ∧
    (∃ x, (onCore .ct (fetchedCore 0x00800001 5)).ctx = some x ∧ x.x.ready? = some (fetchedAt 0x1000 0x00800001) ∧ isPair 0x00800001 = true ∧
      x.x.wordAt ((x.x.pc + 4) % 2 ^ 64) = some (fetchedAt 0x1004 5) ∧ decodeWords 0x00800001 5 = .ok (.lith Hdr.none 0 0x10000005)) ∧
    (∃ x, (onCore .ct (fetchedCore 0x01D80000 0)).ctx = some x ∧ x.x.ready? = some (fetchedAt 0x1000 0x01D80000) ∧
      match decodeWords 0x01D80000 0x01D80000 with | .ok _ => False | .error _ => True) :=
  ⟨⟨_, rfl, by decide, by decide, by decide, rfl⟩, ⟨_, rfl, by decide, by decide, by decide, rfl⟩, ⟨_, rfl, by decide, trivial⟩⟩

theorem witness_StepsMakeMovesThenTick :
    (let s := { State.reset with now := 1 }
     s.cur = none ∧ s.takeInput = none ∧ s.boot.hingeLost = false ∧
       (match s.moves with | p :: _ => (Move.run p.move s).isSome | [] => false) = true) ∧
    (State.reset.cur = none ∧ State.reset.takeInput = none ∧ State.reset.boot.hingeLost = false ∧
      (State.reset.moves.all fun p => (Move.run p.move State.reset).isNone) = true) :=
  ⟨⟨rfl, rfl, rfl, by decide⟩, rfl, rfl, rfl, by decide +kernel⟩

theorem witness_BytesReadBack : Cells.wf [] = true := by decide

theorem witness_MemoryStaysCanonical : State.reset.MemOk ∧ (match step State.reset with | .next t => decide t.MemOk | _ => false) = true := by
  decide +kernel


/-! ### Witnesses: regions, saves, queues -/

theorem every_seq {P : SeqId → Prop} (h : ∀ q ∈ allSeqs, P q) (q : SeqId) : P q := h q (by cases q <;> decide)

/-- Core 0 in a phase, its four sequencers in a state. -/
def together (p : Phase) (st : SeqState) (timed : Bool) : Core :=
  { Core.idle with
    task := some 0, phase := p, timed := timed, powered := true
    seqs := List.replicate 4 { Seq.idle with st := st, pc := 0x1004, rgnTimed := timed } }

/-- A core with a budget, the words after its RGNs fetched. -/
def windowed (k : Core) (budget : Nat) : Core :=
  { k with budget := budget, seqs := k.seqs.map fun x => { x with fetched := x.window.map fun a => { addr := a, word := 0, fault := 0, xcode := 0 } } }

theorem witness_RegionsOpen :
    (let k := together .align .atRgn false
     let s := part [(0, k)] none
     s.core 0 = k ∧ k.phase = .align ∧ k.seqs.length = 4 ∧ (∀ q, (k.seq q).st = .atRgn) ∧ k.powered = true ∧ k.alignFrom ≤ s.now ∧ k.held = [] ∧ k.epi = [] ∧
       k.faults = [] ∧ (k.seq .ct).rgnTimed = false ∧ (∀ q, (k.seq q).rgnTimed = (k.seq .ct).rgnTimed) ∧ k.liveIn >>> 16 = 0 ∧ k.stamp = 0) ∧
    (∃ q, ((together .align .atRgn false).setSeq .ld { (together .align .atRgn false).seq .ld with rgnTimed := true } |>.seq q).rgnTimed ≠ false) ∧
    ({ together .align .atRgn false with liveIn := 0x10000 } : Core).liveIn >>> 16 ≠ 0 ∧
    (let s := { part [(0, { together .align .atRgn false with stamp := 4 })] none with now := 5 }
     (s.core 0).stamp ≠ 0 ∧ (s.core 0).stamp.ult (s.zview (s.casementOf 0) (dieOf 0)) = true ∧ ((s.core 0).seq .ct).reentered = false) ∧
    (let k : Core := { together .align .atRgn false with stamp := 4, liveIn := 0x10000 }
     let s := { part [(0, k)] none with now := 4 }
     k.liveIn >>> 16 ≠ 0 ∧ k.stamp.ult (s.zview (s.casementOf 0) (dieOf 0)) = false) ∧
    (let s := { part [(0, { together .align .atRgn false with stamp := 5 })] none with now := 5 }
     (s.core 0).stamp = s.zview (s.casementOf 0) (dieOf 0)) ∧
    (let s := part [(0, { together .align .atRgn false with stamp := 9, pushes := [{ id := 2, port := 7, due := 5, issued := 0, task := 0, old := [], offs := [64] }] })] none
     (s.zview (s.casementOf 0) (dieOf 0)).ult (s.core 0).stamp = true ∧ (s.core 0).pushes ≠ []) ∧
    (∀ b ∈ [0, 5], let k := windowed (together .align .atRgn true) b
     k.windowFetched = true ∧ (k.seq .ct).rgnTimed = true ∧ k.budget = b) :=
  ⟨⟨rfl, by decide, by decide, every_seq (by decide), by decide, by decide, by decide, by decide, by decide, by decide, every_seq (by decide), by decide, by decide⟩,
    ⟨.ld, by decide⟩, by decide, by decide, by decide, by decide, by decide, by decide +kernel⟩

/-- A TINV of table 3 that has not started. -/
def tinvCmd : LookupCmd :=
  { id := 1, pc := 0, issued := 0, kind := .tinv 3, flushing := false, start := none, delay := 0, tile := 0, step := 0, plane := 0, sampled := []
    got := [], st := 0, head := [], snap := none, xl := [], asked := 0, done := none, units := 0 }

theorem witness_RegionsClose :
    (let k : Core := { together .run .atRcmt true with held := [{ id := 1, by_ := .ct, pc := 0, task := 0, rank := 0, kind := .send 0 0 0 16, fence := none, released := none, pushed := false, fixed := false, due := 0, after := [] }] }
     let s := part [(0, k)] none
     s.core 0 = k ∧ k.phase = .run ∧ k.seqs.length = 4 ∧ (∀ q, (k.seq q).st = .atRcmt) ∧ k.faults = [] ∧ k.timed = true ∧ k.unfinished = false ∧
       k.checkRcmt = .ok [] ∧ k.realign = none ∧ k.mirrored = false ∧ k.preempt = none) ∧
    (let k : Core := { together .run .atRcmt true with lookup := [tinvCmd] }
     k.timed = true ∧ k.unfinished = true ∧ ∀ q, (k.seq q).st = .atRcmt) ∧
    (let k : Core := { together .run .atRcmt false with rcmtB := 4 }
     k.unfinished = false ∧ (part [(0, k)] none).landingsOut 0 = false ∧ k.rcmtB.toNat % 8 ≠ 0) ∧
    (let k : Core := { together .run .atRcmt false with rcmtA := 0x20000 }
     k.unfinished = false ∧ k.rcmtB = 0 ∧ k.rcmtA >>> 17 ≠ 0) ∧
    (let k : Core := { together .run .atRcmt false with rcmtA := 0x1FFFF, preempt := some { at_ := 0, bound := 0, mask := none } }
     k.checkRcmt = .ok [] ∧ k.preempt = some { at_ := 0, bound := 0, mask := none } ∧ (0 : Nat) ≤ (part [(0, k)] none).now) ∧
    (let k : Core := { together .run .atRcmt false with preempt := some { at_ := 1, bound := 0, mask := none } }
     k.checkRcmt = .ok [] ∧ ∀ p, k.preempt = some p → (part [(0, k)] none).now < p.at_) :=
  ⟨⟨rfl, by decide, by decide, every_seq (by decide), by decide, by decide, by decide, by decide, by decide, by decide, by decide⟩,
    ⟨by decide, by decide, every_seq (by decide)⟩, by decide, by decide, by decide, by decide, by intro p h; injection h with h; subst h; decide⟩

theorem witness_RegionTimers :
    (let s := { part [(0, { together .run .run false with budget := 9, cycle0 := 1 })] none with now := 10 }
     let k := s.core 0
     k.phase = .run ∧ k.budget ≠ 0 ∧ k.cycle0 + k.budget ≤ s.now ∧ ∀ f ∈ k.faults, f.code ≠ 0x0A) ∧
    (let t := { placedTask 0 with budget := 0 }
     let s := { part [(0, together .gap .run false)] none with tasks := [t] }
     s.task? t.id = some t ∧ t.budget = 0 ∧ s.budgetCounts t = true ∧ t.st ≠ .ending ∧ s.checkPending t = false ∧
       ¬ ∃ d ∈ t.cores, (s.core d).task = some t.id ∧ (s.core d).phase = .trapped ∧ (s.core d).causeUnread = true) ∧
    (let t := { placedTask 0 with budget := 0 }
     let s := { part [(0, { together .trapped .trapHeld false with causeUnread := true })] none with tasks := [t] }
     s.task? t.id = some t ∧ s.budgetCounts t = true ∧ t.st ≠ .ending ∧ s.checkPending t = false ∧
       ∃ d ∈ t.cores, (s.core d).task = some t.id ∧ (s.core d).phase = .trapped ∧ (s.core d).causeUnread = true) ∧
    (let k := together .align .atRgn false
     k.task ≠ none ∧ k.phase ≠ .idle ∧ k.phase ≠ .saving) ∧
    (let s := (part [] none).modCasement 15 fun x => { x with coming := [(8, 3, -5)] }
     let s := { s with now := 3 }
     15 < s.casements.length ∧ (s.casement 15).offsets.length = 9 ∧ 8 < 9 ∧
       (s.casement 15).coming.find? (fun x => x.1 == 8 && decide (x.2.1 ≤ s.now)) = some (8, 3, -5)) := by
  decide

/-- Tables at both stages that map the first gibibyte of casement 0's space onto itself, pinned, readable, writable and executable. -/
def mapped (s : State) : State :=
  { (s.modCasement 0 fun x => { x with st := .active, s1root := 0x3001, s2root := 0x1001, s1bound := 0x3001, s2bound := 0x1001 }) with
    mem := ((((Cells.write [] 0x1000 (leBytes 8 0x2001)).write 0x2000 (leBytes 8 0x100000000000FB)).write 0x3000 (leBytes 8 0x4001)).write 0x4000 (leBytes 8 0xFB)) }

/-- The same, but with stage-1 tables down to a page of 4 KiB, whose table is read from HBM4E. -/
def paged (s : State) : State :=
  let s := mapped s
  { s with mem := ((s.mem.write 0x4000 (leBytes 8 0x5001)).write 0x5000 (leBytes 8 0x6001)).write 0x6000 (leBytes 8 0xFB) }

/-- Every stack in thermal hold. -/
def heldStacks (s : State) : State := { s with hbm := List.replicate 16 { Stack.reset with hold := true } }

/-- A task whose block lies at an address. -/
def savedAt (va : Nat) : Task := { placedTask 0 with record := (placedTask 0).record.take 72 ++ leBytes 8 va ++ List.replicate 48 0 }

/-- Core 0 whose save has ended, its block to go to an address. -/
def saving (va : Nat) : State := { mapped (part [(0, { together .saving .off false with saveKind := 1 })] none) with tasks := [savedAt va] }

theorem witness_SavesAndRetirement :
    (let s := { part [] none with now := 32, tasks := [] }
     s.nextDecision ≤ s.now ∧ s.boot.ready = true ∧ s.boot.hingeLost = false ∧ s.streams = [] ∧ (∀ e ∈ s.queues, e.2.cmds = []) ∧ 15 < s.casements.length) ∧
    (let s := part [(0, { together .gap .run false with preempt := some { at_ := 0, bound := 0, mask := none } })] none
     (s.core 0).preempt = some { at_ := 0, bound := 0, mask := none } ∧ (0 : Nat) ≤ s.now ∧ (s.core 0).task ≠ none ∧ (s.core 0).phase ∈ [.gap, .align, .trapped]) ∧
    (let k : Core := { together .run .run false with preempt := some { at_ := 0, bound := 4, mask := none }, budget := 5 }
     k.phase = .run ∧ 0 + 4 < k.cycle0 + k.budget) ∧
    (let s := saving 0x10000
     (s.core 0).task = some 0 ∧ (s.core 0).phase = .saving ∧ (s.core 0).saveDue ≤ s.now ∧ (s.core 0).epi = [] ∧
       (match s.trySave 0 with | .ok u => (u.task? 0).isSome | .error _ => false) = true) ∧
    (let s := saving 0xFFFFFFFF0000
     s.taskOf 0 = some (savedAt 0xFFFFFFFF0000) ∧ (savedAt 0xFFFFFFFF0000).park = none ∧ 0 ∈ (savedAt 0xFFFFFFFF0000).cores ∧
       (match s.trySave 0 with
        | .ok _ => false
        | .error (u, .fault _ _) => decide ((u.core 0).task = some 0 ∧ (u.core 0).phase = .saving ∧ 16 < u.rings.length)
        | .error _ => false) = true) ∧
    (let s := part [(0, { Core.idle with tracker := [{ task := 0, closed := true }] })] none
     (∃ e ∈ (s.core 0).tracker, e.task = 0 ∧ e.closed = true) ∧ s.noneOut 0 0 = true ∧ s.boot.hingeLost = false ∧ s.task? 0 = some (placedTask 0) ∧
       (s.casement (placedTask 0).casement).st ≠ .stopping ∧ (s.casement 16).st ≠ .stopping) :=
  ⟨by decide, by decide, by decide, by decide +kernel, by decide +kernel, by decide⟩

/-- Queue 255 of casement 0, its ring at an address. -/
def queueAt (st : QState) (base : W64) : Queue := { Queue.reset with qbase := base, st := st }

/-- The part with that queue. -/
def withQueue (q : Queue) : State := { mapped (part [] none) with queues := [(255, q)] }

theorem witness_QueueCommands :
    (let s := withQueue (queueAt .idle 0x3FFFF000)
     255 < 256 ∧ s.boot.ready = true ∧ (withQueue { queueAt .active 0 with qwr := 1, slot := true }).queue 255 = { queueAt .active 0 with qwr := 1, slot := true } ∧
       (s.queue 255).st ∈ [.idle, .error, .stopped] ∧ 
       answered (s.rangePinned (s.queue 255).owner (s.queue 255).ringVa (128 * 2 ^ (s.queue 255).qsz) .load) (fun _ b => b) = true) ∧
    (let s := withQueue (queueAt .stopped 0x40000000)
     (s.queue 255).st ∈ [.idle, .error, .stopped] ∧ 
       answered (s.rangePinned (s.queue 255).owner (s.queue 255).ringVa (128 * 2 ^ (s.queue 255).qsz) .load) (fun _ b => !b) = true) ∧
    (let s := heldStacks (paged (withQueue (queueAt .idle 0)))
     delayed (s.rangePinned (s.queue 255).owner (s.queue 255).ringVa (128 * 2 ^ (s.queue 255).qsz) .load) = true) ∧
    (let s := withQueue { queueAt .active 0 with qrd := 0xFFFFFFFF }
     (s.queue 255).st = .active ∧ (s.queue 255).stalled = false ∧ 2 ^ (s.queue 255).qsz < ((16 : W32) - (s.queue 255).qrd).toNat ∧
       ¬ 2 ^ (s.queue 255).qsz < ((15 : W32) - (s.queue 255).qrd).toNat) ∧
    (withQueue { queueAt .waitFault 0 with stalled := true }).queue 255 = { queueAt .waitFault 0 with stalled := true } ∧
    DueOn Core.idle (.command 255 2 0xFFFFFFFF) :=
  ⟨by decide +kernel, by decide +kernel, by decide +kernel, by decide, by decide, by unfold DueOn; decide⟩

/-- The part with a record at the read index of queue 255, its last one. -/
def recordIn (r : List W8) (slot : Bool) : State :=
  let s := withQueue { queueAt .active 0x8000 with slot := slot, qrd := 15, qwr := 16 }
  { s with mem := s.mem.write 0x8780 r, tasks := [] }

/-- The record of that queue can be read, and its type is as given. -/
def readable (s : State) (type : Nat) : Bool :=
  answered (s.devReach 0 0x8780 128 .load) fun u e =>
    let (v, bs) := u.acquireRead e.key (e.paOf 0x8780) 128
    decide (v.tasks.length < 8192) && decide (fieldLE bs 0 1 = type)

/-- The signal word of a record at 0x9000 can be read, and holds a value. -/
def signalled (s : State) (v : Nat) : Bool :=
  answered (s.devReach 0 0x9000 8 .load) fun u e => let (_, bs) := u.acquireRead e.key (e.paOf 0x9000) 8; decide (leNat bs = v)

/-- A wait or mark record on the word at 0x9000. -/
def signalRecord (type cond value : Nat) : List W8 := [BitVec.ofNat 8 type, BitVec.ofNat 8 cond] ++ List.replicate 6 0 ++ leBytes 8 0x9004 ++ leBytes 8 value ++ List.replicate 104 0

theorem witness_QueueRecords :
    (let s := recordIn [] true
     s.boot.hingeLost = false ∧ s.boot.ready = true ∧ (s.queue 255).st = .active ∧ (s.queue 255).slot = true ∧ (s.queue 255).qwr ≠ (s.queue 255).qrd ∧
       (s.queue 255).due ≤ s.now ∧ (s.queue 255).reached = none ∧ (s.queue 255).qbase.toNat / 4096 % 2 ^ 36 * 4096 + 128 * ((s.queue 255).qrd.toNat % 2 ^ (s.queue 255).qsz) = 0x8780 ∧
       readable s 0 = true) ∧
    readable (recordIn [1] true) 1 = true ∧ readable (recordIn (signalRecord 2 3 0) true) 2 = true ∧ fieldLE (signalRecord 2 3 0) 1 1 % 4 = 3 ∧
    readable (recordIn [3] true) 3 = true ∧ readable (recordIn [4] true) 4 = true ∧
    denied ((withQueue { queueAt .active 0x40000000 with slot := true, qwr := 1 }).devReach 0 0x40000000 128 .load) = true ∧
    delayed ({ recordIn [1] true with hbm := List.replicate 16 { Stack.reset with hold := true } }.devReach 0 0x8780 128 .load) = true ∧
    (let s := withQueue { queueAt .waitFault 0 with reached := some (signalRecord 2 1 0) }
     (s.queue 255).reached = some (signalRecord 2 1 0) ∧ fieldLE (signalRecord 2 1 0) 0 1 = 2 ∧ (s.queue 255).st ∈ [.active, .waitFault] ∧ (s.queue 255).nextWait ≤ s.now ∧
       fieldLE (signalRecord 2 1 0) 8 8 / 8 * 8 = 0x9000 ∧ signalled s 0 = true ∧ fieldLE (signalRecord 2 1 0) 16 8 ≤ 0 ∧ ¬ fieldLE (signalRecord 2 1 1) 16 8 ≤ 0) ∧
    (let s := { withQueue { queueAt .active 0 with reached := some (signalRecord 3 0 7) } with tasks := [] }
     (s.queue 255).reached = some (signalRecord 3 0 7) ∧ fieldLE (signalRecord 3 0 7) 0 1 = 3 ∧ (s.queue 255).stalled = false ∧ (∀ t ∈ s.tasks, t.queue ≠ 255) ∧
       (match s.signalWrite (s.queue 255).owner 0x9000 7 0 (.markWrite 255) with | .done _ => true | _ => false) = true) ∧
    (let s := withQueue { queueAt .waitFault 0 with faultAt := 0 }
     let s := { s with now := 1250000, fleet := { s.fleet with sub := 10000000000000 } }
     (s.queue 255).st = .waitFault ∧ (s.queue 255).faultAt + 1000 * (s.casement (s.queue 255).owner).fto ≤ s.ftime) :=
  ⟨by decide +kernel, by decide +kernel, by decide +kernel, by decide, by decide +kernel, by decide +kernel, by decide +kernel, by decide +kernel,
    by decide +kernel, by decide +kernel, by decide +kernel⟩

/-! ### Witnesses: completions, walks, engines, drains, arrivals -/

/-- A completion entry and a fault entry that wait. -/
def waitingEntry : Report := { entry := List.replicate 32 1, casement := 0, sig := 0, value := 0, stalled := false }

theorem witness_CompletionsAndAnswers :
    (let s := { part [] none with cqs := [(255, { ComplQueue.reset with waiting := [waitingEntry], head := 0xFFFFFFF1, tail := 0 })] }
     s.boot.hingeLost = false ∧ (s.cq 255).waiting = [waitingEntry] ∧ waitingEntry.sig = 0 ∧ ((s.cq 255).tail - (s.cq 255).head).toNat < 2 ^ (s.cq 255).size ∧
       (s.deviceWrite ((s.cq 255).base.toNat + 32 * ((s.cq 255).tail.toNat % 2 ^ (s.cq 255).size)) (List.replicate 32 1)).isSome = true) ∧
    (let x := { ComplQueue.reset with pending := 1, thresh := 0 }
     0 < x.pending ∧ x.thresh + 1 ≤ x.pending) ∧
    (let s := { State.reset with fleet := { Fleet.reset with sub := 10000000000 } }
     let x := { ComplQueue.reset with pending := 1, thresh := 3, timer := 0xFFFF, oldest := 0, newest := 0 }
     x.newest + 1000 ≤ s.ftime ∧ ¬ x.thresh + 1 ≤ x.pending ∧ ¬ x.oldest + x.timer.toNat ≤ s.ftime) ∧
    (let s := { part [] none with rings := State.reset.rings.set 16 { Ring.reset with waiting := [(List.replicate 32 0, .request 5)], head := 0xFFFFFFF1, tail := 0 } }
     (s.ring 16).waiting = [(List.replicate 32 0, .request 5)] ∧ 16 < s.rings.length ∧ ((s.ring 16).tail - (s.ring 16).head).toNat < 2 ^ (s.ring 16).size ∧
       (match s.deviceWrite ((s.ring 16).base.toNat + 32 * ((s.ring 16).tail.toNat % 2 ^ (s.ring 16).size)) (List.replicate 32 0) with
        | some u => decide (16 < u.rings.length) | none => false) = true) ∧
    (let s := { part [] none with rings := State.reset.rings.set 16 { Ring.reset with open_ := [(15, .parked 0)] }
                                  tasks := [{ placedTask 0 with st := .parked }] }
     16 < 17 ∧ s.boot.ready = true ∧ (s.ring 16).open_.find? (fun o => o.1 == 31 % 2 ^ (s.ring 16).size) = some (15, .parked 0) ∧
       s.task? 0 = some { placedTask 0 with st := .parked } ∧ ∀ o ∈ (s.ring 16).open_, o.1 ≠ 16 % 2 ^ (s.ring 16).size) := by
  decide +kernel

/-- A request of core 0's LD for a register. -/
def requestOf (kind : ReqKind) (st : ReqState) : Req :=
  { id := 5, core := 0, by_ := .ld, task := 0, pc := 0x1000, va := 0x3FFFFFF8, kind := kind, rd := 31, sp := false, sn := false, release := false, issued := 0
    arrived := 0, st := st, remote := none, heldHot := false, orphan := false, drained := false, after := [] }

/-- The part with that request. -/
def requesting (r : Req) : State := { mapped (part [(0, coreAt .ld .tokened [])] none) with reqs := [r] }

theorem witness_ValuesLand :
    (let r := requestOf (.load 8 false) (.served 7 0)
     (requesting r).reqs.find? (fun x => x.id == r.id) = some r ∧ r.st = .served 7 0 ∧ 0 ≤ (requesting r).now ∧ r.orphan = false ∧ 0 < r.rd) ∧
    (let r := { requestOf (.amoc 0 8 1 0) (.served 7 0) with orphan := true }
     (requesting r).reqs.find? (fun x => x.id == r.id) = some r ∧ r.st = .served 7 0 ∧ r.orphan = true) ∧
    (let s := onCore .ld ((coreAt .ld .tokened []).setSeq .ld { (coreAt .ld .tokened []).seq .ld with st := .atAcquire 5 })
     ((s.core 0).seq .ld).st = .atAcquire (requestOf (.load 8 false) (.served 7 0)).id) := by
  decide

/-- The first store of die 8, on its way to die 0. -/
def firstStore : StoreRec :=
  { id := 3, die := 8, num := 1, stamp := List.replicate 9 0, bytes := [(0x9000, 1)], key := some (0, 1), applied := [8], arrives := List.replicate 9 0
    core := 2304, by_ := .ct, task := 0xFFFFFFFFFFFFFFFF, amoc := none }

/-- A sequencer that fetches an address. -/
def fetches (a : Nat) : State :=
  mapped (part [(0, (coreAt .ld .gap []).setSeq .ld { (coreAt .ld .gap []).seq .ld with fetching := [{ addr := a, due := 0, stalled := false, sure := true }] })] none)

theorem witness_WalksAndFetches :
    (let s := { part [] none with stores := [firstStore] }
     s.stores.find? (fun x => x.id == firstStore.id) = some firstStore ∧ firstStore.arrives.getD 0 0 ≤ s.now ∧ 0 ∉ firstStore.applied ∧
       covers (s.die 0).vc firstStore.stamp = true ∧ (s.die 0).vc.getD 8 0 + 1 = firstStore.num ∧ 0 < s.dies.length ∧ 8 < (s.die 0).vc.length) ∧
    (let r := requestOf (.load 8 false) .walking
     let s := requesting r
     (∃ x, s.walkItems.find? (fun x => x.1 == 5) = some (5, .req x) ∧ x = r) ∧
       (match s.walkNow r.core r.va r.kind.access r.kind.code none with | .ok u pa _ => decide (r ∈ u.reqs) && u.channelRoom pa | _ => false) = true) ∧
    (let r := requestOf (.load 8 false) .walking
     let s := { requesting r with mem := Cells.write [] 0x3000 (leBytes 8 0x4001) }
     (match s.walkNow r.core r.va r.kind.access r.kind.code none with
        | .stall u _ _ => u.reqs.any (fun x => x.id == r.id) && decide (16 < u.rings.length) | _ => false) = true) ∧
    (let r := { requestOf (.load 8 false) .walking with va := 0xFD0000000000 }
     let s := requesting r
     s.reqs.find? (fun x => x.id == r.id) = some r ∧
       (match s.walkNow r.core r.va r.kind.access r.kind.code none with | .fault _ _ _ => true | _ => false) = true) ∧
    (let a := 0x1000000000000
     (((fetches a).core 0).seq .ld).fetching.find? (fun x => x.addr == a) = some { addr := a, due := 0, stalled := false, sure := true } ∧ 0 ≤ (fetches a).now ∧ 2 ^ 48 ≤ a) ∧
    (let a := 0xFD0000000000
     (((fetches a).core 0).seq .ld).fetching.find? (fun x => x.addr == a) = some { addr := a, due := 0, stalled := false, sure := true } ∧ a < 2 ^ 48) ∧
    (let a := 0x3FFFFFFC
     (((fetches a).core 0).seq .ld).fetching.find? (fun x => x.addr == a) = some { addr := a, due := 0, stalled := false, sure := true } ∧ a < 0xFD0000000000 ∧
       (match (fetches a).walkNow 0 a .fetch 0 none with | .ok u pa key => touched (u.touch (u.casementOf 0) pa key 4 false) (fun _ => true) | _ => false) = true) :=
  ⟨by decide, ⟨⟨_, rfl, rfl⟩, by decide +kernel⟩, by decide +kernel, by decide +kernel, by decide +kernel, by decide +kernel, by decide +kernel⟩

/-- An MMA of those shapes. -/
def mmaCmd (start done : Option Nat) : MmaCmd :=
  { pc := 0x1000, issued := 0, z := true, f := true, rs := false, recA := mmaShapes.getD 1 0, recB := mmaShapes.getD 2 0, recC := mmaShapes.getD 0 0, cb := []
    alpha := [], flushing := false, start := start, delay := 0, tile := 0, step := 0, sampled := [], done := done, units := 0 }

/-- An EPI of the record above. -/
def epiCmd (start : Option Nat) (row : Nat) : EpiCmd :=
  { pc := 0x1000, issued := 0, task := 0, record := epiRecord, bank := true, committed := true, flushing := false, start := start, bias := [], sticky := 0
    row := row, st := 0, todo := [], due := 0, kept := none }

/-- A SACC of one pair on a shape of four rows. -/
def saccCmd (start : Option Nat) (pairs : List (W32 × Row)) (applied : Nat) (todo : List W32) : SaccCmd :=
  { id := 1, pc := 0x1000, issued := 0, op := .add, hd := 0, record := shapeOf 0 0 4 4 0 16, window := 1, count := 1, flushing := false, start := start
    pairs := pairs, popSt := List.replicate pairs.length 0, applied := applied, todo := todo, made := [], due := 0 }

/-- The part in its third cycle, core 0 as given. -/
def third (k : Core) : State := { part [(0, k)] none with now := 2 }

/-- Two beats of A-space or W-space can be taken in a cycle. -/
def sampled (k : Core) (now : Nat) (m : MmaCmd) : Bool :=
  match k.sampleBeats now m.issued m.sampled m.wanted with
  | .ok _ => true
  | .error _ => false

theorem witness_MatrixSteps :
    (let k := { together .run .run true with mma := [mmaCmd none none] }
     ((third k).core 0).mma = [mmaCmd none none] ∧ (mmaCmd none none).start = none ∧ (mmaCmd none none).issued + 2 ≤ (third k).now ∧ k.timed = true) ∧
    (let k := { together .run .run true with lookup := [tinvCmd] }
     ((third k).core 0).lookup = [tinvCmd] ∧ tinvCmd.kind = .tinv 3 ∧ tinvCmd.start = none ∧ tinvCmd.issued + 2 ≤ (third k).now) ∧
    (let k := { together .run .run true with epi := [epiCmd none 0] }
     ((third k).core 0).epi = [epiCmd none 0] ∧ (epiCmd none 0).start = none ∧ (epiCmd none 0).issued + 2 ≤ (third k).now) ∧
    (let k := { together .run .run true with sacc := [saccCmd none [] 0 []] }
     ((third k).core 0).sacc = [saccCmd none [] 0 []] ∧ (saccCmd none [] 0 []).start = none ∧ (saccCmd none [] 0 []).issued + 2 ≤ (third k).now) ∧
    (let k := { together .run .run true with mma := [mmaCmd (some 2) none] }
     k.runningMma = some (mmaCmd (some 2) none, 2) ∧ (mmaCmd (some 2) none).stepAt 2 ≤ (third k).now ∧ sampled ((third k).core 0) 2 (mmaCmd (some 2) none) = true) ∧
    (let k := { together .run .run true with mma := [mmaCmd (some 2) none], banksUsed := [(true, 0, 1, .ct)], banksCycle := 2 }
     sampled k 2 (mmaCmd (some 2) none) = false ∧ k.inTimed = true) ∧
    (let k := { together .run .run false with mma := [mmaCmd (some 2) none], banksUsed := [(true, 0, 1, .ct)], banksCycle := 2 }
     sampled k 2 (mmaCmd (some 2) none) = false ∧ k.inTimed = false) ∧
    (let k := { together .run .run false with mma := [mmaCmd (some 0) (some 2)] }
     ((third k).core 0).mma = [mmaCmd (some 0) (some 2)] ∧ (mmaCmd (some 0) (some 2)).done = some 2 ∧ 2 ≤ (third k).now) := by
  decide +kernel

/-- An LMMA of table 3: 16 rows, 8 columns, weights of width 8. -/
def lmmaCmd (start done : Option Nat) : LookupCmd :=
  { tinvCmd with kind := .lmma true true 3 1 (shapeOf 0 2 16 8 0 32) (shapeOf 8 1 4 8 0 16), start := start, done := done }

/-- The header of a table that was valid on a core at an epoch, two blocks from 94 on. -/
def tableHead (core epoch : Nat) : List W8 := [1, 128] ++ leBytes 2 core ++ leBytes 2 epoch ++ [0, 0, 94, 2] ++ List.replicate 54 0

theorem witness_LookupSteps :
    (let k := { together .run .run true with lookup := [lmmaCmd (some 2) none] }
     k.runningLookup = some (lmmaCmd (some 2) none, 2) ∧ (lmmaCmd (some 2) none).lookupAt (shapeOf 8 1 4 8 0 16) 2 ≤ (third k).now ∧ (k.table 3).was = false) ∧
    (let k := { together .run .run true with lookup := [lmmaCmd (some 2) none], tables := List.replicate 4 { Table.none with st := .valid, was := true } }
     (k.table 3).was = true ∧ (k.table 3).mode ≠ 2 ∧
       (match k.sampleBeats 2 0 [] ((lmmaCmd (some 2) none).wantedWeights (shapeOf 8 1 4 8 0 16)) with | .ok _ => true | .error _ => false) = true) ∧
    (∀ e ∈ [(0x00, true), (0xFF, false)],
      let k := { together .run .run true with lookup := [lmmaCmd (some 2) none], wspace := Cells.write [] 0 (List.replicate 256 (BitVec.ofNat 8 e.1))
                                              tables := List.replicate 4 { Table.none with st := .valid, was := true, mode := 2 } }
      (k.table 3).was = true ∧ (k.table 3).mode = 2 ∧
       (match k.sampleBeats 2 0 [] ((lmmaCmd (some 2) none).wantedWeights (shapeOf 8 1 4 8 0 16)) with
        | .ok (_, beats) => (List.range 8).all fun n => (List.range 4).all fun g => decide (lookupCode beats (shapeOf 8 1 4 8 0 16) 0 0 g n < 4)
        | .error _ => !e.2) = e.2) ∧
    (let k := { together .run .run true with lookup := [lmmaCmd (some 0) (some 2)] }
     ((third k).core 0).lookup = [lmmaCmd (some 0) (some 2)] ∧ (lmmaCmd (some 0) (some 2)).done = some 2 ∧ 2 ≤ (third k).now) ∧
    (let m : LookupCmd := { tinvCmd with kind := .tfill 3 0xFF0000040000, head := tableHead 0 0, done := some 2 }
     m.xl = [] ∧ 0 < fieldLE m.head 9 1 ∧ fieldLE m.head 9 1 ≤ 16 ∧ fieldLE m.head 8 1 + fieldLE m.head 9 1 = 96 ∧ fieldLE m.head 0 1 = 1 ∧ 128 ≤ fieldLE m.head 1 1 ∧ fieldLE m.head 2 2 % 4096 = 0 ∧
       fieldLE m.head 4 2 = Core.idle.epoch ∧ fieldLE (tableHead 0 1) 4 2 ≠ Core.idle.epoch) ∧
    (∀ n ∈ [2, 3], let m : LookupCmd := { tinvCmd with kind := .tfill 3 0x1000, xl := [.done 0 0], sampled := [(false, 0, [1, 128] ++ leBytes 6 0 ++ [94, n] ++ List.replicate 54 0)], done := some 2 }
     m.xl ≠ [] ∧ fieldLE m.gathered.head 8 1 = 94 ∧ fieldLE m.gathered.head 9 1 = n.toNat) ∧
    (let m : LookupCmd := { tinvCmd with kind := .tbuild 2 0 3 (shapeOf 0 0 16 64 0 256) [], done := some 2 }
     m.done = some 2) ∧
    (let m : LookupCmd := { tinvCmd with kind := .tspill 0 0xFF0000040000, done := some 2 }
     m.done = some 2) := by
  decide +kernel

theorem witness_EpilogueAndScatterSteps :
    (let k := { together .run .run true with epi := [epiCmd (some 0) 1] }
     let a := eStatusAt epiRecord
     ((third k).core 0).epi = [epiCmd (some 0) 1] ∧ (epiCmd (some 0) 1).start ≠ none ∧ (epiCmd (some 0) 1).todo = [] ∧ eRows epiRecord ≤ 1 ∧
       k.banksFree 2 true (banksOf a 8) = true) ∧
    (let m := saccCmd (some 2) [] 1 []
     ((third { together .run .run true with sacc := [m] }).core 0).sacc = [m] ∧ m.start ≠ none ∧ m.due ≤ 2 ∧ m.applied = m.count) ∧
    (let m := saccCmd (some 2) [(3, [])] 0 [3]
     m.applied ≠ m.count ∧ m.pairsNow = some [(3, [])] ∧ m.todo = [3] ∧ (3 : W32).getLsbD 31 = false ∧ (3 : W32).toNat < hRows m.record ∧
       (together .run .run true).banksFree 2 true (banksOf (hBase m.record + 3 * hStride m.record) (4 * hCols m.record)) = true) ∧
    (let m := saccCmd (some 2) [(3, List.replicate 64 1)] 0 [3]
     m.pairsNow = some [(3, List.replicate 64 1)] ∧ m.todo = [3] ∧ (([(3, List.replicate 64 1)].filter fun p => p.1 == 3).map fun p => Row.lane p.2 3) = [1]) ∧
    (let m := saccCmd (some 2) [(4, [])] 0 [4]
     m.pairsNow = some [(4, [])] ∧ hRows m.record ≤ (4 : W32).toNat) := by
  decide +kernel

/-- A remote store of one byte to core 1, released. -/
def remoteHeld : Held :=
  { id := 4, by_ := .st, pc := 0x1000, task := 0, rank := 0, kind := .remote 1 true 98303 [(0, 7)] false, fence := none, released := some 0, pushed := false
    fixed := false, due := 0, after := [] }

/-- A copy of 16 bytes between the buffers of a core, its one piece read or not. -/
def copyCmd (got : List W8) (read : Nat) : Copy :=
  { id := 6, by_ := .ct, pc := 0x1000, issued := 0, task := 0, immediate := true, committed := false, arv := false, darv := 0, toAddr := false, scope := 0
    after := []
    beats := [{ id := 0, srcs := [(.buf 0 true 0, 16)], dsts := [.buf 0 false 196592], len := 16, got := got, read := read, asked := false }], acks := [], past := [], due := 0 }

/-- A pushed row of port 7 that is due. -/
def pushOf (due : Nat) : Push := { id := 2, port := 7, due := due, issued := 0, task := 0, old := [], offs := [64, 65] }

/-- A mirror area that is being written. -/
def areaOf : MirrorArea := { core := 0, task := 0, area := 1, complete := false, seq := 9, img := [], ends := [], known := { stamps := [], covers := [], afters := [], past := [] }, due := 1 }

theorem witness_Drains :
    (let s := part [(0, { together .gap .run false with held := [remoteHeld] })] none
     (s.core 0).held.find? (fun x => x.id == remoteHeld.id) = some remoteHeld ∧ s.drainReady 0 remoteHeld = true ∧ remoteHeld.kind = .remote 1 true 98303 [(0, 7)] false) ∧
    (∀ cp ∈ [copyCmd [] 0, copyCmd (List.replicate 16 3) 1],
      let s := part [(0, { together .run .run false with copies := [cp] })] none
      (s.core 0).copy? cp.id = some cp ∧ s.copyReady 0 cp = true ∧ cp.acks = [] ∧ cp.arv = false) ∧
    (∀ b ∈ (copyCmd [] 0).beats, b.srcs = [(.buf 0 true 0, 16)] ∧ b.read = 0) ∧
    (∀ b ∈ (copyCmd (List.replicate 16 3) 1).beats, b.srcs.length ≤ b.read ∧ b.dsts = [.buf 0 false 196592] ∧ b.got.length = b.len) ∧
    (let s := part [(0, { together .run .run false with pushes := [pushOf 0] })] none
     (s.core 0).pushes.find? (fun x => x.port == 7) = some (pushOf 0) ∧ (pushOf 0).due ≤ s.now ∧ s.drainHeld 0 7 = false) ∧
    (let s := part [(0, { together .run .run false with pushes := [pushOf 0], copies := [copyCmd (List.replicate 16 3) 1] })] none
     s.drainHeld 0 7 = false) ∧
    (let s := { part [] none with now := 1, mirrors := [areaOf] }
     s.mirrors.find? (fun x => x.core == 0 && x.area == 1) = some areaOf ∧ areaOf.complete = false ∧ areaOf.due ≠ 0 ∧ areaOf.due ≤ s.now) := by
  decide +kernel

/-- A grant to channel 6, slot 0. -/
def grantOf (gseq : W16) : Grant := { id := 8, due := 0, task := 0, rank := 0, ch := 6, slot := 0, off := 0, len := 16, darv := 64, gseq := gseq }

/-- A group of 16 bytes to channel 7 of the task's first core. -/
def groupOf : Group :=
  { id := 9, readAt := 0, due := 0, task := 0, sender := 0, src := 0, rank := 0, ch := 7, slot := 0, gseq := 0, off := 98288, len := 16, darv := 0
    data := some (List.replicate 16 3), last := true, entry := 0 }

/-- A chunk of session 65535. -/
def chunkOf (seq : Nat) : Chunk :=
  { id := 1, due := 0, core := 0, by_ := .st, session := 65535, header := leBytes 8 seq ++ List.replicate 56 0, payload := [], action := true, task := 0 }

/-- The part with that chunk and the session, open, its last number 5. -/
def atEndpoint (seq : Nat) : State :=
  { part [] none with chunks := [chunkOf seq], sessions := [(65535, { Session.reset with isOpen := true, lastseq := 5, dup := 0xFFFF })] }

theorem witness_Arrivals :
    (let s := { channels 6 0 with grants := [grantOf 0] }
     s.grants.find? (fun x => x.id == (grantOf 0).id) = some (grantOf 0) ∧ (grantOf 0).due ≤ s.now ∧
       (∃ e ∈ s.chanEnds, e.task = 0 ∧ e.rank = 0 ∧ e.ch = 6 ∧ 0 < e.slots.length ∧ (e.slot 0).granted = true)) ∧
    (endAt 6 false [slotOf false false]).slot 0 = slotOf false false ∧ (grantOf 0).gseq = (slotOf false false).nseq ∧ (grantOf 1).gseq ≠ (slotOf false false).nseq ∧
    (let s := { part [(0, together .run .run false)] none with groups := [groupOf] }
     s.groups.find? (fun x => x.id == groupOf.id) = some groupOf ∧ groupOf.data = some (List.replicate 16 3) ∧ (List.replicate 16 (3 : W8)).length = groupOf.len ∧
       s.memberCore 0 0 = some 0 ∧ (s.core 0).task = some groupOf.task ∧ groupOf.darv + 16 ≤ groupOf.off) ∧
    (∀ n ∈ [5, 6], (atEndpoint n).chunks.find? (fun y => y.id == (chunkOf n).id) = some (chunkOf n) ∧ (chunkOf n).due ≤ (atEndpoint n).now ∧
      (atEndpoint n).boot.hingeLost = false ∧ (∀ y ∈ (atEndpoint n).chunks, y.id = (chunkOf n).id) ∧ (chunkOf n).action = true ∧
      ((atEndpoint n).session 65535).isOpen = true) ∧
    ((atEndpoint 6).session 65535).lastseq.toNat < fieldLE (chunkOf 6).header 0 8 ∧ fieldLE (chunkOf 5).header 0 8 ≤ ((atEndpoint 5).session 65535).lastseq.toNat := by
  decide +kernel

theorem witness_Invalidations :
    (let s := part [(0, { together .gap .run false with acts := [dueAct (.csr 0x40 0x31)] })] none
     (s.core 0).acts.find? (fun a => a.isTlbi && decide (a.due ≤ s.now)) = some (dueAct (.csr 0x40 0x31)) ∧ 0x31 % 16 = 1 ∧ 0x31 / 16 % 8 = 3) ∧
    (let s := part [(0, { together .gap .run false with acts := [dueAct (.csr 0x40 0)] })] none
     (s.core 0).acts.find? (fun a => a.isTlbi && decide (a.due ≤ s.now)) = some (dueAct (.csr 0x40 0))) ∧
    (let s := (part [] none).modCasement 15 fun x => { x with htlbi := [(0, none)] }
     15 < s.casements.length ∧ s.boot.ready = true ∧ (s.casement 15).htlbi = [(0, none)] ∧ (s.casement 15).s2inv = [] ∧ 0xFFFFFFFFF000 < 2 ^ 48) ∧
    (let s := (part [] none).modCasement 15 fun x => { x with s2inv := [(0, some 0xFFFFFFFFF000)] }
     (s.casement 15).s2inv = [(0, some 0xFFFFFFFFF000)] ∧ (s.casement 15).htlbi = []) := by
  decide

/-! ### Witnesses: casements, endpoint, losses, power, HBM4E, boot, host -/

/-- The part with casement 15 in a state, locked to fleet time, scrubbed. -/
def casing (st : CaseState) : State :=
  let s := (part [] none).modCasement 15 fun x => { x with st := st }
  { s with tasks := [], scrubbed := true, fleet := { s.fleet with everLocked := true } }

theorem witness_CasementCommands :
    (let s := casing .free
     15 < 16 ∧ 15 < s.casements.length ∧ s.boot.ready = true ∧ (s.casement 15).st = .free ∧ s.quotasBad 15 = false ∧ s.fleet.everLocked = true ∧
       s.taintBlocks 15 = false) ∧
    (State.reset.fleet.everLocked = false ∧ State.reset.taintBlocks 15 = true) ∧
    ((casing .free).modCasement 15 fun x => { x with quota := x.quota.set 0 1 }).quotasBad 15 = true ∧
    (∀ st ∈ [CaseState.active, .draining, .drained, .stopping, .erasing], ((casing st).casement 15).st = st) ∧ (casing .active).tasks = [] ∧
    ((part [] none).tasks.any fun t => t.casement == 0) = true := by
  decide +kernel

theorem witness_QuotasScrubAndUsage :
    (let s := casing .active
     15 < s.casements.length ∧ s.boot.ready = true ∧ s.boot.hingeLost = false ∧
       (s.modCasement 15 fun x => { x with quota := x.quota.set (quotaPlace .capa).1 (5 % 2 ^ (quotaPlace .capa).2) }).quotasBad 15 = false ∧
       (s.modCasement 15 fun x => { x with quota := x.quota.set (quotaPlace .mina).1 (5 % 2 ^ (quotaPlace .mina).2) }).quotasBad 15 = true) ∧
    (let s := (casing .erasing).setCore 2303 { Core.idle with taint := some 15 }
     (s.casement 15).st = .erasing ∧ (s.casement 15).scrubDue ≤ s.now ∧ s.taintedCores 15 = [2303]) ∧
    (let s := { casing .erasing with wayTaint := [(7, 15, 15)] }
     s.taintedCores 15 = [] ∧ s.taintedWays 15 = [(7, 15)]) ∧
    (let s := casing .drained
     let s := { s with fleet := { s.fleet with sub := 100000000000000 } }
     (s.casement 15).guaranteed = true ∧ (s.casement 15).usage.window < s.ftime / 10000000) ∧
    (let s := { (casing .active).modCasement 15 fun x => { x with records := [{ bytes := [], due := 9, seq := 0, read := false }] } with now := 9 }
     (s.casement 15).nextRecord = some { bytes := [], due := 9, seq := 0, read := false } ∧ 9 ≤ s.now) := by
  decide +kernel

/-- The part with session 65535 of casement 0, one slot of 64 bytes at the last line of the space that is mapped. -/
def sessioned (x : Session) : State := { mapped (part [] none) with sessions := [(65535, x)] }

/-- That session's sizes. -/
def oneSlot : Session := { Session.reset with ibase := 0x3FFFFFC0, inslot := 1, isz := 1, jobid := 0xFFFFFF }

theorem witness_SessionsAndFleetTime :
    (let s := sessioned oneSlot
     65535 < 65536 ∧ s.boot.ready = true ∧ (s.session 65535).isOpen = false ∧ (s.casement (s.session 65535).owner).st = .active ∧ (s.session 65535).inslot ≠ 0 ∧
       (s.session 65535).isz ≠ 0 ∧ s.refuseAction = false ∧ answered (s.sessionPinned (s.session 65535)) (fun _ b => b) = true) ∧
    (let s := sessioned { oneSlot with ibase := 0x40000000 }
     answered (s.sessionPinned (s.session 65535)) (fun _ b => !b) = true) ∧
    (let s := heldStacks (paged (sessioned { oneSlot with ibase := 0 }))
     delayed (s.sessionPinned (s.session 65535)) = true) ∧
    (let s := sessioned { oneSlot with isOpen := true }
     let x := s.session 65535
     x.isOpen = true ∧ 64 * x.isz < (List.replicate 65 (0 : W8)).length ∧ (List.replicate 64 (0 : W8)).length ≤ 64 * x.isz ∧ x.incnt.toNat - x.tokRetired < x.inslot ∧
       s.ingressLevel x.owner = 0 ∧ s.arriving = [] ∧ x.peer ≠ 1 ∧ x.jobid ≠ 0 ∧
       answered (s.reachPieces x.owner (pagePieces (x.ibase + 64 * x.isz * (x.incnt.toNat % x.inslot)) 2 64)) (fun _ r => r.2.isNone) = true) ∧
    (∀ base ∈ [0xFD0000000000, 0x40000000],
      let s := sessioned { oneSlot with isOpen := true, ibase := base }
      answered (s.reachPieces 0 (pagePieces base 2 64)) (fun u r => r.2.any fun f => decide ((if f.stage2 then 16 else 0) < u.rings.length)) = true) ∧
    (let s := heldStacks (paged (sessioned { oneSlot with isOpen := true, ibase := 0 }))
     delayed (s.reachPieces 0 (pagePieces 0 2 64)) = true) ∧
    (let s := { sessioned { oneSlot with isOpen := true } with arriving := [(65535, [])] }
     ∃ e ∈ s.arriving, e.1 = 65535) ∧
    (let s := sessioned { oneSlot with isOpen := true, incnt := 1 }
     (s.session 65535).inslot ≤ (s.session 65535).incnt.toNat - (s.session 65535).tokRetired) ∧
    (let s := State.reset
     s.boot.hingeLost = false ∧ s.fleet.ftport ≠ 2 ∧ s.fleet.pup.getD s.fleet.ftport false = true ∧ s.fleet.everLocked = false ∧ s.fleet.pup.length = 2) ∧
    (∀ n ∈ [2499999, 2500000], ∀ v ∈ [-200, 200], let s := { State.reset with now := n, fleet := { Fleet.reset with everLocked := true, slew := v } }
     s.fleet.everLocked = true ∧ -200 ≤ s.fleet.slew ∧ s.fleet.slew ≤ 200 ∧ (s.now < s.fleet.slewAt + 2500000 ↔ n = 2499999)) ∧
    (let s := { State.reset with now := 2500000000, fleet := { Fleet.reset with ftstat := 1, everLocked := true } }
     s.fleet.ftstat = 1 ∧ s.fleet.lastSync + 2500000000 ≤ s.now ∧ 15 < s.casements.length ∧ (s.casement 15).anchorNext ≤ s.now) := by
  decide +kernel

theorem witness_Losses :
    (let s := { part [] none with now := 62500, tasks := [] }
     s.boot.hingeLost = false ∧ 7 < s.dies.length ∧ (s.die 7).live = true ∧ (s.die 7).clockLost = false ∧ (s.die 7).nextBeat ≤ s.now ∧
       (s.die 7).lastBeat + 62500 ≤ s.now ∧ 15 < s.sublinks.length ∧ s.boot.ready = true ∧ 15 < s.hbm.length) ∧
    (let t := placedTask 0
     let s := { part [] none with now := 62500, tasks := [t] }
     s.tasks = [t] ∧ t.launched = true ∧ t.st ≠ .ending ∧ (∃ c ∈ t.cores, dieOf c = 0) ∧ (∀ c ∈ t.cores, dieOf c ≠ 7) ∧ t.shadow = []) ∧
    (∀ m ∈ [[areaOf], [{ areaOf with complete := true }]],
      let t := { placedTask 0 with shadow := [partnerCore 0] }
      let s := { part [] none with now := 62500, tasks := [t], mirrors := m }
      (∃ c ∈ t.cores, dieOf c = 0) ∧ t.shadow ≠ [] ∧ ((s.fence 0).clearDie 0).promotable t = (if m = [areaOf] then none else some 9) ∧
        (∀ c ∈ t.cores, dieOf c ≠ dieOf (partnerCore 0)) ∧ (∃ c ∈ t.shadow, dieOf c = dieOf (partnerCore 0))) ∧
    (let s := part [] none
     (∀ j, j < 16 → 4 + j / 4 = 7 → (s.hbm.getD j Stack.reset).hold = false) ∧ (s.hbm.getD 15 Stack.reset).hold = false) ∧
    (let s := part [] none
     s.linksBad (s.sublinks.getD 15 0) (0xA000 &&& 0xEFEFEFEFEFEFEFEF) = true ∧ s.linksBad (s.sublinks.getD 15 0) (0x8F &&& 0xEFEFEFEFEFEFEFEF) = false) ∧
    (let s := { State.reset with sublinks := List.replicate 16 0xC0 }
     3 ∈ linkLanes (s.sublinks.getD 15 0) 0) := by
  decide +kernel

theorem witness_PowerUnits :
    (let s := { part [] none with now := 12500 }
     s.boot.hingeLost = false ∧ s.dies.length = 9 ∧ (s.die 8).nextOffer ≤ s.now ∧ s.nextRebalance ≤ s.now) ∧
    (∀ up ∈ [true, false],
      let t := { placedTask 0 with record := (placedTask 0).record.set 1 0, units := [(8, 75)] }
      let s := ({ part [] none with pool := 75 }).modDie 8 fun d => { d with live := up, units := if up then 75 else 0 }
      t.klass = 0 ∧ (t.units.map fun e => e.1).Nodup ∧
        (∀ e ∈ t.units, e.1 < 9 ∧ ((s.die e.1).live = true → e.2 ≤ (s.die e.1).units) ∧ ((s.die e.1).live = false → (s.die e.1).units = 0)) ∧
        ((t.units.filter fun e => !(s.die e.1).live).map fun e => e.2).sum ≤ s.pool ∧
        (t.units.map fun e => e.2).sum = ((groupUnits [2303]).map fun e => e.2).sum ∧ groupUnits [2303] ≠ []) := by
  decide +kernel

/-- A load queued at channel 0 under the key of casement 0, in the second slot of the frame. -/
def atChannel (orphan : Bool) : State :=
  let r := { requestOf (.load 8 false) (.queued 0x1FF8 0 (some 0)) with orphan := orphan }
  let s := (part [(0, coreAt .ld .tokened [])] none).modCasement 0 fun x => { x with st := .active, inForce := x.inForce.set 9 256 }
  { s with now := 1, nextId := 6, reqs := [r], channels := [(0, { Channel.reset with queue := [5] })] }

theorem witness_HbmServes :
    (∀ o ∈ [false, true],
      let s := atChannel o
      let r := { requestOf (.load 8 false) (.queued 0x1FF8 0 (some 0)) with orphan := o }
      s.boot.hingeLost = false ∧ s.channelUp 0 = true ∧ (s.channel 0).lastServed ≠ s.now + 1 ∧ (s.hbm.getD 0 Stack.reset).hold = false ∧ s.slotPower 4 = true ∧
        s.slotRequest 0 = some r ∧ r ∈ s.reqs ∧ r.id < s.nextId ∧ r.orphan = o) ∧
    (15 < State.reset.hbm.length ∧ (State.reset.hbm.getD 15 Stack.reset).live = true) ∧
    (let s := { State.reset with now := 125000, hbm := List.replicate 16 { Stack.reset with hold := true, since := 0 } }
     (s.hbm.getD 15 Stack.reset).hold = true ∧ (s.hbm.getD 15 Stack.reset).since + 125000 ≤ s.now) := by
  decide +kernel

theorem witness_BootAndResets :
    (let s := { State.reset with now := 1 }
     s.boot.nextAt = some 1 ∧ 1 ≤ s.now ∧ s.boot.hingeLost = false ∧ s.boot.stage = 0 ∧ s.boot.images[1]? = some (true, 0) ∧ s.boot.fuse ≤ 0 ∧
       s.casements.length = 16) ∧
    (let b := { Boot.reset with fuse := 128, images := [(true, 127), (false, 128)] }
     b.images[0]? = some (true, 127) ∧ ¬ b.fuse ≤ 127 ∧ b.images[1]? = some (false, 128)) ∧
    (let b := { Boot.reset with stage := 1, nextAt := some 3, fuse := 5, services := [(false, 9), (true, 5)] }
     b.services[1]? = some (true, 5) ∧ b.fuse ≤ 5) ∧
    (let b := { Boot.reset with stage := 1, nextAt := some 3, fuse := 5, services := [(false, 9), (true, 4)] }
     b.services[0]? = some (false, 9) ∧ b.services[1]? = some (true, 4) ∧ ¬ b.fuse ≤ 4) ∧
    (let b := { Boot.reset with stage := 2, trains := false, nextAt := some 4 }
     b.stage = 2 ∧ b.trains = false) ∧
    (let b := { Boot.reset with ready := true, running := 128, fuse := 127 }
     b.ready = true ∧ b.fuse ≤ b.running ∧ b.running ≤ 128) := by
  decide

/-- A migration of a page of 4 KiB whose switch is due. -/
def pageMove (switched : Bool) : Migration := { old := 0, new_ := 0xFFFFFFF000, size := 4096, switched := switched, due := 0, left := 0, held := [] }

theorem witness_HostPort :
    (let s := part [] none
     s.boot.hingeLost = false ∧ s.boot.ready = true ∧ s.migration = none) ∧
    (let s := part [] none
     let plain (a k : Nat) : Prop := regionOf a ≠ .unmapped ∧ regionOf (a + k - 1) = regionOf a
     plain 0xFFFFFFF000 4096 ∧ regionOf 0xFFFFFFF000 = .hbm ∧ plain 0x10003FFFFF8 8 ∧ regionOf 0x10003FFFFF8 = .hingeSram ∧ plain 0x800000000000 4096 ∧
       regionOf 0x800000000000 = .host ∧ 0x10003FFFFF8 % 8 = 0 ∧ s.locked 0x10003FFFFF8 = false ∧ regionOf 0x10004000000 = .unmapped ∧
       touched (s.touch 0 0xFFFFFFFF80 0 64 false) (fun _ => true) = true ∧ touched (s.touch 0 0xFFFFFFFF80 0 64 true) (fun _ => true) = true ∧
       0x1FFF000 + 4096 ≤ 0x2000000 ∧ touched (s.touch 0 0x10003FFFFF8 0 8 true) (fun _ => true) = true ∧ touched (s.touch 0 0x10004000000 0 8 false) (fun _ => true) = true ∧
       ∀ w ∈ [false, true], touched (s.touch 1 0x2000 1 8 w) (fun _ => true) = true) ∧
    (let s := { part [] none with dies := (List.range 9).map fun d => { Die.reset 0 with live := decide (d < 4) } }
     s.dead 0x1000 = true) ∧
    (let s := { part [] none with migration := some (pageMove false) }
     s.MemOk ∧ (pageMove false).left = 0 ∧ (pageMove false).due ≤ s.now ∧ s.hotPage 0 = false ∧ s.hotPage 0xFFFFFFF000 = false ∧ (pageMove false).held = []) ∧
    (pageMove true).switched = true ∧ (0x1C0000000 : Nat) % 2 ^ 30 = 0 ∧ (0x83FF8 : Nat) % 8 = 0 ∧ (0xFFFFFFFFFFFFFFF2 : W64).toNat % 16 = 2 := by
  decide +kernel

/-! ### Single steps. Each expected value stands in the spec or is worked out from the rule named. -/

/-- The result that a word leaves due on core 0: its cycle and its value. -/
def result (i : Instr) (s : State) : Option (Nat × W64) :=
  match exec i s with
  | .next t =>
    (t.core 0).acts.findSome? fun a =>
      match a.pay with
      | .reg _ _ v _ => some (a.due, v)
      | _ => none
  | _ => none

/-- TCAUSE and TADDR of core 0 after a word; TCAUSE[8] tells a fault outside a region (R273). -/
def raised (i : Instr) (s : State) : W64 × W64 :=
  match exec i s with
  | .next t => ((t.core 0).tcause, (t.core 0).taddr)
  | _ => (0, 0)

/-- Where CT stands after a word. -/
def nextPc (i : Instr) (s : State) : Option Nat :=
  match exec i s with
  | .next t => some ((t.core 0).seq .ct).pc
  | _ => none

/-- CT in a tokened region with s1 and s2 as given. -/
def two (a b : W64) : State := word .ct .tokened [(1, a), (2, b)]

/-- R348: a sum wraps at 2^64, one cycle after the issue. -/
theorem test_add_wraps : result (.add Hdr.none 3 1 2) (two 0xFFFFFFFFFFFFFFFF 2) = some (1, 1) := by decide

/-- R421: a difference below zero. -/
theorem test_sub_wraps : result (.sub Hdr.none 3 1 2) (two 0 1) = some (1, 0xFFFFFFFFFFFFFFFF) := by decide

/-- R416: a shift distance is taken modulo 64, and SRA copies the sign. -/
theorem test_sra_sign : result (.sra Hdr.none 3 1 2) (two 0x8000000000000000 65) = some (1, 0xC000000000000000) := by decide

/-- R77: what is written to s0 lands nowhere. -/
theorem test_s0_discards : result (.add Hdr.none 0 1 2) (two 1 1) = none := by decide

/-- R349: −256 is the lowest immediate. -/
theorem test_addi_negative : result (.addi Hdr.none 3 1 0x100) (two 256 0) = some (1, 0) := by decide

/-- R387: LITH writes the upper half and keeps the lower. -/
theorem test_lith_keeps_low_half : result (.lith Hdr.none 1 0x89ABCDEF) (two 0xFFFFFFFF01234567 0) = some (1, 0x89ABCDEF01234567) := by decide

/-- R398: the upper half of a signed product, three cycles after the issue. -/
theorem test_mulh_signed : result (.mulh Hdr.none 3 1 2) (two 0xFFFFFFFFFFFFFFFF 2) = some (3, 0xFFFFFFFFFFFFFFFF) := by decide +kernel

/-- R368: a quotient by zero is all ones, 20 cycles after the issue. -/
theorem test_div_by_zero : result (.div Hdr.none 3 1 2) (two 7 0) = some (20, 0xFFFFFFFFFFFFFFFF) := by decide +kernel

/-- R368: −2^63 ÷ −1 keeps −2^63. -/
theorem test_div_overflow : result (.div Hdr.none 3 1 2) (two 0x8000000000000000 0xFFFFFFFFFFFFFFFF) = some (20, 0x8000000000000000) := by decide +kernel

/-- R411: a remainder has the sign of the dividend. -/
theorem test_rem_sign : result (.rem Hdr.none 3 1 2) (two 0xFFFFFFFFFFFFFFF9 2) = some (20, 0xFFFFFFFFFFFFFFFF) := by decide +kernel

/-- R361: the leading zeros of four halfwords. -/
theorem test_clz_halves : result (.clz Hdr.none 3 1 1) (two 0x8000000100000FFF 0) = some (1, 0x0000000F00100004) := by decide +kernel

/-- R356: a branch not taken goes to the next word, one taken to a + 4 × the offset. -/
theorem test_beq : nextPc (.beq Hdr.none 1 2 0x1FF) (two 5 6) = some 0x1004 ∧ nextPc (.beq Hdr.none 1 2 0x1FF) (two 5 5) = some 0xFFC := by decide

/-- R391: LOOP falls through once the count reaches zero. -/
theorem test_loop_ends : nextPc (.loop Hdr.none 1 0x3FFF) (two 1 0) = some 0x1004 ∧ nextPc (.loop Hdr.none 1 0x3FFF) (two 2 0) = some 0xFFC := by decide

/-- R381: JR to an address that is not a multiple of 4. -/
theorem test_jr_align : raised (.jr Hdr.none 1) (two 0x1002 0) = (0x0C, 0x1002) := by decide

/-- R425: TRAP raises TRAP_INSN with TADDR = sa. -/
theorem test_trap : raised (.trap Hdr.none 1) (two 9 0) = (0x16, 9) := by decide

/-- R95: TRAP on another sequencer is ILLEGAL_OP. -/
theorem test_trap_on_cm : raised (.trap Hdr.none 1) (word .cm .timed []) = (0x01, 0) := by decide

/-- R379: IDLE 1,000 puts the next word off by 1,000 cycles beyond the next. -/
theorem test_idle_delays :
    (match exec (.idle Hdr.none 1000) (two 0 0) with | .next t => ((t.core 0).seq .ct).base | _ => 0) = 1001 := by decide

/-- R399: MSEL of a selection above 8. -/
theorem test_msel_range : raised (.msel Hdr.none 9) (word .cm .gap []) = (0x102, 0) := by decide

/-- R364: SEQID reads the core's number in its upper bits and CT as 3. -/
theorem test_csrr_seqid : result (.csrr Hdr.none 3 0) (two 0 0) = some (1, 3) := by decide

/-- R365: a write of a read-only CSR is PERMISSION with the CSR's number. -/
theorem test_csrw_read_only : raised (.csrw Hdr.none 1 3) (two 0 0) = (0x0F, 3) := by decide

/-- R447: XSTAT of a send end with one permit, slot 0, and slot 1 reserved. -/
theorem test_xstat : result (.xstat Hdr.none 1 3) (channels 6 0) = some (1, 0x211) := by decide

/-- R385, R58: a load of device memory in a gap. -/
theorem test_load_in_gap : raised (.ldD Hdr.none 3 1 0) (word .ld .gap [(1, 0x2000)]) = (0x109, 0) := by decide

/-- R200: AMOC.MIN is signed, and CAS writes only where the expected value stands. -/
theorem test_amoc_new : amocNew 6 4 0xFFFFFFFF 1 0 = 0xFFFFFFFF ∧ amocNew 7 8 5 9 5 = 9 ∧ amocNew 7 8 6 9 5 = 6 ∧ amocNew 0 4 0xFFFFFFFF 1 0 = 0 := by decide

/-- R144: 1.0 + 2.0 and 1.0 − 0.5, as in the worked run of the operands' section. -/
theorem test_vadd_lanes :
    TileFn.add.lane true false 0x3F800000 0x40000000 0 = (0x40400000, 0) ∧ TileFn.add.lane true false 0x3F800000 0xBF000000 0 = (0x3F000000, 0) := by
  decide +kernel

/-- R144: VMIN takes −0 for less than +0; R143: a NaN input gives the canonical NaN and NANIN. -/
theorem test_vmin_lanes :
    TileFn.min.lane true false 0 0x80000000 0 = (0x80000000, 0) ∧ TileFn.max.lane true false 0xFFC00001 0x3F800000 0 = (0x7FC00000, 0x100) := by
  decide +kernel

/-- R141, R142: a subnormal input is read as zero in a timed region, with FLUSH, and as itself elsewhere. -/
theorem test_flush :
    TileFn.add.lane true false 1 0 0 = (0, 0x200) ∧ TileFn.add.lane false false 1 0 0 = (1, 0) := by
  decide +kernel

/-- R149: the tree sum of a row that holds 2^24, 0, 1.0 and 1.0 is 2^24 + 2. -/
theorem test_vredr_tree :
    reduce .add true ([0x4B800000, 0, 0x3F800000, 0x3F800000] ++ List.replicate 60 0) = (0x4B800001, 0) := by
  decide +kernel

/-- R199: two pairs of one index merge in a window of two, so that 2^24 + (1.0 + 1.0) is exact. -/
theorem test_sacc_window :
    SaccCmd.column { saccCmd none [] 0 [] with flushing := true } false 0x4B800000 [0x3F800000, 0x3F800000] = (0x4B800001, 0) ∧ fpAdd true 0x3F800000 0x3F800000 = (0x40000000, 0) ∧
    fpAdd true 0x4B800000 0x40000000 = (0x4B800001, 0) ∧ fpAdd true 0x4B800000 0x3F800000 = (0x4B800000, 8) := by
  decide +kernel

/-- R165: BF16, M = 32, N = 128, K = 64: two tiles of 64 cycles each; F8A: tiles of 32 cycles. -/
theorem test_mma_length :
    (let m (f w : Nat) : MmaCmd := { mmaCmd none none with recA := shapeOf f 0 32 64 0 (64 * w), recB := shapeOf f 1 64 128 0 (128 * w), recC := shapeOf 0 2 32 128 0 512 }
     ((m 1 2).tiles, (m 1 2).tileLen) = (2, 64) ∧ ((m 3 1).tiles, (m 3 1).tileLen) = (2, 32)) := by
  decide +kernel

/-- R131: elements 0 to 3 of a 6-bit row whose bytes are 0x81, 0x30 and 0xFC are 0x01, 0x02, 0x03 and 0x3F. -/
theorem test_six_bit_elements :
    (List.range 4).map (shapeCode [(true, 0, [0x81, 0x30, 0xFC])] true (shapeOf 5 0 1 4 0 8) 0) = [0x01, 0x02, 0x03, 0x3F] := by
  decide +kernel

/-- R11, R18, R457: global core 1,745 lies in cluster 9 on die 5; DPL(0, 4) is 52. -/
theorem test_places : clusterOf 1745 = 9 ∧ dieOf 1745 = 5 ∧ dpl 0 4 = 52 := by decide

/-- R196: an arrival of the bytes still missing ends a generation. -/
theorem test_arrival : arriveWord 256 256 = 256 + 2 ^ 64 := by decide

/-- R72, R74: the step runs the word at the program counter: SUB s3, s4, s5 leaves its result due one cycle later. -/
theorem test_step_runs_word :
    (match step (onCore .ct (fetchedCore 0x0028C851 0)) with | .next t => (t.cur, ((t.core 0).seq .ct).pc, (t.core 0).acts.map Act.due) | _ => (none, 0, [])) =
      (none, 0x1004, [1]) := by
  decide

/-- The first instruction placed after reset is the one that runs. -/
theorem test_placed_word_runs :
    (match step (State.reset.withFetchWord 32 0x0028C851) with | .next t => ((t.core 0).acts.map Act.due, (t.core 0).faults) | _ => ([], [])) = ([1], []) := by
  decide

end Sys2Proof.Tests
end

section
/-! PROOFS. The scalar words (R348, R349, R361, R378, R386, R387, R393, R400, R407, R414, R416, R421, R448): their encodings, the values they
compute, and O1 and O2. -/

namespace Sys2Proof

open Sys2Proof.Laws

/-! ### Words of each format -/

section Encoding

variable {i : Instr} {first : W32} {f : Fields} (hr : Roundtrip.Statement i) (hf : Fields.ofWord first = f) (he : encodeFields i = some f)
  (hw : i.wf = true)
include hr hf he hw

/-- A word cut into the fields of an instruction's encoding decodes to the instruction, whatever word follows it. -/
theorem decodeWords_of_encoding (hs : secondWord i = none) (w : W32) : decodeWords first w = .ok i := by
  have h := hr hw f he w
  rwa [hs, ← hf] at h

/-- A pair of words, the first cut into the fields of an instruction's encoding, decodes to the instruction. -/
theorem decodeWords_of_pair {second : W32} (hs : secondWord i = some second) : decodeWords first second = .ok i := by
  have h := hr hw f he 0
  rwa [hs, ← hf] at h

end Encoding

/-- Format I: the low nine bits are one immediate (R75). -/
theorem Fields.ofWord_formatI (y : BitVec 4) (i : BitVec 3) (op : BitVec 6) (d a : BitVec 5) (k : BitVec 9) :
    Fields.ofWord (y ++ i ++ op ++ d ++ a ++ k) =
      { h := { y := y, i := i }, op := op, rd := d, ra := a, rb := k.extractLsb' 4 5, fn := k.extractLsb' 0 4 } := by
  rw [← Fields.ofWord_append, BitVec.append_assoc (x₂ := k.extractLsb' 4 5), join9]
  rfl

/-- Format W: the low 14 bits are one immediate (R75). -/
theorem Fields.ofWord_formatW (y : BitVec 4) (i : BitVec 3) (op : BitVec 6) (d : BitVec 5) (k : BitVec 14) :
    Fields.ofWord (y ++ i ++ op ++ d ++ k) =
      { h := { y := y, i := i }, op := op, rd := d, ra := k.extractLsb' 9 5, rb := k.extractLsb' 4 5, fn := k.extractLsb' 0 4 } := by
  have high : y ++ i ++ op ++ d ++ k.extractLsb' 9 5 ++ k.extractLsb' 4 5 = y ++ i ++ op ++ d ++ (k.extractLsb' 9 5 ++ k.extractLsb' 4 5) :=
    BitVec.append_assoc ..
  rw [← Fields.ofWord_append, high, BitVec.append_assoc (x₃ := k.extractLsb' 0 4), join14]
  rfl

/-- Format W with its high ten bits zero: the first word of a literal (R74). -/
theorem Fields.ofWord_literal (y : BitVec 4) (i : BitVec 3) (op : BitVec 6) (d : BitVec 5) (k : BitVec 4) :
    Fields.ofWord (y ++ i ++ op ++ d ++ 0#10 ++ k) = { h := { y := y, i := i }, op := op, rd := d, ra := 0, rb := 0, fn := k } := by
  rw [← Fields.ofWord_append, BitVec.append_assoc (x₂ := (0 : BitVec 5)) (x₃ := (0 : BitVec 5))]
  rfl

/-- A shift by an immediate: a mode of three bits and an amount of six (R80). -/
theorem Fields.ofWord_shift (y : BitVec 4) (i : BitVec 3) (op : BitVec 6) (d a : BitVec 5) (m : BitVec 3) (n : BitVec 6) :
    Fields.ofWord (y ++ i ++ op ++ d ++ a ++ m ++ n) =
      { h := { y := y, i := i }, op := op, rd := d, ra := a, rb := m ++ n.extractLsb' 4 2, fn := n.extractLsb' 0 4 } := by
  rw [← Fields.ofWord_append, BitVec.append_assoc (x₂ := m ++ _), BitVec.append_assoc (x₁ := m), join6]
  exact congrArg Fields.ofWord (BitVec.append_assoc ..)

/-- A BITS word: its fn is a sub and a width code (R80). -/
theorem Fields.ofWord_bits (y : BitVec 4) (i : BitVec 3) (op : BitVec 6) (d a b : BitVec 5) (m c : BitVec 2) :
    Fields.ofWord (y ++ i ++ op ++ d ++ a ++ b ++ m ++ c) = { h := { y := y, i := i }, op := op, rd := d, ra := a, rb := b, fn := m ++ c } := by
  rw [← Fields.ofWord_append]
  exact congrArg Fields.ofWord (BitVec.append_assoc ..)

/-- The modes of a shift by an immediate, bits [8:6], that stand for no shift: the odd ones, and 6 and 7 (R80). -/
theorem decodeShiftI_reserved {f : Fields} (hm : f.imm9.getLsbD 6 = true ∨ f.imm9.extractLsb' 7 2 = 3) :
    decodeShiftI f = .error (.reservedFn f.op) := by
  have hmode : f.rb.extractLsb' 2 3 = f.imm9.extractLsb' 6 3 := (extract_append_high f.rb f.fn 2 3).symm
  have hbit : f.imm9.getLsbD 6 = (f.imm9.extractLsb' 6 3).getLsbD 0 := by simp
  have hhigh : f.imm9.extractLsb' 7 2 = (f.imm9.extractLsb' 6 3).extractLsb' 1 2 := by
    apply BitVec.eq_of_getLsbD_eq
    intro j hj
    simp [show 1 + j < 3 by omega, ← Nat.add_assoc]
  rw [hbit, hhigh, ← hmode] at hm
  have unassigned : ∀ m : BitVec 3, m.getLsbD 0 = true ∨ m.extractLsb' 1 2 = 3 → m = 1 ∨ m = 3 ∨ m = 5 ∨ m = 6 ∨ m = 7 := by decide
  unfold decodeShiftI
  obtain e | e | e | e | e := unassigned _ hm <;> rw [e] <;> rfl

/-- No word of OP 0x0D with a reserved mode is an instruction (R80). -/
theorem decodeWords_shift_reserved (y : BitVec 4) (i : BitVec 3) (d a : BitVec 5) (k : BitVec 9) (w : W32)
    (hk : k.getLsbD 6 = true ∨ k.extractLsb' 7 2 = 3) : ∃ why, decodeWords (y ++ i ++ 0x0D#6 ++ d ++ a ++ k) w = .error why := by
  unfold decodeWords
  rw [Fields.ofWord_formatI]
  exact ⟨_, decodeShiftI_reserved (by rwa [Fields.imm9, join9])⟩

/-- No word of OP 0x07 with the reserved sub is an instruction (R80). -/
theorem decodeWords_bits_reserved (y : BitVec 4) (i : BitVec 3) (d a b : BitVec 5) (c : BitVec 2) (w : W32) :
    decodeWords (y ++ i ++ 0x07#6 ++ d ++ a ++ b ++ 3#2 ++ c) w = .error (.reservedFn 7) := by
  unfold decodeWords
  rw [Fields.ofWord_bits]
  change decodeBits _ = _
  simp only [decodeBits, (pair_width _ _).1]
  rfl

end Sys2Proof

namespace Sys2Proof.Machine

open Sys2Proof.Laws

/-! ### What the words compute -/

theorem shiftBy_eq (v : W64) : shiftBy v = (v.extractLsb' 0 6).toNat := by simp [shiftBy]

theorem shiftLeft_eq_ofNat (u : W64) (n : Nat) : u <<< n = BitVec.ofNat 64 (u.toNat * 2 ^ n) := by
  apply BitVec.eq_of_toNat_eq
  rw [BitVec.toNat_shiftLeft, Nat.shiftLeft_eq, BitVec.toNat_ofNat]

theorem shiftRight_eq_ofNat (u : W64) (n : Nat) : u >>> n = BitVec.ofNat 64 (u.toNat / 2 ^ n) := by
  rw [← Nat.shiftRight_eq_div_pow, ← BitVec.toNat_ushiftRight, BitVec.ofNat_toNat, BitVec.setWidth_eq]

theorem sshiftRight_eq_ofInt (u : W64) (n : Nat) : u.sshiftRight n = BitVec.ofInt 64 (u.toInt / 2 ^ n) := by
  rw [BitVec.sshiftRight_eq, Int.shiftRight_eq_div_pow, Nat.cast_pow]
  rfl

theorem boolW_decide (p : Prop) [Decidable p] : boolW (decide p) = if p then 1 else 0 := by simp [boolW]

/-- The word whose value in an order is less is the one of the least value. -/
theorem ite_lt_eq_min {α : Type} [LinearOrder α] {val : W64 → α} {ofVal : α → W64} (hv : ∀ u, ofVal (val u) = u) (u v : W64) :
    (if decide (val u < val v) then u else v) = ofVal (min (val u) (val v)) := by
  simp only [decide_eq_true_eq, min_def_lt, apply_ite ofVal, hv]

/-- The word whose value in an order is not less is the one of the greatest value. -/
theorem ite_lt_eq_max {α : Type} [LinearOrder α] {val : W64 → α} {ofVal : α → W64} (hv : ∀ u, ofVal (val u) = u) (u v : W64) :
    (if decide (val u < val v) then v else u) = ofVal (max (val u) (val v)) := by
  simp only [decide_eq_true_eq, max_def_lt, apply_ite ofVal, hv]

theorem slt_signExtend (u : W64) (k : BitVec 9) : u.slt (k.signExtend 64) = decide (u.toInt < k.toInt) := by
  rw [BitVec.slt_eq_decide, BitVec.toInt_signExtend_of_le (by decide)]

/-- LITH's literal stands above the low half of the register. -/
theorem append_low_half (k : W32) (v : W64) : k ++ v.extractLsb' 0 32 = BitVec.ofNat 64 (k.toNat * 2 ^ 32 + v.toNat % 2 ^ 32) := by
  apply BitVec.eq_of_toNat_eq
  have hlow : v.toNat % 2 ^ 32 < 2 ^ 32 := Nat.mod_lt _ (by decide)
  rw [BitVec.toNat_append, BitVec.extractLsb'_toNat, Nat.shiftRight_zero, BitVec.toNat_ofNat,
    ← Nat.shiftLeft_add_eq_or_of_lt hlow, Nat.shiftLeft_eq]
  have := k.isLt
  omega

/-! ### Elements of a register (R154) -/

/-- The elements of `mapElems` are the digits of a number in base 2 to the width. -/
theorem mapElems_eq_ofDigits (w total v : Nat) (f : Nat → Nat) :
    mapElems w total v f = Nat.ofDigits (2 ^ w) ((List.range (total / w)).map fun e => f (v / 2 ^ (w * e) % 2 ^ w)) := by
  rw [Nat.ofDigits_eq_sum_mapIdx, mapElems]
  congr 1
  apply List.ext_getElem <;> simp [pow_mul]

section Elements

variable {w total v e : Nat} {f : Nat → Nat} (hf : ∀ u, f u < 2 ^ w)
include hf

theorem mapElems_digits_lt : ∀ x ∈ (List.range (total / w)).map fun e => f (v / 2 ^ (w * e) % 2 ^ w), x < 2 ^ w := by
  simpa using fun e _ => hf _

theorem mapElems_lt (hw : 0 < w) : mapElems w total v f < 2 ^ total := by
  have h := Nat.ofDigits_lt_base_pow_length (Nat.one_lt_two_pow hw.ne') (mapElems_digits_lt hf (total := total) (v := v))
  rw [← mapElems_eq_ofDigits, List.length_map, List.length_range, ← pow_mul] at h
  exact h.trans_le (Nat.pow_le_pow_right two_pos (Nat.mul_div_le total w))

/-- An element of `mapElems` is what its function makes of the same element. -/
theorem mapElems_elem (he : e < total / w) : mapElems w total v f / 2 ^ (w * e) % 2 ^ w = f (v / 2 ^ (w * e) % 2 ^ w) := by
  rw [mapElems_eq_ofDigits, pow_mul 2 w e, Nat.ofDigits_div_pow_eq_ofDigits_drop e (Nat.two_pow_pos w) _ (mapElems_digits_lt hf),
    List.drop_eq_getElem_cons (by simpa using he), Nat.ofDigits_cons, Nat.add_mul_mod_self_left, Nat.mod_eq_of_lt (by simpa using hf _)]
  simp [pow_mul]

/-- An element of a register that holds `mapElems`. -/
theorem w64_mapElems_elem (hw : 0 < w) (he : e < 64 / w) :
    (w64 (mapElems w 64 v f)).toNat / 2 ^ (w * e) % 2 ^ w = f (v / 2 ^ (w * e) % 2 ^ w) := by
  rw [w64, BitVec.toNat_ofNat, Nat.mod_eq_of_lt (mapElems_lt hf hw), mapElems_elem hf he]

end Elements

/-! ### The counts of an element (R361, R378, R407) -/

theorem countLeading_le (w u : Nat) : countLeading w u ≤ w := by
  unfold countLeading
  split <;> omega

/-- An element stands below the bit that its leading zeros end at, and at or above the next, if there is one. -/
theorem countLeading_bounds {w u : Nat} (hu : u < 2 ^ w) :
    u < 2 ^ (w - countLeading w u) ∧ (countLeading w u < w → 2 ^ (w - countLeading w u - 1) ≤ u) := by
  unfold countLeading
  by_cases h : u = 0
  · simp [h]
  · have hlog : u.log2 < w := (Nat.log2_lt h).mpr hu
    have hwidth : w - (w - 1 - u.log2) = u.log2 + 1 := by omega
    rw [if_neg h, hwidth]
    exact ⟨Nat.lt_log2_self, fun _ => Nat.log2_self_le h⟩

/-- The lowest set bit is at `findFirst`, which is the width where there is none. -/
theorem findFirst_lowest (w u : Nat) : findFirst w u ≤ w ∧ (∀ i, i < findFirst w u → u.testBit i = false) ∧
    (findFirst w u < w → u.testBit (findFirst w u) = true) := by
  have hbit (i : Nat) : (u / 2 ^ i % 2 == 1) = u.testBit i := Nat.testBit_eq_decide_div_mod_eq.symm
  unfold findFirst
  simp only [hbit]
  cases hfind : (List.range w).find? u.testBit with
  | none => simpa using hfind
  | some j =>
    obtain ⟨hj, hw, hlow⟩ := List.find?_range_eq_some.mp hfind
    exact ⟨(List.mem_range.mp hw).le, by simpa using hlow, fun _ => hj⟩

/-- The bits of a number summed are its set bits counted. -/
theorem sum_bits_eq_countP (u : Nat) (l : List Nat) : (l.map fun i => u / 2 ^ i % 2).sum = l.countP fun i => u.testBit i := by
  induction l with
  | nil => rfl
  | cons i l ih =>
    rw [List.map_cons, List.sum_cons, ih, List.countP_cons, Nat.testBit_eq_decide_div_mod_eq]
    rcases Nat.mod_two_eq_zero_or_one (u / 2 ^ i) with e | e <;> simp [e, Nat.add_comm]

theorem countOnes_eq_countP (w u : Nat) : countOnes w u = (List.range w).countP fun i => u.testBit i := sum_bits_eq_countP u _

theorem countOnes_le (w u : Nat) : countOnes w u ≤ w := by
  rw [countOnes_eq_countP]
  exact List.countP_le_length.trans_eq List.length_range

theorem bitsWidth_pos (c : BitVec 2) : 0 < bitsWidth c := by unfold bitsWidth; positivity

/-! ### The statements -/

/-- A word that yields a register's value yields it under any name of that value. -/
theorem State.Yields.value {s : State} {h : Hdr} {x : Ctx} {d : BitVec 5} {v w : W64} {lat : Nat} {i : Instr}
    (hy : s.Yields i (x.writes s h d v lat) x.c) (e : v = w) : s.Yields i (x.writes s h d w lat) x.c := e ▸ hy

/-- A BITS word replaces each element by its count. -/
theorem yields_scalarBits {s : State} {h : Hdr} {x : Ctx} {d a : BitVec 5} {c : BitVec 2} {f : Nat → Nat → Nat} {i : Instr}
    (ha : s.AtWord h x allSeqs everywhere [d, a]) (he : exec i s = scalarBits h d a c f s) :
    s.Yields i (x.writes s h d (w64 (mapElems (bitsWidth c) 64 (x.reg a).toNat (f (bitsWidth c)))) 1) x.c := yields_scalarI ha he

/-- Settles O1: each encoding by its fields, each result by the form of its word and the value it computes. -/
theorem aluWords : Obligations.AluWords := by
  refine ⟨fun y i d a b w => ?_, fun y i d a k n w => ?_, fun s h x d a b ha => ?_, fun s h x d a k n ha => ?_⟩
  · have formR (fn : BitVec 4) := Fields.ofWord_append y i 0x05#6 d a b fn
    exact ⟨decodeWords_of_encoding (Roundtrip.add _ d a b) (formR 0) rfl rfl rfl w,
      decodeWords_of_encoding (Roundtrip.sub _ d a b) (formR 1) rfl rfl rfl w,
      decodeWords_of_encoding (Roundtrip.and _ d a b) (formR 2) rfl rfl rfl w,
      decodeWords_of_encoding (Roundtrip.or _ d a b) (formR 3) rfl rfl rfl w,
      decodeWords_of_encoding (Roundtrip.xor _ d a b) (formR 4) rfl rfl rfl w,
      decodeWords_of_encoding (Roundtrip.shl _ d a b) (formR 5) rfl rfl rfl w,
      decodeWords_of_encoding (Roundtrip.shr _ d a b) (formR 6) rfl rfl rfl w,
      decodeWords_of_encoding (Roundtrip.sra _ d a b) (formR 7) rfl rfl rfl w,
      decodeWords_of_encoding (Roundtrip.slt _ d a b) (formR 8) rfl rfl rfl w,
      decodeWords_of_encoding (Roundtrip.sltu _ d a b) (formR 9) rfl rfl rfl w,
      decodeWords_of_encoding (Roundtrip.min _ d a b) (formR 10) rfl rfl rfl w,
      decodeWords_of_encoding (Roundtrip.max _ d a b) (formR 11) rfl rfl rfl w,
      decodeWords_of_encoding (Roundtrip.minu _ d a b) (formR 12) rfl rfl rfl w,
      decodeWords_of_encoding (Roundtrip.maxu _ d a b) (formR 13) rfl rfl rfl w⟩
  · have formI (op : BitVec 6) := Fields.ofWord_formatI y i op d a k
    have shift (m : BitVec 3) := Fields.ofWord_shift y i 0x0D#6 d a m n
    exact ⟨decodeWords_of_encoding (Roundtrip.ori _ d a k) (formI 0x0A#6) rfl rfl rfl w,
      decodeWords_of_encoding (Roundtrip.xori _ d a k) (formI 0x0B#6) rfl rfl rfl w,
      decodeWords_of_encoding (Roundtrip.slti _ d a k) (formI 0x0C#6) rfl rfl rfl w,
      decodeWords_of_encoding (Roundtrip.shli _ d a n) (shift 0#3) rfl rfl rfl w,
      decodeWords_of_encoding (Roundtrip.shri _ d a n) (shift 2#3) rfl rfl rfl w,
      decodeWords_of_encoding (Roundtrip.srai _ d a n) (shift 4#3) rfl rfl rfl w,
      decodeWords_shift_reserved y i d a k w⟩
  · have amount := shiftBy_eq (x.reg b)
    exact ⟨yields_scalarR ha (exec_add h d a b s), yields_scalarR ha (exec_sub h d a b s), yields_scalarR ha (exec_and h d a b s),
      yields_scalarR ha (exec_or h d a b s), yields_scalarR ha (exec_xor h d a b s),
      (yields_scalarR ha (exec_shl h d a b s)).value (amount ▸ shiftLeft_eq_ofNat _ _),
      (yields_scalarR ha (exec_shr h d a b s)).value (amount ▸ shiftRight_eq_ofNat _ _),
      (yields_scalarR ha (exec_sra h d a b s)).value (amount ▸ sshiftRight_eq_ofInt _ _),
      (yields_scalarR ha (exec_slt h d a b s)).value (boolW_decide _), (yields_scalarR ha (exec_sltu h d a b s)).value (boolW_decide _),
      (yields_scalarR ha (exec_min h d a b s)).value (ite_lt_eq_min (fun _ => BitVec.ofInt_toInt) _ _),
      (yields_scalarR ha (exec_max h d a b s)).value (ite_lt_eq_max (fun _ => BitVec.ofInt_toInt) _ _),
      (yields_scalarR ha (exec_minu h d a b s)).value (ite_lt_eq_min (fun u => by simp) _ _),
      (yields_scalarR ha (exec_maxu h d a b s)).value (ite_lt_eq_max (fun u => by simp) _ _)⟩
  · exact ⟨(yields_scalarI ha (exec_ori h d a k s)).value rfl, (yields_scalarI ha (exec_xori h d a k s)).value rfl,
      (yields_scalarI ha (exec_slti h d a k s)).value (slt_signExtend (x.reg a) k ▸ boolW_decide _),
      (yields_scalarI ha (exec_shli h d a n s)).value (shiftLeft_eq_ofNat _ _),
      (yields_scalarI ha (exec_shri h d a n s)).value (shiftRight_eq_ofNat _ _),
      (yields_scalarI ha (exec_srai h d a n s)).value (sshiftRight_eq_ofInt _ _)⟩

/-- Settles O2: each encoding by its fields, each immediate and literal by the form of its word, and each count element by element. -/
theorem immediateAndBitWords : Obligations.ImmediateAndBitWords := by
  refine ⟨fun y i d a k l c v w => ?_, ⟨fun s h x d a k ha => ?_, fun s h x d k v ha => ?_⟩, fun s h x d a c ha => ?_⟩
  · have formI (op : BitVec 6) := Fields.ofWord_formatI y i op d a k
    have literal (op : BitVec 6) := Fields.ofWord_literal y i op d (v.extractLsb' 28 4)
    have bits (m : BitVec 2) := Fields.ofWord_bits y i 0x07#6 d a 0#5 m c
    exact ⟨decodeWords_of_encoding (Roundtrip.addi _ d a k) (formI 0x08#6) rfl rfl rfl w,
      decodeWords_of_encoding (Roundtrip.andi _ d a k) (formI 0x09#6) rfl rfl rfl w,
      decodeWords_of_encoding (Roundtrip.li _ d l) (Fields.ofWord_formatW y i 0x0E#6 d l) rfl rfl rfl w,
      decodeWords_of_pair (Roundtrip.lit _ d v) (literal 0x0F#6) rfl rfl rfl,
      decodeWords_of_pair (Roundtrip.lith _ d v) (literal 0x10#6) rfl rfl rfl,
      decodeWords_of_encoding (Roundtrip.clz _ d a c) (bits 0#2) rfl rfl rfl w,
      decodeWords_of_encoding (Roundtrip.ffs _ d a c) (bits 1#2) rfl rfl rfl w,
      decodeWords_of_encoding (Roundtrip.popc _ d a c) (bits 2#2) rfl rfl rfl w,
      _, decodeWords_bits_reserved y i d a 0#5 c w⟩
  · exact ⟨(yields_scalarI ha (exec_addi h d a k s)).value rfl, (yields_scalarI ha (exec_andi h d a k s)).value rfl⟩
  · have li : s.Yields (.li h d k) (x.writes s h d (k.signExtend 64) 1) x.c :=
      yields_writes (body := fun x s => x.go (x.land s d (k.signExtend 64) 1) 1) (issues_open ha fun _ hr => hr) (exec_li h d k s) rfl
    have lit := yields_scalarLit ha (exec_lit h d v s)
    have lith := yields_scalarLit ha (exec_lith h d v s)
    exact ⟨li, lit, append_low_half v (x.reg d) ▸ lith⟩
  · intro width part
    refine ⟨_, _, _, yields_scalarBits ha (exec_clz h d a c s), yields_scalarBits ha (exec_ffs h d a c s),
      yields_scalarBits ha (exec_popc h d a c s), fun e he => ?_⟩
    have elem {f : Nat → Nat} (hf : ∀ u, f u ≤ bitsWidth c) :
        part (w64 (mapElems (bitsWidth c) 64 (x.reg a).toNat f)) e = f (part (x.reg a) e) :=
      w64_mapElems_elem (fun u => (hf u).trans_lt Nat.lt_two_pow_self) (bitsWidth_pos c) he
    rw [elem (countLeading_le _), elem fun u => (findFirst_lowest _ u).1, elem (countOnes_le _)]
    exact ⟨⟨countLeading_le _ _, countLeading_bounds (Nat.mod_lt _ (Nat.two_pow_pos _))⟩, findFirst_lowest _ _, countOnes_eq_countP _ _⟩

end Sys2Proof.Machine
end

section
/-! PROOFS. The MULDIV words (R368, R398, R411): the values they compute, and O3. -/

namespace Sys2Proof.Machine

open Sys2Proof.Laws

/-! ### High halves of products (R398) -/

theorem mul_eq_ofNat (u v : W64) : u * v = BitVec.ofNat 64 (u.toNat * v.toNat) := by
  rw [BitVec.ofNat_mul, BitVec.ofNat_toNat, BitVec.ofNat_toNat, BitVec.setWidth_eq, BitVec.setWidth_eq]

/-- The high half of a number's 128 bits is the quotient by 2^64, signs included. -/
theorem high_half_ofInt (z : Int) : (BitVec.ofInt 128 z).extractLsb' 64 64 = BitVec.ofInt 64 (z / 2 ^ 64) := by
  apply BitVec.eq_of_toNat_eq
  rw [BitVec.extractLsb'_toNat, BitVec.toNat_ofInt, BitVec.toNat_ofInt, Nat.shiftRight_eq_div_pow]
  omega

theorem mulHigh_eq_high_half (u v : W64) : mulHigh u v = (u.signExtend 128 * v.signExtend 128).extractLsb' 64 64 := by
  rw [BitVec.signExtend, BitVec.signExtend, ← BitVec.ofInt_mul, high_half_ofInt, mulHigh]

theorem mulHighU_eq_high_half (u v : W64) : mulHighU u v = (u.setWidth 128 * v.setWidth 128).extractLsb' 64 64 := by
  rw [← BitVec.ofNat_toNat, ← BitVec.ofNat_toNat, ← BitVec.ofNat_mul, ← BitVec.ofInt_natCast, high_half_ofInt, mulHighU,
    ← BitVec.ofInt_natCast]
  norm_cast

/-! ### Signed quotients and remainders (R368, R411) -/

theorem divSigned_of_eq_zero {v : W64} (hv : v = 0) (u : W64) : divSigned u v = 0xFFFFFFFFFFFFFFFF := if_pos hv

theorem remSigned_of_eq_zero {v : W64} (hv : v = 0) (u : W64) : remSigned u v = u := if_pos hv

theorem divSigned_of_ne_zero {v : W64} (hv : v ≠ 0) (u : W64) : divSigned u v = u.sdiv v := by
  rw [divSigned, if_neg hv]
  apply BitVec.eq_of_toInt_eq
  rw [BitVec.toInt_ofInt, BitVec.toInt_sdiv]

theorem remSigned_of_ne_zero {v : W64} (hv : v ≠ 0) (u : W64) : remSigned u v = BitVec.ofInt 64 (u.toInt.tmod v.toInt) := if_neg hv

/-- Divisor times quotient plus remainder is the dividend, at the corners too. -/
theorem mul_divSigned_add_remSigned (u v : W64) : v * divSigned u v + remSigned u v = u := by
  by_cases hv : v = 0
  · rw [remSigned_of_eq_zero hv, hv, zero_mul, zero_add]
  · calc v * divSigned u v + remSigned u v
        = BitVec.ofInt 64 (v.toInt * u.toInt.tdiv v.toInt + u.toInt.tmod v.toInt) := by
          rw [divSigned, if_neg hv, remSigned_of_ne_zero hv, BitVec.ofInt_add, BitVec.ofInt_mul, BitVec.ofInt_toInt]
      _ = u := by rw [Int.mul_tdiv_add_tmod, BitVec.ofInt_toInt]

/-- −2^63 ÷ −1 overflows: the quotient keeps the dividend. -/
theorem divSigned_corner : divSigned 0x8000000000000000 0xFFFFFFFFFFFFFFFF = 0x8000000000000000 := by decide

theorem remSigned_corner : remSigned 0x8000000000000000 0xFFFFFFFFFFFFFFFF = 0 := by decide

theorem toInt_divSigned {u v : W64} (hv : v ≠ 0) (hc : ¬ (u = 0x8000000000000000 ∧ v = 0xFFFFFFFFFFFFFFFF)) :
    (divSigned u v).toInt = u.toInt.tdiv v.toInt := by
  rw [divSigned_of_ne_zero hv]
  exact BitVec.toInt_sdiv_of_ne_or_ne u v (not_and_or.mp hc)

theorem toInt_remSigned {v : W64} (hv : v ≠ 0) (u : W64) : (remSigned u v).toInt = u.toInt - v.toInt * u.toInt.tdiv v.toInt := by
  rw [remSigned_of_ne_zero hv, ← BitVec.toInt_srem, BitVec.ofInt_toInt, BitVec.toInt_srem, Int.tmod_def]

/-! ### Unsigned quotients and remainders (R368, R411) -/

theorem divUnsigned_of_eq_zero {v : W64} (hv : v = 0) (u : W64) : divUnsigned u v = 0xFFFFFFFFFFFFFFFF := if_pos hv

theorem remUnsigned_of_eq_zero {v : W64} (hv : v = 0) (u : W64) : remUnsigned u v = u := if_pos hv

theorem toNat_divUnsigned {v : W64} (hv : v ≠ 0) (u : W64) : (divUnsigned u v).toNat = u.toNat / v.toNat := by
  rw [divUnsigned, if_neg hv, BitVec.toNat_udiv]

theorem toNat_remUnsigned {v : W64} (hv : v ≠ 0) (u : W64) : (remUnsigned u v).toNat = u.toNat % v.toNat := by
  rw [remUnsigned, if_neg hv, BitVec.toNat_umod]

theorem mul_divUnsigned_add_remUnsigned (u v : W64) : v * divUnsigned u v + remUnsigned u v = u := by
  by_cases hv : v = 0
  · rw [remUnsigned_of_eq_zero hv, hv, zero_mul, zero_add]
  · apply BitVec.eq_of_toNat_eq
    rw [BitVec.toNat_add, BitVec.toNat_mul, toNat_divUnsigned hv, toNat_remUnsigned hv, Nat.mod_add_mod, Nat.div_add_mod,
      Nat.mod_eq_of_lt u.isLt]

/-! ### The statement -/

/-- Settles O3: each encoding by its fields, each product by the half of it that the word keeps, and each pair of quotient and remainder by the divisor:
zero, the overflow, or any other. -/
theorem mulDivWords : Obligations.MulDivWords := by
  refine ⟨fun y i d a b w => ?_, fun s h x d a b ha => ?_⟩
  · have formR (fn : BitVec 4) := Fields.ofWord_append y i 0x06#6 d a b fn
    exact ⟨decodeWords_of_encoding (Roundtrip.mul _ d a b) (formR 0) rfl rfl rfl w,
      decodeWords_of_encoding (Roundtrip.mulh _ d a b) (formR 1) rfl rfl rfl w,
      decodeWords_of_encoding (Roundtrip.mulhu _ d a b) (formR 2) rfl rfl rfl w,
      decodeWords_of_encoding (Roundtrip.div _ d a b) (formR 3) rfl rfl rfl w,
      decodeWords_of_encoding (Roundtrip.divu _ d a b) (formR 4) rfl rfl rfl w,
      decodeWords_of_encoding (Roundtrip.rem _ d a b) (formR 5) rfl rfl rfl w,
      decodeWords_of_encoding (Roundtrip.remu _ d a b) (formR 6) rfl rfl rfl w⟩
  · intro u v corner
    have signed_corner (hc : corner) : divSigned u v = u ∧ remSigned u v = 0 := by
      obtain ⟨hu, hv⟩ := hc
      exact ⟨hu ▸ hv ▸ divSigned_corner, hu ▸ hv ▸ remSigned_corner⟩
    have signed_else (hv : v ≠ 0) (hc : ¬ corner) : (divSigned u v).toInt = u.toInt.tdiv v.toInt ∧
        (remSigned u v).toInt = u.toInt - v.toInt * (divSigned u v).toInt :=
      ⟨toInt_divSigned hv hc, toInt_divSigned hv hc ▸ toInt_remSigned hv u⟩
    exact ⟨(yields_scalarR ha (exec_mul h d a b s)).value (mul_eq_ofNat u v),
      (yields_scalarR ha (exec_mulh h d a b s)).value (mulHigh_eq_high_half u v),
      (yields_scalarR ha (exec_mulhu h d a b s)).value (mulHighU_eq_high_half u v),
      ⟨divSigned u v, remSigned u v, yields_scalarR ha (exec_div h d a b s), yields_scalarR ha (exec_rem h d a b s),
        (mul_divSigned_add_remSigned u v).symm, fun hv => ⟨divSigned_of_eq_zero hv u, remSigned_of_eq_zero hv u⟩,
        signed_corner, signed_else⟩,
      ⟨divUnsigned u v, remUnsigned u v, yields_scalarR ha (exec_divu h d a b s), yields_scalarR ha (exec_remu h d a b s),
        (mul_divUnsigned_add_remUnsigned u v).symm, fun hv => ⟨divUnsigned_of_eq_zero hv u, remUnsigned_of_eq_zero hv u⟩,
        fun hv => ⟨toNat_divUnsigned hv u, toNat_remUnsigned hv u⟩⟩⟩

end Sys2Proof.Machine
end

section
/-! PROOFS. The encoder and the decoder (R72, R74, R81 to R94), and O30: a word's bytes give back its fields, each instruction's fields decode to it, and
the decoder takes a second word exactly where the encoder gives one. -/

namespace Sys2Proof

open Sys2Proof.Laws

/-- Every instruction's encoding decodes to it, whatever word follows one that has no second word. -/
theorem Roundtrip.all : ∀ i, Roundtrip.Statement i
  | .nop _ => Roundtrip.nop _
  | .trap _ _ => Roundtrip.trap _ _
  | .eret _ => Roundtrip.eret _
  | .eretSa _ _ => Roundtrip.eretSa _ _
  | .brk _ => Roundtrip.brk _
  | .fenceFull _ _ => Roundtrip.fenceFull _ _
  | .fenceAcq _ _ => Roundtrip.fenceAcq _ _
  | .fenceRel _ _ => Roundtrip.fenceRel _ _
  | .xfence _ => Roundtrip.xfence _
  | .step _ _ => Roundtrip.step _ _
  | .realign _ _ => Roundtrip.realign _ _
  | .rcmt _ _ _ => Roundtrip.rcmt _ _ _
  | .tail _ => Roundtrip.tail _
  | .msel _ _ => Roundtrip.msel _ _
  | .idle _ _ => Roundtrip.idle _ _
  | .rgnT _ _ _ _ => Roundtrip.rgnT _ _ _ _
  | .rgn _ _ _ _ => Roundtrip.rgn _ _ _ _
  | .csrr _ _ _ => Roundtrip.csrr _ _ _
  | .csrw _ _ _ => Roundtrip.csrw _ _ _
  | .add _ _ _ _ => Roundtrip.add _ _ _ _
  | .sub _ _ _ _ => Roundtrip.sub _ _ _ _
  | .and _ _ _ _ => Roundtrip.and _ _ _ _
  | .or _ _ _ _ => Roundtrip.or _ _ _ _
  | .xor _ _ _ _ => Roundtrip.xor _ _ _ _
  | .shl _ _ _ _ => Roundtrip.shl _ _ _ _
  | .shr _ _ _ _ => Roundtrip.shr _ _ _ _
  | .sra _ _ _ _ => Roundtrip.sra _ _ _ _
  | .slt _ _ _ _ => Roundtrip.slt _ _ _ _
  | .sltu _ _ _ _ => Roundtrip.sltu _ _ _ _
  | .min _ _ _ _ => Roundtrip.min _ _ _ _
  | .max _ _ _ _ => Roundtrip.max _ _ _ _
  | .minu _ _ _ _ => Roundtrip.minu _ _ _ _
  | .maxu _ _ _ _ => Roundtrip.maxu _ _ _ _
  | .mul _ _ _ _ => Roundtrip.mul _ _ _ _
  | .mulh _ _ _ _ => Roundtrip.mulh _ _ _ _
  | .mulhu _ _ _ _ => Roundtrip.mulhu _ _ _ _
  | .div _ _ _ _ => Roundtrip.div _ _ _ _
  | .divu _ _ _ _ => Roundtrip.divu _ _ _ _
  | .rem _ _ _ _ => Roundtrip.rem _ _ _ _
  | .remu _ _ _ _ => Roundtrip.remu _ _ _ _
  | .clz _ _ _ _ => Roundtrip.clz _ _ _ _
  | .ffs _ _ _ _ => Roundtrip.ffs _ _ _ _
  | .popc _ _ _ _ => Roundtrip.popc _ _ _ _
  | .addi _ _ _ _ => Roundtrip.addi _ _ _ _
  | .andi _ _ _ _ => Roundtrip.andi _ _ _ _
  | .ori _ _ _ _ => Roundtrip.ori _ _ _ _
  | .xori _ _ _ _ => Roundtrip.xori _ _ _ _
  | .slti _ _ _ _ => Roundtrip.slti _ _ _ _
  | .shli _ _ _ _ => Roundtrip.shli _ _ _ _
  | .shri _ _ _ _ => Roundtrip.shri _ _ _ _
  | .srai _ _ _ _ => Roundtrip.srai _ _ _ _
  | .li _ _ _ => Roundtrip.li _ _ _
  | .lit _ _ _ => Roundtrip.lit _ _ _
  | .lith _ _ _ => Roundtrip.lith _ _ _
  | .ldB _ _ _ _ => Roundtrip.ldB _ _ _ _
  | .ldBu _ _ _ _ => Roundtrip.ldBu _ _ _ _
  | .ldH _ _ _ _ => Roundtrip.ldH _ _ _ _
  | .ldHu _ _ _ _ => Roundtrip.ldHu _ _ _ _
  | .ldW _ _ _ _ => Roundtrip.ldW _ _ _ _
  | .ldWu _ _ _ _ => Roundtrip.ldWu _ _ _ _
  | .ldD _ _ _ _ => Roundtrip.ldD _ _ _ _
  | .ldDAq _ _ _ _ => Roundtrip.ldDAq _ _ _ _
  | .stB _ _ _ _ => Roundtrip.stB _ _ _ _
  | .stH _ _ _ _ => Roundtrip.stH _ _ _ _
  | .stW _ _ _ _ => Roundtrip.stW _ _ _ _
  | .stD _ _ _ _ => Roundtrip.stD _ _ _ _
  | .stWRl _ _ _ _ => Roundtrip.stWRl _ _ _ _
  | .stDRl _ _ _ _ => Roundtrip.stDRl _ _ _ _
  | .amocAdd _ _ _ _ _ => Roundtrip.amocAdd _ _ _ _ _
  | .amocAnd _ _ _ _ _ => Roundtrip.amocAnd _ _ _ _ _
  | .amocOr _ _ _ _ _ => Roundtrip.amocOr _ _ _ _ _
  | .amocXor _ _ _ _ _ => Roundtrip.amocXor _ _ _ _ _
  | .amocXchg _ _ _ _ _ => Roundtrip.amocXchg _ _ _ _ _
  | .amocMax _ _ _ _ _ => Roundtrip.amocMax _ _ _ _ _
  | .amocMin _ _ _ _ _ => Roundtrip.amocMin _ _ _ _ _
  | .amocCas _ _ _ _ _ => Roundtrip.amocCas _ _ _ _ _
  | .beq _ _ _ _ => Roundtrip.beq _ _ _ _
  | .bne _ _ _ _ => Roundtrip.bne _ _ _ _
  | .blt _ _ _ _ => Roundtrip.blt _ _ _ _
  | .bge _ _ _ _ => Roundtrip.bge _ _ _ _
  | .bltu _ _ _ _ => Roundtrip.bltu _ _ _ _
  | .bgeu _ _ _ _ => Roundtrip.bgeu _ _ _ _
  | .beqz _ _ _ => Roundtrip.beqz _ _ _
  | .bnez _ _ _ => Roundtrip.bnez _ _ _
  | .loop _ _ _ => Roundtrip.loop _ _ _
  | .jmp _ _ => Roundtrip.jmp _ _
  | .jal _ _ => Roundtrip.jal _ _
  | .jr _ _ => Roundtrip.jr _ _
  | .bstat _ _ _ _ => Roundtrip.bstat _ _ _ _
  | .vadd _ _ _ _ _ => Roundtrip.vadd _ _ _ _ _
  | .vsub _ _ _ _ _ => Roundtrip.vsub _ _ _ _ _
  | .vmul _ _ _ _ _ => Roundtrip.vmul _ _ _ _ _
  | .vmin _ _ _ _ _ => Roundtrip.vmin _ _ _ _ _
  | .vmax _ _ _ _ _ => Roundtrip.vmax _ _ _ _ _
  | .vabsd _ _ _ _ _ => Roundtrip.vabsd _ _ _ _ _
  | .vmov _ _ _ _ => Roundtrip.vmov _ _ _ _
  | .vsel _ _ _ _ => Roundtrip.vsel _ _ _ _
  | .vfma _ _ _ _ _ => Roundtrip.vfma _ _ _ _ _
  | .vfms _ _ _ _ _ => Roundtrip.vfms _ _ _ _ _
  | .vfnma _ _ _ _ _ => Roundtrip.vfnma _ _ _ _ _
  | .viadd _ _ _ _ _ => Roundtrip.viadd _ _ _ _ _
  | .visub _ _ _ _ _ => Roundtrip.visub _ _ _ _ _
  | .vimul _ _ _ _ _ => Roundtrip.vimul _ _ _ _ _
  | .vimin _ _ _ _ _ => Roundtrip.vimin _ _ _ _ _
  | .vimax _ _ _ _ _ => Roundtrip.vimax _ _ _ _ _
  | .vand _ _ _ _ _ => Roundtrip.vand _ _ _ _ _
  | .vor _ _ _ _ _ => Roundtrip.vor _ _ _ _ _
  | .vxor _ _ _ _ _ => Roundtrip.vxor _ _ _ _ _
  | .vshl _ _ _ _ _ => Roundtrip.vshl _ _ _ _ _
  | .vshr _ _ _ _ _ => Roundtrip.vshr _ _ _ _ _
  | .vsra _ _ _ _ _ => Roundtrip.vsra _ _ _ _ _
  | .vclz _ _ _ _ _ => Roundtrip.vclz _ _ _ _ _
  | .vffs _ _ _ _ _ => Roundtrip.vffs _ _ _ _ _
  | .vpopc _ _ _ _ _ => Roundtrip.vpopc _ _ _ _ _
  | .vcmpFeq _ _ _ _ _ => Roundtrip.vcmpFeq _ _ _ _ _
  | .vcmpFlt _ _ _ _ _ => Roundtrip.vcmpFlt _ _ _ _ _
  | .vcmpFle _ _ _ _ _ => Roundtrip.vcmpFle _ _ _ _ _
  | .vcmpFun _ _ _ _ _ => Roundtrip.vcmpFun _ _ _ _ _
  | .vcmpIeq _ _ _ _ _ => Roundtrip.vcmpIeq _ _ _ _ _
  | .vcmpIlt _ _ _ _ _ => Roundtrip.vcmpIlt _ _ _ _ _
  | .vcmpIltu _ _ _ _ _ => Roundtrip.vcmpIltu _ _ _ _ _
  | .vcvtNar _ _ _ _ _ _ _ => Roundtrip.vcvtNar _ _ _ _ _ _ _
  | .vcvtWid _ _ _ _ _ => Roundtrip.vcvtWid _ _ _ _ _
  | .vsfnExp2 _ _ _ _ => Roundtrip.vsfnExp2 _ _ _ _
  | .vsfnLog2 _ _ _ _ => Roundtrip.vsfnLog2 _ _ _ _
  | .vsfnRcp _ _ _ _ => Roundtrip.vsfnRcp _ _ _ _
  | .vsfnRsqrt _ _ _ _ => Roundtrip.vsfnRsqrt _ _ _ _
  | .vsfnSqrt _ _ _ _ => Roundtrip.vsfnSqrt _ _ _ _
  | .vsfnTanh _ _ _ _ => Roundtrip.vsfnTanh _ _ _ _
  | .vsfnSigm _ _ _ _ => Roundtrip.vsfnSigm _ _ _ _
  | .vsfnSilu _ _ _ _ => Roundtrip.vsfnSilu _ _ _ _
  | .vrotr _ _ _ _ _ => Roundtrip.vrotr _ _ _ _ _
  | .vrotrHi _ _ _ _ _ => Roundtrip.vrotrHi _ _ _ _ _
  | .vrotc _ _ _ _ _ => Roundtrip.vrotc _ _ _ _ _
  | .vbcr _ _ _ _ _ => Roundtrip.vbcr _ _ _ _ _
  | .vbcrHi _ _ _ _ _ => Roundtrip.vbcrHi _ _ _ _ _
  | .vbcc _ _ _ _ _ => Roundtrip.vbcc _ _ _ _ _
  | .vredrAdd _ _ _ _ => Roundtrip.vredrAdd _ _ _ _
  | .vredrMax _ _ _ _ => Roundtrip.vredrMax _ _ _ _
  | .vredrMin _ _ _ _ => Roundtrip.vredrMin _ _ _ _
  | .vredrIadd _ _ _ _ => Roundtrip.vredrIadd _ _ _ _
  | .vredcAdd _ _ _ _ => Roundtrip.vredcAdd _ _ _ _
  | .vredcMax _ _ _ _ => Roundtrip.vredcMax _ _ _ _
  | .vredcMin _ _ _ _ => Roundtrip.vredcMin _ _ _ _
  | .vredcIadd _ _ _ _ => Roundtrip.vredcIadd _ _ _ _
  | .vbcs _ _ _ _ => Roundtrip.vbcs _ _ _ _
  | .vext _ _ _ _ => Roundtrip.vext _ _ _ _
  | .vextHi _ _ _ _ => Roundtrip.vextHi _ _ _ _
  | .vrand _ _ _ _ => Roundtrip.vrand _ _ _ _
  | .osmx _ _ _ _ => Roundtrip.osmx _ _ _ _
  | .osmf _ _ _ => Roundtrip.osmf _ _ _
  | .pcfg _ _ _ => Roundtrip.pcfg _ _ _
  | .prwd _ _ => Roundtrip.prwd _ _
  | .shld _ _ _ => Roundtrip.shld _ _ _
  | .mma _ _ _ _ _ _ _ => Roundtrip.mma _ _ _ _ _ _ _
  | .lmma _ _ _ _ _ _ => Roundtrip.lmma _ _ _ _ _ _
  | .tbuildZ _ _ _ => Roundtrip.tbuildZ _ _ _
  | .tbuildC _ _ _ => Roundtrip.tbuildC _ _ _
  | .tbuildC2 _ _ _ => Roundtrip.tbuildC2 _ _ _
  | .tinv _ _ => Roundtrip.tinv _ _
  | .tspill _ _ _ => Roundtrip.tspill _ _ _
  | .tfill _ _ _ => Roundtrip.tfill _ _ _
  | .cbld _ _ => Roundtrip.cbld _ _
  | .epi _ _ => Roundtrip.epi _ _
  | .cpy _ _ => Roundtrip.cpy _ _
  | .saccFadd _ _ _ _ => Roundtrip.saccFadd _ _ _ _
  | .saccFmax _ _ _ _ => Roundtrip.saccFmax _ _ _ _
  | .saccFmin _ _ _ _ => Roundtrip.saccFmin _ _ _ _
  | .saccIadd _ _ _ _ => Roundtrip.saccIadd _ _ _ _
  | .arm _ _ _ => Roundtrip.arm _ _ _
  | .await _ _ _ => Roundtrip.await _ _ _
  | .arrv _ _ _ => Roundtrip.arrv _ _ _
  | .awaitX _ _ _ => Roundtrip.awaitX _ _ _
  | .xgrant _ _ _ _ => Roundtrip.xgrant _ _ _ _
  | .xsend _ _ _ _ => Roundtrip.xsend _ _ _ _
  | .xstat _ _ _ => Roundtrip.xstat _ _ _
  | .emit _ _ _ => Roundtrip.emit _ _ _
  | .mirr _ _ _ => Roundtrip.mirr _ _ _
  | .tsub _ _ _ => Roundtrip.tsub _ _ _
  | .qctl _ _ _ => Roundtrip.qctl _ _ _
  | .tlbiCasement _ => Roundtrip.tlbiCasement _
  | .tlbiPage _ => Roundtrip.tlbiPage _
  | .resultLands _ _ => Roundtrip.resultLands _ _
  | .loadValueLands _ => Roundtrip.loadValueLands _
  | .amocOldValueLands _ => Roundtrip.amocOldValueLands _
  | .regionAlignment _ => Roundtrip.regionAlignment _
  | .closingAlignment _ => Roundtrip.closingAlignment _
  | .realignVisible _ _ => Roundtrip.realignVisible _ _
  | .budgetExceeded _ => Roundtrip.budgetExceeded _
  | .taskBudgetExpiry _ => Roundtrip.taskBudgetExpiry _
  | .softErrorReexec _ _ => Roundtrip.softErrorReexec _ _
  | .dispatchDecision => Roundtrip.dispatchDecision
  | .queueRecordRead _ => Roundtrip.queueRecordRead _
  | .waitRecheck _ => Roundtrip.waitRecheck _
  | .markRecord _ => Roundtrip.markRecord _
  | .waitFaultTimeout _ => Roundtrip.waitFaultTimeout _
  | .preemptRequest _ => Roundtrip.preemptRequest _
  | .saveComplete _ => Roundtrip.saveComplete _
  | .saveFault _ => Roundtrip.saveFault _
  | .completionEntryWrite _ => Roundtrip.completionEntryWrite _
  | .cqInterrupt _ => Roundtrip.cqInterrupt _
  | .trackerEntryFree _ _ => Roundtrip.trackerEntryFree _ _
  | .heldEffectDrain _ _ => Roundtrip.heldEffectDrain _ _
  | .copyBeat _ _ => Roundtrip.copyBeat _ _
  | .portDrain _ _ => Roundtrip.portDrain _ _
  | .engineCommandStart _ _ => Roundtrip.engineCommandStart _ _
  | .mmaStep _ => Roundtrip.mmaStep _
  | .mmaComplete _ => Roundtrip.mmaComplete _
  | .lmmaLookup _ => Roundtrip.lmmaLookup _
  | .lmmaComplete _ => Roundtrip.lmmaComplete _
  | .tbuildComplete _ => Roundtrip.tbuildComplete _
  | .epiComplete _ => Roundtrip.epiComplete _
  | .saccUpdate _ => Roundtrip.saccUpdate _
  | .tinvComplete _ => Roundtrip.tinvComplete _
  | .tspillComplete _ => Roundtrip.tspillComplete _
  | .tfillComplete _ => Roundtrip.tfillComplete _
  | .grantArrival _ => Roundtrip.grantArrival _
  | .transomGroupLands _ => Roundtrip.transomGroupLands _
  | .mirrorAreaComplete _ _ => Roundtrip.mirrorAreaComplete _ _
  | .chunkAtEndpoint _ => Roundtrip.chunkAtEndpoint _
  | .translationWalk _ => Roundtrip.translationWalk _
  | .remoteStoreApply _ _ => Roundtrip.remoteStoreApply _ _
  | .migrationSwitch => Roundtrip.migrationSwitch
  | .fleetAnchorRewrite _ => Roundtrip.fleetAnchorRewrite _
  | .ptpSync _ => Roundtrip.ptpSync _
  | .holdover => Roundtrip.holdover
  | .ptpPortRebind => Roundtrip.ptpPortRebind
  | .sessionIngress _ _ _ => Roundtrip.sessionIngress _ _ _
  | .dieHeartbeat _ => Roundtrip.dieHeartbeat _
  | .dieLossDeclared _ => Roundtrip.dieLossDeclared _
  | .clockLockLoss _ => Roundtrip.clockLockLoss _
  | .hingeClockLoss => Roundtrip.hingeClockLoss
  | .powerOfferTick => Roundtrip.powerOfferTick
  | .powerRebalance => Roundtrip.powerRebalance
  | .thermalHoldEnter _ => Roundtrip.thermalHoldEnter _
  | .thermalHoldExit _ => Roundtrip.thermalHoldExit _
  | .hbmSlotService _ _ => Roundtrip.hbmSlotService _ _
  | .usageWindowClose _ => Roundtrip.usageWindowClose _
  | .usageRecordComplete _ => Roundtrip.usageRecordComplete _
  | .scrubUnitDone _ => Roundtrip.scrubUnitDone _
  | .bootStage => Roundtrip.bootStage
  | .vfFlr _ => Roundtrip.vfFlr _
  | .faultEntryWrite _ => Roundtrip.faultEntryWrite _
  | .hostAccess _ _ _ _ => Roundtrip.hostAccess _ _ _ _
  | .sublinkRetire _ _ => Roundtrip.sublinkRetire _ _
  | .start _ => Roundtrip.start _
  | .stop _ => Roundtrip.stop _
  | .setrd _ _ => Roundtrip.setrd _ _
  | .qwrWrite _ _ _ => Roundtrip.qwrWrite _ _ _
  | .create _ => Roundtrip.create _
  | .teardown _ => Roundtrip.teardown _
  | .drain _ => Roundtrip.drain _
  | .resume _ => Roundtrip.resume _
  | .clrsave _ => Roundtrip.clrsave _
  | .quotaWrite _ _ _ => Roundtrip.quotaWrite _ _ _
  | .warmReset => Roundtrip.warmReset
  | .coldReset => Roundtrip.coldReset
  | .retry _ _ => Roundtrip.retry _ _
  | .abort _ _ => Roundtrip.abort _ _
  | .htlbiCasement _ => Roundtrip.htlbiCasement _
  | .htlbiPage _ _ => Roundtrip.htlbiPage _ _
  | .s2invAll _ => Roundtrip.s2invAll _
  | .s2invIpa _ _ => Roundtrip.s2invIpa _ _
  | .sessionOpen _ => Roundtrip.sessionOpen _
  | .sessionClose _ => Roundtrip.sessionClose _
  | .sublinkTableWrite _ _ => Roundtrip.sublinkTableWrite _ _
  | .migrationStart _ _ _ => Roundtrip.migrationStart _ _ _
  | .migrationRelease => Roundtrip.migrationRelease
  | .fuseAdvance _ => Roundtrip.fuseAdvance _
  | .registerWrite _ _ _ _ => Roundtrip.registerWrite _ _ _ _
  | .instructionFetchComplete _ _ _ => Roundtrip.instructionFetchComplete _ _ _
  | .ethernetPortStateChange _ _ => Roundtrip.ethernetPortStateChange _ _
  | .firmwareRetirement _ => Roundtrip.firmwareRetirement _

/-- A word is put together again from its four bytes. -/
theorem wordOfBytes_extract (w : W32) :
    wordOfBytes (w.extractLsb' 0 8) (w.extractLsb' 8 8) (w.extractLsb' 16 8) (w.extractLsb' 24 8) = w := by
  unfold wordOfBytes
  rw [BitVec.extractLsb'_append_extractLsb'_eq_extractLsb' (by rfl), BitVec.extractLsb'_append_extractLsb'_eq_extractLsb' (by rfl),
    BitVec.extractLsb'_append_extractLsb'_eq_extractLsb' (by rfl)]
  exact BitVec.extractLsb'_eq_self

/-- A word is one of a pair by its OP alone. -/
theorem isPair_toWord (f : Fields) : isPair f.toWord = (f.op.toNat == 0x0f || f.op.toNat == 0x10) := by
  change ((Fields.ofWord f.toWord).op.toNat == 0x0f || (Fields.ofWord f.toWord).op.toNat == 0x10) = _
  rw [Fields.ofWord_toWord]

/-- No literal decodes before a word whose high bits are not zero (R74). -/
theorem decodeLit_error (mk : Hdr → BitVec 5 → W32 → Instr) (f : Fields) : ∃ why, decodeLit mk f 0xF0000000 = .error why := by
  unfold decodeLit
  split
  · exact ⟨_, rfl⟩
  · exact ⟨_, rfl⟩

/-- Fields that decode before any word are no pair's. -/
theorem isPair_eq_false_of_decodeFields {f : Fields} {i : Instr} (h : ∀ w, decodeFields f w = .ok i) : isPair f.toWord = false := by
  rw [isPair_toWord]
  by_contra hp
  rw [Bool.not_eq_false, Bool.or_eq_true, beq_iff_eq, beq_iff_eq] at hp
  have hw := h 0xF0000000
  unfold decodeFields at hw
  rcases hp with e | e <;> rw [e] at hw
  · obtain ⟨why, hl⟩ := decodeLit_error .lit f
    cases hl.symm.trans hw
  · obtain ⟨why, hl⟩ := decodeLit_error .lith f
    cases hl.symm.trans hw

/-- The instructions of two words are LIT and LITH, and their OPs are a pair's. -/
theorem isPair_of_secondWord {i : Instr} {f : Fields} {w : W32} (hf : encodeFields i = some f) (hs : secondWord i = some w) :
    isPair f.toWord = true := by
  rw [isPair_toWord]
  unfold secondWord at hs
  split at hs
  · cases hf; rfl
  · cases hf; rfl
  · cases hs

/-- The decoder on the bytes of one word. -/
theorem decode_word {w : W32} (h : isPair w = false) (rest : List W8) :
    decode (bytesOfWord w ++ rest) = (decodeWords w 0).map fun i => (i, rest) := by
  simp only [bytesOfWord, List.cons_append, List.nil_append, decode, wordOfBytes_extract, h, Bool.false_eq_true, if_false]

/-- The decoder on the bytes of a pair. -/
theorem decode_pair {w : W32} (h : isPair w = true) (second : W32) (rest : List W8) :
    decode (bytesOfWord w ++ (bytesOfWord second ++ rest)) = (decodeWords w second).map fun i => (i, rest) := by
  simp only [bytesOfWord, List.cons_append, List.nil_append, decode, wordOfBytes_extract, h, if_true]

/-- Settles O30: the cases are a word alone and a pair. -/
theorem encodingsRoundTrip : Obligations.EncodingsRoundTrip := by
  intro i rest ok hi
  obtain ⟨f, hf⟩ := Option.ne_none_iff_exists'.mp hi
  have hd := Roundtrip.all i ok f hf
  cases hs : secondWord i with
  | none =>
    simp only [hs, Option.getD_none] at hd
    have hb : encodeBytes i = bytesOfWord f.toWord := by simp [encodeBytes, encode, hf, hs]
    rw [hb, decode_word (isPair_eq_false_of_decodeFields hd), decodeWords, Fields.ofWord_toWord, hd]
    rfl
  | some w =>
    simp only [hs, Option.getD_some] at hd
    have hb : encodeBytes i = bytesOfWord f.toWord ++ bytesOfWord w := by simp [encodeBytes, encode, hf, hs]
    rw [hb, List.append_assoc, decode_pair (isPair_of_secondWord hf hs), decodeWords, Fields.ofWord_toWord, hd 0]
    rfl

end Sys2Proof
end

section
/-! PROOFS. The step of the machine, memory's bytes, and the states of a launch and of a reset: O31 to O34, O36 and O37. -/

namespace Sys2Proof

/-- Settles O31: each word decodes as it stands, by evaluation. -/
theorem writtenWordsDecode : Obligations.WrittenWordsDecode := by
  unfold Obligations.WrittenWordsDecode
  refine ⟨rfl, rfl, rfl, rfl, rfl, rfl, rfl, rfl, rfl, rfl, rfl, rfl, rfl, rfl, rfl, rfl, rfl, rfl, rfl, rfl, rfl, rfl, rfl, rfl, rfl, rfl, rfl, rfl,
    rfl, rfl, rfl, rfl, rfl, rfl, rfl, rfl, rfl, ⟨_, rfl⟩, ⟨_, rfl⟩⟩

end Sys2Proof

namespace Sys2Proof.Machine

/-! ### The step -/

theorem step_of_cur {s : State} {c : Nat} {q : SeqId} (h : s.cur = some (c, q)) : step s = s.runWord c q := by
  unfold step
  rw [h]

/-- The second word that a ready word is decoded with. -/
theorem second_word_eq {x : Seq} {f g : Fetched}
    (hp : isPair f.word = true → x.wordAt ((x.pc + 4) % 2 ^ 64) = some g ∧ g.fault = 0) (hn : isPair f.word = false → g = f) :
    (if isPair f.word then (x.wordAt ((x.pc + 4) % 2 ^ 64)).getD f else f) = g := by
  cases h : isPair f.word with
  | false => rw [if_neg (by decide), hn h]
  | true => rw [if_pos rfl, (hp h).1, Option.getD_some]

/-- A word at its issue, fetched without a fault and in time, is decoded with its second word. -/
theorem runWord_ready {s : State} {x : Ctx} {f g : Fetched} (hx : s.ctx = some x) (hf : x.x.ready? = some f)
    (h0 : f.fault = 0) (ht : x.k.place x.q = .timed → s.now ≤ x.x.dueAt f)
    (hg : (if isPair f.word then (x.x.wordAt ((x.x.pc + 4) % 2 ^ 64)).getD f else f) = g) (hg0 : g.fault = 0) :
    s.runWord x.c x.q =
      match decodeWords f.word g.word with
      | .error _ => .next (({ s with cur := none } : State).raise x.c (x.fault s cIllegalOp (w64 f.word.toNat)))
      | .ok i =>
        match exec i s with
        | .next t => .next { t with cur := none }
        | .fault r => .fault r
        | .refused r => .refused r := by
  have late : (x.k.place x.q == .timed && decide (x.x.dueAt f < s.now)) = false := by
    simpa using ht
  unfold State.runWord
  rw [hx]
  dsimp only
  rw [hf]
  dsimp only
  rw [if_neg (Bool.eq_false_iff.mp late), h0, hg, hg0]
  rfl

/-- Settles O32: the issue's checks passed, the step is the meaning of what the words decode to. -/
theorem stepRunsTheDecodedWord : Obligations.StepRunsTheDecodedWord := by
  intro s x f g hx hf h0 ht hp hn
  have hg0 : g.fault = 0 := by
    cases h : isPair f.word with
    | false => rw [hn h, h0]
    | true => exact (hp h).2
  have hrun := (step_of_cur (State.ctx_cur hx)).trans (runWord_ready hx hf h0 ht (second_word_eq hp hn) hg0)
  refine ⟨fun i hi => ?_, fun why hw => ?_⟩
  · rw [hi] at hrun
    refine ⟨fun t he => ?_, fun r he => ?_, fun r he => ?_⟩ <;> rw [hrun] <;> simp only [he]
  · rw [hw] at hrun
    rw [hrun, w64, BitVec.ofNat_toNat]

/-- With no word at its issue and no input, the step makes the first enabled move, or lets the cycle pass. -/
theorem step_of_moves {s : State} (hc : s.cur = none) (hi : s.takeInput = none) (hh : s.boot.hingeLost = false) :
    step s = match s.moves.findSome? fun p => p.move.run s with
      | some t => .next t
      | none => .next s.tick := by
  unfold step
  simp only [hc, hi, hh]
  rfl

/-- Settles O33: the moves are searched in their order. -/
theorem stepsMakeMovesThenTick : Obligations.StepsMakeMovesThenTick := by
  intro s hc hi hh
  have hs := step_of_moves hc hi hh
  refine ⟨fun p l r t hm hl hp => ?_, fun hnone => ⟨s.tick, ?_, rfl⟩⟩
  · have hfirst : s.moves.findSome? (fun p => p.move.run s) = some t := by
      rw [hm, List.findSome?_append, List.findSome?_eq_none_iff.mpr hl, Option.none_or, List.findSome?_cons_of_isSome (by simp [hp])]
      exact hp
    rw [hs, hfirst]
  · rw [hs, List.findSome?_eq_none_iff.mpr hnone]

/-! ### Bytes -/

/-- Settles O34 by what one write leaves at each address. -/
theorem bytesReadBack : Obligations.BytesReadBack := by
  intro m a bs
  refine ⟨?_, fun c hc => ?_, Cells.wf_write a bs⟩
  · apply List.ext_getElem
    · simp [Cells.read]
    · intro i _ hi
      simp only [Cells.read, List.getElem_map, List.getElem_range]
      rw [Cells.get_write_in hi, List.getD_eq_getElem _ _ hi]
  · rcases hc with hc | hc
    · exact Cells.get_write_below bs hc
    · exact Cells.get_write_above bs hc

/-! ### Launch and reset -/

/-- A list of one value reads as that value everywhere, where it is the default too. -/
theorem getD_replicate_self {α : Type} (v : α) (n i : Nat) : (List.replicate n v).getD i v = v := by
  rw [List.getD_eq_getElem?_getD]
  exact List.getElem?_getD_replicate_default_eq ..

theorem Core.reg_zero (k : Core) (q : SeqId) : k.reg q 0 = 0 := (k.seq q).reg_zero

/-- A sequencer replaced by itself changes no data of its core. -/
theorem Core.modSeq_sameData (k : Core) (q : SeqId) (f : Seq → Seq) (h : (f (k.seq q)).regs = (k.seq q).regs) : (k.modSeq q f).SameData k :=
  ⟨fun p r => (k.reg_modSeq q f h p r).symm, fun _ _ => rfl, rfl, rfl, rfl, rfl, rfl, fun _ => rfl, fun _ => rfl, rfl, rfl, rfl⟩

theorem Core.launch_seq (old : Core) (t : Task) (entries cores : List Nat) (rank c start now : Nat) (q : SeqId) :
    (old.launch t entries cores rank c start now).seq q = Seq.launched (entries.getD (seqIdx q) 0) (t.field 32 8) start := by
  cases q <;> rfl

theorem Seq.launched_reg_arg (entry arg start : Nat) : (Seq.launched entry arg start).reg 1 = w64 arg := rfl

theorem Seq.launched_reg_zero (entry arg start : Nat) {r : Nat} (h : 2 ≤ r) : (Seq.launched entry arg start).reg r = 0 := by
  obtain ⟨r, rfl⟩ := Nat.exists_eq_add_of_le' h
  exact getD_replicate_self (0 : W64) 30 r

/-- What outlives a task on a core is no port's parameters on their way. -/
theorem Core.launch_portSet (old : Core) (t : Task) (entries cores : List Nat) (rank c start now n : Nat) :
    (old.launch t entries cores rank c start now).portSet n = false := by
  have hport : ((List.replicate 8 Port.none).getD n Port.none).set = none := by
    rw [getD_replicate_self]
    rfl
  have hacts : ∀ a ∈ old.acts.filter Act.outlives, ∀ p b, a.pay ≠ .portLand p b := by
    intro a ha p b hp
    simp [Act.outlives, hp] at ha
  unfold Core.portSet
  rw [Bool.or_eq_false_iff]
  refine ⟨congrArg Option.isSome hport, List.any_eq_false.mpr fun a ha => ?_⟩
  split
  · exact absurd ‹_› (hacts a ha _ _)
  · exact Bool.false_ne_true

/-- Settles O36, by the launched sequencers and the idle core behind them. -/
theorem launchedCore : Obligations.LaunchedCore := by
  refine ⟨fun s c q v x t lat => ⟨Core.reg_zero _ q, Core.reg_zero _ q, ?_, x.x.reg_zero, if_pos rfl⟩, fun old t entries cores rank c start now => ?_⟩
  · exact Core.modSeq_sameData _ q _ rfl
  · intro k
    have hfirst : k.winFirst = 0 := show bits 0x10 3 0 = 0 by decide
    have hcount : k.winCount = 1 := show bits 0x10 8 4 = 1 by decide
    refine ⟨fun q => ?_, fun q r hr => ?_, fun _ _ => rfl, fun m => getD_replicate_self .., rfl, ?_, fun n => getD_replicate_self ..,
      Core.launch_portSet old t entries cores rank c start now, rfl, rfl, rfl, fun i => getD_replicate_self .., rfl, hfirst, hcount, rfl, rfl, rfl, rfl, rfl, rfl,
      rfl, rfl, ?_, fun _ => ⟨rfl, rfl⟩, rfl, rfl⟩
    · rw [Core.reg, Core.launch_seq]
      exact ⟨rfl, rfl, rfl⟩
    · rw [Core.reg, Core.launch_seq]
      exact Seq.launched_reg_zero _ _ _ hr
    · exact fun e he => List.eq_of_mem_replicate he ▸ rfl
    · exact fun e he => List.eq_of_mem_replicate he

/-- Settles O37: each clause by evaluation of the state after a cold reset. -/
theorem resetState : Obligations.ResetState := by
  have unlisted (r : Nat) : Seq.idle.reg r = 0 := by
    unfold Seq.reg
    split
    · rfl
    · exact getD_replicate_self ..
  have idle (q : SeqId) : Core.idle.seq q = Seq.idle := getD_replicate_self ..
  refine ⟨rfl, fun _ => rfl, rfl, rfl, rfl, fun k _ => ?_, fun _ => ⟨rfl, rfl, rfl⟩, fun _ => rfl, fun _ q r => ?_, by decide, rfl⟩
  · rw [State.casement, show State.reset.casements = List.replicate 16 Casement.reset from rfl, getD_replicate_self]
    exact ⟨rfl, rfl⟩
  · change (Core.idle.seq q).reg r = 0
    rw [idle, unlisted]

end Sys2Proof.Machine
end

section
/-! PROOFS. What becomes of a word at its issue, one lemma for each way its checks and its effect can turn out (R95). -/

namespace Sys2Proof.Machine

/-- A word's meaning with a gate that depends on nothing. -/
theorem exec_eq_issueAt {i : Instr} {h : Hdr} {g : Gate} {body : Ctx → State → Iss} {s : State} (he : exec i s = issue h g body s) :
    exec i s = issueAt h (fun _ => g) body s := he

section Outcomes

variable {i : Instr} {h : Hdr} {gate : Ctx → Gate} {body : Ctx → State → Iss} {s t : State} {x : Ctx} (he : exec i s = issueAt h gate body s)
include he

/-- A word whose effect goes through has issued. -/
theorem exec_issued {lat : Option Nat} {next extra : Nat} (hi : s.Issues h gate x) (hb : body x s = .ok t lat next extra) :
    exec i s = .next (x.issued h t lat next extra) := by
  rw [he, issueAt_of_issues hi, hb]; rfl

/-- A word whose effect cannot be accepted is held. -/
theorem exec_held (hi : s.Issues h gate x) (hb : body x s = .hold t) : exec i s = .next (x.held t) := by
  rw [he, issueAt_of_issues hi, hb]; rfl

/-- A word's own fault comes with its SYNC waits taken. -/
theorem exec_trap_late {code : Nat} {ta : W64} (hi : s.Issues h gate x) (hb : body x s = .trap code ta) :
    exec i s = .next ((x.taken s h).raise x.c (x.fault s code ta)) := by
  rw [he, issueAt_of_issues hi, hb]; rfl

/-- A word that its sequencer may not execute at all. -/
theorem exec_illegalOp (hx : s.ctx = some x) (hg : (gate x).illegalOp = true ∨ x.q ∉ (gate x).seqs) :
    exec i s = .next (s.raise x.c (x.fault s cIllegalOp (x.x.curWord.setWidth 64))) := by
  have hg : ((gate x).illegalOp || !(gate x).seqs.contains x.q) = true := by simpa using hg
  rw [he]
  unfold issueAt
  simp only [hx, hg, if_true]

/-- A word with an operand field out of range. -/
theorem exec_illegalOperand (hx : s.ctx = some x) (hop : (gate x).illegalOp = false) (hs : x.q ∈ (gate x).seqs)
    (hb : (gate x).operandBad = true) :
    exec i s = .next (s.raise x.c (x.fault s cIllegalOperand (x.x.curWord.setWidth 64))) := by
  have hg : ((gate x).illegalOp || !(gate x).seqs.contains x.q) = false := by simp [hop, hs]
  rw [he]
  unfold issueAt
  simp only [hx, hg, hb, if_true, Bool.false_eq_true, if_false]

/-- A word where it may not stand. -/
theorem exec_regionRule (hx : s.ctx = some x) (hop : (gate x).illegalOp = false) (hs : x.q ∈ (gate x).seqs)
    (hb : (gate x).operandBad = false) (hr : (gate x).ruleBad = true ∨ (gate x).admits (x.k.place x.q) = false) :
    exec i s = .next (s.raise x.c (x.fault s cRegionRule 0)) := by
  have hg : ((gate x).illegalOp || !(gate x).seqs.contains x.q) = false := by simp [hop, hs]
  have hr : ((gate x).ruleBad || !(gate x).admits (x.k.place x.q)) = true := by simpa using hr
  rw [he]
  unfold issueAt
  simp only [hx, hg, hb, hr, if_true, Bool.false_eq_true, if_false]

/-- A word that has issued leaves all that its effect leaves. -/
theorem yields_issued {lat : Option Nat} {next extra : Nat} (hi : s.Issues h gate x)
    (hb : body x s = .ok t lat next extra) (hf : s.OnlyCore t x.c) : s.Yields i (x.issued h t lat next extra) x.c :=
  ⟨exec_issued he hi hb, hf.trans (x.issued_onlyCore h t lat next extra)⟩

end Outcomes

end Sys2Proof.Machine
end

section
/-! PROOFS. The branches, jumps, JR and BSTAT (R356, R359, R380, R381, R391), and O4. -/

namespace Sys2Proof.Machine

theorem branchTarget_eq {w : Nat} (a : Nat) (k : BitVec w) : branchTarget a k = (((a : Int) + 4 * k.toInt) % 2 ^ 64).toNat := by
  rw [branchTarget, BitVec.toNat_ofInt]
  rfl

/-- A jump that is taken or not leaves all but the sequencer's place in the program. -/
theorem Ctx.goes_or_stays_onlyCore {x : Ctx} {s t : State} (h : Hdr) (p : Prop) [Decidable p] (tgt : Nat) (hf : s.OnlyCore t x.c) :
    s.OnlyCore (if p then x.issued h (x.goes t tgt) (some 1) tgt 0 else x.issued h t (some 1) (x.x.pc + 4) 0) x.c := by
  split
  · exact hf.trans ((x.goes_onlyCore t tgt).trans (x.issued_onlyCore h _ _ _ _))
  · exact hf.trans (x.issued_onlyCore h _ _ _ _)

/-- A word whose effect ends in a jump. -/
theorem yields_jump {s t : State} {h : Hdr} {x : Ctx} {g : Gate} {body : Ctx → State → Iss} {i : Instr} {taken : Bool} {tgt far : Nat}
    (he : exec i s = issue h g body s) (hi : s.Issues h (fun _ => g) x) (hb : body x s = x.jump t taken tgt) (ht : tgt = far)
    (hf : s.OnlyCore t x.c) {p : Prop} [Decidable p] (hp : taken = true ↔ p) :
    s.Yields i (if p then x.issued h (x.goes t far) (some 1) far 0 else x.issued h t (some 1) (x.x.pc + 4) 0) x.c := by
  subst ht
  refine ⟨?_, x.goes_or_stays_onlyCore h p tgt hf⟩
  by_cases hp' : p
  · rw [if_pos hp']
    exact exec_issued he hi (hb.trans (if_pos (hp.mpr hp')))
  · rw [if_neg hp']
    exact exec_issued he hi (hb.trans (if_neg (mt hp.mp hp')))

/-- A branch, by the condition it tests. -/
theorem yields_branch {s : State} {h : Hdr} {x : Ctx} {w : Nat} {k : BitVec w} {us : List (BitVec 5)} {taken : Ctx → Bool} {i : Instr}
    (ha : s.AtWord h x allSeqs everywhere us) (he : exec i s = branchWord h us k taken s) {p : Prop} [Decidable p] (hp : taken x = true ↔ p) :
    s.Yields i
      (if p then x.issued h (x.goes s (((x.x.pc : Int) + 4 * k.toInt) % 2 ^ 64).toNat) (some 1) (((x.x.pc : Int) + 4 * k.toInt) % 2 ^ 64).toNat 0
        else x.issued h s (some 1) (x.x.pc + 4) 0) x.c :=
  yields_jump he (issues_open ha fun _ hr => hr) rfl (branchTarget_eq x.x.pc k) (.refl s x.c) hp

/-- The link of JAL is noted in its sequencer alone. -/
theorem State.link_onlyCore (s : State) (c : Nat) (q : SeqId) (l : Option Nat) :
    s.OnlyCore (s.modCore c fun k => k.modSeq q fun y => { y with link := l }) c :=
  s.onlyCore_modCore c _ (Core.sameData_modSeq _ q _ rfl)

/-- Banks taken for a cycle change no data. -/
theorem State.claimBanks_onlyCore (s : State) (c now : Nat) (isA : Bool) (banks : List Nat) (issued : Nat) (q : SeqId) :
    s.OnlyCore (s.modCore c fun k => k.claimBanks now isA banks issued q) c :=
  s.onlyCore_modCore c _ ⟨fun _ _ => rfl, fun _ _ => rfl, rfl, rfl, rfl, rfl, rfl, fun _ => rfl, fun _ => rfl, rfl, rfl, rfl⟩

/-- Settles O4: each branch by its condition, JR and BSTAT by the checks of their operands. -/
theorem branches : Obligations.Branches := by
  refine ⟨fun s h x => ?_, fun s h x a b k ha => ?_⟩
  · intro far to_
    refine ⟨?_, ?_, fun k ha => ?_⟩
    · intro a b k ha u v
      exact ⟨yields_branch ha (exec_beq h a b k s) (by simp [u, v]), yields_branch ha (exec_bne h a b k s) (by simp [u, v]),
        yields_branch ha (exec_blt h a b k s) (by simp [u, v, BitVec.slt_eq_decide]), yields_branch ha (exec_bge h a b k s) (by simp [u, v, BitVec.slt_eq_decide]),
        yields_branch ha (exec_bltu h a b k s) (by simp [u, v, BitVec.ult_eq_decide]), yields_branch ha (exec_bgeu h a b k s) (by simp [u, v, BitVec.ult_eq_decide])⟩
    · intro a k ha u
      refine ⟨yields_branch ha (exec_beqz h a k s) (by simp [u]), yields_branch ha (exec_bnez h a k s) (by simp [u]), fun ha0 => ?_, fun ha0 => ?_⟩
      · have hi : s.Issues h (fun _ => { operandBad := a == 0, uses := [a] }) x :=
          ha.issues _ rfl (by simpa using ha0) rfl (fun q _ => mem_allSeqs q) (fun p _ => admits_open rfl rfl rfl rfl p) fun _ hr => hr
        exact yields_jump (exec_loop h a k s) hi rfl (branchTarget_eq x.x.pc k) (x.land_onlyCore s a (u - 1) 1) (by simp [u])
      · exact exec_illegalOperand (exec_eq_issueAt (exec_loop h a k s)) ha.here rfl (mem_allSeqs x.q) (by simpa using ha0)
    · refine ⟨yields_branch (ha.imp (us := []) (by simp)) (exec_jmp h k s) (by simp), ?_⟩
      exact yields_jump (exec_jal h k s) (issues_open ha fun _ hr => hr) rfl (branchTarget_eq x.x.pc k)
        ((s.link_onlyCore x.c x.q (some x.next)).trans (x.land_onlyCore _ 31 (w64 x.next) 1)) (by simp)
  · intro u off banks far seen
    have hjr : s.Issues h (fun _ => { uses := [a] }) x := issues_open ha (by simp)
    have hbs : s.Issues h (fun _ => { uses := [a, b] }) x := issues_open ha fun _ hr => hr
    have htgt : branchTarget x.x.pc k = far := branchTarget_eq x.x.pc k
    refine ⟨fun h4 => ?_, fun h4 => ?_, fun ha0 => ?_, fun ha0 h8 hin hfree => ?_, fun ha0 h8 => ?_, fun ha0 h8 hin => ?_⟩
    · exact yields_issued (exec_eq_issueAt (exec_jr h a s)) hjr (if_neg (by simpa [off, u] using h4)) (x.goes_onlyCore s off)
    · exact exec_trap_late (exec_eq_issueAt (exec_jr h a s)) hjr (if_pos (by simpa [off, u] using h4))
    · exact yields_jump (exec_bstat h a b k s) hbs (if_pos (by simpa using ha0)) htgt (.refl s x.c) bne_iff_ne
    · refine yields_jump (exec_bstat h a b k s) hbs ?_ htgt (s.claimBanks_onlyCore x.c s.now true banks s.now x.q) bne_iff_ne
      dsimp only
      rw [if_neg (by simpa using ha0), if_neg (by simpa using h8), if_neg (not_lt.mpr hin), hfree]
      rfl
    · refine exec_trap_late (exec_eq_issueAt (exec_bstat h a b k s)) hbs ?_
      dsimp only
      rw [if_neg (by simpa using ha0), if_pos (by simpa using h8)]
    · refine exec_trap_late (exec_eq_issueAt (exec_bstat h a b k s)) hbs ?_
      dsimp only
      rw [if_neg (by simpa using ha0), if_neg (by simpa using h8), if_pos hin]

end Sys2Proof.Machine
end

section
/-! PROOFS. Scalar accesses: LD (R383, R384), ST (R417 to R419) and AMOC (R350, R351), and O5 to O7. -/

namespace Sys2Proof.Machine

/-! ### Addresses -/

theorem Ctx.elemAddr_eq (x : Ctx) (a : BitVec 5) (n : BitVec 6) (size : Nat) :
    x.elemAddr a n size = ((x.reg a).toNat + n.toNat * size) % 2 ^ 64 := by
  rw [Ctx.elemAddr, BitVec.toNat_add, BitVec.toNat_ofNat, Nat.add_mod_mod]

/-- Below the capability page an address is translated (R3, R384). -/
theorem locate_memory {va : Nat} (h : va < 0xFD0000000000) (core size : Nat) : locate core va size = .memory := by
  simp [locate, h]

theorem addrClass_translated {va : Nat} (h : va < 0xFD0000000000) : addrClass va = .translated := by
  simp [addrClass, h]

/-- The core's own window lies at the top of the 48-bit space (R187). -/
theorem window_of_own {core va size : Nat} {isA : Bool} {off : Nat} (h : locate core va size = .own isA off) :
    0xFF0000000000 ≤ va ∧ va < 2 ^ 48 := by
  unfold locate at h
  split at h
  · cases h
  · split at h
    · split at h <;> cases h
    · split at h
      · dsimp only at h
        split at h
        · cases h
        · split at h <;> cases h
      · rename_i h1 _ h3
        simp only [Bool.or_eq_true, decide_eq_true_eq, not_or, not_le] at h1
        omega

theorem addrClass_local {va : Nat} (h : 0xFF0000000000 ≤ va ∧ va < 2 ^ 48) : addrClass va = .local_ := by
  unfold addrClass
  rw [if_neg (by simp; omega), if_neg (by omega), if_neg (by omega)]

theorem Ctx.awaits_eq_false {x : Ctx} {r : BitVec 5} (h : r.toNat ∉ x.x.pend) : x.awaits r = false := by
  simpa [Ctx.awaits] using h

/-- s0 is the register of number 0. -/
theorem ite_toNat_eq_zero {α : Type} (d : BitVec 5) (u v : α) : (if d.toNat = 0 then u else v) = if d = 0 then u else v :=
  if_congr (BitVec.toNat_eq (y := 0)).symm rfl rfl

/-! ### An access sent -/

/-- Where a walk begins, nothing else does. -/
theorem State.walkDue_onlyCore (s : State) (c d va : Nat) (acc : Access) : s.OnlyCore (s.walkDue d va acc).2 c := by
  unfold State.walkDue
  split
  · exact .refl s c
  · exact ⟨fun _ => rfl, fun _ _ => rfl, .refl _, ⟨rfl, rfl, rfl, rfl⟩, ⟨rfl, rfl, rfl, rfl⟩, ⟨rfl, rfl, rfl, rfl⟩⟩

theorem State.walkDue_reqs (s : State) (c va : Nat) (acc : Access) : (s.walkDue c va acc).2.reqs = s.reqs := by
  unfold State.walkDue
  split <;> rfl

theorem State.walkDue_cores (s : State) (c va : Nat) (acc : Access) : (s.walkDue c va acc).2.cores = s.cores := by
  unfold State.walkDue
  split <;> rfl

theorem State.core_of_cores {s t : State} (h : t.cores = s.cores) (c : Nat) : t.core c = s.core c := by
  unfold State.core
  rw [h]

/-- An access to a translated address is sent: a request that walks, whose register its sequencer awaits (R367). -/
theorem Ctx.send_translated (x : Ctx) (s : State) (h : Hdr) {va : Nat} (hva : va < 0xFD0000000000) (kind : ReqKind) (rd : Nat) (acquire release : Bool) :
    ∃ r : Req, (x.send s h va kind rd acquire release).reqs = s.reqs ++ [r] ∧ r.core = x.c ∧ r.by_ = x.q ∧ r.va = va ∧ r.kind = kind ∧ r.rd = rd ∧
      r.st = .walking ∧ (x.send s h va kind rd acquire release).core x.c = (s.core x.c).modSeq x.q fun y =>
        { y with pend := if rd = 0 then y.pend else y.pend ++ [rd], st := if acquire then .atAcquire r.id else y.st } := by
  unfold Ctx.send
  rw [locate_memory hva]
  have hr := s.newId.2.walkDue_reqs x.c va kind.access
  have hc := s.newId.2.walkDue_cores x.c va kind.access
  refine ⟨_, congrArg (· ++ [_]) hr, rfl, rfl, rfl, rfl, rfl, rfl, ?_⟩
  refine (State.core_modCore _ _ _).trans ?_
  congr 1
  exact State.core_of_cores hc x.c

theorem Ctx.send_onlyCore (x : Ctx) (s : State) (h : Hdr) {va : Nat} (hva : va < 0xFD0000000000) (kind : ReqKind) (rd : Nat) (acquire release : Bool) :
    s.OnlyCore (x.send s h va kind rd acquire release) x.c := by
  unfold Ctx.send
  rw [locate_memory hva]
  have h0 : s.OnlyCore s.newId.2 x.c := ⟨fun _ => rfl, fun _ _ => rfl, .refl _, ⟨rfl, rfl, rfl, rfl⟩, ⟨rfl, rfl, rfl, rfl⟩, ⟨rfl, rfl, rfl, rfl⟩⟩
  refine h0.trans ((s.newId.2.walkDue_onlyCore x.c x.c va kind.access).trans (State.OnlyCore.trans ?_ (State.onlyCore_modCore _ x.c _ (Core.sameData_modSeq _ _ _ rfl))))
  exact ⟨fun _ => rfl, fun _ _ => rfl, .refl _, ⟨rfl, rfl, rfl, rfl⟩, ⟨rfl, rfl, rfl, rfl⟩, ⟨rfl, rfl, rfl, rfl⟩⟩

/-! ### LD -/

/-- What a load's gate rules out: an address outside the core's own window in a timed region or a gap (R384). -/
theorem exec_load_regionRule {s : State} {h : Hdr} {x : Ctx} {d a : BitVec 5} {n : BitVec 6} {size : Nat} {sext aq : Bool} {i : Instr}
    (ha : s.AtWord h x allSeqs [.timed, .gap] [d, a]) (he : exec i s = loadWord h d a n size sext aq s) {va : Nat} (hv : x.elemAddr a n size = va)
    (hva : va < 0xFD0000000000) : exec i s = .next (s.raise x.c (x.fault s 0x09 0)) := by
  subst hv
  refine exec_regionRule he ha.here rfl (mem_allSeqs x.q) rfl (.inl ?_)
  have hp : (x.k.place x.q == .timed || x.k.place x.q == .gap) = true := by
    simpa using ha.place
  simp only [x.awaits_eq_false (ha.free a (by simp)), addrClass_translated hva, hp]
  decide

/-- A load that its gate lets through. -/
theorem issues_load {s : State} {h : Hdr} {x : Ctx} {d a : BitVec 5} {n : BitVec 6} {size : Nat} {places : List Place}
    (ha : s.AtWord h x allSeqs places [d, a])
    (hr : addrClass (x.elemAddr a n size) = .local_ ∨ (x.k.place x.q ≠ .timed ∧ x.k.place x.q ≠ .gap)) :
    s.Issues h (fun x =>
      { uses := [d, a]
        ruleBad := !x.awaits a && addrClass (x.elemAddr a n size) != .local_ && (x.k.place x.q == .timed || x.k.place x.q == .gap) }) x := by
  refine ⟨ha.here, rfl, mem_allSeqs x.q, rfl, ?_, admits_open rfl rfl rfl rfl _, ha.free, ha.waits⟩
  rcases hr with hr | ⟨h1, h2⟩
  · simp [hr]
  · simp [h1, h2]

/-- A load of the core's own buffers reads its banks one cycle after its issue; an acquire outside a timed region holds its sequencer (R213, R383). -/
theorem yields_load_own {s : State} {h : Hdr} {x : Ctx} {d a : BitVec 5} {n : BitVec 6} {size : Nat} {sext aq : Bool} {i : Instr} {isA : Bool} {off : Nat}
    (ha : s.AtWord h x allSeqs everywhere [d, a]) (he : exec i s = loadWord h d a n size sext aq s) {va : Nat} (hv : x.elemAddr a n size = va)
    (hal : va % size = 0) (hl : locate x.c va size = .own isA off) {b : Bool} (hb : (aq && x.k.place x.q != .timed) = b) :
    s.Yields i
      (x.issued h
        (let t := s.addAct x.c (s.now + 1) s.now x.q x.x.pc (.loadBank x.q d.toNat isA off size sext b h.sp h.sn)
         if b then t.modCore x.c fun k => k.modSeq x.q fun y => { y with st := .atAcquire (s.nextId + 1) } else t)
        none (x.x.pc + 4) 0) x.c := by
  subst hv
  have hw := window_of_own hl
  refine yields_issued he (issues_load ha (.inl (addrClass_local hw))) ?_ ?_
  · dsimp only
    rw [if_neg (by simpa using hal), if_neg (not_le.mpr hw.2), hl, hb]
    rfl
  · have h1 := s.onlyCore_addAct x.c (s.now + 1) s.now x.q x.x.pc (.loadBank x.q d.toNat isA off size sext b h.sp h.sn)
    cases b with
    | false => exact h1
    | true => rw [if_pos rfl]; exact h1.trans (State.onlyCore_modCore _ x.c _ (Core.sameData_modSeq _ _ _ rfl))

/-- A load from a translated address is sent, in a tokened region and in handler mode (R367, R384). -/
theorem yields_load_sent {s : State} {h : Hdr} {x : Ctx} {d a : BitVec 5} {n : BitVec 6} {size : Nat} {sext aq : Bool} {i : Instr}
    (ha : s.AtWord h x allSeqs [.tokened, .handler] [d, a]) (he : exec i s = loadWord h d a n size sext aq s) {va : Nat} (hv : x.elemAddr a n size = va)
    (hal : va % size = 0) (hva : va < 0xFD0000000000) :
    s.Yields i (x.issued h (x.send s h va (.load size sext) d.toNat aq false) none (x.x.pc + 4) 0) x.c := by
  subst hv
  have hp : x.k.place x.q ≠ .timed ∧ x.k.place x.q ≠ .gap := by
    rcases List.mem_pair.mp ha.place with e | e <;> rw [e] <;> decide
  refine yields_issued he (issues_load ha (.inr hp)) ?_ (x.send_onlyCore s h hva _ _ _ _)
  dsimp only
  rw [if_neg (by simpa using hal), if_neg (by omega), locate_memory hva]
  rfl

/-- Settles O5: one argument for the kinds of each clause. -/
theorem loads : Obligations.Loads := by
  refine ⟨fun s h x d a n isA off ha => ?_, fun s h x d a n => ?_⟩
  · intro va read runs
    have own {i : Instr} {size : Nat} {sext aq : Bool} (he : exec i s = loadWord h d a n size sext aq s)
        (hb : (aq && x.k.place x.q != .timed) = false) : runs i size sext := by
      intro hal hl
      exact yields_load_own ha he (x.elemAddr_eq a n size) hal hl hb
    refine ⟨own (exec_ldB h d a n s) rfl, own (exec_ldBu h d a n s) rfl, own (exec_ldH h d a n s) rfl, own (exec_ldHu h d a n s) rfl,
      own (exec_ldW h d a n s) rfl, own (exec_ldWu h d a n s) rfl, own (exec_ldD h d a n s) rfl, fun ht => own (exec_ldDAq h d a n s) (by simp [ht]), fun ht hal hl => ?_⟩
    exact yields_load_own ha (exec_ldDAq h d a n s) (x.elemAddr_eq a n 8) hal hl (b := true) (by simpa using ht)
  · intro va kinds
    have each (P : Instr → Nat → Bool → Bool → Prop)
        (hP : ∀ i size sext aq, exec i s = loadWord h d a n size sext aq s → P i size sext aq) : kinds P :=
      ⟨hP _ _ _ _ (exec_ldB h d a n s), hP _ _ _ _ (exec_ldBu h d a n s), hP _ _ _ _ (exec_ldH h d a n s),
        hP _ _ _ _ (exec_ldHu h d a n s), hP _ _ _ _ (exec_ldW h d a n s), hP _ _ _ _ (exec_ldWu h d a n s),
        hP _ _ _ _ (exec_ldD h d a n s), hP _ _ _ _ (exec_ldDAq h d a n s)⟩
    clear_value kinds
    refine ⟨fun ha => each _ fun i size sext aq he hal hva => ?_, fun ha => each _ fun i size sext aq he hva => ?_⟩
    · obtain ⟨r, hreqs, hcore, hby, hrva, hkind, hrd, hst, hk⟩ := x.send_translated s h hva (.load size sext) d.toNat aq false
      have hx := State.ctx_core ha.here
      refine ⟨_, r, yields_load_sent ha he (x.elemAddr_eq a n size) hal hva, hreqs, hcore, hby, hrva, hkind, hrd, hst, fun haq => ?_, ?_⟩
      · rw [hk, Core.seq_modSeq, haq]
        rfl
      · rw [hk, Core.seq_modSeq, ← hx.2]
        exact ite_toNat_eq_zero d _ _
    · exact exec_load_regionRule ha he (x.elemAddr_eq a n size) hva

/-! ### ST -/

/-- A store that its gate lets through: outside a gap, or to the core's own window. -/
theorem issues_store {s : State} {h : Hdr} {x : Ctx} {v a : BitVec 5} {n : BitVec 6} {size : Nat} {places : List Place}
    (ha : s.AtWord h x allSeqs places [v, a]) (hr : addrClass (x.elemAddr a n size) = .local_ ∨ x.k.place x.q ≠ .gap) :
    s.Issues h (fun x =>
      { uses := [v, a]
        ruleBad := !x.awaits a && (addrClass (x.elemAddr a n size) == .remote || addrClass (x.elemAddr a n size) == .translated) &&
          x.k.place x.q == .gap }) x := by
  refine ⟨ha.here, rfl, mem_allSeqs x.q, rfl, ?_, admits_open rfl rfl rfl rfl _, ha.free, ha.waits⟩
  rcases hr with hr | hr
  · simp [hr]
  · simp [hr]

section Store

variable {s : State} {h : Hdr} {x : Ctx} {v a : BitVec 5} {n : BitVec 6} {size : Nat} {rl : Bool} {i : Instr}
  (he : exec i s = storeWord h v a n size rl s) {va : Nat} (hv : x.elemAddr a n size = va)
include he hv

/-- A store to the core's own buffers makes its bank access one cycle after its issue (R418). -/
theorem yields_store_own (ha : s.AtWord h x allSeqs everywhere [v, a]) (hal : va % size = 0) {isA : Bool} {off : Nat}
    (hl : locate x.c va size = .own isA off) (hrl : rl = true → x.ownRelease s h = true) :
    s.Yields i (x.issued h (s.addAct x.c (s.now + 1) s.now x.q x.x.pc (.storeBank x.q isA off (leBytes size (x.reg v).toNat) h.sp h.sn))
      none (x.x.pc + 4) 0) x.c := by
  subst hv
  have hw := window_of_own hl
  have hrl : ¬ (rl && !x.ownRelease s h) = true := by
    cases rl
    · simp
    · simp [hrl rfl]
  refine yields_issued he (issues_store ha (.inl (addrClass_local hw))) ?_ (s.onlyCore_addAct ..)
  dsimp only
  rw [if_neg (by simpa using hal), if_neg (not_le.mpr hw.2), hl]
  dsimp only
  rw [if_neg hrl]
  rfl

/-- A store of a region to a translated address is held (R47, R48). -/
theorem yields_store_held (ha : s.AtWord h x allSeqs regions [v, a]) (hal : va % size = 0) (hva : va < 0xFD0000000000) :
    s.Yields i (x.done h (s.addAct x.c (s.now + 1) s.now x.q x.x.pc
      (.hold (.store va (addrBytes (va % 64) (leBytes size (x.reg v).toNat)) (.pending 0) rl))) 1) x.c := by
  subst hv
  have hp : x.k.place x.q ≠ .gap ∧ ¬ (x.k.place x.q == .handler) = true := by
    rcases List.mem_pair.mp ha.place with e | e <;> rw [e] <;> decide
  refine yields_issued he (issues_store ha (.inr hp.1)) ?_ (s.onlyCore_addAct ..)
  dsimp only
  rw [if_neg (by simpa using hal), if_neg (by omega), locate_memory hva]
  dsimp only
  rw [if_neg hp.2]
  rfl

theorem exec_store_regionRule (ha : s.AtWord h x allSeqs [.gap] [v, a]) (hva : va < 0xFD0000000000) :
    exec i s = .next (s.raise x.c (x.fault s 0x09 0)) := by
  subst hv
  refine exec_regionRule he ha.here rfl (mem_allSeqs x.q) rfl (.inl ?_)
  simp only [x.awaits_eq_false (ha.free a (by simp)), addrClass_translated hva, List.mem_singleton.mp ha.place]
  decide

/-- A store of a tokened region that is not aligned (R87). -/
theorem exec_store_align (ha : s.AtWord h x allSeqs [.tokened] [v, a]) (hal : va % size ≠ 0) :
    exec i s = .next ((x.taken s h).raise x.c (x.fault s 0x0C (w64 va))) := by
  subst hv
  exact exec_trap_late he (issues_store ha (.inr (by rw [List.mem_singleton.mp ha.place]; decide))) (if_pos (by simpa using hal))

end Store

/-- An unmapped address is one of the apertures (R187, R188). -/
theorem lt_of_unmapped {core va size : Nat} (h : locate core va size = .unmapped) : va < 2 ^ 48 := by
  by_contra hlt
  rw [locate, if_pos (by simp; omega)] at h
  cases h

/-- The two apertures hold the views of cores' buffers, and nothing else (R187, R188). -/
theorem locate_aperture {va : Nat} (hlo : 0xFE0000000000 ≤ va) (hhi : va < 2 ^ 48) (core size : Nat) :
    (∃ c isA off, locate core va size = .remote c isA off) ∨ (∃ isA off, locate core va size = .own isA off) ∨ locate core va size = .unmapped := by
  unfold locate
  rw [if_neg (by simp; omega), if_neg (by omega)]
  split
  · dsimp only
    split
    · exact .inr (.inr rfl)
    · split
      · exact .inl ⟨_, _, _, rfl⟩
      · exact .inr (.inr rfl)
  · split
    · exact .inr (.inl ⟨_, _, rfl⟩)
    · exact .inr (.inr rfl)

section Faults

variable {s : State} {h : Hdr} {x : Ctx} {d a : BitVec 5} {n : BitVec 6} {i : Instr} (ha : s.AtWord h x allSeqs [.tokened] [d, a])
include ha

/-- A load of a tokened region that is not aligned (R87). -/
theorem exec_load_align {size : Nat} {sext aq : Bool} (he : exec i s = loadWord h d a n size sext aq s) {va : Nat} (hv : x.elemAddr a n size = va)
    (hal : va % size ≠ 0) : exec i s = .next ((x.taken s h).raise x.c (x.fault s 0x0C (w64 va))) := by
  subst hv
  refine exec_trap_late he (issues_load ha (.inr ?_)) (if_pos (by simpa using hal))
  rw [List.mem_singleton.mp ha.place]
  decide

/-- A load of one byte at an unmapped address. -/
theorem exec_load_unmapped {sext aq : Bool} (he : exec i s = loadWord h d a n 1 sext aq s) {va : Nat} (hv : x.elemAddr a n 1 = va)
    (hl : locate x.c va 1 = .unmapped) : exec i s = .next ((x.taken s h).raise x.c (x.fault s 0x10 (w64 va))) := by
  subst hv
  refine exec_trap_late he (issues_load ha (.inr (by rw [List.mem_singleton.mp ha.place]; decide))) ?_
  dsimp only
  rw [if_neg (by simp [Nat.mod_one]), if_neg (not_le.mpr (lt_of_unmapped hl)), hl]

/-- A store of one byte at an unmapped address. -/
theorem exec_store_unmapped {rl : Bool} (he : exec i s = storeWord h d a n 1 rl s) {va : Nat} (hv : x.elemAddr a n 1 = va)
    (hl : locate x.c va 1 = .unmapped) : exec i s = .next ((x.taken s h).raise x.c (x.fault s 0x10 (w64 va))) := by
  subst hv
  refine exec_trap_late he (issues_store ha (.inr (by rw [List.mem_singleton.mp ha.place]; decide))) ?_
  dsimp only
  rw [if_neg (by simp [Nat.mod_one]), if_neg (not_le.mpr (lt_of_unmapped hl)), hl]

end Faults

/-- Settles O6: one argument for the kinds of each clause. -/
theorem stores : Obligations.Stores := by
  refine ⟨fun s h x v a n => ?_, fun s h x d a n ha => ?_⟩
  · intro va bytes kinds
    have each (P : Instr → Nat → Bool → Prop) (hP : ∀ i size rl, exec i s = storeWord h v a n size rl s → P i size rl) : kinds P :=
      ⟨hP _ _ _ (exec_stB h v a n s), hP _ _ _ (exec_stH h v a n s), hP _ _ _ (exec_stW h v a n s), hP _ _ _ (exec_stD h v a n s),
        hP _ _ _ (exec_stWRl h v a n s), hP _ _ _ (exec_stDRl h v a n s)⟩
    clear_value kinds
    have hv := x.elemAddr_eq a n
    exact ⟨fun isA off ha => each _ fun i size rl he hal hl => yields_store_own he (hv size) ha hal hl, fun ha => each _ fun i size rl he => yields_store_held he (hv size) ha,
      fun ha => each _ fun i size rl he => exec_store_regionRule he (hv size) ha⟩
  · intro va faults
    have hv := x.elemAddr_eq a n
    refine ⟨fun h2 => ?_, fun h4 => ?_, fun h8 => ?_, fun hu => ?_⟩
    · exact ⟨exec_load_align ha (exec_ldH h d a n s) (hv 2) h2, exec_load_align ha (exec_ldHu h d a n s) (hv 2) h2,
        exec_store_align (exec_stH h d a n s) (hv 2) ha h2⟩
    · exact ⟨exec_load_align ha (exec_ldW h d a n s) (hv 4) h4, exec_load_align ha (exec_ldWu h d a n s) (hv 4) h4,
        exec_store_align (exec_stW h d a n s) (hv 4) ha h4, exec_store_align (exec_stWRl h d a n s) (hv 4) ha h4⟩
    · exact ⟨exec_load_align ha (exec_ldD h d a n s) (hv 8) h8, exec_load_align ha (exec_ldDAq h d a n s) (hv 8) h8,
        exec_store_align (exec_stD h d a n s) (hv 8) ha h8, exec_store_align (exec_stDRl h d a n s) (hv 8) ha h8⟩
    · exact ⟨exec_load_unmapped ha (exec_ldB h d a n s) (hv 1) hu, exec_load_unmapped ha (exec_ldBu h d a n s) (hv 1) hu,
        exec_store_unmapped ha (exec_stB h d a n s) (hv 1) hu⟩

/-! ### AMOC -/

/-- An AMOC stands on CT in a tokened region (R351). -/
theorem issues_amoc {s : State} {h : Hdr} {x : Ctx} {a b d : BitVec 5} (ha : s.AtWord h x [.ct] [.tokened] [d, a, b]) :
    s.Issues h (fun _ => { Gate.regionOnly [.ct] with timed := false, uses := [d, a, b] }) x :=
  ha.issues _ rfl rfl rfl (fun _ hq => hq) (fun _ hp => List.mem_singleton.mp hp ▸ rfl) fun _ hr => hr

section Amoc

variable {s : State} {h : Hdr} {x : Ctx} {a b d : BitVec 5} {z : Bool} {op : Nat} {i : Instr} (he : exec i s = amocWord h a b d z op s)
include he

/-- Aligned, at a translated address, an AMOC is sent (R351). -/
theorem yields_amoc (ha : s.AtWord h x [.ct] [.tokened] [d, a, b]) (hal : (x.reg a).toNat % (if z then 8 else 4) = 0)
    (hva : (x.reg a).toNat < 0xFD0000000000) :
    s.Yields i (x.issued h (x.send s h (x.reg a).toNat (.amoc op (if z then 8 else 4) (x.reg b) (x.reg d)) d.toNat false false) none (x.x.pc + 4) 0)
      x.c := by
  refine yields_issued (exec_eq_issueAt he) (issues_amoc ha) ?_ (x.send_onlyCore s h hva _ _ _ _)
  dsimp only
  rw [if_neg (by simpa using hal), locate_memory hva]
  dsimp only
  rw [if_neg (by omega)]
  rfl

theorem exec_amoc_align (ha : s.AtWord h x [.ct] [.tokened] [d, a, b]) (hal : (x.reg a).toNat % (if z then 8 else 4) ≠ 0) :
    exec i s = .next ((x.taken s h).raise x.c (x.fault s 0x0C (x.reg a))) := by
  refine exec_trap_late (exec_eq_issueAt he) (issues_amoc ha) ?_
  dsimp only
  rw [if_pos (by simpa using hal), w64, BitVec.ofNat_toNat, BitVec.setWidth_eq]

/-- An aperture holds no place for an AMOC (R351). -/
theorem exec_amoc_aperture (ha : s.AtWord h x [.ct] [.tokened] [d, a, b]) (hal : (x.reg a).toNat % (if z then 8 else 4) = 0)
    (hlo : 0xFE0000000000 ≤ (x.reg a).toNat) (hhi : (x.reg a).toNat < 2 ^ 48) :
    exec i s = .next ((x.taken s h).raise x.c (x.fault s 0x10 (x.reg a))) := by
  refine exec_trap_late (exec_eq_issueAt he) (issues_amoc ha) ?_
  have hl := locate_aperture hlo hhi x.c (if z then 8 else 4)
  dsimp only
  rw [if_neg (by simpa using hal), w64, BitVec.ofNat_toNat, BitVec.setWidth_eq]
  obtain ⟨core, isA, off, e⟩ | ⟨isA, off, e⟩ | e := hl <;> rw [e]

theorem exec_amoc_regionRule (ha : s.AtWord h x [.ct] [.gap, .timed, .handler] [d, a, b]) :
    exec i s = .next (s.raise x.c (x.fault s 0x09 0)) := by
  refine exec_regionRule (exec_eq_issueAt he) ha.here rfl ha.seq rfl (.inr ?_)
  have hp : x.k.place x.q = .gap ∨ x.k.place x.q = .timed ∨ x.k.place x.q = .handler := by simpa using ha.place
  rcases hp with e | e | e <;> rw [e] <;> rfl

end Amoc

/-- A two's complement number of some bits (R350). -/
theorem toSigned_eq_toInt {w : Nat} (hw : 0 < w) (v : Nat) : toSigned w v = (BitVec.ofNat w v).toInt := by
  obtain ⟨n, rfl⟩ := Nat.exists_eq_add_of_lt hw
  rw [toSigned, BitVec.toInt_eq_toNat_cond, BitVec.toNat_ofNat]
  rw [Nat.zero_add, Nat.add_sub_cancel, Nat.pow_succ]
  split <;> split <;> omega

theorem ofNat_mod_two_pow (w v : Nat) : BitVec.ofNat w (v % 2 ^ w) = BitVec.ofNat w v := by
  apply BitVec.eq_of_toNat_eq
  simp

/-- Settles O7: the word by its checks, the value at memory operation by operation. -/
theorem amocs : Obligations.Amocs := by
  refine ⟨fun s h x a b d z => ?_, fun size old b e hs => ?_⟩
  · intro va size ops faults late
    have each (P : Instr → Nat → Prop) (hP : ∀ i op, exec i s = amocWord h a b d z op s → P i op) : ops P :=
      ⟨hP _ _ (exec_amocAdd h a b d z s), hP _ _ (exec_amocAnd h a b d z s), hP _ _ (exec_amocOr h a b d z s), hP _ _ (exec_amocXor h a b d z s),
        hP _ _ (exec_amocXchg h a b d z s), hP _ _ (exec_amocMax h a b d z s), hP _ _ (exec_amocMin h a b d z s), hP _ _ (exec_amocCas h a b d z s)⟩
    clear_value ops
    refine ⟨fun ha => each _ fun i op he => ⟨fun hal hva => ?_, fun hal => exec_amoc_align he ha hal,
      fun hal hlo hhi => exec_amoc_aperture he ha hal hlo hhi⟩, fun ha => each _ fun i op he => exec_amoc_regionRule he ha⟩
    obtain ⟨r, hreqs, hcore, -, hrva, hkind, hrd, hst, hk⟩ := x.send_translated s h hva (.amoc op size (x.reg b) (x.reg d)) d.toNat false false
    have hq : x.q = .ct := List.mem_singleton.mp ha.seq
    refine ⟨_, r, yields_amoc he ha hal hva, hreqs, hcore, hrva, hkind, hrd, hst, ?_⟩
    rw [hk, ← hq, Core.seq_modSeq, ← (State.ctx_core ha.here).2]
    exact ite_toNat_eq_zero d _ _
  · intro m hold sgn
    have hw : 0 < 8 * size := by omega
    have signed (v : Nat) : toSigned (8 * size) v = sgn v := toSigned_eq_toInt hw v
    have sgn_mod (v : Nat) : sgn (v % m) = sgn v := congrArg BitVec.toInt (ofNat_mod_two_pow _ v)
    have hmod (v : Nat) : v % m < m := Nat.mod_lt _ (Nat.two_pow_pos _)
    have hold' : old % m = old := Nat.mod_eq_of_lt hold
    have below {v : Nat} (hv : v < m) : v % m = v := Nat.mod_eq_of_lt hv
    refine ⟨rfl, fun hb => ⟨below (Nat.and_lt_two_pow _ hb), below (Nat.or_lt_two_pow hold hb), below (Nat.xor_lt_two_pow hold hb)⟩, rfl, ⟨?_, ?_⟩, ⟨?_, ?_⟩, ?_⟩
    · change sgn (if toSigned (8 * size) old < toSigned (8 * size) b then b % m else old % m) = _
      rw [apply_ite sgn, sgn_mod, sgn_mod, signed, signed, max_def_lt]
    · change (if toSigned (8 * size) old < toSigned (8 * size) b then b % m else old % m) < m
      split <;> exact hmod _
    · change sgn (if toSigned (8 * size) b < toSigned (8 * size) old then b % m else old % m) = _
      rw [apply_ite sgn, sgn_mod, sgn_mod, signed, signed, min_comm, min_def_lt]
    · change (if toSigned (8 * size) b < toSigned (8 * size) old then b % m else old % m) < m
      split <;> exact hmod _
    · change (if old % m = e % m then b % m else old % m) = _
      rw [hold']

end Sys2Proof.Machine
end

section
/-! PROOFS. Tile words at their issue (R90, R118, R122, R401 to R404, R427 to R444), O8, and the refutation of O9. -/

namespace Sys2Proof.Machine

/-- Whether an operation writes one row of its destination for each row of its window. -/
def TileFn.rowwise : TileFn → Bool
  | .cmp _ => false
  | .ext _ => false
  | .rand => false
  | _ => true

section Words

variable {s : State} {h : Hdr} {x : Ctx} {fn : TileFn} {d a b : BitVec 5} {m : Bool} {i : Instr} {lat : Nat}

/-- A word of a row-wise operation takes the vector unit for COUNT cycles. -/
theorem yields_rowwise {src : Option Nat} {src' : Option Nat} {dst : Nat} {tiles srcs : List Nat} {uses us : List (BitVec 5)} {ok : Ctx → Bool}
    {scalar : Ctx → W64} (ht : s.AtTile h x us tiles srcs [dst]) (hs : srcs = src.toList ++ src'.toList) (hok : ok x = true)
    (hu : ∀ r ∈ uses, r ∈ us) (he : exec i s = tileWord h fn dst src src' m tiles uses ok scalar s) (hw : fn.rowwise = true) :
    s.Yields i (x.startsRows s h (x.tileJob fn dst src src' m (scalar x)) x.k.winCount fn.latency) x.c := by
  refine yields_tileWord ht hu hok hs ?_ ?_ rfl he
  all_goals cases fn <;> first | rfl | cases hw

/-- A word of two sources. -/
theorem yields_tileBinary (ht : s.AtTile h x [] [d.toNat] [a.toNat, b.toNat] [d.toNat]) (ha : srcOk a = true) (hb : srcOk b = true)
    (hp : portsApart a b = true) (hd : dstOk d = true) (he : exec i s = tileBinary h fn d a b m s) (hw : fn.rowwise = true)
    (hl : fn.latency = lat) :
    s.Yields i (x.startsRows s h (x.tileJob fn d.toNat (some a.toNat) (some b.toNat) m 0) x.k.winCount lat) x.c :=
  hl ▸ yields_rowwise (ok := fun _ => dstOk d && srcOk a && srcOk b && portsApart a b) (scalar := fun _ => 0) ht rfl (by simp [ha, hb, hp, hd])
    (fun _ hr => hr) he hw

/-- A fused multiply-add. -/
theorem yields_tileFused (ht : s.AtTile h x [] [d.toNat] [a.toNat, b.toNat] [d.toNat]) (ha : srcOk a = true) (hb : srcOk b = true)
    (hp : portsApart a b = true) (hd : tileOk d = true) (he : exec i s = tileFused h fn d a b m s) (hw : fn.rowwise = true)
    (hl : fn.latency = lat) :
    s.Yields i (x.startsRows s h (x.tileJob fn d.toNat (some a.toNat) (some b.toNat) m 0) x.k.winCount lat) x.c :=
  hl ▸ yields_rowwise (ok := fun _ => tileOk d && srcOk a && srcOk b && portsApart a b) (scalar := fun _ => 0) ht rfl (by simp [ha, hb, hp, hd])
    (fun _ hr => hr) he hw

/-- A comparison into a mask. -/
theorem yields_tileCompare {c : CmpOp} (ht : s.AtTile h x [] [] [a.toNat, b.toNat] []) (ha : srcOk a = true) (hb : srcOk b = true)
    (hp : portsApart a b = true) (hd : d.toNat ≤ 7) (he : exec i s = tileCompare h c d a b m s) :
    s.Yields i (x.startsRows s h (x.tileJob (.cmp c) d.toNat (some a.toNat) (some b.toNat) m 0) x.k.winCount 4) x.c :=
  yields_tileWord (ok := fun _ => decide (d.toNat ≤ 7) && srcOk a && srcOk b && portsApart a b) (scalar := fun _ => 0) ht (fun _ hr => hr)
    (by simp [ha, hb, hp, hd]) rfl rfl rfl rfl he

/-- A word of one source. -/
theorem yields_tileUnary {ok : Bool} (ht : s.AtTile h x [] [d.toNat] [a.toNat] [d.toNat]) (ha : srcOk a = true) (hd : dstOk d = true)
    (hok : ok = true) (he : exec i s = tileUnary h fn d a m ok s) (hw : fn.rowwise = true) (hl : fn.latency = lat) :
    s.Yields i (x.startsRows s h (x.tileJob fn d.toNat (some a.toNat) none m 0) x.k.winCount lat) x.c :=
  hl ▸ yields_rowwise (ok := fun _ => dstOk d && srcOk a && ok) (scalar := fun _ => 0) ht rfl (by simp [ha, hd, hok]) (fun _ hr => hr) he hw

end Words

/-- Settles O8: each word by the law of its form. -/
theorem tileWords : Obligations.TileWords := by
  intro s h x d a b n t r m sat
  refine ⟨fun ht ha hb hp => ⟨fun hd => ?_, fun hd => ?_⟩, fun ht ha hb hp hd => ?_, fun ht ha hd => ?_⟩
  · have word {i : Instr} {fn : TileFn} {m : Bool} {lat : Nat} := yields_tileBinary (i := i) (fn := fn) (m := m) (lat := lat) ht ha hb hp hd
    exact ⟨word (exec_vadd h d a b m s) rfl rfl, word (exec_vsub h d a b m s) rfl rfl, word (exec_vmul h d a b m s) rfl rfl, word (exec_vmin h d a b m s) rfl rfl,
      word (exec_vmax h d a b m s) rfl rfl, word (exec_vabsd h d a b m s) rfl rfl, fun hm => hm ▸ word (exec_vsel h d a b s) rfl rfl, word (exec_viadd h d a b m s) rfl rfl,
      word (exec_visub h d a b m s) rfl rfl, word (exec_vimul h d a b m s) rfl rfl, word (exec_vimin h d a b m s) rfl rfl, word (exec_vimax h d a b m s) rfl rfl,
      word (exec_vand h d a b m s) rfl rfl, word (exec_vor h d a b m s) rfl rfl, word (exec_vxor h d a b m s) rfl rfl, word (exec_vshl h d a b m s) rfl rfl,
      word (exec_vshr h d a b m s) rfl rfl, word (exec_vsra h d a b m s) rfl rfl⟩
  · have word {i : Instr} {fn : TileFn} {lat : Nat} := yields_tileFused (i := i) (fn := fn) (m := m) (lat := lat) ht ha hb hp hd
    exact ⟨word (exec_vfma h d a b m s) rfl rfl, word (exec_vfms h d a b m s) rfl rfl, word (exec_vfnma h d a b m s) rfl rfl⟩
  · have word {i : Instr} {c : CmpOp} := yields_tileCompare (i := i) (c := c) (m := m) ht ha hb hp hd
    exact ⟨word (exec_vcmpFeq h d a b m s), word (exec_vcmpFlt h d a b m s), word (exec_vcmpFle h d a b m s), word (exec_vcmpFun h d a b m s),
      word (exec_vcmpIeq h d a b m s), word (exec_vcmpIlt h d a b m s), word (exec_vcmpIltu h d a b m s)⟩
  · have word {i : Instr} {fn : TileFn} {ok : Bool} {lat : Nat} := yields_tileUnary (i := i) (fn := fn) (m := m) (ok := ok) (lat := lat) ht ha hd
    have bits (hn : n.toNat ≤ 2) := decide_eq_true hn
    have fmt (hf : t.toNat ≤ 11) := decide_eq_true hf
    have row (hn : n.toNat ≤ 15) := decide_eq_true hn
    refine ⟨word rfl (exec_vmov h d a m s) rfl rfl,
      fun hn => ⟨word (bits hn) (exec_vclz h d a n m s) rfl rfl, word (bits hn) (exec_vffs h d a n m s) rfl rfl, word (bits hn) (exec_vpopc h d a n m s) rfl rfl⟩,
      fun hf => ⟨word (fmt hf) (exec_vcvtNar h d a t m sat r s) rfl rfl, word (fmt hf) (exec_vcvtWid h d a t m s) rfl rfl⟩,
      word rfl (exec_vsfnExp2 h d a m s) rfl rfl, word rfl (exec_vsfnLog2 h d a m s) rfl rfl, word rfl (exec_vsfnRcp h d a m s) rfl rfl,
      word rfl (exec_vsfnRsqrt h d a m s) rfl rfl, word rfl (exec_vsfnSqrt h d a m s) rfl rfl, word rfl (exec_vsfnTanh h d a m s) rfl rfl,
      word rfl (exec_vsfnSigm h d a m s) rfl rfl, word rfl (exec_vsfnSilu h d a m s) rfl rfl, word rfl (exec_vrotr h d a n m s) rfl rfl,
      word rfl (exec_vrotrHi h d a n m s) rfl rfl, word rfl (exec_vbcr h d a n m s) rfl rfl, word rfl (exec_vbcrHi h d a n m s) rfl rfl,
      fun hn => word (row hn) (exec_vrotc h d a n m s) rfl rfl, fun hn hc => ?_, word rfl (exec_vredrAdd h d a m s) rfl rfl,
      word rfl (exec_vredrMax h d a m s) rfl rfl, word rfl (exec_vredrMin h d a m s) rfl rfl, word rfl (exec_vredrIadd h d a m s) rfl rfl,
      word rfl (exec_vredcAdd h d a m s) rfl rfl, word rfl (exec_vredcMax h d a m s) rfl rfl, word rfl (exec_vredcMin h d a m s) rfl rfl,
      word rfl (exec_vredcIadd h d a m s) rfl rfl⟩
    exact yields_rowwise (ok := fun x => dstOk d && srcOk a && decide (n.toNat ≤ 15) && decide (n.toNat < x.k.winCount)) (scalar := fun _ => 0) ht rfl
      (by simp [ha, hd, hn, hc]) (fun _ hr => hr) (exec_vbcc h d a n m s) rfl

/-! ### A port that was never configured, in a gap -/

/-- A tile word of two sources that names a port never configured is ILLEGAL_OPERAND outside tokened regions, wherever it stands (R95, R115). -/
theorem exec_tileBinary_unconfigured {s : State} {h : Hdr} {x : Ctx} {fn : TileFn} {d a b : BitVec 5} {m : Bool} {i : Instr} {places : List Place}
    (ha : s.AtWord h x [.cm] places []) (hp : x.k.place x.q ≠ .tokened) (hset : x.k.portsSet [a.toNat, b.toNat, d.toNat] = false)
    (he : exec i s = tileBinary h fn d a b m s) (hw : fn.rowwise = true) :
    exec i s = .next (s.raise x.c (x.fault s cIllegalOperand (x.x.curWord.setWidth 64))) := by
  unfold tileBinary tileWord at he
  refine exec_illegalOperand he ha.here rfl ha.seq ?_
  have hbad : (!(dstOk d && srcOk a && srcOk b && portsApart a b) ||
      ([d.toNat].any x.k.liveInTile || x.k.place x.q != .tokened) && !x.k.portsSet [a.toNat, b.toNat, d.toNat]) = true := by
    simp [hp, hset]
  cases fn <;> first | exact hbad | cases hw

/-- CM of core 0 at its issue in a gap, no port of the core configured. -/
def gapWithoutPorts : State :=
  { State.reset with
    cur := some (0, .cm), tasks := [placedTask 0]
    cores := [(0, { Core.idle with task := some 0, phase := .gap, seqs := [Seq.idle, { Seq.idle with st := .run }, Seq.idle, Seq.idle] })] }

/-- CM's context there. -/
def gapWithoutPortsCtx : Ctx :=
  { c := 0, q := .cm, k := gapWithoutPorts.core 0, x := (gapWithoutPorts.core 0).seq .cm }

theorem gapWithoutPorts_atWord : gapWithoutPorts.AtWord Hdr.none gapWithoutPortsCtx [.cm] [.gap] [] :=
  ⟨rfl, List.mem_singleton_self _, List.mem_singleton_self _, nofun, rfl⟩

theorem gapWithoutPorts_portsSet : gapWithoutPortsCtx.k.portsSet [16, 0, 0] = false := by decide

theorem gapWithoutPorts_place : gapWithoutPortsCtx.k.place gapWithoutPortsCtx.q = .gap := rfl

/-- The trap CSR of the core names the fault that was raised. -/
theorem gapWithoutPorts_tcause_operand :
    ((gapWithoutPorts.raise 0 (gapWithoutPortsCtx.fault gapWithoutPorts cIllegalOperand (gapWithoutPortsCtx.x.curWord.setWidth 64))).core 0).tcause = 0x102 := by
  decide

theorem gapWithoutPorts_tcause_rule :
    ((gapWithoutPorts.raise 0 (gapWithoutPortsCtx.fault gapWithoutPorts cRegionRule 0)).core 0).tcause = 0x109 := by
  decide

/-- Refutes O9: in a gap, a tile word that names a port never configured is ILLEGAL_OPERAND, and not REGION_RULE as the clause for a gap has it of every
tile word of VADD's form: the operand checks of R95 go before the check of the place. -/
theorem not_tileScalarWordsAndFaults : ¬ Obligations.TileScalarWordsAndFaults := by
  intro ⟨_, hfaults⟩
  have hgap := hfaults gapWithoutPorts Hdr.none gapWithoutPortsCtx 0 16 0 false rfl rfl rfl rfl
  have hvadd := (hgap.2.1 gapWithoutPorts_atWord).1
  have hbad := exec_tileBinary_unconfigured (d := 0) (a := 16) (b := 0) gapWithoutPorts_atWord (by rw [gapWithoutPorts_place]; decide) gapWithoutPorts_portsSet
    (exec_vadd Hdr.none 0 16 0 false gapWithoutPorts) rfl
  have hcause := congrArg (fun t => (t.core 0).tcause) (Host.Outcome.next.inj (hbad.symm.trans hvadd))
  exact absurd (gapWithoutPorts_tcause_operand.symm.trans (hcause.trans gapWithoutPorts_tcause_rule)) (by decide)

end Sys2Proof.Machine
end

section
/-! PROOFS. Acts at their landing: what RESULT_LANDS does of an act that is due, and the rows of tile words (O10, O11). -/

namespace Sys2Proof.Machine

/-! ### RESULT_LANDS -/

/-- A due act that is no TLBI performs; the signals it gives are then those of its word. -/
theorem exec_resultLands_of_due {s : State} {c : Nat} {a : Act} (hf : (s.core c).acts.find? (fun b => b.id == a.id) = some a) (hd : a.due ≤ s.now)
    (ht : a.isTlbi = false) :
    exec (.resultLands c a.id) s = .next ((s.perform c a).modCore c fun k => k.blame (s.core c).overflowed.length a.pc) := by
  rw [exec_resultLands]
  unfold execResultLands
  simp [hf, ht, Nat.not_lt.mpr hd]

theorem Core.sameData_blame (k : Core) (n pc : Nat) : k.SameData (k.blame n pc) :=
  ⟨fun _ _ => rfl, fun _ _ => rfl, rfl, rfl, rfl, rfl, rfl, fun _ => rfl, fun _ => rfl, rfl, rfl, rfl⟩

theorem Core.sameData_dropAct (k : Core) (id : Nat) : k.SameData (k.dropAct id) :=
  ⟨fun _ _ => rfl, fun _ _ => rfl, rfl, rfl, rfl, rfl, rfl, fun _ => rfl, fun _ => rfl, rfl, rfl, rfl⟩

theorem Core.sameData_claimBanks (k : Core) (now : Nat) (isA : Bool) (banks : List Nat) (issued : Nat) (q : SeqId) :
    k.SameData (k.claimBanks now isA banks issued q) :=
  ⟨fun _ _ => rfl, fun _ _ => rfl, rfl, rfl, rfl, rfl, rfl, fun _ => rfl, fun _ => rfl, rfl, rfl, rfl⟩

/-- Nothing but one core has changed between two states. -/
structure State.ElseSame (s t : State) (c : Nat) : Prop where
  memory : ∀ a, t.mem.get a = s.mem.get a
  others : ∀ d, d ≠ c → t.core d = s.core d
  dispatch : t.tasks = s.tasks ∧ t.queues = s.queues ∧ t.cqs = s.cqs ∧ t.casements = s.casements
  exchange : t.chanEnds = s.chanEnds ∧ t.grants = s.grants ∧ t.groups = s.groups ∧ t.sessions = s.sessions
  device : t.dies = s.dies ∧ t.hbm = s.hbm ∧ t.boot = s.boot ∧ t.fleet = s.fleet

theorem State.onlyCore_iff {s t : State} {c : Nat} : s.OnlyCore t c ↔ s.ElseSame t c ∧ (s.core c).SameData (t.core c) :=
  ⟨fun h => ⟨⟨h.memory, h.others, h.dispatch, h.exchange, h.device⟩, h.data⟩,
    fun h => ⟨h.1.memory, h.1.others, h.2, h.1.dispatch, h.1.exchange, h.1.device⟩⟩

theorem State.OnlyCore.elseSame {s t : State} {c : Nat} (h : s.OnlyCore t c) : s.ElseSame t c := (State.onlyCore_iff.mp h).1

theorem State.elseSame_modCore (s : State) (c : Nat) (f : Core → Core) : s.ElseSame (s.modCore c f) c :=
  ⟨fun _ => rfl, fun _ hd => s.core_modCore_other f hd, ⟨rfl, rfl, rfl, rfl⟩, ⟨rfl, rfl, rfl, rfl⟩, ⟨rfl, rfl, rfl, rfl⟩⟩

theorem State.ElseSame.trans {s t u : State} {c : Nat} (a : s.ElseSame t c) (b : t.ElseSame u c) : s.ElseSame u c where
  memory x := (b.memory x).trans (a.memory x)
  others d hd := (b.others d hd).trans (a.others d hd)
  dispatch := by simp only [b.dispatch, a.dispatch, and_self]
  exchange := by simp only [b.exchange, a.exchange, and_self]
  device := by simp only [b.device, a.device, and_self]

theorem State.alters_iff {s t : State} {c : Nat} {undo : Core → Core} :
    s.Alters t c undo ↔ s.ElseSame (t.modCore c undo) c ∧ (s.core c).SameData (undo (t.core c)) := by
  rw [State.Alters, State.onlyCore_iff, State.core_modCore]

theorem State.ElseSame.alters {s t : State} {c : Nat} (h : s.ElseSame t c) {undo : Core → Core} (hd : (s.core c).SameData (undo (t.core c))) :
    s.Alters t c undo :=
  State.alters_iff.mpr ⟨h.trans (t.elseSame_modCore c undo), hd⟩

theorem State.onlyCore_setCore {s : State} {c : Nat} {k : Core} (h : (s.core c).SameData k) : s.OnlyCore (s.setCore c k) c :=
  s.onlyCore_modCore c (fun _ => k) h

/-- What a due act leads to, where performing it changes its core's own state alone. -/
theorem exec_resultLands_onlyCore {s : State} {c : Nat} {a : Act} (hf : (s.core c).acts.find? (fun b => b.id == a.id) = some a)
    (hd : a.due ≤ s.now) (ht : a.isTlbi = false) (ho : s.OnlyCore (s.perform c a) c) :
    ∃ t, exec (.resultLands c a.id) s = .next t ∧ s.OnlyCore t c ∧ ∃ n pc, t.core c = ((s.perform c a).core c).blame n pc :=
  ⟨_, exec_resultLands_of_due hf hd ht, ho.trans (State.onlyCore_modCore _ _ _ (Core.sameData_blame _ _ _)), _, _, State.core_modCore _ _ _⟩

/-- An act whose landing changes its core by `f`. -/
theorem exec_resultLands_core {s : State} {c : Nat} {a : Act} (hf : (s.core c).acts.find? (fun b => b.id == a.id) = some a)
    (hd : a.due ≤ s.now) (ht : a.isTlbi = false) {f : Core → Core} (hp : s.perform c a = s.modCore c f) :
    ∃ t, exec (.resultLands c a.id) s = .next t ∧ s.ElseSame t c ∧ ∃ n pc, t.core c = (f (s.core c)).blame n pc := by
  refine ⟨_, exec_resultLands_of_due hf hd ht, ?_, (s.core c).overflowed.length, a.pc, ?_⟩
  · rw [hp]
    exact (s.elseSame_modCore c f).trans (State.elseSame_modCore _ _ _)
  · rw [hp, State.core_modCore, State.core_modCore]

/-! ### What a core has due -/

/-- Of all data nothing has changed, and what one core had due it has due still. -/
structure State.AddsActs (s t : State) (c : Nat) : Prop where
  only : s.OnlyCore t c
  keeps : ∀ b ∈ (s.core c).acts, b ∈ (t.core c).acts

theorem State.AddsActs.refl (s : State) (c : Nat) : s.AddsActs s c := ⟨.refl s c, fun _ h => h⟩

theorem State.AddsActs.trans {s t u : State} {c : Nat} (a : s.AddsActs t c) (b : t.AddsActs u c) : s.AddsActs u c :=
  ⟨a.only.trans b.only, fun x h => b.keeps x (a.keeps x h)⟩

theorem State.addsActs_addAct (s : State) (c due issued : Nat) (q : SeqId) (pc : Nat) (p : Pay) : s.AddsActs (s.addAct c due issued q pc p) c :=
  ⟨s.onlyCore_addAct c due issued q pc p, fun b h => by rw [State.core_addAct]; exact List.mem_append_left _ h⟩

theorem State.exists_act_addAct (s : State) (c due issued : Nat) (q : SeqId) (pc : Nat) (p : Pay) :
    ∃ b ∈ ((s.addAct c due issued q pc p).core c).acts, b.due = due ∧ b.issued = issued ∧ b.pay = p := by
  rw [State.core_addAct]
  exact ⟨_, List.mem_append_right _ (List.mem_singleton.mpr rfl), rfl, rfl, rfl⟩

theorem State.addsActs_raisesAt (s : State) (c : Nat) (a : Act) (due : Nat) (st : Status) : s.AddsActs (s.raisesAt c a due st) c := by
  unfold State.raisesAt
  split
  · exact .refl s c
  · exact s.addsActs_addAct _ _ _ _ _ _

/-! ### Lanes of the integer operations -/

theorem shiftLeft32_eq_ofNat (u : W32) (n : Nat) : u <<< n = BitVec.ofNat 32 (u.toNat * 2 ^ n) := by
  apply BitVec.eq_of_toNat_eq
  rw [BitVec.toNat_shiftLeft, Nat.shiftLeft_eq, BitVec.toNat_ofNat]

theorem shiftRight32_eq_ofNat (u : W32) (n : Nat) : u >>> n = BitVec.ofNat 32 (u.toNat / 2 ^ n) := by
  rw [← Nat.shiftRight_eq_div_pow, ← BitVec.toNat_ushiftRight, BitVec.ofNat_toNat, BitVec.setWidth_eq]

theorem sshiftRight32_eq_ofInt (u : W32) (n : Nat) : u.sshiftRight n = BitVec.ofInt 32 (u.toInt / 2 ^ n) := by
  rw [BitVec.sshiftRight_eq, Int.shiftRight_eq_div_pow, Nat.cast_pow]
  rfl

theorem ite_slt_eq_min (u v : W32) : (if u.slt v then u else v) = BitVec.ofInt 32 (min u.toInt v.toInt) := by
  rw [BitVec.slt_eq_decide]
  simp only [decide_eq_true_eq, min_def_lt, apply_ite (BitVec.ofInt 32), BitVec.ofInt_toInt]

theorem ite_slt_eq_max (u v : W32) : (if u.slt v then v else u) = BitVec.ofInt 32 (max u.toInt v.toInt) := by
  rw [BitVec.slt_eq_decide]
  simp only [decide_eq_true_eq, max_def_lt, apply_ite (BitVec.ofInt 32), BitVec.ofInt_toInt]

/-- The integer operations, lane by lane. -/
theorem TileFn.lane_integer (fl sel : Bool) (u v z : W32) :
    let n := v.toNat % 32
    let lane (fn : TileFn) (w : W32) : Prop := fn.lane fl sel u v z = (w, 0)
    lane .iadd (BitVec.ofNat 32 (u.toNat + v.toNat)) ∧
    lane .isub (BitVec.ofInt 32 (u.toInt - v.toInt)) ∧
    lane .imul (BitVec.ofNat 32 (u.toNat * v.toNat)) ∧
    lane .imin (BitVec.ofInt 32 (Min.min u.toInt v.toInt)) ∧
    lane .imax (BitVec.ofInt 32 (Max.max u.toInt v.toInt)) ∧
    lane .and (u &&& v) ∧ lane .or (u ||| v) ∧ lane .xor (u ^^^ v) ∧
    lane .shl (BitVec.ofNat 32 (u.toNat * 2 ^ n)) ∧
    lane .shr (BitVec.ofNat 32 (u.toNat / 2 ^ n)) ∧
    lane .sra (BitVec.ofInt 32 (u.toInt / 2 ^ n)) ∧
    lane .mov u ∧ lane .sel (if sel then u else v) ∧
    lane (.cmp .ieq) (if u = v then 1 else 0) ∧
    lane (.cmp .ilt) (if u.toInt < v.toInt then 1 else 0) ∧
    lane (.cmp .iltu) (if u.toNat < v.toNat then 1 else 0) := by
  refine ⟨?_, ?_, ?_, ?_, ?_, rfl, rfl, rfl, ?_, ?_, ?_, rfl, rfl, ?_, ?_, ?_⟩
  · simp [TileFn.lane, BitVec.ofNat_add]
  · exact congrArg (·, 0) (BitVec.eq_of_toInt_eq (by rw [BitVec.toInt_ofInt, BitVec.toInt_sub]))
  · simp [TileFn.lane, BitVec.ofNat_mul]
  · simp only [TileFn.lane, ite_slt_eq_min]
  · simp only [TileFn.lane, ite_slt_eq_max]
  · simp only [TileFn.lane, shiftLeft32_eq_ofNat, vshAmount]
  · simp only [TileFn.lane, shiftRight32_eq_ofNat, vshAmount]
  · simp only [TileFn.lane, sshiftRight32_eq_ofInt, vshAmount]
  · simp [TileFn.lane, CmpOp.holds]
  · simp [TileFn.lane, CmpOp.holds, BitVec.slt_eq_decide]
  · simp [TileFn.lane, CmpOp.holds, BitVec.ult_eq_decide]

/-! ### A row of tile sources -/

/-- The lanes of a row, from the rows of its sources. -/
def TileJob.laneRow (job : TileJob) (x y : Row) : Row :=
  (List.range 64).map fun j => (job.fn.lane job.flushing (job.active.getLsbD j) (x.getD j 0) (y.getD j 0) 0).1

theorem readPort?_tile {v : Nat} (h : v < 16) : readPort? v = none := by
  unfold readPort?
  simp; omega

theorem writePort?_tile {v : Nat} (h : v < 16) : writePort? v = none := by
  unfold writePort?
  simp; omega

theorem Core.sourceOnce_tile (k : Core) {now v row issued : Nat} {q : SeqId} {fl : Bool} (h : v < 16) :
    k.sourceOnce now (some v) none row issued q fl = .got (k, k.tileRow v row, List.replicate 64 0) := by
  simp [Core.sourceOnce, Core.sourceRow, readPort?_tile h, h]

theorem Core.sources_tiles (k : Core) {now u v row issued : Nat} {q : SeqId} {fl : Bool} (hu : u < 16) (hv : v < 16) :
    k.sources now (some u) (some v) none none row issued q fl =
      .both k (k.tileRow u row, List.replicate 64 0) (k.tileRow v row, List.replicate 64 0) := by
  unfold Core.sources
  rw [Core.sourceOnce_tile k hu]
  dsimp only
  rw [Core.sourceOnce_tile k hv]

/-- The lane-by-lane operations into a tile that TileRows names. -/
def TileFn.intoTile : List TileFn := [.iadd, .isub, .imul, .imin, .imax, .and, .or, .xor, .shl, .shr, .sra, .sel]

/-- The integer comparisons. -/
def TileFn.intoMask : List TileFn := [.cmp .ieq, .cmp .ilt, .cmp .iltu]

theorem TileFn.gathers_intoTile {fn : TileFn} (h : fn ∈ TileFn.intoTile) : fn.gathers = false := by
  revert fn; decide

theorem TileJob.result_intoTile {job : TileJob} (hf : job.fn ∈ TileFn.intoTile) (x y z : Row) : (job.result x y z).1 = job.laneRow x y := by
  obtain ⟨fn, d, a', b, lanes, active, first, count, fl, sc, k0, k1, rows, g, ga, gb⟩ := job
  simp only [TileFn.intoTile, List.mem_cons, List.not_mem_nil, or_false] at hf
  rcases hf with h | h | h | h | h | h | h | h | h | h | h | h <;> subst h <;> exact List.map_map

/-- Their rows go out four cycles later. -/
theorem State.rowDone_intoTile {s : State} {c : Nat} {a : Act} {job : TileJob} (hf : job.fn ∈ TileFn.intoTile) (i : Nat) (x y : Row)
    (st : List Status) : ∃ sts, s.rowDone c a job i x y st = s.rowOut c a job i (s.now + 4) (job.laneRow x y) sts := by
  refine ⟨(List.range 64).map fun j => (job.result x y ((s.core c).tileRow job.d (job.first + i))).2.getD j 0 ||| st.getD j 0, ?_⟩
  rw [← TileJob.result_intoTile hf x y ((s.core c).tileRow job.d (job.first + i))]
  obtain ⟨fn, d, a', b, lanes, active, first, count, fl, sc, k0, k1, rows, g, ga, gb⟩ := job
  simp only [TileFn.intoTile, List.mem_cons, List.not_mem_nil, or_false] at hf
  rcases hf with h | h | h | h | h | h | h | h | h | h | h | h <;> subst h <;> rfl

/-- The sum of the powers of two of the places that `p` does not hold of. -/
def bitSum (p : Nat → Prop) [DecidablePred p] (n : Nat) : Nat := (List.range n).foldl (fun acc j => if p j then acc else acc + 2 ^ j) 0

theorem bitSum_succ (p : Nat → Prop) [DecidablePred p] (n : Nat) : bitSum p (n + 1) = if p n then bitSum p n else bitSum p n + 2 ^ n := by
  simp [bitSum, List.range_succ]

theorem bitSum_lt (p : Nat → Prop) [DecidablePred p] (n : Nat) : bitSum p n < 2 ^ n := by
  induction n with
  | zero => exact Nat.one_pos
  | succ n ih => rw [bitSum_succ, Nat.pow_succ]; split <;> omega

theorem testBit_bitSum (p : Nat → Prop) [DecidablePred p] (n j : Nat) : (bitSum p n).testBit j = (decide (j < n) && !decide (p j)) := by
  induction n with
  | zero => simp [bitSum]
  | succ n ih =>
    have hlt := bitSum_lt p n
    rw [bitSum_succ]
    rcases Nat.lt_trichotomy j n with h | h | h
    · have : (bitSum p n + 2 ^ n).testBit j = (bitSum p n).testBit j := by
        rw [Nat.add_comm, Nat.testBit_two_pow_add_gt h]
      split <;> simp [*, Nat.lt_succ_of_lt h]
    · subst h
      split
      · simp [*]
      · rw [Nat.add_comm, Nat.testBit_two_pow_add_eq, ih]
        simp [*]
    · have hb : ∀ m, m < 2 ^ (n + 1) → m.testBit j = false := fun m hm =>
        Nat.testBit_lt_two_pow (hm.trans_le (Nat.pow_le_pow_right (by decide) h))
      rw [hb _ (by rw [Nat.pow_succ]; split <;> omega)]
      simp; omega

theorem laneStatus_eq_zero {lanes : W64} {sts : List Status} (h : ∀ j, sts.getD j 0 = 0) : laneStatus lanes sts = 0 := by
  unfold laneStatus
  induction List.range 64 with
  | nil => rfl
  | cons j l ih => simpa only [List.foldl_cons, h, BitVec.or_self, ite_self] using ih

theorem getD_map_range_zero {f : Nat → Status} (h : ∀ j, f j = 0) (n j : Nat) : ((List.range n).map f).getD j 0 = 0 := by
  simp [List.getD_eq_getElem?_getD, funext h]

theorem TileJob.result_intoMask {job : TileJob} (hf : job.fn ∈ TileFn.intoMask) (x y z : Row) :
    (job.result x y z).1 = job.laneRow x y ∧ ∀ j, (job.result x y z).2.getD j 0 = 0 := by
  obtain ⟨fn, d, a', b, lanes, active, first, count, fl, sc, k0, k1, rows, g, ga, gb⟩ := job
  simp only [TileFn.intoMask, List.mem_cons, List.not_mem_nil, or_false] at hf
  rcases hf with h | h | h <;> subst h <;>
    exact ⟨List.map_map, by
      simp only [TileJob.result, List.map_map]
      exact getD_map_range_zero (fun _ => rfl) 64⟩

/-- The bits of a comparison's row land in its mask four cycles later. -/
theorem State.rowDone_intoMask {s : State} {c : Nat} {a : Act} {job : TileJob} (hf : job.fn ∈ TileFn.intoMask) (i : Nat) (x y : Row)
    {st : List Status} (hst : ∀ j, st.getD j 0 = 0) : s.rowDone c a job i x y st =
      s.addAct c (s.now + 4) a.issued a.by_ a.pc
        (.maskRow job.d job.lanes (BitVec.ofNat 64 (bitSum (fun j => (job.laneRow x y).getD j 0 = 0) 64)) 0) := by
  obtain ⟨hrow, hzero⟩ := job.result_intoMask hf x y zeroRow
  have hsts : laneStatus job.lanes ((List.range 64).map fun j => (job.result x y zeroRow).2.getD j 0 ||| st.getD j 0) = 0 :=
    laneStatus_eq_zero (getD_map_range_zero (fun j => by rw [hzero, hst]; rfl) 64)
  rw [← hrow, ← hsts]
  obtain ⟨fn, d, a', b, lanes, active, first, count, fl, sc, k0, k1, rows, g, ga, gb⟩ := job
  simp only [TileFn.intoMask, List.mem_cons, List.not_mem_nil, or_false] at hf
  rcases hf with h | h | h <;> subst h <;> rfl

/-! ### The read of a row of tile sources -/

/-- A row of two tile sources is read in its cycle; the row after it follows in the next. -/
theorem State.readRow_tiles {s : State} {c : Nat} {a : Act} {job : TileJob} {i u v : Nat} (hga : job.gotA = none) (hgb : job.gotB = none)
    (ha : job.a = some u) (hb : job.b = some v) (hu : u < 16) (hv : v < 16) (hg : job.fn.gathers = false) (he : ∀ col, job.fn ≠ .ext col) :
    s.readRow c a job i =
      let t := (s.modCore c fun k => k.dropAct a.id).rowDone c a job i ((s.core c).tileRow u (job.first + i)) ((s.core c).tileRow v (job.first + i))
        ((List.range 64).map fun j => (List.replicate 64 0).getD j 0 ||| (List.replicate 64 0).getD j 0)
      if job.count ≤ i + 1 then t else t.addAct c (t.now + 1) a.issued a.by_ a.pc (.rowRead job (i + 1)) := by
  obtain ⟨fn, d, a', b, lanes, active, first, count, fl, sc, k0, k1, rows, g, ga, gb⟩ := job
  subst hga hgb ha hb
  unfold State.readRow
  rw [Core.sources_tiles _ hu hv]
  simp only [hg, Bool.false_or, decide_eq_true_eq]
  rfl

theorem TileFn.rowwise_of_mem {fn : TileFn} (h : fn ∈ TileFn.intoTile ++ TileFn.intoMask) : fn.gathers = false ∧ ∀ col, fn ≠ .ext col := by
  have hg : ∀ fn ∈ TileFn.intoTile ++ TileFn.intoMask, fn.gathers = false := by decide
  refine ⟨hg fn h, ?_⟩
  rintro col rfl
  simp [TileFn.intoTile, TileFn.intoMask] at h

/-- A row whose results `u` holds, as what has been due before: with the next row's read added, it holds them still. -/
theorem State.readRow_lands {s : State} {c : Nat} {a : Act} {job : TileJob} {i u v : Nat}
    (hf : (s.core c).acts.find? (fun b => b.id == a.id) = some a) (hd : a.due ≤ s.now) (hp : a.pay = .rowRead job i)
    (hga : job.gotA = none) (hgb : job.gotB = none) (ha : job.a = some u) (hb : job.b = some v) (hu : u < 16) (hv : v < 16)
    (hfn : job.fn ∈ TileFn.intoTile ++ TileFn.intoMask) {p : Pay}
    (hrow : ∀ (t : State) st, (∀ j, st.getD j 0 = (0 : Status)) →
      let r := t.rowDone c a job i ((s.core c).tileRow u (job.first + i)) ((s.core c).tileRow v (job.first + i)) st
      t.AddsActs r c ∧ r.now = t.now ∧ ∃ b ∈ (r.core c).acts, b.due = t.now + 4 ∧ b.pay = p) :
    ∃ t, exec (.resultLands c a.id) s = .next t ∧ s.OnlyCore t c ∧
      (i + 1 < job.count → ∃ b ∈ (t.core c).acts, b.due = s.now + 1 ∧ b.issued = a.issued ∧ b.pay = .rowRead job (i + 1)) ∧
      ∃ b ∈ (t.core c).acts, b.due = s.now + 4 ∧ b.pay = p := by
  obtain ⟨hg, hext⟩ := TileFn.rowwise_of_mem hfn
  obtain ⟨hadds, hnow, b, hb', hdue, hpay⟩ := hrow (s.modCore c fun k => k.dropAct a.id) _ (getD_map_range_zero
    (f := fun j => (List.replicate 64 0).getD j 0 ||| (List.replicate 64 0).getD j 0) (fun j => by
      rw [getD_replicate_self]; rfl) 64)
  have hread := State.readRow_tiles hga hgb ha hb hu hv hg hext (s := s) (c := c) (a := a) (i := i)
  generalize hr : State.rowDone _ _ _ _ _ _ _ _ = r at hread hadds hnow hb'
  have hperform : s.perform c a = s.readRow c a job i := by
    unfold State.perform; rw [hp]
  have honly : s.OnlyCore r c := (s.onlyCore_modCore c _ (Core.sameData_dropAct _ _)).trans hadds.only
  by_cases hn : i + 1 < job.count
  · have hadd := r.addsActs_addAct c (r.now + 1) a.issued a.by_ a.pc (.rowRead job (i + 1))
    rw [if_neg (by omega)] at hread
    obtain ⟨t, ht, hto, n, pc, htc⟩ := exec_resultLands_onlyCore hf hd (by simp [Act.isTlbi, hp])
      (by rw [hperform, hread]; exact honly.trans hadd.only)
    rw [hperform, hread] at htc
    refine ⟨t, ht, hto, fun _ => ?_, b, by rw [htc]; exact hadd.keeps b hb', hdue, hpay⟩
    obtain ⟨e, he, hed, hei, hep⟩ := r.exists_act_addAct c (r.now + 1) a.issued a.by_ a.pc (.rowRead job (i + 1))
    exact ⟨e, by rw [htc]; exact he, by rw [hed, hnow]; rfl, hei, hep⟩
  · rw [if_pos (by omega)] at hread
    obtain ⟨t, ht, hto, n, pc, htc⟩ := exec_resultLands_onlyCore hf hd (by simp [Act.isTlbi, hp]) (by rw [hperform, hread]; exact honly)
    rw [hperform, hread] at htc
    exact ⟨t, ht, hto, fun h => absurd h hn, b, by rw [htc]; exact hb', hdue, hpay⟩

theorem State.rowOut_tile {s : State} {c : Nat} {a : Act} {job : TileJob} (hd : job.d < 16) (i due : Nat) (vals : Row) (sts : List Status) :
    s.AddsActs (s.rowOut c a job i due vals sts) c ∧ (s.rowOut c a job i due vals sts).now = s.now ∧
      ∃ b ∈ ((s.rowOut c a job i due vals sts).core c).acts, b.due = due ∧ b.pay = .tileRow job.d (job.first + i) job.lanes vals := by
  unfold State.rowOut
  rw [writePort?_tile hd]
  dsimp only
  have h1 := s.addsActs_addAct c due a.issued a.by_ a.pc (.tileRow job.d (job.first + i) job.lanes vals)
  have h2 := State.addsActs_raisesAt (s.addAct c due a.issued a.by_ a.pc (.tileRow job.d (job.first + i) job.lanes vals)) c a due
    (laneStatus job.lanes sts)
  obtain ⟨b, hb, hdue, -, hpay⟩ := s.exists_act_addAct c due a.issued a.by_ a.pc (.tileRow job.d (job.first + i) job.lanes vals)
  refine ⟨h1.trans h2, ?_, b, h2.keeps b hb, hdue, hpay⟩
  unfold State.raisesAt
  split <;> rfl

/-- Settles O10: the lanes of the integer operations, and the way of a row of two tiles to a tile or a mask. -/
theorem tileRows : Obligations.TileRows := by
  unfold Obligations.TileRows
  refine ⟨TileFn.lane_integer, ?_⟩
  intro s c a job i u v hf hd hp hga hgb ha hb hu hv row lane next
  refine ⟨fun hfn hdst => ?_, fun hfn => ?_⟩
  · refine State.readRow_lands hf hd hp hga hgb ha hb hu hv (List.mem_append_left _ hfn) fun t st _ => ?_
    obtain ⟨sts, hr⟩ := State.rowDone_intoTile (s := t) (c := c) (a := a) (job := job) hfn i (row u) (row v) st
    exact hr ▸ State.rowOut_tile hdst i (t.now + 4) (job.laneRow (row u) (row v)) sts
  · obtain ⟨t, ht, hto, hn, b, hb', hdue, hpay⟩ :=
      State.readRow_lands (p := .maskRow job.d job.lanes (BitVec.ofNat 64 (bitSum (fun j => (job.laneRow (row u) (row v)).getD j 0 = 0) 64)) 0)
        hf hd hp hga hgb ha hb hu hv (List.mem_append_right _ hfn) fun t st hst => by
          rw [State.rowDone_intoMask hfn i _ _ hst]
          obtain ⟨b, hb', hdue, -, hpay⟩ := t.exists_act_addAct c (t.now + 4) a.issued a.by_ a.pc
            (.maskRow job.d job.lanes (BitVec.ofNat 64 (bitSum (fun j => (job.laneRow (row u) (row v)).getD j 0 = 0) 64)) 0)
          exact ⟨t.addsActs_addAct _ _ _ _ _ _, rfl, b, hb', hdue, hpay⟩
    refine ⟨t, _, ht, hto, hn, fun j hj => ?_, b, hb', hdue, hpay⟩
    rw [BitVec.getLsbD_ofNat, testBit_bitSum]
    simp [hj, TileJob.laneRow, lane]

/-! ### Landings in tiles, masks and VSTAT -/

theorem Core.tileRow_setTileRow_same (k : Core) (tile row : Nat) (lanes : W64) (vals : Row) {j : Nat} (hj : j < 64) :
    ((k.setTileRow tile row lanes vals).tileRow tile row).getD j 0 =
      if lanes.getLsbD j then vals.getD j 0 else (k.tileRow tile row).getD j 0 := by
  simp [Core.setTileRow, Core.tileRow, hj]

theorem Core.tileRow_setTileRow_other (k : Core) {tile row u r : Nat} (lanes : W64) (vals : Row) (h : 16 * u + r ≠ 16 * tile + row) :
    (k.setTileRow tile row lanes vals).tileRow u r = k.tileRow u r := by
  simp only [Core.setTileRow, Core.tileRow, keyGet_keySet_other _ _ h]

theorem Core.sameData_setTileRow (k : Core) (id tile row : Nat) (lanes : W64) (vals : Row) (n pc : Nat) :
    k.SameData { ((k.dropAct id).setTileRow tile row lanes vals).blame n pc with tiles := k.tiles } :=
  ⟨fun _ _ => rfl, fun _ _ => rfl, rfl, rfl, rfl, rfl, rfl, fun _ => rfl, fun _ => rfl, rfl, rfl, rfl⟩

theorem Core.vstat_addStatus (k : Core) (st : Status) :
    (k.addStatus st).vstat = if k.vcsrw = true then k.vstat else k.vstat ||| BitVec.setWidth 64 st := by
  unfold Core.addStatus
  split <;> rfl

theorem Core.masks_addStatus (k : Core) (st : Status) : (k.addStatus st).masks = k.masks := by
  unfold Core.addStatus
  split <;> rfl

/-- A row's status changes VSTAT alone. -/
theorem Core.sameData_landStatus (k : Core) (id : Nat) (st : Status) (n pc : Nat) :
    k.SameData { ((k.dropAct id).addStatus st).blame n pc with vstat := k.vstat } := by
  unfold Core.addStatus
  split <;> exact ⟨fun _ _ => rfl, fun _ _ => rfl, rfl, rfl, rfl, rfl, rfl, fun _ => rfl, fun _ => rfl, rfl, rfl, rfl⟩

theorem Core.sameData_landMask (k : Core) (id m : Nat) (lanes bs : W64) (st : Status) (n pc : Nat) :
    k.SameData { (((k.dropAct id).landMask m lanes bs).addStatus st).blame n pc with masks := k.masks, vstat := k.vstat } := by
  unfold Core.addStatus
  split <;> exact ⟨fun _ _ => rfl, fun _ _ => rfl, rfl, rfl, rfl, rfl, rfl, fun _ => rfl, fun _ => rfl, rfl, rfl, rfl⟩

theorem Core.getLsbD_landMask (k : Core) (m : Nat) (lanes bs : W64) {j : Nat} (hj : j < 64) :
    (((k.landMask m lanes bs).masks.getD m 0)).getLsbD j = if lanes.getLsbD j then bs.getLsbD j else (k.masks.getD m 0).getLsbD j := by
  unfold Core.landMask
  rw [getD_putAt_same, BitVec.getLsbD_or, BitVec.getLsbD_and, BitVec.getLsbD_and, BitVec.getLsbD_not]
  cases lanes.getLsbD j <;> simp [hj]

/-- Settles O11: rows, status and compare bits at their landing. -/
theorem tileAndMaskLandings : Obligations.TileAndMaskLandings := by
  unfold Obligations.TileAndMaskLandings
  intro s c a hf hd k gains
  refine ⟨fun tile row lanes vals hp hrow htile => ?_, fun st hp => ?_, fun m lanes bs st hp hm => ?_⟩
  · obtain ⟨t, ht, he, n, pc, htc⟩ := exec_resultLands_core hf hd (by simp [Act.isTlbi, hp])
      (f := fun k => (k.dropAct a.id).setTileRow tile row lanes vals) (by unfold State.perform; rw [hp])
    refine ⟨t, ht, he.alters ?_, fun j hj => ?_, fun u r hr hne => ?_⟩
    · rw [htc]
      exact k.sameData_setTileRow a.id tile row lanes vals n pc
    · rw [htc]
      exact Core.tileRow_setTileRow_same _ tile row lanes vals hj
    · rw [htc]
      exact Core.tileRow_setTileRow_other _ lanes vals (by omega)
  · obtain ⟨t, ht, he, n, pc, htc⟩ := exec_resultLands_core hf hd (by simp [Act.isTlbi, hp])
      (f := fun k => (k.dropAct a.id).addStatus st) (by unfold State.perform; rw [hp])
    refine ⟨t, ht, he.alters ?_, ?_⟩
    · rw [htc]
      exact k.sameData_landStatus a.id st n pc
    · show (t.core c).vstat = _
      rw [htc]
      exact Core.vstat_addStatus (k.dropAct a.id) st
  · obtain ⟨t, ht, he, n, pc, htc⟩ := exec_resultLands_core hf hd (by simp [Act.isTlbi, hp])
      (f := fun k => ((k.dropAct a.id).landMask m lanes bs).addStatus st) (by unfold State.perform; rw [hp])
    have hmasks : (t.core c).masks = ((k.dropAct a.id).landMask m lanes bs).masks := by
      rw [htc]
      exact Core.masks_addStatus _ _
    refine ⟨t, ht, he.alters ?_, fun j hj => ?_, fun n hn => ?_, ?_⟩
    · rw [htc]
      exact k.sameData_landMask a.id m lanes bs st n pc
    · rw [hmasks]
      exact Core.getLsbD_landMask (k.dropAct a.id) m lanes bs hj
    · rw [hmasks]
      exact getD_putAt_other _ _ _ hn
    · show (t.core c).vstat = _
      rw [htc]
      exact Core.vstat_addStatus ((k.dropAct a.id).landMask m lanes bs) st

end Sys2Proof.Machine
end

section
/-! PROOFS. CSRs, registers, local loads and stores, and records at their landing (O21, O24, O13). -/

namespace Sys2Proof.Machine

/-! ### What a change of a core leaves -/

/-- What a due act leads to, where performing it changes one core alone. -/
theorem exec_resultLands_else {s : State} {c : Nat} {a : Act} (hf : (s.core c).acts.find? (fun b => b.id == a.id) = some a)
    (hd : a.due ≤ s.now) (ht : a.isTlbi = false) (he : s.ElseSame (s.perform c a) c) :
    ∃ t, exec (.resultLands c a.id) s = .next t ∧ s.ElseSame t c ∧ ∃ n pc, t.core c = ((s.perform c a).core c).blame n pc :=
  ⟨_, exec_resultLands_of_due hf hd ht, he.trans (State.elseSame_modCore _ _ _), _, _, State.core_modCore _ _ _⟩

theorem Core.giveToken_eq (k : Core) (q : SeqId) (i : Nat) :
    ∃ o tk, k.giveToken q i = { k with overflowed := o, tokens := tk } := by
  unfold Core.giveToken
  split <;> exact ⟨_, _, rfl⟩

/-- A word's signals touch the counters, what they cover and the signals beyond 15, and nothing else. -/
theorem Core.giveSignals_eq (k : Core) (q : SeqId) (now : Nat) (sp sn : Bool) :
    ∃ o tk cv, k.giveSignals q now sp sn = { k with overflowed := o, tokens := tk, covers := cv } := by
  have one (k : Core) (i : Nat) : ∃ o tk cv, (k.giveToken q i).coverToken q i now = { k with overflowed := o, tokens := tk, covers := cv } := by
    obtain ⟨o, tk, h⟩ := k.giveToken_eq q i
    rw [h]
    exact ⟨_, _, _, rfl⟩
  obtain ⟨o, tk, cv, h1⟩ := one k (spCounter q)
  unfold Core.giveSignals
  cases sp <;> cases sn <;> dsimp only [Bool.false_eq_true, if_false, if_true]
  · exact ⟨_, _, _, rfl⟩
  · exact one k (snCounter q)
  · exact ⟨o, tk, cv, h1⟩
  · obtain ⟨o', tk', cv', h2⟩ := one ((k.giveToken q (spCounter q)).coverToken q (spCounter q) now) (snCounter q)
    rw [if_pos rfl, if_pos rfl, h2, h1]
    exact ⟨_, _, _, rfl⟩

/-- A write access raises block counters and clears tables. -/
theorem Core.touchBlocks_eq (k : Core) (off n : Nat) : ∃ b tb, k.touchBlocks off n = { k with blocks := b, tables := tb } := by
  unfold Core.touchBlocks
  split <;> exact ⟨_, _, rfl⟩

/-- A write access of the A-space writes its bytes there, and touches pushes, block counters, tables and the cycle's log besides. -/
theorem Core.writeBuf_aspace (k : Core) (off : Nat) (bs : List W8) :
    ∃ wl ps b tb, k.writeBuf true off bs = { k with aspace := k.aspace.write off bs, wlog := wl, pushes := ps, blocks := b, tables := tb } := by
  have hw : ∃ wl ps, k.writeBytes true (addrBytes off bs) = { k with aspace := k.aspace.write off bs, wlog := wl, pushes := ps } := by
    rw [← Cells.writeAll_addrBytes]
    exact ⟨_, _, rfl⟩
  obtain ⟨wl, ps, hw⟩ := hw
  obtain ⟨b, tb, h⟩ := Core.touchBlocks_eq { k with aspace := k.aspace.write off bs, wlog := wl, pushes := ps } off bs.length
  refine ⟨wl, ps, b, tb, ?_⟩
  unfold Core.writeBuf
  rw [if_pos rfl, hw, h]

theorem Core.writeBuf_wspace (k : Core) (off : Nat) (bs : List W8) :
    k.writeBuf false off bs = { k with wspace := k.wspace.write off bs } := by
  rw [← Cells.writeAll_addrBytes]
  rfl

/-- A fixed-cycle access whose banks are free reads its bytes. -/
theorem State.actRead_free {s : State} {c : Nat} {a : Act} {isA : Bool} {off n : Nat}
    (h : (s.core c).bankConflict s.now isA (banksOf off n) a.issued a.by_ = none) :
    s.actRead c a isA off n =
      .ok (s.setCore c ((s.core c).claimBanks s.now isA (banksOf off n) a.issued a.by_), (s.core c).readBuf isA off n) := by
  unfold State.actRead
  simp only [h]

/-- A free access that is taken out of what is due: of the core's data nothing has changed. -/
theorem State.onlyCore_claim (s : State) (c : Nat) (isA : Bool) (banks : List Nat) (issued : Nat) (q : SeqId) (id : Nat) :
    s.OnlyCore ((s.setCore c ((s.core c).claimBanks s.now isA banks issued q)).modCore c fun k => k.dropAct id) c :=
  (State.onlyCore_setCore (Core.sameData_claimBanks _ _ _ _ _ _)).trans (State.onlyCore_modCore _ _ _ (Core.sameData_dropAct _ _))

theorem State.noteBuffer_addsActs (s : State) (c : Nat) (q : SeqId) (d : Nat) : s.AddsActs (s.noteBuffer c q d) c := by
  unfold State.noteBuffer
  exact ⟨s.onlyCore_modCore c _ (Core.sameData_modSeq _ _ _ rfl), fun b h => by rw [State.core_modCore]; exact h⟩

/-! ### CSRs -/

theorem Core.sameData_aside (k : Core) (acts : List Act) (ofl : List (Nat × SeqId × Nat)) (vnew : Status) (vcsrw : Bool) :
    k.SameData { k with acts := acts, overflowed := ofl, vnew := vnew, vcsrw := vcsrw } :=
  ⟨fun _ _ => rfl, fun _ _ => rfl, rfl, rfl, rfl, rfl, rfl, fun _ => rfl, fun _ => rfl, rfl, rfl, rfl⟩

/-- Settles O21: CSR by CSR. -/
theorem csrLandings : Obligations.CsrLandings := by
  unfold Obligations.CsrLandings
  intro s c a n v hf hd hp hn k low
  obtain ⟨t, ht, he, m, pc, htc⟩ := exec_resultLands_core hf hd (by simp [Act.isTlbi, hp, hn])
    (f := fun k => (k.dropAct a.id).csrWrite n v) (by unfold State.perform; rw [hp])
  have same (undo : Core → Core → Core) (h : ∀ k : Core, k.SameData (undo k (((k.dropAct a.id).csrWrite n v).blame m pc))) :
      s.Alters t c (undo k) := he.alters (by rw [htc]; exact h _)
  refine ⟨t, ht, ?_⟩
  rw [htc]
  refine ⟨?_, ?_, ?_, ?_, ?_, ?_, ?_, ?_, ?_, ?_, ?_⟩ <;> rintro rfl
  · exact ⟨rfl, same (fun k l => { l with rwin := k.rwin }) fun k => by
      dsimp only [Core.csrWrite, Core.blame, Core.dropAct]
      exact k.sameData_aside _ _ _ _⟩
  · exact ⟨rfl, same (fun k l => { l with mact := k.mact }) fun k => by
      dsimp only [Core.csrWrite, Core.blame, Core.dropAct]
      exact k.sameData_aside _ _ _ _⟩
  · exact ⟨rfl, same (fun k l => { l with mrs := k.mrs }) fun k => by
      dsimp only [Core.csrWrite, Core.blame, Core.dropAct]
      exact k.sameData_aside _ _ _ _⟩
  · exact ⟨rfl, rfl, same (fun k l => { l with vstat := k.vstat }) fun k => by
      dsimp only [Core.csrWrite, Core.blame, Core.dropAct]
      exact k.sameData_aside _ _ _ _⟩
  · exact ⟨rfl, same (fun k l => { l with rkey0 := k.rkey0 }) fun k => by
      dsimp only [Core.csrWrite, Core.blame, Core.dropAct]
      exact k.sameData_aside _ _ _ _⟩
  · exact ⟨rfl, same (fun k l => { l with rkey1 := k.rkey1 }) fun k => by
      dsimp only [Core.csrWrite, Core.blame, Core.dropAct]
      exact k.sameData_aside _ _ _ _⟩
  · exact ⟨rfl, same (fun k l => { l with rctr := k.rctr }) fun k => by
      dsimp only [Core.csrWrite, Core.blame, Core.dropAct]
      exact k.sameData_aside _ _ _ _⟩
  · exact ⟨rfl, same (fun k l => { l with sacw := k.sacw }) fun k => by
      dsimp only [Core.csrWrite, Core.blame, Core.dropAct]
      exact k.sameData_aside _ _ _ _⟩
  · exact ⟨rfl, same (fun k l => { l with tvec := k.tvec }) fun k => by
      dsimp only [Core.csrWrite, Core.blame, Core.dropAct]
      exact k.sameData_aside _ _ _ _⟩
  · exact ⟨rfl, same (fun k l => { l with tsp := k.tsp }) fun k => by
      dsimp only [Core.csrWrite, Core.blame, Core.dropAct]
      exact k.sameData_aside _ _ _ _⟩
  · exact ⟨rfl, same (fun k l => { l with dplidx := k.dplidx }) fun k => by
      dsimp only [Core.csrWrite, Core.blame, Core.dropAct]
      exact k.sameData_aside _ _ _ _⟩

/-! ### Registers, local loads and stores -/

/-- A load's value: its bytes, zero- or sign-extended. -/
theorem extendLoad_eq {size : Nat} (h : size ∈ [1, 2, 4, 8]) (sext : Bool) (bs : List W8) :
    extendLoad size sext bs =
      if sext then ((BitVec.ofNat 64 (leNat bs)).setWidth (8 * size)).signExtend 64 else BitVec.ofNat 64 (leNat bs) := by
  have hsize : 0 < 8 * size ∧ 8 * size ≤ 64 := by
    simp only [List.mem_cons, List.not_mem_nil, or_false] at h
    omega
  unfold extendLoad
  rw [toSigned_eq_toInt hsize.1, BitVec.setWidth_ofNat_of_le hsize.2]
  rfl

/-- A local load that its banks serve: its value lands three cycles later, its signals with it. -/
theorem State.loadBank_free {s : State} {c : Nat} {a : Act} {q : SeqId} {r : Nat} {isA : Bool} {off size : Nat} {sext aq sp sn : Bool}
    (h : (s.core c).bankConflict s.now isA (banksOf off size) a.issued a.by_ = none) :
    let t := s.loadBank c a q r isA off size sext aq sp sn
    s.OnlyCore t c ∧
      (∃ b ∈ (t.core c).acts, b.due = s.now + 3 ∧ b.issued = a.issued ∧ b.pay = .reg q r (extendLoad size sext ((s.core c).readBuf isA off size)) false) ∧
      (sp = true ∨ sn = true → ∃ b ∈ (t.core c).acts, b.due = s.now + 3 ∧ b.pay = .signal q sp sn) := by
  intro t
  have ht : t = s.loadBank c a q r isA off size sext aq sp sn := rfl
  unfold State.loadBank at ht
  rw [State.actRead_free h] at ht
  dsimp only at ht
  have h0 := s.onlyCore_claim c isA (banksOf off size) a.issued a.by_ a.id
  generalize hs0 : (s.setCore c ((s.core c).claimBanks s.now isA (banksOf off size) a.issued a.by_)).modCore c (fun k => k.dropAct a.id) = s0 at ht h0
  have hnow : s0.now = s.now := by rw [← hs0]; rfl
  have h1 := s0.addsActs_addAct c (s0.now + 3) a.issued a.by_ a.pc (.reg q r (extendLoad size sext ((s.core c).readBuf isA off size)) false)
  obtain ⟨b, hb, hdue, hiss, hpay⟩ :=
    s0.exists_act_addAct c (s0.now + 3) a.issued a.by_ a.pc (.reg q r (extendLoad size sext ((s.core c).readBuf isA off size)) false)
  generalize s0.addAct c (s0.now + 3) a.issued a.by_ a.pc (.reg q r (extendLoad size sext ((s.core c).readBuf isA off size)) false) = s1
    at ht h1 hb
  have h2 : s1.AddsActs (if sp || sn then s1.addAct c (s0.now + 3) a.issued a.by_ a.pc (.signal q sp sn) else s1) c := by
    split
    · exact s1.addsActs_addAct _ _ _ _ _ _
    · exact .refl s1 c
  have hsig : sp = true ∨ sn = true → ∃ b ∈ ((if sp || sn then s1.addAct c (s0.now + 3) a.issued a.by_ a.pc (.signal q sp sn) else s1).core c).acts,
      b.due = s0.now + 3 ∧ b.pay = .signal q sp sn := fun hs => by
    rw [if_pos (by simpa using hs)]
    obtain ⟨b, hb, hdue, -, hpay⟩ := s1.exists_act_addAct c (s0.now + 3) a.issued a.by_ a.pc (.signal q sp sn)
    exact ⟨b, hb, hdue, hpay⟩
  generalize (if sp || sn then s1.addAct c (s0.now + 3) a.issued a.by_ a.pc (.signal q sp sn) else s1) = s2 at ht h2 hsig
  have h3 : s2.AddsActs (if aq then s2.addAct c (s0.now + 3) a.issued a.by_ a.pc (.acquired q) else s2) c := by
    split
    · exact s2.addsActs_addAct _ _ _ _ _ _
    · exact .refl s2 c
  have hrest : s2.AddsActs t c := by
    rw [ht]
    exact h3.trans ((State.noteBuffer_addsActs _ c q c).trans (State.addsActs_addAct _ _ _ _ _ _ _))
  refine ⟨h0.trans ((h1.trans h2).trans hrest).only, ⟨b, hrest.keeps _ (h2.keeps _ hb), by rw [hdue, hnow], hiss, hpay⟩, fun hs => ?_⟩
  obtain ⟨b, hb, hdue, hpay⟩ := hsig hs
  exact ⟨b, hrest.keeps b hb, by rw [hdue, hnow], hpay⟩

/-- A local store that its banks serve writes its bytes and gives its signals. -/
theorem State.storeBank_free {s : State} {c : Nat} {a : Act} {q : SeqId} {isA : Bool} {off : Nat} {bytes : List W8} {sp sn : Bool}
    (h : (s.core c).bankConflict s.now isA (banksOf off bytes.length) a.issued a.by_ = none) :
    let t := s.storeBank c a q isA off bytes sp sn
    s.ElseSame t c ∧ ∃ now, t.core c = (((((s.core c).claimBanks s.now isA (banksOf off bytes.length) a.issued a.by_).dropAct a.id).writeBuf
      isA off bytes)).giveSignals q now sp sn := by
  unfold State.storeBank
  rw [State.actRead_free h]
  exact ⟨(State.onlyCore_setCore (Core.sameData_claimBanks _ _ _ _ _ _)).elseSame.trans (State.elseSame_modCore _ _ _), s.now, by rw [State.core_modCore, State.core_setCore]; rfl⟩

theorem Core.store_aspace (k : Core) (now : Nat) (banks : List Nat) (issued : Nat) (p q : SeqId) (id off : Nat) (bytes : List W8) (sp sn : Bool)
    (at' n pc : Nat) :
    let l := (((((k.claimBanks now true banks issued p).dropAct id).writeBuf true off bytes)).giveSignals q at' sp sn).blame n pc
    k.SameData { l with aspace := k.aspace, tables := k.tables } ∧ l.aspace = k.aspace.write off bytes := by
  intro l
  obtain ⟨o, tk, cv, h1⟩ := (((k.claimBanks now true banks issued p).dropAct id).writeBuf true off bytes).giveSignals_eq q at' sp sn
  obtain ⟨wl, ps, b, tb, h2⟩ := ((k.claimBanks now true banks issued p).dropAct id).writeBuf_aspace off bytes
  simp only [l, h1]
  simp only [h2]
  dsimp only [Core.blame, Core.dropAct, Core.claimBanks]
  exact ⟨⟨fun _ _ => rfl, fun _ _ => rfl, rfl, rfl, rfl, rfl, rfl, fun _ => rfl, fun _ => rfl, rfl, rfl, rfl⟩, rfl⟩

theorem Core.store_wspace (k : Core) (now : Nat) (banks : List Nat) (issued : Nat) (p q : SeqId) (id off : Nat) (bytes : List W8) (sp sn : Bool)
    (at' n pc : Nat) :
    let l := (((((k.claimBanks now false banks issued p).dropAct id).writeBuf false off bytes)).giveSignals q at' sp sn).blame n pc
    k.SameData { l with wspace := k.wspace } ∧ l.wspace = k.wspace.write off bytes := by
  intro l
  obtain ⟨o, tk, cv, h1⟩ := (((k.claimBanks now false banks issued p).dropAct id).writeBuf false off bytes).giveSignals_eq q at' sp sn
  simp only [l, h1]
  simp only [Core.writeBuf_wspace]
  dsimp only [Core.blame, Core.dropAct, Core.claimBanks]
  exact ⟨⟨fun _ _ => rfl, fun _ _ => rfl, rfl, rfl, rfl, rfl, rfl, fun _ => rfl, fun _ => rfl, rfl, rfl, rfl⟩, rfl⟩

theorem Cells.get_write_outside {m : Cells} {off o : Nat} {bs : List W8} (h : o < off ∨ off + bs.length ≤ o) : (m.write off bs).get o = m.get o :=
  h.elim (Cells.get_write_below bs) (Cells.get_write_above bs)

theorem Core.landReg_eq (k : Core) (q : SeqId) (r : Nat) (v : W64) (tc : Bool) :
    k.landReg q r v tc = { k.modSeq q (fun x => x.setReg r v) with causeUnread := if tc then false else k.causeUnread } := by
  unfold Core.landReg
  cases tc <;> rfl

/-- Settles O24. -/
theorem resultsLand : Obligations.ResultsLand := by
  unfold Obligations.ResultsLand
  intro s c a hf hd k
  refine ⟨fun q r v tc hp _ => ?_, ?_, fun q off bytes sp sn hp hfree => ?_,
    fun q off bytes sp sn hp hfree => ?_⟩
  · obtain ⟨t, ht, he, n, pc, htc⟩ := exec_resultLands_core hf hd (by simp [Act.isTlbi, hp])
      (f := fun k => (k.dropAct a.id).landReg q r v tc) (by unfold State.perform; rw [hp])
    have hundo (k : Core) : k.SameData { ((k.dropAct a.id).landReg q r v tc).blame n pc with seqs := k.seqs } := by
      rw [Core.landReg_eq]
      exact ⟨fun _ _ => rfl, fun _ _ => rfl, rfl, rfl, rfl, rfl, rfl, fun _ => rfl, fun _ => rfl, rfl, rfl, rfl⟩
    have hreg (p : SeqId) (m : Nat) : (t.core c).reg p m = if p = q ∧ m = r ∧ r ≠ 0 then v else k.reg p m := by
      rw [htc]
      show (((k.dropAct a.id).landReg q r v tc).seq p).reg m = _
      rw [Core.landReg_eq]
      show (((k.dropAct a.id).modSeq q fun x => x.setReg r v).seq p).reg m = _
      by_cases hpq : p = q
      · subst hpq
        rw [Core.seq_modSeq, Seq.reg_setReg]
        simp; rfl
      · rw [Core.seq_modSeq_other _ _ hpq, if_neg (fun h => hpq h.1)]
        rfl
    refine ⟨t, ht, he.alters (by rw [htc]; exact hundo k), fun h0 _ => ?_, ?_, fun p m hne => ?_, ?_⟩
    · rw [hreg, if_pos ⟨rfl, rfl, by omega⟩]
    · rw [hreg, if_neg (by omega)]
    · rw [hreg, if_neg (fun h => hne ⟨h.1, h.2.1⟩)]
    · rw [htc]
      show ((k.dropAct a.id).landReg q r v tc).causeUnread = _
      rw [Core.landReg_eq]
      rfl
  · intro q r isA off size sext aq sp sn hp hsize hfree raw w
    have hperform : s.perform c a = s.loadBank c a q r isA off size sext aq sp sn := by
      unfold State.perform; rw [hp]
    obtain ⟨ho, hval, hsig⟩ := State.loadBank_free (s := s) (c := c) (a := a) (q := q) (r := r) (sext := sext) (aq := aq) (sp := sp) (sn := sn) hfree
    obtain ⟨t, ht, hto, n, pc, htc⟩ := exec_resultLands_onlyCore hf hd (by simp [Act.isTlbi, hp]) (by rw [hperform]; exact ho)
    rw [hperform] at htc
    rw [extendLoad_eq hsize] at hval
    exact ⟨t, ht, hto, by rw [htc]; exact hval, by rw [htc]; exact hsig⟩
  · have hperform : s.perform c a = s.storeBank c a q true off bytes sp sn := by
      unfold State.perform; rw [hp]
    obtain ⟨he, now, hcore⟩ := State.storeBank_free (s := s) (c := c) (a := a) (q := q) (sp := sp) (sn := sn) hfree
    obtain ⟨t, ht, hte, n, pc, htc⟩ := exec_resultLands_else hf hd (by simp [Act.isTlbi, hp]) (by rw [hperform]; exact he)
    rw [hperform, hcore] at htc
    obtain ⟨hdata, hspace⟩ := k.store_aspace s.now (banksOf off bytes.length) a.issued a.by_ q a.id off bytes sp sn now n pc
    rw [← htc] at hdata hspace
    exact ⟨t, ht, hte.alters hdata, fun i hi => by rw [hspace, Cells.get_write_in hi], fun o ho => by rw [hspace, Cells.get_write_outside ho]⟩
  · have hperform : s.perform c a = s.storeBank c a q false off bytes sp sn := by
      unfold State.perform; rw [hp]
    obtain ⟨he, now, hcore⟩ := State.storeBank_free (s := s) (c := c) (a := a) (q := q) (sp := sp) (sn := sn) hfree
    obtain ⟨t, ht, hte, n, pc, htc⟩ := exec_resultLands_else hf hd (by simp [Act.isTlbi, hp]) (by rw [hperform]; exact he)
    rw [hperform, hcore] at htc
    obtain ⟨hdata, hspace⟩ := k.store_wspace s.now (banksOf off bytes.length) a.issued a.by_ q a.id off bytes sp sn now n pc
    rw [← htc] at hdata hspace
    exact ⟨t, ht, hte.alters hdata, fun i hi => by rw [hspace, Cells.get_write_in hi], fun o ho => by rw [hspace, Cells.get_write_outside ho]⟩

/-! ### Records -/

/-- An act that, its banks free, reads its bytes and leaves what lands of them due three cycles later. -/
theorem exec_resultLands_read {s : State} {c : Nat} {a : Act} (hf : (s.core c).acts.find? (fun b => b.id == a.id) = some a)
    (hd : a.due ≤ s.now) (ht : a.isTlbi = false) {isA : Bool} {banks : List Nat} {p : Pay}
    (hp : s.perform c a = (((s.setCore c ((s.core c).claimBanks s.now isA banks a.issued a.by_)).modCore c fun k => k.dropAct a.id)).addAct c
      (s.now + 3) a.issued a.by_ a.pc p) :
    ∃ t, exec (.resultLands c a.id) s = .next t ∧ s.OnlyCore t c ∧
      ∃ b ∈ (t.core c).acts, b.due = s.now + 3 ∧ b.issued = a.issued ∧ b.pay = p := by
  obtain ⟨t, he, hto, n, pc, htc⟩ := exec_resultLands_onlyCore hf hd ht (by
    rw [hp]
    exact (s.onlyCore_claim c isA banks a.issued a.by_ a.id).trans (State.onlyCore_addAct _ _ _ _ _ _ _))
  rw [hp] at htc
  exact ⟨t, he, hto, by rw [htc]; exact State.exists_act_addAct _ _ _ _ _ _ _⟩

theorem Core.landPort_eq (k : Core) (port : Nat) (p : BitVec 512) :
    let l : Core := { k with ports := putAt k.ports Port.none port { (k.ports.getD port Port.none) with set := some p, idx := [0, 0, 0, 0] } }
    (l.ports.getD port Port.none).set = some p ∧ (l.ports.getD port Port.none).idx = [0, 0, 0, 0] ∧
      ∀ m, m ≠ port → l.ports.getD m Port.none = k.ports.getD m Port.none := by
  intro l
  refine ⟨?_, ?_, fun m hm => getD_putAt_other _ _ _ hm⟩ <;> simp only [l, getD_putAt_same]

/-- Settles O13. -/
theorem recordReads : Obligations.RecordReads := by
  unfold Obligations.RecordReads
  intro s c a hf hd k free lands
  refine ⟨fun port sa hp hfree hok => ?_, fun n sa hp hfree hok => ?_, fun sa hp hfree => ?_, fun port p hp _ => ?_, fun n r hp => ?_,
    fun cb hp => ?_⟩
  · refine exec_resultLands_read hf hd (by simp [Act.isTlbi, hp]) (isA := true) (banks := banksOf sa 64) ?_
    unfold State.perform
    rw [hp]
    dsimp only [State.paramRead]
    rw [State.actRead_free hfree]
    dsimp only
    rw [hok]
    rfl
  · refine exec_resultLands_read hf hd (by simp [Act.isTlbi, hp]) (isA := true) (banks := banksOf sa 64) ?_
    unfold State.perform
    rw [hp]
    dsimp only [State.shapeRead]
    rw [State.actRead_free hfree]
    dsimp only
    rw [hok]
    rfl
  · refine exec_resultLands_read hf hd (by simp [Act.isTlbi, hp]) (isA := false) (banks := banksOf sa 32) ?_
    unfold State.perform
    rw [hp]
    dsimp only [State.codebookRead]
    rw [State.actRead_free hfree]
    rfl
  · obtain ⟨t, ht, he, n, pc, htc⟩ := exec_resultLands_core hf hd (by simp [Act.isTlbi, hp])
      (f := fun k => { k.dropAct a.id with
        ports := putAt k.ports Port.none port { (k.ports.getD port Port.none) with set := some p, idx := [0, 0, 0, 0] } })
      (by unfold State.perform; rw [hp]; rfl)
    refine ⟨t, ht, State.onlyCore_iff.mpr ⟨he, ?_⟩, ?_⟩
    · rw [htc]
      dsimp only [Core.blame, Core.dropAct]
      exact ⟨fun _ _ => rfl, fun _ _ => rfl, rfl, rfl, rfl, rfl, rfl, fun _ => rfl, fun _ => rfl, rfl, rfl, rfl⟩
    · rw [htc]
      exact k.landPort_eq port p
  · obtain ⟨t, ht, he, m, pc, htc⟩ := exec_resultLands_core hf hd (by simp [Act.isTlbi, hp])
      (f := fun k => { k.dropAct a.id with shapes := putAt k.shapes 0 n r }) (by unfold State.perform; rw [hp]; rfl)
    refine ⟨t, ht, he.alters ?_, ?_, fun m hm => ?_⟩ <;> rw [htc]
    · dsimp only [Core.blame, Core.dropAct]
      exact ⟨fun _ _ => rfl, fun _ _ => rfl, rfl, rfl, rfl, rfl, rfl, fun _ => rfl, fun _ => rfl, rfl, rfl, rfl⟩
    · exact getD_putAt_same _ _ _ _
    · exact getD_putAt_other _ _ _ hm
  · obtain ⟨t, ht, he, m, pc, htc⟩ := exec_resultLands_core hf hd (by simp [Act.isTlbi, hp])
      (f := fun k => { k.dropAct a.id with codebook := cb }) (by unfold State.perform; rw [hp])
    refine ⟨t, ht, State.onlyCore_iff.mpr ⟨he, ?_⟩, ?_⟩ <;> rw [htc]
    · dsimp only [Core.blame, Core.dropAct]
      exact ⟨fun _ _ => rfl, fun _ _ => rfl, rfl, rfl, rfl, rfl, rfl, fun _ => rfl, fun _ => rfl, rfl, rfl, rfl⟩
    · rfl

end Sys2Proof.Machine
end

section
/-! PROOFS. The token ring: waits take tokens, signals give them (R34 to R36, R39), and O23. -/

namespace Sys2Proof.Machine

section Held

variable {i : Instr} {h : Hdr} {gate : Ctx → Gate} {body : Ctx → State → Iss} {s : State} {x : Ctx} (he : exec i s = issueAt h gate body s)
include he

/-- A word with a register that waits for a result, or with a SYNC wait that is not met, is held. -/
theorem exec_stalled (hx : s.ctx = some x) (hop : (gate x).illegalOp = false) (hs : x.q ∈ (gate x).seqs) (hb : (gate x).operandBad = false)
    (hr : (gate x).ruleBad = false) (hp : (gate x).admits (x.k.place x.q) = true)
    (hw : (∃ r ∈ (gate x).uses, r.toNat ∈ x.x.pend) ∨ x.k.waitsMet x.q h.wp h.wn = false) : exec i s = .next (x.held s) := by
  have h1 : ((gate x).illegalOp || !(gate x).seqs.contains x.q) = false := by simp [hop, hs]
  have h2 : ((gate x).ruleBad || !(gate x).admits (x.k.place x.q)) = false := by simp [hr, hp]
  have h3 : ((gate x).uses.any (fun r => x.x.pend.contains r.toNat) || !x.k.waitsMet x.q h.wp h.wn) = true := by
    simpa using hw
  rw [he]
  unfold issueAt
  simp only [hx, h1, hb, h2, h3, if_true, Bool.false_eq_true, if_false]

end Held

theorem Ctx.held_open {x : Ctx} {s : State} (hp : x.k.place x.q ≠ .timed) :
    x.held s = s.modCore x.c fun k => k.modSeq x.q fun y => { y with retry := some (s.now + 1) } :=
  if_neg (by simpa using hp)

theorem Ctx.held_timed {x : Ctx} {s : State} (hp : x.k.place x.q = .timed) :
    x.held s = s.raise x.c (x.fault s 0x03 (BitVec.ofNat 64 (s.now - x.k.cycle0))) :=
  if_pos (by simp [hp])

/-! ### Counters -/

theorem getD_modify (l : List Nat) (f : Nat → Nat) (i j : Nat) (h : i < l.length ∨ f 0 = 0) :
    (l.modify j f).getD i 0 = if j = i then f (l.getD i 0) else l.getD i 0 := by
  rw [List.getD_eq_getElem?_getD, List.getElem?_modify, List.getD_eq_getElem?_getD]
  cases hi : l[i]? with
  | none =>
    have : l.length ≤ i := List.getElem?_eq_none_iff.mp hi
    simp [h.resolve_left (by omega)]
  | some v => split <;> simp

theorem Core.token_takeToken (k : Core) (i j : Nat) : (k.takeToken j).token i = k.token i - if i = j then 1 else 0 := by
  unfold Core.takeToken Core.token
  rw [getD_modify _ _ _ _ (.inr rfl)]
  split <;> split <;> omega

/-- The tokens that a word's waits take. -/
theorem Core.token_takeWaits (k : Core) (q : SeqId) (wp wn : Bool) (i : Nat) :
    (k.takeWaits q wp wn).token i =
      k.token i - (if wp = true ∧ i = wpCounter q then 1 else 0) - (if wn = true ∧ i = wnCounter q then 1 else 0) := by
  have one (k : Core) (j : Nat) : ((k.takeToken j).acquireToken q j).token i = k.token i - if i = j then 1 else 0 := k.token_takeToken i j
  unfold Core.takeWaits
  cases wp <;> cases wn <;> simp [one]

theorem Core.token_giveToken {k : Core} {i : Nat} (hi : i < k.tokens.length) (q : SeqId) (j : Nat) :
    (k.giveToken q j).token i = k.token i + if i = j then 1 else 0 := by
  have hd := getD_modify k.tokens (· + 1) i j (.inl hi)
  unfold Core.giveToken Core.token
  split <;> rw [hd] <;> split <;> split <;> omega

theorem Core.length_giveToken (k : Core) (q : SeqId) (j : Nat) : (k.giveToken q j).tokens.length = k.tokens.length := by
  unfold Core.giveToken
  split <;> simp

/-- The tokens that a word's signals give. -/
theorem Core.token_giveSignals {k : Core} {i : Nat} (hi : i < k.tokens.length) (q : SeqId) (now : Nat) (sp sn : Bool) :
    (k.giveSignals q now sp sn).token i =
      k.token i + (if sp = true ∧ i = spCounter q then 1 else 0) + (if sn = true ∧ i = snCounter q then 1 else 0) := by
  have one {k : Core} (hi : i < k.tokens.length) (j : Nat) :
      ((k.giveToken q j).coverToken q j now).token i = k.token i + if i = j then 1 else 0 := Core.token_giveToken hi q j
  unfold Core.giveSignals
  cases sp <;> cases sn
  · simp
  · simp [one hi]
  · simp [one hi]
  · have h2 : i < ((k.giveToken q (spCounter q)).coverToken q (spCounter q) now).tokens.length := by
      rw [show ((k.giveToken q (spCounter q)).coverToken q (spCounter q) now).tokens = (k.giveToken q (spCounter q)).tokens from rfl,
        Core.length_giveToken]
      exact hi
    simp [one hi, one h2]

theorem Core.sameData_giveSignals (k : Core) (q : SeqId) (now : Nat) (sp sn : Bool) : k.SameData (k.giveSignals q now sp sn) := by
  obtain ⟨o, tk, cv, h⟩ := k.giveSignals_eq q now sp sn
  rw [h]
  exact ⟨fun _ _ => rfl, fun _ _ => rfl, rfl, rfl, rfl, rfl, rfl, fun _ => rfl, fun _ => rfl, rfl, rfl, rfl⟩

/-- A word that has issued has taken its waits. -/
theorem Ctx.token_issued (x : Ctx) (h : Hdr) (s : State) (lat : Option Nat) (next extra i : Nat) :
    ((x.issued h s lat next extra).core x.c).token i = ((s.core x.c).takeWaits x.q h.wp h.wn).token i := by
  unfold Ctx.issued
  cases lat with
  | none => dsimp only; rw [State.core_modCore]; rfl
  | some l =>
    dsimp only
    split
    · rw [State.core_addAct, State.core_modCore]; rfl
    · rw [State.core_modCore]; rfl

/-- A word that has issued with a signal has it due at its latency's end. -/
theorem Ctx.signal_issued (x : Ctx) {h : Hdr} (s : State) (lat next extra : Nat) (hs : h.sp = true ∨ h.sn = true) :
    ∃ a ∈ ((x.issued h s (some lat) next extra).core x.c).acts, a.due = s.now + lat ∧ a.pay = .signal x.q h.sp h.sn := by
  unfold Ctx.issued
  dsimp only
  rw [if_pos (by simpa using hs)]
  obtain ⟨a, ha, hdue, -, hpay⟩ := State.exists_act_addAct (s.modCore x.c fun k => (k.takeWaits x.q h.wp h.wn).modSeq x.q fun y =>
    { y with pc := next, base := s.now + 1 + extra, retry := none,
             jump := if next = y.pc + 4 || isPair y.curWord then y.jump else some (y.pc, next) }) x.c (s.now + lat) s.now x.q x.x.pc
    (.signal x.q h.sp h.sn)
  exact ⟨a, ha, hdue, hpay⟩

/-- Settles O23. -/
theorem tokenRing : Obligations.TokenRing := by
  unfold Obligations.TokenRing
  intro s h x hx hlen wp wn sp sn met
  obtain ⟨hcore, hseq⟩ := State.ctx_core hx
  have hmet : x.k.waitsMet x.q h.wp h.wn = true ↔ met := by
    simp only [Core.waitsMet, met, Bool.and_eq_true, Bool.or_eq_true, Bool.not_eq_true', decide_eq_true_eq, ← Bool.not_eq_true, ← imp_iff_not_or]
    rfl
  have hstall (hm : ¬ met) : exec (.nop h) s = .next (x.held s) :=
    exec_stalled (exec_eq_issueAt (exec_nop h s)) hx rfl (mem_allSeqs x.q) rfl rfl (admits_open rfl rfl rfl rfl _)
      (.inr (Bool.eq_false_iff.mpr fun hw => hm (hmet.mp hw)))
  refine ⟨fun hm hp => ?_, fun hm hp => ?_, fun hm => ?_, fun a hf hd p n hpay => ?_⟩
  · rw [hstall hm, Ctx.held_open hp]
  · rw [hstall hm, Ctx.held_timed hp]
  · have hi : s.Issues h (fun _ => {}) x := ⟨hx, rfl, mem_allSeqs x.q, rfl, rfl, admits_open rfl rfl rfl rfl _, by simp, hmet.mpr hm⟩
    refine ⟨_, yields_issued (exec_eq_issueAt (exec_nop h s)) hi rfl (.refl s x.c), fun i _ => ?_, fun hs => x.signal_issued s 1 x.next 0 hs⟩
    rw [Ctx.token_issued, ← hcore, Core.token_takeWaits]
    rfl
  · rw [hcore] at hf hlen
    obtain ⟨t, ht, he, m, pc, htc⟩ := exec_resultLands_core hf hd (by simp [Act.isTlbi, hpay])
      (f := fun k => (k.dropAct a.id).giveSignals x.q s.now p n) (by unfold State.perform; rw [hpay])
    refine ⟨t, ht, State.onlyCore_iff.mpr ⟨he, ?_⟩, fun i hi => ?_⟩
    · rw [htc]
      exact (Core.sameData_dropAct _ a.id).trans ((Core.sameData_giveSignals _ _ _ _ _).trans (Core.sameData_blame _ _ _))
    · rw [htc, hcore]
      exact Core.token_giveSignals (k := (s.core x.c).dropAct a.id) (hlen ▸ hi) x.q s.now p n

end Sys2Proof.Machine
end

section
/-! PROOFS. PCFG, PRWD, SHLD and CBLD at their issue (R115, R360, R405, R406, R415), and O12. -/

namespace Sys2Proof.Machine

/-- The alignment and range faults of a 64-byte record. -/
theorem recordFault_eq_none {off : W64} {size : Nat} (h1 : off.toNat % 64 = 0) (h2 : off.toNat + 64 ≤ size) : recordFault off size = none := by
  simp [recordFault, h1, Nat.not_lt.mpr h2]

theorem recordFault_align {off : W64} (size : Nat) (h1 : off.toNat % 64 ≠ 0) : recordFault off size = some 0x0C := by
  simp [recordFault, h1, cAlign]

theorem recordFault_range {off : W64} {size : Nat} (h1 : off.toNat % 64 = 0) (h2 : size < off.toNat + 64) :
    recordFault off size = some 0x10 := by
  simp [recordFault, h1, h2, cSpaceAccess]

/-- A port taken for some cycles changes none of a core's data. -/
theorem State.holdPort_onlyCore (s : State) (c n stop ready : Nat) : s.OnlyCore (s.modCore c fun k => k.holdPort n stop ready) c :=
  s.onlyCore_modCore c _ ⟨fun _ _ => rfl, fun _ _ => rfl, rfl, rfl, rfl, rfl, rfl, fun _ => rfl, fun _ => rfl, rfl, rfl, rfl⟩

theorem Ctx.later_onlyCore (x : Ctx) {s t : State} (h : s.OnlyCore t x.c) (lat : Nat) (p : Pay) : s.OnlyCore (x.later t lat p) x.c :=
  h.trans (t.onlyCore_addAct _ _ _ _ _ _)

theorem portGate_seqs {g : BitVec 5} (hg : g.toNat < 8) (us : List (BitVec 5)) :
    (portGate g us).seqs = if g.toNat < 4 then [.ld] else [.st] := by
  simp [portGate, Gate.regionOnly, hg]

/-- Settles O12. -/
theorem portAndRecordWords : Obligations.PortAndRecordWords := by
  unfold Obligations.PortAndRecordWords
  intro s h x g a n sa faults late mine other idle
  refine ⟨fun ht hg => ?_, fun ht hg => ?_, fun ht hn => ?_, fun ht => ?_⟩
  · have hi (us : List (BitVec 5)) (hu : ∀ r ∈ us, r ∈ [a]) : s.Issues h (fun _ => portGate g us) x :=
      ht.issues _ rfl (by simpa [portGate] using hg) rfl (fun q hq => by rw [portGate_seqs hg]; exact hq) (admits_regions rfl rfl) hu
    have hhold (hid : idle) : (x.k.place x.q != .timed && decide (4 ≤ g.toNat) && x.k.pushDue g.toNat) = false := by
      rcases hid with hp | hp | hp
      · simp [hp]
      · simp [hp]
      · simp [hp]
    have ha := hi [a] fun _ hr => hr
    have h0 := hi [] (by simp)
    refine ⟨fun h1 h2 hid => ?_, fun h1 => ?_, fun h1 h2 => ?_, fun hset hid => ?_, fun hset => ?_⟩
    · refine yields_issued (exec_eq_issueAt (exec_pcfg h g a s)) ha ?_ (x.later_onlyCore (s.holdPort_onlyCore x.c g.toNat (s.now + 1) (s.now + 4)) 1 _)
      dsimp only
      rw [recordFault_eq_none h1 h2]
      exact if_neg (by rw [hhold hid]; decide)
    · refine exec_trap_late (exec_eq_issueAt (exec_pcfg h g a s)) ha ?_
      dsimp only
      rw [recordFault_align _ h1]
    · refine exec_trap_late (exec_eq_issueAt (exec_pcfg h g a s)) ha ?_
      dsimp only
      rw [recordFault_range h1 h2]
    · refine yields_issued (exec_eq_issueAt (exec_prwd h g s)) h0 ?_ (x.later_onlyCore (s.holdPort_onlyCore x.c g.toNat (s.now + 1) (s.now + 2)) 2 _)
      dsimp only
      rw [if_neg (by simp [hset]), hhold hid]
      rfl
    · refine exec_trap_late (exec_eq_issueAt (exec_prwd h g s)) h0 ?_
      dsimp only
      rw [if_pos (by simp [hset])]
  · have hother (us : List (BitVec 5)) : x.q ∉ (portGate g us).seqs := by
      have hq : x.q ∈ other := ht.seq
      rw [portGate_seqs hg]
      simp only [other] at hq
      split at hq <;> rename_i hlt <;> simp only [hlt, if_true, if_false] <;> intro hm <;> rw [List.mem_singleton.mp hm] at hq <;> exact absurd hq (by decide)
    exact ⟨exec_illegalOp (exec_eq_issueAt (exec_pcfg h g a s)) ht.here (.inr (hother [a])),
      exec_illegalOp (exec_eq_issueAt (exec_prwd h g s)) ht.here (.inr (hother []))⟩
  · refine ⟨fun hl => ?_, fun hl => ?_⟩
    · have hi : s.Issues h (fun c => { Gate.regionOnly [.ld] with operandBad := 16 ≤ n.toNat, ruleBad := c.k.liveInTile n.toNat, uses := [a] }) x :=
        ht.issues _ rfl (by simpa using hn) hl (fun _ hq => hq) (admits_regions rfl rfl) fun _ hr => hr
      refine ⟨fun h1 h2 => ?_, fun h1 => ?_, fun h1 h2 => ?_⟩
      · refine yields_issued (exec_shld h n a s) hi ?_ (x.later_onlyCore (.refl s x.c) 1 _)
        rw [recordFault_eq_none h1 h2]
        rfl
      · refine exec_trap_late (exec_shld h n a s) hi ?_
        rw [recordFault_align _ h1]
      · refine exec_trap_late (exec_shld h n a s) hi ?_
        rw [recordFault_range h1 h2]
    · exact exec_regionRule (exec_shld h n a s) ht.here rfl ht.seq (by simpa using hn) (.inl hl)
  · have hi : s.Issues h (fun _ => engineGate false [a]) x :=
      ht.issues _ rfl rfl rfl (fun _ hq => hq) (admits_regions rfl rfl) fun _ hr => hr
    have hsa : w64 (x.reg a).toNat = x.reg a := by rw [w64, BitVec.ofNat_toNat, BitVec.setWidth_eq]
    refine ⟨fun h1 h2 => ?_, fun h1 => ?_, fun h1 h2 => ?_⟩
    · refine yields_issued (exec_eq_issueAt (exec_cbld h a s)) hi ?_ (x.later_onlyCore (.refl s x.c) 1 _)
      dsimp only
      rw [if_neg (by simpa using h1), if_neg (by omega)]
      rfl
    · refine exec_trap_late (exec_eq_issueAt (exec_cbld h a s)) hi ?_
      dsimp only
      rw [if_pos (by simpa using h1), hsa]
    · refine exec_trap_late (exec_eq_issueAt (exec_cbld h a s)) hi ?_
      dsimp only
      rw [if_neg (by simpa using h1), if_pos (by omega), hsa]

end Sys2Proof.Machine
end

section
/-! PROOFS. NOP, IDLE, MSEL, the fences and XFENCE (R376, R379, R397, R399), CSRR and CSRW (R364, R365): O19, O20. -/

namespace Sys2Proof.Machine

theorem w64_toNat (v : W64) : w64 v.toNat = v := by rw [w64, BitVec.ofNat_toNat, BitVec.setWidth_eq]

theorem w64_toNat_setWidth {w : Nat} (v : BitVec w) : w64 v.toNat = v.setWidth 64 := by rw [w64, BitVec.ofNat_toNat]

/-! ### Fences -/

/-- A sequencer after its FENCE of a kind and scope. -/
def Seq.afterFence (y : Seq) (timed : Bool) (keep : List Nat) (kind scope now : Nat) (sp sn : Bool) : Seq :=
  { (if timed && kind == 0 then y.keepWords keep.contains else y) with
    fenced := if kind = 1 then y.fenced else joinFence y.fenced scope (kind == 0)
    lastHeld := if kind = 1 then y.lastHeld else none
    st := if timed then y.st else .atFence scope kind (now + 1) sp sn }

theorem Seq.afterFence_regs (y : Seq) (timed : Bool) (keep : List Nat) (kind scope now : Nat) (sp sn : Bool) :
    (y.afterFence timed keep kind scope now sp sn).regs = y.regs := by
  unfold Seq.afterFence
  split <;> rfl

/-- What a fence leaves of its sequencer: its place in the program stays with it, its scope joins the fence record. -/
theorem yields_fence {s : State} {h : Hdr} {x : Ctx} {kind : Nat} {sc : BitVec 3} {i : Instr} {places : List Place} (he : exec i s = fenceWord h kind sc s)
    (ht : s.AtWord h x allSeqs places []) (hsc : sc.toNat ≤ 4) :
    let timed := x.k.place x.q == .timed
    ∃ t, s.Yields i (x.issued h t (if timed then some 1 else none) x.next 0) x.c ∧ t.now = s.now ∧
      ((t.core x.c).seq x.q).st = (if timed then x.x.st else .atFence sc.toNat kind (s.now + 1) h.sp h.sn) ∧
      ((t.core x.c).seq x.q).fenced = (if kind = 1 then x.x.fenced else joinFence x.x.fenced sc.toNat (kind == 0)) := by
  intro timed
  have hx : (s.core x.c).seq x.q = x.x := (State.ctx_core ht.here).2.symm
  have hi : s.Issues h (fun _ => { illegalOp := decide (4 < sc.toNat) }) x :=
    ht.issues _ (by simpa using hsc) rfl rfl (fun q _ => mem_allSeqs q) (fun p _ => admits_open rfl rfl rfl rfl p) (by simp)
  refine ⟨s.modCore x.c fun k => k.modSeq x.q fun y => y.afterFence timed (x.k.windows x.q) kind sc.toNat s.now h.sp h.sn, ?_, rfl, ?_, ?_⟩
  · exact yields_issued (exec_eq_issueAt he) hi rfl
      (s.onlyCore_modCore x.c _ (Core.sameData_modSeq _ x.q _ (Seq.afterFence_regs _ _ _ _ _ _ _ _)))
  · rw [State.core_modCore, Core.seq_modSeq, hx]; rfl
  · rw [State.core_modCore, Core.seq_modSeq, hx]; rfl

/-- Settles O19. -/
theorem fenceAndMinorWords : Obligations.FenceAndMinorWords := by
  unfold Obligations.FenceAndMinorWords
  refine ⟨fun s h x n m => ⟨fun ht => ?_, fun ht => ⟨fun hm => ?_, fun hm => ?_⟩, fun ht => ?_⟩, ?_⟩
  · exact ⟨yields_issued (exec_eq_issueAt (exec_nop h s)) (issues_open ht fun _ hr => hr) rfl (.refl s x.c),
      yields_issued (exec_eq_issueAt (exec_idle h n s)) (issues_open ht fun _ hr => hr) rfl (.refl s x.c)⟩
  · have hi : s.Issues h (fun _ => { seqs := [.cm], operandBad := decide (8 < m.toNat) }) x :=
      ht.issues _ rfl (by simpa using hm) rfl (fun _ hq => hq) (fun p _ => admits_open rfl rfl rfl rfl p) (by simp)
    have hy := yields_issued (exec_eq_issueAt (exec_msel h m s)) hi rfl (x.later_onlyCore (.refl s x.c) 1 (.csr 0x11 (w64 m.toNat)))
    rw [w64_toNat_setWidth] at hy
    exact hy
  · exact exec_illegalOperand (exec_eq_issueAt (exec_msel h m s)) ht.here rfl ht.seq (by simpa using hm)
  · exact exec_illegalOp (exec_eq_issueAt (exec_msel h m s)) ht.here (.inr fun hq => by
      have := ht.seq
      rw [List.mem_singleton.mp hq] at this
      exact absurd this (by decide))
  intro s h x sc fences
  have each (P : Instr → Nat → Prop) (hP : ∀ i kind, exec i s = fenceWord h kind sc s → P i kind) : fences P :=
    ⟨hP _ 0 (exec_fenceFull h sc s), hP _ 1 (exec_fenceAcq h sc s), hP _ 2 (exec_fenceRel h sc s)⟩
  clear_value fences
  have notCm (ht : s.AtWord h x [.ld, .st, .ct] everywhere []) : x.q ∉ [SeqId.cm] := fun hq => by
    have := ht.seq
    rw [List.mem_singleton.mp hq] at this
    exact absurd this (by decide)
  refine ⟨fun hsc ht => each _ fun i kind he => ?_, fun hsc ht => each _ fun i kind he => ?_, fun hsc ht => each _ fun i kind he => ?_,
    fun ht => ?_, fun ht => ?_, fun ht => ?_⟩
  · have hp : (x.k.place x.q == .timed) = true := by simpa using ht.place
    obtain ⟨t, hy, hnow, hst, hf⟩ := yields_fence he ht hsc
    rw [hp] at hy hst
    exact ⟨t, hy, hnow, hst, hf⟩
  · exact exec_illegalOp (exec_eq_issueAt he) ht.here (.inl (by simpa using hsc))
  · have hp : (x.k.place x.q == .timed) = false := by
      have := ht.place
      rw [beq_eq_false_iff_ne]
      intro hq
      rw [hq] at this
      exact absurd this (by decide)
    obtain ⟨t, hy, hnow, hst, hf⟩ := yields_fence he ht hsc
    rw [hp] at hy hst
    exact ⟨t, hy, hst, hf⟩
  · exact yields_issued (exec_eq_issueAt (exec_xfence h s))
      (ht.issues _ rfl rfl rfl (fun _ hq => hq) (admits_regions rfl rfl) (by simp [Gate.regionOnly])) rfl (x.later_onlyCore (.refl s x.c) 1 _)
  · exact exec_regionRule (exec_eq_issueAt (exec_xfence h s)) ht.here rfl ht.seq rfl (.inr (by rw [List.mem_singleton.mp ht.place]; rfl))
  · exact exec_illegalOp (exec_eq_issueAt (exec_xfence h s)) ht.here (.inr (notCm ht))

/-! ### CSRs -/

theorem csrGate_issues {s : State} {h : Hdr} {x : Ctx} {seqs : List SeqId} {r : BitVec 5} {c : BitVec 9} (ht : s.AtWord h x seqs everywhere [r])
    (hc : csrAssigned c = true) (hs : ∀ q ∈ seqs, q ∈ csrSeqs c.toNat) :
    s.Issues h (fun x => { illegalOp := !csrAssigned c || !(csrSeqs c.toNat).contains x.q, uses := [r] }) x :=
  ht.issues _ (by simp [hc, hs _ ht.seq]) rfl rfl (fun q _ => mem_allSeqs q) (fun p _ => admits_open rfl rfl rfl rfl p) fun _ hr => hr

/-- CSRR of a CSR that its sequencer may access. -/
theorem yields_csrr {s : State} {h : Hdr} {x : Ctx} {seqs : List SeqId} {d : BitVec 5} (ht : s.AtWord h x seqs everywhere [d]) (c : BitVec 9)
    (hc : csrAssigned c = true) (hs : ∀ q ∈ seqs, q ∈ csrSeqs c.toNat) (hne : c ≠ 0x22) {v : W64} (hv : s.csrRead x.c x.q c.toNat = v) :
    s.Yields (.csrr h d c) (x.writes s h d v 1) x.c := by
  subst hv
  exact yields_issued (exec_csrr h d c s) (csrGate_issues ht hc hs) (if_neg hne) (x.land_onlyCore s d _ 1)

/-- CSRR or CSRW of a CSR that its sequencer may not access. -/
theorem exec_csrr_illegal {s : State} {h : Hdr} {x : Ctx} {seqs : List SeqId} {d : BitVec 5} (ht : s.AtWord h x seqs everywhere [d]) (c : BitVec 9)
    (hc : csrAssigned c = false ∨ x.q ∉ csrSeqs c.toNat) :
    exec (.csrr h d c) s = .next (s.raise x.c (x.fault s 0x01 (x.x.curWord.setWidth 64))) :=
  exec_illegalOp (exec_csrr h d c s) ht.here (.inl (by simpa using hc))

/-- CSRW of a CSR that its sequencer may access and that takes the value. -/
theorem yields_csrw {s : State} {h : Hdr} {x : Ctx} {seqs : List SeqId} {a : BitVec 5} (ht : s.AtWord h x seqs everywhere [a]) (c : BitVec 9)
    (hc : csrAssigned c = true) (hs : ∀ q ∈ seqs, q ∈ csrSeqs c.toNat) (hw : csrWritable c.toNat = true)
    (hv : csrBad c.toNat (x.k.place x.q == .timed) (x.reg a) = none) :
    s.Yields (.csrw h a c) (x.done h (x.later s 1 (.csr c.toNat (x.reg a))) 1) x.c := by
  refine yields_issued (exec_csrw h a c s) (csrGate_issues ht hc hs) ?_ (x.later_onlyCore (.refl s x.c) 1 _)
  rw [if_neg (by simp [hw]), hv]
  rfl

/-- A read-only CSR. -/
theorem exec_csrw_readOnly {s : State} {h : Hdr} {x : Ctx} {seqs : List SeqId} {a : BitVec 5} (ht : s.AtWord h x seqs everywhere [a]) (c : BitVec 9)
    (hc : csrAssigned c = true) (hs : ∀ q ∈ seqs, q ∈ csrSeqs c.toNat) (hw : csrWritable c.toNat = false) :
    exec (.csrw h a c) s = .next ((x.taken s h).raise x.c (x.fault s 0x0F (c.setWidth 64))) := by
  refine exec_trap_late (exec_csrw h a c s) (csrGate_issues ht hc hs) ?_
  rw [if_pos (by simp [hw]), w64_toNat_setWidth]

/-- A value that a writable CSR does not take. -/
theorem exec_csrw_bad {s : State} {h : Hdr} {x : Ctx} {seqs : List SeqId} {a : BitVec 5} (ht : s.AtWord h x seqs everywhere [a]) (c : BitVec 9)
    (hc : csrAssigned c = true) (hs : ∀ q ∈ seqs, q ∈ csrSeqs c.toNat) (hw : csrWritable c.toNat = true) {code : Nat}
    (hv : csrBad c.toNat (x.k.place x.q == .timed) (x.reg a) = some code) :
    exec (.csrw h a c) s = .next ((x.taken s h).raise x.c (x.fault s code
      (if code = cAlign then x.reg a else if code = cRegionRule then 0 else x.x.curWord.setWidth 64))) := by
  refine exec_trap_late (exec_csrw h a c s) (csrGate_issues ht hc hs) ?_
  rw [if_neg (by simp [hw]), hv]

/-! The values that each CSR takes. -/

theorem csrBad_rwin (timed : Bool) (v : W64) :
    csrBad 0x10 timed v = if v.toNat / 16 % 32 ≠ 0 ∧ v.toNat % 16 + v.toNat / 16 % 32 ≤ 16 then none else some 0x02 := by
  by_cases h : v.toNat / 16 % 32 = 0
  · simp [csrBad, bits, cIllegalOperand, h]
  · simp only [csrBad, bits, cIllegalOperand, Nat.reducePow, Nat.reduceSub, Nat.reduceAdd, Nat.div_one, h, decide_false, Bool.false_or,
      decide_eq_true_eq, ne_eq, not_false_eq_true, true_and]
    split <;> split <;> first | rfl | omega

theorem csrBad_mact (timed : Bool) (v : W64) : csrBad 0x11 timed v = if v.toNat % 16 ≤ 8 then none else some 0x02 := by
  simp only [csrBad, bits, cIllegalOperand, Nat.reducePow, Nat.reduceSub, Nat.reduceAdd, Nat.div_one]
  split <;> split <;> first | rfl | omega

theorem csrBad_sacw (timed : Bool) (v : W64) : csrBad 0x17 timed v = if v.toNat % 32 ≠ 0 ∧ v.toNat % 32 ≤ 16 then none else some 0x02 := by
  by_cases h : v.toNat % 32 = 0
  · simp [csrBad, bits, cIllegalOperand, h]
  · simp only [csrBad, bits, cIllegalOperand, Nat.reducePow, Nat.reduceSub, Nat.reduceAdd, Nat.div_one, h, decide_false, Bool.false_or,
      decide_eq_true_eq, ne_eq, not_false_eq_true, true_and]
    split <;> split <;> first | rfl | omega

theorem csrBad_tvec (timed : Bool) (v : W64) :
    csrBad 0x20 timed v = if v.toNat % 4 ≠ 0 then some 0x0C else if 2 ^ 48 ≤ v.toNat then some 0x02 else none := by
  have := v.isLt
  by_cases h : v.toNat % 4 = 0
  · by_cases h2 : 281474976710656 ≤ v.toNat
    · have h3 : v.toNat / 281474976710656 % 65536 ≠ 0 := by omega
      simp [csrBad, bits, cIllegalOperand, h, h2, h3]
    · have h3 : v.toNat / 281474976710656 % 65536 = 0 := by omega
      simp [csrBad, bits, h, h2, h3]
  · simp [csrBad, bits, cAlign, h]

theorem csrBad_dplidx (timed : Bool) (v : W64) :
    csrBad 0x31 timed v = if v.toNat / 8 % 2 = 0 ∧ v.toNat / 128 % 2 = 0 then none else some 0x02 := by
  rcases Nat.mod_two_eq_zero_or_one (v.toNat / 8) with h1 | h1 <;> rcases Nat.mod_two_eq_zero_or_one (v.toNat / 128) with h2 | h2 <;>
    simp [csrBad, bit, cIllegalOperand, h1, h2]

theorem csrBad_tlbi (timed : Bool) (v : W64) :
    csrBad 0x40 timed v =
      if 2 ≤ v.toNat % 16 ∨ 4 ≤ v.toNat / 16 % 8 ∨ v.toNat / 128 % 32 ≠ 0 ∨ 2 ^ 48 ≤ v.toNat then some 0x02
      else if timed = true ∧ v.toNat / 16 % 8 ≠ 0 then some 0x09 else none := by
  have := v.isLt
  by_cases h : 281474976710656 ≤ v.toNat
  · have h3 : v.toNat / 281474976710656 % 65536 ≠ 0 := by omega
    simp [csrBad, bits, cIllegalOperand, h, h3]
  · have h3 : v.toNat / 281474976710656 % 65536 = 0 := by omega
    by_cases h4 : v.toNat / 128 % 32 = 0 <;> by_cases h5 : v.toNat / 16 % 8 = 0 <;>
      by_cases h6 : 4 ≤ v.toNat / 16 % 8 <;> simp [csrBad, bits, cIllegalOperand, cRegionRule, h, h3, h4, h5, h6]

theorem csrSeqs_all {n : Nat} (h : n ≤ 8 ∨ n = 0x18 ∨ n = 0x30) : csrSeqs n = allSeqs := by
  unfold csrSeqs
  exact if_pos (by simpa [or_assoc] using h)

theorem csrSeqs_cm {n : Nat} (h1 : 0x10 ≤ n) (h2 : n ≤ 0x17) : csrSeqs n = [.cm] := by
  unfold csrSeqs
  rw [if_neg (by simp; omega), if_pos (by simp [h1, h2])]

/-- Settles O20: CSR by CSR. -/
theorem csrWords : Obligations.CsrWords := by
  unfold Obligations.CsrWords
  refine ⟨?_, ?_⟩
  · intro s h x d k field t reads
    refine ⟨fun ht => ?_, fun ht => ?_, fun ht => ?_, fun ht c h1 h2 => ?_, fun ht c hc => ?_⟩
    · have get {v : W64} (c : BitVec 9) (hc : csrAssigned c = true) (hs : csrSeqs c.toNat = allSeqs) (hne : c ≠ 0x22)
          (hv : s.csrRead x.c x.q c.toNat = v) : reads c v := yields_csrr ht c hc (fun q _ => hs ▸ mem_allSeqs q) hne hv
      exact ⟨get 0x00 rfl rfl (by decide) rfl, get 0x01 rfl rfl (by decide) rfl, get 0x02 rfl rfl (by decide) rfl, get 0x03 rfl rfl (by decide) rfl,
        get 0x04 rfl rfl (by decide) rfl, get 0x05 rfl rfl (by decide) rfl, get 0x06 rfl rfl (by decide) rfl, get 0x07 rfl rfl (by decide) rfl,
        get 0x08 rfl rfl (by decide) rfl, get 0x18 rfl rfl (by decide) rfl, get 0x30 rfl rfl (by decide) rfl,
        fun c hc => exec_csrr_illegal ht c (.inl hc)⟩
    · have get {v : W64} (c : BitVec 9) (hc : csrAssigned c = true) (hs : csrSeqs c.toNat = [.cm]) (hne : c ≠ 0x22)
          (hv : s.csrRead x.c x.q c.toNat = v) : reads c v := yields_csrr ht c hc (fun q hq => hs ▸ hq) hne hv
      exact ⟨get 0x10 rfl rfl (by decide) rfl, get 0x11 rfl rfl (by decide) rfl, get 0x12 rfl rfl (by decide) rfl, get 0x13 rfl rfl (by decide) rfl,
        get 0x14 rfl rfl (by decide) rfl, get 0x15 rfl rfl (by decide) rfl, get 0x16 rfl rfl (by decide) rfl, get 0x17 rfl rfl (by decide) rfl⟩
    · have get {v : W64} (c : BitVec 9) (hc : csrAssigned c = true) (hs : csrSeqs c.toNat = [.ct]) (hne : c ≠ 0x22)
          (hv : s.csrRead x.c x.q c.toNat = v) : reads c v := yields_csrr ht c hc (fun q hq => hs ▸ hq) hne hv
      refine ⟨get 0x20 rfl rfl (by decide) rfl, get 0x21 rfl rfl (by decide) rfl, get 0x23 rfl rfl (by decide) rfl, get 0x24 rfl rfl (by decide) rfl,
        get 0x25 rfl rfl (by decide) rfl, get 0x26 rfl rfl (by decide) rfl, get 0x27 rfl rfl (by decide) rfl, get 0x31 rfl rfl (by decide) rfl,
        get 0x32 rfl rfl (by decide) ?_, ?_⟩
      · show w64 (dpl (bits k.dplidx.toNat 7 4) (bits k.dplidx.toNat 3 0)) = _
        simp [bits, w64]
      · exact yields_issued (exec_csrr h d 0x22 s) (csrGate_issues ht rfl fun q hq => hq) (if_pos rfl) (x.later_onlyCore (.refl s x.c) 1 _)
    · refine exec_csrr_illegal ht c (.inr fun hq => ?_)
      rw [csrSeqs_cm h1 h2, List.mem_singleton] at hq
      exact absurd (hq ▸ ht.seq) (by decide)
    · refine exec_csrr_illegal ht c (.inr fun hq => ?_)
      have hs : csrSeqs c.toNat = [.ct] := by
        have : ∀ n ∈ [0x20, 0x21, 0x22, 0x23, 0x24, 0x25, 0x26, 0x27, 0x31, 0x32, 0x40], csrSeqs n = [.ct] := by decide
        exact this _ hc
      rw [hs, List.mem_singleton] at hq
      exact absurd (hq ▸ ht.seq) (by decide)
  · intro s h x a v word faults writes either
    refine ⟨fun ht => ?_, fun ht => ?_⟩
    · have put (c : BitVec 9) (hc : csrAssigned c = true) (hs : csrSeqs c.toNat = [.cm]) (hw : csrWritable c.toNat = true)
          (hv : csrBad c.toNat (x.k.place x.q == .timed) (x.reg a) = none) : writes c := yields_csrw ht c hc (fun q hq => hs ▸ hq) hw hv
      have bad (c : BitVec 9) (hc : csrAssigned c = true) (hs : csrSeqs c.toNat = [.cm]) (hw : csrWritable c.toNat = true)
          (hv : csrBad c.toNat (x.k.place x.q == .timed) (x.reg a) = some 0x02) : faults 0x02 word c := exec_csrw_bad ht c hc (fun q hq => hs ▸ hq) hw hv
      exact ⟨⟨fun hok => put 0x10 rfl rfl rfl ((csrBad_rwin _ _).trans (if_pos hok)), fun hok => bad 0x10 rfl rfl rfl ((csrBad_rwin _ _).trans (if_neg hok))⟩,
        ⟨fun hok => put 0x11 rfl rfl rfl ((csrBad_mact _ _).trans (if_pos hok)), fun hok => bad 0x11 rfl rfl rfl ((csrBad_mact _ _).trans (if_neg hok))⟩,
        put 0x12 rfl rfl rfl rfl, put 0x13 rfl rfl rfl rfl, put 0x14 rfl rfl rfl rfl, put 0x15 rfl rfl rfl rfl, put 0x16 rfl rfl rfl rfl,
        ⟨fun hok => put 0x17 rfl rfl rfl ((csrBad_sacw _ _).trans (if_pos hok)), fun hok => bad 0x17 rfl rfl rfl ((csrBad_sacw _ _).trans (if_neg hok))⟩⟩
    · have put (c : BitVec 9) (hc : csrAssigned c = true) (hs : csrSeqs c.toNat = [.ct]) (hw : csrWritable c.toNat = true)
          (hv : csrBad c.toNat (x.k.place x.q == .timed) (x.reg a) = none) : writes c := yields_csrw ht c hc (fun q hq => hs ▸ hq) hw hv
      have bad {code : Nat} (c : BitVec 9) (hc : csrAssigned c = true) (hs : csrSeqs c.toNat = [.ct]) (hw : csrWritable c.toNat = true)
          (hv : csrBad c.toNat (x.k.place x.q == .timed) (x.reg a) = some code) :
          faults code (if code = cAlign then x.reg a else if code = cRegionRule then 0 else word) c := exec_csrw_bad ht c hc (fun q hq => hs ▸ hq) hw hv
      refine ⟨fun h1 h2 => put 0x20 rfl rfl rfl ((csrBad_tvec _ _).trans ?_), fun h1 => bad 0x20 rfl rfl rfl ((csrBad_tvec _ _).trans (if_pos h1)),
        fun h1 h2 => bad 0x20 rfl rfl rfl ((csrBad_tvec _ _).trans ?_), put 0x21 rfl rfl rfl rfl,
        ⟨fun hok => put 0x31 rfl rfl rfl ((csrBad_dplidx _ _).trans (if_pos hok)), fun hok => bad 0x31 rfl rfl rfl ((csrBad_dplidx _ _).trans (if_neg hok))⟩,
        fun c hc => ?_, fun h1 h2 h3 h4 h5 => put 0x40 rfl rfl rfl ((csrBad_tlbi _ _).trans ?_),
        fun h1 h2 h3 h4 h5 h6 => bad 0x40 rfl rfl rfl ((csrBad_tlbi _ _).trans ?_),
        fun h1 => bad 0x40 rfl rfl rfl ((csrBad_tlbi _ _).trans (if_pos h1))⟩
      · rw [if_neg (not_not.mpr h1), if_neg (not_le.mpr h2)]
      · rw [if_neg (not_not.mpr h1), if_pos h2]
      · have hl : ∀ n ∈ [0x22, 0x23, 0x24, 0x25, 0x26, 0x27, 0x30, 0x32, 0, 1, 2, 3, 4, 5, 6, 7, 8, 0x18],
            csrAssigned (BitVec.ofNat 9 n) = true ∧ (csrSeqs n).contains .ct = true ∧ csrWritable n = false := by decide
        obtain ⟨h1, h2, h3⟩ := hl _ hc
        rw [BitVec.ofNat_toNat, BitVec.setWidth_eq] at h1
        exact exec_csrw_readOnly ht c h1 (fun q hq => by rw [List.mem_singleton.mp hq]; simpa using h2) h3
      · rw [if_neg (by omega), if_neg (by rintro ⟨hp, h6⟩; exact h5.elim h6 (fun hn => hn (by simpa using hp)))]
      · rw [if_neg (by omega), if_pos ⟨by simp [h6], h5⟩]

end Sys2Proof.Machine
end

section
/-! PROOFS. ARM, ARRV, AWAIT and AWAIT.X at their issue (R353, R354), arrival words (R195, R196), and O16. -/

namespace Sys2Proof.Machine

/-! ### Arrival words -/

/-- The fields of an arrival word put together. -/
theorem arrivalFields_of_eq {v t c g r : Nat} (hv : v = t + 2 ^ 32 * c + 2 ^ 64 * g + 2 ^ 80 * r) (ht : t < 2 ^ 32) (hc : c < 2 ^ 32)
    (hg : g < 2 ^ 16) (hr : r < 2 ^ 48) :
    v < 2 ^ 128 ∧ v % 2 ^ 32 = t ∧ v / 2 ^ 32 % 2 ^ 32 = c ∧ v / 2 ^ 64 % 2 ^ 16 = g ∧ v.testBit 80 = r.testBit 0 ∧ v / 2 ^ 81 = r / 2 := by
  have h80 : v / 2 ^ 80 = r := by omega
  refine ⟨by omega, by omega, by omega, by omega, ?_, by omega⟩
  rw [Nat.testBit_eq_decide_div_mod_eq, h80, Nat.testBit_eq_decide_div_mod_eq, Nat.pow_zero, Nat.div_one]

theorem testBit_div_pow (w n : Nat) : (w / 2 ^ n).testBit 0 = w.testBit n := by
  rw [← Nat.shiftRight_eq_div_pow, Nat.testBit_shiftRight, Nat.add_zero]

theorem or_one_div_two (r : Nat) : (r ||| 1) / 2 = r / 2 := by
  rw [← Nat.shiftRight_one, Nat.shiftRight_or_distrib, Nat.shiftRight_one, Nat.shiftRight_one]
  exact Nat.or_zero _

/-- What an arrival and an ARM make of an arrival word, field by field. -/
theorem arrivalWord_fields (w b target : Nat) (hw : w < 2 ^ 128) (htarget : target < 2 ^ 32) :
    let tgt := w % 2 ^ 32
    let count := Min.min (w / 2 ^ 32 % 2 ^ 32 + b) (2 ^ 32 - 1)
    let gen := w / 2 ^ 64 % 2 ^ 16
    let fields (v t c g : Nat) (o : Bool) : Prop :=
      v < 2 ^ 128 ∧ v % 2 ^ 32 = t ∧ v / 2 ^ 32 % 2 ^ 32 = c ∧ v / 2 ^ 64 % 2 ^ 16 = g ∧ v.testBit 80 = o ∧ v / 2 ^ 81 = w / 2 ^ 81
    (tgt = 0 → fields (arriveWord w b) 0 count gen (w.testBit 80)) ∧
    (tgt ≠ 0 → count < tgt → fields (arriveWord w b) tgt count gen (w.testBit 80)) ∧
    (tgt ≠ 0 → count = tgt → fields (arriveWord w b) tgt 0 ((gen + 1) % 2 ^ 16) (w.testBit 80)) ∧
    (tgt ≠ 0 → tgt < count → fields (arriveWord w b) tgt count gen true) ∧
    fields (armWord w target) target 0 gen false := by
  intro tgt count gen fields
  have htgt : tgt < 2 ^ 32 := Nat.mod_lt _ (by decide)
  have hcount : count < 2 ^ 32 := by omega
  have hgen : gen < 2 ^ 16 := Nat.mod_lt _ (by decide)
  have hrest : w / 2 ^ 80 < 2 ^ 48 := by omega
  have put {v t c g : Nat} (hv : v = t + 2 ^ 32 * c + 2 ^ 64 * g + 2 ^ 80 * (w / 2 ^ 80)) (ht : t < 2 ^ 32) (hc : c < 2 ^ 32) (hg : g < 2 ^ 16) :
      fields v t c g (w.testBit 80) := by
    obtain ⟨h1, h2, h3, h4, h5, h6⟩ := arrivalFields_of_eq hv ht hc hg hrest
    exact ⟨h1, h2, h3, h4, h5.trans (testBit_div_pow w 80), by omega⟩
  have heq : arriveWord w b =
      if tgt = 0 then tgt + 2 ^ 32 * count + 2 ^ 64 * gen + 2 ^ 80 * (w / 2 ^ 80)
      else if count = tgt then tgt + 2 ^ 32 * 0 + 2 ^ 64 * ((gen + 1) % 2 ^ 16) + 2 ^ 80 * (w / 2 ^ 80)
      else if tgt < count then tgt + 2 ^ 32 * count + 2 ^ 64 * gen + 2 ^ 80 * (w / 2 ^ 80 ||| 1)
      else tgt + 2 ^ 32 * count + 2 ^ 64 * gen + 2 ^ 80 * (w / 2 ^ 80) := by
    have hmax : (2 ^ 32 - 1 : Nat) = 0xFFFFFFFF := by norm_num
    simp only [arriveWord, bits, Nat.pow_zero, Nat.div_one, Nat.reduceSub, Nat.reduceAdd, tgt, count, gen, hmax]
  refine ⟨fun h0 => ?_, fun h0 h1 => ?_, fun h0 h1 => ?_, fun h0 h1 => ?_, ?_⟩
  · rw [heq, if_pos h0, h0]
    exact put rfl (by decide) hcount hgen
  · rw [heq, if_neg h0, if_neg (by omega), if_neg (by omega)]
    exact put rfl htgt hcount hgen
  · rw [heq, if_neg h0, if_pos h1]
    exact put rfl htgt (by decide) (Nat.mod_lt _ (by decide))
  · rw [heq, if_neg h0, if_neg (by omega), if_pos h1]
    have hbit : (w / 2 ^ 80 ||| 1).testBit 0 = true := by rw [Nat.testBit_or, Nat.testBit_one_zero, Bool.or_true]
    have hor : w / 2 ^ 80 ||| 1 < 2 ^ 48 := Nat.or_lt_two_pow hrest (by decide)
    have hhalf : (w / 2 ^ 80 ||| 1) / 2 = w / 2 ^ 81 := by rw [or_one_div_two]; omega
    generalize hr : w / 2 ^ 80 ||| 1 = r at hbit hor hhalf
    obtain ⟨h1, h2, h3, h4, h5, h6⟩ := arrivalFields_of_eq rfl htgt hcount hgen hor
    exact ⟨h1, h2, h3, h4, h5.trans hbit, h6.trans hhalf⟩
  · have harm : armWord w target = target + 2 ^ 32 * 0 + 2 ^ 64 * gen + 2 ^ 80 * (w / 2 ^ 81 * 2) := by
      simp only [armWord, bits, Nat.mul_zero, Nat.add_zero, Nat.reduceSub, Nat.reduceAdd, gen]
    obtain ⟨h1, h2, h3, h4, h5, h6⟩ := arrivalFields_of_eq harm htarget (by decide) hgen (by omega)
    exact ⟨h1, h2, h3, h4, h5.trans (by simp [Nat.testBit_eq_decide_div_mod_eq]), h6.trans (Nat.mul_div_cancel _ (by decide))⟩

/-! ### The words of the ARV group -/

theorem arrivalFault_eq_none {sa : W64} (h1 : sa.toNat % 16 = 0) (h2 : sa.toNat + 16 ≤ 98304) : arrivalFault sa = none := by
  simp [arrivalFault, h1, Nat.not_lt.mpr h2]

section Arv

variable {s : State} {h : Hdr} {x : Ctx} {places : List Place} {timed : Bool} {a b : BitVec 5} {width : Nat} {body : Ctx → State → Iss} {i : Instr}
  (he : exec i s = arvWord h timed a b width body s) (ht : s.AtWord h x [.ld, .st, .ct] places [a, b])
  (hp : ∀ p ∈ places, p = .tokened ∨ p = .timed ∧ timed = true)
include ht hp in
theorem arv_issues : s.Issues h (fun _ => { Gate.regionOnly [.ld, .st, .ct] with timed := timed, uses := [a, b] }) x :=
  ht.issues _ rfl rfl rfl (fun _ hq => hq) (fun p hm => by
    rcases hp p hm with h | ⟨h, h'⟩
    · rw [h]; rfl
    · rw [h, h']; rfl) fun _ hr => hr

include he ht hp

/-- A word of the group whose operands are in range has its own effect. -/
theorem arv_body (h1 : (x.reg a).toNat % 16 = 0) (h2 : (x.reg a).toNat + 16 ≤ 98304) (h3 : (x.reg b).toNat < 2 ^ width) :
    exec i s = .next (x.settled h s (body x s)) := by
  rw [he]
  refine (issue_of_issues (arv_issues ht hp)).trans ?_
  rw [arrivalFault_eq_none h1 h2, if_neg (Nat.not_le.mpr h3)]

theorem arv_align (h1 : (x.reg a).toNat % 16 ≠ 0) : exec i s = .next ((x.taken s h).raise x.c (x.fault s 0x0C (x.reg a))) := by
  refine exec_trap_late (exec_eq_issueAt he) (arv_issues ht hp) ?_
  have : arrivalFault (x.reg a) = some cAlign := by simp [arrivalFault, h1]
  rw [this]

theorem arv_range (h1 : (x.reg a).toNat % 16 = 0) (h2 : 98304 < (x.reg a).toNat + 16) :
    exec i s = .next ((x.taken s h).raise x.c (x.fault s 0x10 (x.reg a))) := by
  refine exec_trap_late (exec_eq_issueAt he) (arv_issues ht hp) ?_
  have : arrivalFault (x.reg a) = some cSpaceAccess := by simp [arrivalFault, h1, h2]
  rw [this]

theorem arv_operand (h1 : (x.reg a).toNat % 16 = 0) (h2 : (x.reg a).toNat + 16 ≤ 98304) (h3 : 2 ^ width ≤ (x.reg b).toNat) :
    exec i s = .next ((x.taken s h).raise x.c (x.fault s 0x02 (x.reg a))) := by
  refine exec_trap_late (exec_eq_issueAt he) (arv_issues ht hp) ?_
  rw [arrivalFault_eq_none h1 h2, if_pos h3]

end Arv

/-- Settles O16. -/
theorem arrivalWords : Obligations.ArrivalWords := by
  unfold Obligations.ArrivalWords
  refine ⟨?_, arrivalWord_fields⟩
  intro s h x a b sa v inside word gen ovr reached faults late words
  have hstate : x.k.arrivalState sa = (gen, ovr) := by
    simp only [Core.arrivalState, bits, bit, gen, ovr, word, Nat.testBit_eq_decide_div_mod_eq]
    rfl
  have hawait (t : State) : awaitBody a b x t =
      if ovr then .trap cArrivalOverrun (x.reg a) else if reached then x.go t 1 else .hold t := by
    unfold awaitBody
    rw [hstate]
    simp only [generationDone, decide_eq_true_eq]
    rfl
  have hx := exec_awaitX h a b s
  have hr : ∀ p ∈ regions, p = Place.tokened ∨ p = .timed ∧ true = true := by decide
  have htok (timed : Bool) : ∀ p ∈ [Place.tokened], p = .tokened ∨ p = .timed ∧ timed = true := by simp
  have h16 : v < 2 ^ 16 → v < 2 ^ 32 := fun h => h.trans (by decide)
  refine ⟨fun ht => ⟨fun hin hv => ⟨?_, ?_⟩, fun hin hv h1 h2 => ?_, fun hin hv h1 => ?_, fun h1 => ?_, fun h1 h2 => ?_, fun hin h3 => ?_⟩,
    fun ht hin hv => ⟨fun h1 h2 => ?_, fun h1 => ?_, fun h1 h2 => ⟨?_, ?_⟩⟩, fun ht => ?_⟩
  · have hn : (x.reg b).setWidth 32 = BitVec.ofNat 32 v := by simp [v, BitVec.ofNat_toNat]
    refine ⟨(arv_body (exec_arm h a b s) ht hr hin.1 hin.2 hv).trans ?_, ((s.onlyCore_addAct _ _ _ _ _ _).trans (x.issued_onlyCore h _ _ _ _))⟩
    rw [hn]
    rfl
  · exact ⟨arv_body (exec_arrv h a b s) ht hr hin.1 hin.2 hv, ((s.onlyCore_addAct _ _ _ _ _ _).trans (x.issued_onlyCore h _ _ _ _))⟩
  · refine ⟨(arv_body hx ht hr hin.1 hin.2 hv).trans ?_, x.issued_onlyCore h _ _ _ _⟩
    rw [hawait, h1, if_pos h2]
    rfl
  · refine (arv_body hx ht hr hin.1 hin.2 hv).trans ?_
    rw [hawait, h1]
    rfl
  · exact ⟨arv_align (exec_arm h a b s) ht hr h1, arv_align (exec_arrv h a b s) ht hr h1, arv_align hx ht hr h1⟩
  · exact ⟨arv_range (exec_arm h a b s) ht hr h1 h2, arv_range (exec_arrv h a b s) ht hr h1 h2, arv_range hx ht hr h1 h2⟩
  · exact ⟨arv_operand (exec_arm h a b s) ht hr hin.1 hin.2 h3, arv_operand (exec_arrv h a b s) ht hr hin.1 hin.2 h3,
      arv_operand hx ht hr hin.1 hin.2 ((by decide : 2 ^ 16 ≤ 2 ^ 32).trans h3)⟩
  · refine ⟨(arv_body (exec_await h a b s) ht (htok _) hin.1 hin.2 hv).trans ?_, x.issued_onlyCore h _ _ _ _⟩
    rw [hawait, h1, if_pos h2]
    rfl
  · refine (arv_body (exec_await h a b s) ht (htok _) hin.1 hin.2 hv).trans ?_
    rw [hawait, h1]
    rfl
  · refine (arv_body (exec_await h a b s) ht (htok _) hin.1 hin.2 hv).trans ?_
    rw [hawait, h1, if_neg h2]
    exact congrArg _ (Ctx.held_open (by rw [List.mem_singleton.mp ht.place]; decide))
  · refine (arv_body hx ht (htok _) hin.1 hin.2 hv).trans ?_
    rw [hawait, h1, if_neg h2]
    exact congrArg _ (Ctx.held_open (by rw [List.mem_singleton.mp ht.place]; decide))
  · have hi : exec (.await h a b) s = arvWord h false a b 16 (awaitBody a b) s := exec_await h a b s
    unfold arvWord at hi
    exact exec_regionRule (exec_eq_issueAt hi) ht.here rfl ht.seq rfl (.inr (by rw [List.mem_singleton.mp ht.place]; rfl))

end Sys2Proof.Machine
end

section
/-! PROOFS. XGRANT, XSEND and XSTAT (R446, R447, R449), EMIT, MIRR, TSUB and QCTL (R330, R394, R408, R426) at their issue: O17, O18. -/

namespace Sys2Proof.Machine

/-! ### Channel ends -/

section Exchange

variable {s : State} {h : Hdr} {x : Ctx} {a b : BitVec 5} {k : BitVec 2} (ht : s.AtWord h x [.ct] regions [a, b])
include ht

theorem exchange_issues : s.Issues h (fun _ => exchangeGate [a, b]) x :=
  ht.issues _ rfl rfl rfl (fun _ hq => hq) (admits_regions rfl rfl) fun _ hr => hr

/-- XGRANT with a fault of R446. -/
theorem exec_xgrant_fault {code : Nat} {ta : W64} (he : exchangeEnd x s (x.reg a).toNat k.toNat true (x.reg b) = .error (code, ta)) :
    exec (.xgrant h a b k) s = .next ((x.taken s h).raise x.c (x.fault s code ta)) := by
  refine exec_trap_late (exec_eq_issueAt (exec_xgrant h a b k s)) (exchange_issues ht) ?_
  dsimp only
  rw [he]

/-- XSEND with a fault of R446. -/
theorem exec_xsend_fault {code : Nat} {ta : W64} (he : exchangeEnd x s (x.reg a).toNat k.toNat false (x.reg b) = .error (code, ta)) :
    exec (.xsend h a b k) s = .next ((x.taken s h).raise x.c (x.fault s code ta)) := by
  refine exec_trap_late (exec_eq_issueAt (exec_xsend h a b k s)) (exchange_issues ht) ?_
  dsimp only
  rw [he]

/-- XSEND at an end that it may use, by its slot (R447). -/
theorem exec_xsend_end {e : ChanEnd} (he : exchangeEnd x s (x.reg a).toNat k.toNat false (x.reg b) = .ok e) :
    exec (.xsend h a b k) s = .next (x.settled h s
      (if (e.slot k.toNat).reserved then .trap cPermit (permitAddr (x.reg a).toNat k.toNat)
       else if (e.slot k.toNat).granted then
         x.go (x.later (s.modEnd x.c (x.reg a).toNat fun y => y.modSlot k.toNat fun z => { z with reserved := true }) 1
           (.sendRead (x.reg a).toNat k.toNat (x.reg b).toNat)) 1
       else if e.permits = 0 then .hold s else .trap cPermit (permitAddr (x.reg a).toNat k.toNat))) := by
  rw [exec_xsend]
  refine (issue_of_issues (exchange_issues ht)).trans ?_
  dsimp only
  rw [he]
  rfl

end Exchange

/-- Settles O17: each clause by the first check of R446 that stops it. -/
theorem exchangeWords : Obligations.ExchangeWords := by
  unfold Obligations.ExchangeWords
  intro s h x a b k ht ch sb word faults here both
  have hi := exchange_issues ht
  have grantFault {code : Nat} {ta : W64} (he : exchangeEnd x s ch k.toNat true (x.reg b) = .error (code, ta)) :
      faults code ta (.xgrant h a b k) := exec_xgrant_fault ht he
  have sendFault {code : Nat} {ta : W64} (he : exchangeEnd x s ch k.toNat false (x.reg b) = .error (code, ta)) :
      faults code ta (.xsend h a b k) := exec_xsend_fault ht he
  refine ⟨fun hch => ⟨⟨grantFault ?_, sendFault ?_⟩, ?_⟩, fun hch hn => ⟨⟨grantFault ?_, sendFault ?_⟩, ?_⟩, fun e hch hs =>
    ⟨?_, fun hr => grantFault ?_, fun hr => sendFault ?_, fun hr h1 => grantFault ?_, fun hr h1 h2 => grantFault ?_,
      fun hr h1 h2 h3 => grantFault ?_, fun hr h1 h2 h3 => ?_, fun hr h1 h2 h3 => ?_⟩⟩
  · simp [exchangeEnd, hch, cIllegalOperand, word]
  · simp [exchangeEnd, hch, cIllegalOperand, word]
  · exact exec_trap_late (exec_eq_issueAt (exec_xstat h a b s)) hi (if_pos hch)
  · simp [exchangeEnd, Nat.not_lt.mpr hch, hn, cPermit, permitAddr, here, w64]
  · simp [exchangeEnd, Nat.not_lt.mpr hch, hn, cPermit, permitAddr, here, w64]
  · refine exec_trap_late (exec_eq_issueAt (exec_xstat h a b s)) hi ((if_neg (Nat.not_lt.mpr hch)).trans ?_)
    rw [hn]
    rfl
  · refine yields_issued (t := x.land s b e.status 1) (lat := some 1) (next := x.next) (extra := 0) (exec_eq_issueAt (exec_xstat h a b s)) hi ((if_neg (Nat.not_lt.mpr hch)).trans ?_) (x.land_onlyCore s b e.status 1)
    rw [hs]
    rfl
  · simp [exchangeEnd, Nat.not_lt.mpr hch, hs, hr, cPermit, permitAddr, here, w64]
  · simp [exchangeEnd, Nat.not_lt.mpr hch, hs, hr, cPermit, permitAddr, here, w64]
  · simp [exchangeEnd, Nat.not_lt.mpr hch, hs, hr, h1, cIllegalOperand, word]
  · have h2' : (x.reg b).toNat % 16 ≠ 0 := h2
    simp [exchangeEnd, Nat.not_lt.mpr hch, hs, hr, Nat.not_lt.mpr h1, h2', cAlign]
  · have h2' : (x.reg b).toNat % 16 = 0 := h2
    have h3' : 98304 < (x.reg b).toNat + 16 := h3
    simp [exchangeEnd, Nat.not_lt.mpr hch, hs, hr, Nat.not_lt.mpr h1, h2', h3', cSpaceAccess]
  · have h2' : (x.reg b).toNat % 16 = 0 := h2
    have h3' : ¬ 98304 < (x.reg b).toNat + 16 := Nat.not_lt.mpr h3
    have he : exchangeEnd x s ch k.toNat true (x.reg b) = .ok e := by
      simp [exchangeEnd, Nat.not_lt.mpr hch, hs, hr, Nat.not_lt.mpr h1, h2', h3']
    refine exec_issued (exec_eq_issueAt (exec_xgrant h a b k s)) hi ?_
    dsimp only
    rw [he]
    rfl
  · have h2' : (x.reg b).toNat % 16 = 0 := h2
    have h3' : ¬ 98304 < (x.reg b).toNat + 16 := Nat.not_lt.mpr h3
    have he : exchangeEnd x s ch k.toNat false (x.reg b) = .ok e := by
      simp [exchangeEnd, Nat.not_lt.mpr hch, hs, hr, Nat.not_lt.mpr h1, h2', h3']
    have hx := exec_xsend_end (k := k) ht he
    refine ⟨fun hg hres => ?_, fun hres => ?_, fun hg hres hp => ?_, fun hg hres hp => ?_⟩ <;> refine hx.trans ?_
    · rw [hg, hres]; rfl
    · rw [hres]; rfl
    · rw [hg, hres, if_neg (by decide), if_neg (by decide), if_neg hp]; rfl
    · rw [hg, hres, if_neg (by decide), if_neg (by decide), if_pos hp]; rfl

/-! ### EMIT, MIRR, TSUB and QCTL -/

/-- The first fault of the queue that TSUB or QCTL names. -/
theorem queueFault_eq (x : Ctx) (s : State) (q : W64) :
    queueFault x s q.toNat =
      if 255 < q.toNat then some (cIllegalOperand, x.x.curWord.setWidth 64)
      else if (s.queue q.toNat).owner = s.casementOf x.c ∧ (s.queue q.toNat).tctl = true then none else some (cPermission, q) := by
  unfold queueFault
  rw [w64_toNat]
  by_cases h1 : (s.queue q.toNat).owner = s.casementOf x.c <;> by_cases h2 : (s.queue q.toNat).tctl = true <;> simp [h1, h2]

theorem Core.sameData_mirrored (k : Core) (m : Bool) : k.SameData { k with mirrored := m } :=
  ⟨fun _ _ => rfl, fun _ _ => rfl, rfl, rfl, rfl, rfl, rfl, fun _ => rfl, fun _ => rfl, rfl, rfl, rfl⟩

/-- Settles O18. -/
theorem submissionWords : Obligations.SubmissionWords := by
  unfold Obligations.SubmissionWords
  intro s h x a b u v word faults allowed
  refine ⟨fun ht => ?_, fun ht => ?_⟩
  · have hi : s.Issues h (fun _ => { Gate.regionOnly [.st, .ct] with uses := [a, b] }) x :=
      ht.issues _ rfl rfl rfl (fun _ hq => hq) (admits_regions rfl rfl) fun _ hr => hr
    have hemit := exec_eq_issueAt (exec_emit h a b s)
    have hmirr := exec_eq_issueAt (exec_mirr h a b s)
    refine ⟨fun h1 h2 h3 => ?_, fun h1 => ?_, fun h1 h2 => ?_, fun h1 h2 h3 => ?_, fun h1 h2 h3 h4 h5 => ?_, fun h1 h2 h3 h4 => ?_,
      fun h1 h2 h3 => ?_, fun h1 => ?_⟩
    · refine yields_issued hemit hi ((if_neg (Nat.not_lt.mpr h1)).trans ?_) (x.later_onlyCore (.refl s x.c) 1 _)
      rw [recordFault_eq_none h2 h3]
      rfl
    · exact exec_trap_late hemit hi (if_pos h1)
    · refine exec_trap_late hemit hi ((if_neg (Nat.not_lt.mpr h1)).trans ?_)
      rw [recordFault_align _ h2]
    · refine exec_trap_late hemit hi ((if_neg (Nat.not_lt.mpr h1)).trans ?_)
      rw [recordFault_range h2 h3]
    · have hb : ¬ ((decide (1 < u) || decide (2 ^ 32 ≤ v)) = true) := by simp [h1]; omega
      refine yields_issued hmirr hi ((if_neg hb).trans ?_) (x.later_onlyCore (s.onlyCore_modCore x.c _ (Core.sameData_mirrored _ true)) 1 _)
      rw [h3, h4]
      cases hl : x.k.mirrLast with
      | none => rfl
      | some n =>
        have hn : decide (v ≤ n) = false := by simpa using h5 n hl
        show (if (false || decide (v ≤ n)) = true then _ else _) = _
        rw [hn]
        rfl
    · have hb : ¬ ((decide (1 < u) || decide (2 ^ 32 ≤ v)) = true) := by simp [h1]; omega
      refine exec_trap_late hmirr hi ((if_neg hb).trans ?_)
      rw [h3, h4]
      rfl
    · have hb : ¬ ((decide (1 < u) || decide (2 ^ 32 ≤ v)) = true) := by simp [h1]; omega
      refine exec_trap_late hmirr hi ((if_neg hb).trans ?_)
      rw [h3]
      rfl
    · exact exec_trap_late hmirr hi (if_pos (by simpa using h1))
  · have hi : s.Issues h (fun _ => { Gate.regionOnly [.ct] with uses := [a, b] }) x :=
      ht.issues _ rfl rfl rfl (fun _ hq => hq) (admits_regions rfl rfl) fun _ hr => hr
    have htsub := exec_eq_issueAt (exec_tsub h a b s)
    have hqctl := exec_eq_issueAt (exec_qctl h a b s)
    have hq := queueFault_eq x s (x.reg a)
    refine ⟨fun h1 => ?_, fun h1 h2 => ?_, fun h1 h2 => ?_⟩
    · rw [if_pos h1] at hq
      refine ⟨exec_trap_late htsub hi ?_, exec_trap_late hqctl hi ?_⟩ <;> dsimp only <;> rw [hq]
    · rw [if_neg (Nat.not_lt.mpr h1), if_neg h2] at hq
      refine ⟨exec_trap_late htsub hi ?_, exec_trap_late hqctl hi ?_⟩ <;> dsimp only <;> rw [hq]
    · rw [if_neg (Nat.not_lt.mpr h1), if_pos h2] at hq
      have hbits : (decide (3 ≤ bits v 3 0) || bits v 31 4 != 0) = true ↔ 2 < v % 16 ∨ v / 16 % 2 ^ 28 ≠ 0 := by
        simp [bits, Nat.succ_le_iff]
      have hcode : bits v 3 0 = v % 16 := by simp [bits]
      refine ⟨fun h3 h4 h5 => ?_, fun h3 h4 h5 => ?_, fun h3 => ?_, fun h3 h4 => ?_, fun h3 h4 => ?_, fun h3 => ?_⟩
      · refine exec_issued htsub hi ?_
        dsimp only
        rw [hq, if_neg (by simpa using h3), if_neg (Nat.not_lt.mpr h4), if_neg h5]
        rfl
      · refine exec_held htsub hi ?_
        dsimp only
        rw [hq, if_neg (by simpa using h3), if_neg (Nat.not_lt.mpr h4), if_pos h5]
      · refine exec_trap_late htsub hi ?_
        dsimp only
        rw [hq, if_pos (by simpa using h3)]
      · refine exec_trap_late htsub hi ?_
        dsimp only
        rw [hq, if_neg (by simpa using h3), if_pos h4]
      · refine exec_issued hqctl hi ?_
        dsimp only
        rw [hq, if_neg (by rw [hbits]; omega), hcode]
        rfl
      · refine exec_trap_late hqctl hi ?_
        dsimp only
        rw [hq, if_pos (hbits.mpr h3)]

end Sys2Proof.Machine
end

section
/-! PROOFS. The words of the lookup engine at their issue, and a misaligned TSPILL (R185, R424): O14. -/

namespace Sys2Proof.Machine

/-! ### A misaligned spill area -/

/-- TSPILL of a misaligned area in a tokened region: its fault carries what a report of a translation fault would name, the kind of its access (R293). -/
theorem exec_tspill_misaligned {s : State} {h : Hdr} {x : Ctx} {q a : BitVec 5} (ht : s.AtWord h x [.cm] regions [a]) (hq : q.toNat ≤ 3)
    (hp : x.k.place x.q ≠ .timed) (hfull : x.k.lookupFull s.now = false) (ha : (x.reg a).toNat % 64 ≠ 0) :
    exec (.tspill h q a) s = .next ((x.taken s h).raise x.c { (x.fault s cAlign (w64 (x.reg a).toNat)) with xkind := 2 }) := by
  have he : exec (.tspill h q a) s = spillWord h false q a s := exec_tspill h q a s
  unfold spillWord at he
  rw [he]
  refine (issueAt_of_issues (ht.issues _ rfl ?_ ?_ (fun _ hq => hq) (admits_regions rfl rfl) fun _ hr => hr)).trans ?_
  · simpa [engineGate] using hq
  · simp [hp]
  · rw [if_neg (by simp [hfull])]
    have hbad : spillPlace x.c (x.reg a).toNat = .bad cAlign 0 := by simp [spillPlace, ha]
    dsimp only
    rw [hbad]
    rfl

/-- A fault raised while something else of its core is due in the cycle is recorded, to be settled with the others (R274). -/
theorem State.faults_raise_busy {s : State} {c : Nat} {f : FaultRec} (h : ∃ a ∈ (s.core c).acts, a.due ≤ s.now) :
    ((s.raise c f).core c).faults = (s.core c).faults ++ [f] := by
  obtain ⟨a, ha, hdue⟩ := h
  unfold State.raise
  rw [if_neg, State.core_modCore]
  intro hq
  unfold State.quiet Core.quiet at hq
  rw [State.core_modCore] at hq
  simp only [Bool.and_eq_true] at hq
  have hall := hq.1.1.1.1.1.1.1.1.1.1
  rw [List.all_eq_true] at hall
  exact absurd (of_decide_eq_true (hall a ha)) (Nat.not_lt.mpr hdue)

/-- CM of core 0 at its issue in a tokened region, s1 misaligned for a spill area; another landing of the core is due in this cycle. -/
def spillMisaligned : State :=
  { State.reset with
    cur := some (0, .cm), tasks := [placedTask 0]
    cores := [(0, { Core.idle with
      task := some 0, phase := .run
      acts := [{ id := 0, due := 0, issued := 0, by_ := .ld, pc := 0, pay := .status 0 }]
      seqs := [Seq.idle, { Seq.idle with st := .run, regs := [0, 1] }, Seq.idle, Seq.idle] })] }

/-- CM's context there. -/
def spillMisalignedCtx : Ctx :=
  { c := 0, q := .cm, k := spillMisaligned.core 0, x := (spillMisaligned.core 0).seq .cm }

theorem spillMisaligned_atWord : spillMisaligned.AtWord Hdr.none spillMisalignedCtx [.cm] regions [1] :=
  ⟨rfl, by decide, by decide, by decide, by decide⟩

theorem spillMisaligned_place : spillMisalignedCtx.k.place spillMisalignedCtx.q = .tokened := rfl

theorem spillMisaligned_full : spillMisalignedCtx.k.lookupFull spillMisaligned.now = false := rfl

theorem spillMisaligned_reg : (spillMisalignedCtx.reg 1).toNat = 1 := by decide

theorem spillMisaligned_taken : spillMisalignedCtx.taken spillMisaligned Hdr.none = spillMisaligned.modCore 0 fun k => k := rfl

/-- A fault raised there waits for the other landing of its cycle, as it was raised. -/
theorem spillMisaligned_faults (f : FaultRec) :
    (((spillMisalignedCtx.taken spillMisaligned Hdr.none).raise 0 f).core 0).faults = [f] := by
  rw [spillMisaligned_taken]
  refine (State.faults_raise_busy ⟨{ id := 0, due := 0, issued := 0, by_ := .ld, pc := 0, pay := .status 0 }, ?_, Nat.le_refl 0⟩).trans rfl
  exact List.mem_singleton_self _

/-- Refutes O14: a misaligned TSPILL raises ALIGN with the kind of its access noted in the fault, which the fault of the clause does not have; the two states
differ while the fault waits for another landing of its cycle. -/
theorem not_matrixAndLookupWords : ¬ Obligations.MatrixAndLookupWords := by
  intro ⟨_, hlookup⟩
  obtain ⟨-, hspill⟩ := hlookup spillMisaligned Hdr.none spillMisalignedCtx 0 0 0 1 false false spillMisaligned_full
  obtain ⟨-, -, halign, -⟩ := hspill spillMisaligned_atWord (by decide)
  have hclause := (halign (by rw [spillMisaligned_reg]; decide) spillMisaligned_place).1
  have hmodel := exec_tspill_misaligned (h := Hdr.none) (q := 0) spillMisaligned_atWord (by decide) (by rw [spillMisaligned_place]; decide)
    spillMisaligned_full (by rw [spillMisaligned_reg]; decide)
  have hfaults := congrArg (fun t => (t.core 0).faults.map FaultRec.xkind) (Host.Outcome.next.inj (hmodel.symm.trans hclause))
  have h2 := (congrArg (List.map FaultRec.xkind) (spillMisaligned_faults { (spillMisalignedCtx.fault spillMisaligned cAlign (w64 (spillMisalignedCtx.reg 1).toNat)) with xkind := 2 })).symm.trans hfaults
  have h0 := h2.trans (congrArg (List.map FaultRec.xkind) (spillMisaligned_faults (spillMisalignedCtx.fault spillMisaligned 0x0C (spillMisalignedCtx.reg 1))))
  exact absurd h0 (by decide)

end Sys2Proof.Machine
end

section
/-! PROOFS. EPI, SACC and CPY at their issue (R190, R362, R363, R372, R413), and O15. -/

namespace Sys2Proof.Machine

/-! ### Free values -/

/-- Nothing has changed between two states but the free values drawn. -/
def State.Redrawn (s t : State) : Prop := ∃ n, t = { s with fresh := n }

theorem State.Redrawn.refl (s : State) : s.Redrawn s := ⟨s.fresh, rfl⟩

theorem State.Redrawn.trans {s t u : State} (a : s.Redrawn t) (b : t.Redrawn u) : s.Redrawn u := by
  obtain ⟨n, rfl⟩ := a
  obtain ⟨m, rfl⟩ := b
  exact ⟨m, rfl⟩

theorem State.Redrawn.onlyCore {s t : State} (h : s.Redrawn t) (c : Nat) : s.OnlyCore t c := by
  obtain ⟨n, rfl⟩ := h
  exact ⟨fun _ => rfl, fun _ _ => rfl, .refl _, ⟨rfl, rfl, rfl, rfl⟩, ⟨rfl, rfl, rfl, rfl⟩, ⟨rfl, rfl, rfl, rfl⟩⟩

theorem State.Redrawn.core {s t : State} (h : s.Redrawn t) (c : Nat) : t.core c = s.core c := by
  obtain ⟨n, rfl⟩ := h
  rfl

theorem State.Redrawn.now {s t : State} (h : s.Redrawn t) : t.now = s.now := by
  obtain ⟨n, rfl⟩ := h
  rfl

theorem State.draw_redrawn (s : State) : s.Redrawn s.draw.2 := ⟨_, rfl⟩

theorem State.drawDue_redrawn (s : State) : s.Redrawn s.drawDue.2 := ⟨_, rfl⟩

theorem State.walkDue_redrawn (s : State) (c va : Nat) (acc : Access) : s.Redrawn (s.walkDue c va acc).2 := by
  unfold State.walkDue
  split
  · exact .refl s
  · exact s.drawDue_redrawn

/-- What every step of a fold keeps, the fold keeps. -/
theorem foldl_rel {α σ : Type} {R : σ → σ → Prop} (refl : ∀ s, R s s) (trans : ∀ {s t u}, R s t → R t u → R s u) {f : σ → α → σ}
    (h : ∀ s a, R s (f s a)) (l : List α) (s : σ) : R s (l.foldl f s) := by
  induction l generalizing s with
  | nil => exact refl s
  | cons a l ih => exact trans (h s a) (ih (f s a))

/-- A fold that draws and makes one thing of each of a list. -/
theorem foldl_redrawn {α β : Type} {f : List β × State → α → List β × State}
    (h : ∀ p a, p.2.Redrawn (f p a).2 ∧ (f p a).1.length = p.1.length + 1) (l : List α) (p : List β × State) :
    p.2.Redrawn (l.foldl f p).2 ∧ (l.foldl f p).1.length = p.1.length + l.length := by
  induction l generalizing p with
  | nil => exact ⟨.refl _, rfl⟩
  | cons a l ih =>
    obtain ⟨h1, h2⟩ := h p a
    obtain ⟨i1, i2⟩ := ih (f p a)
    exact ⟨h1.trans i1, by rw [List.foldl_cons, i2, h2, List.length_cons]; omega⟩

theorem State.startEnd_redrawn (s : State) (c : Nat) (e : CopyEnd) (acc : Access) : s.Redrawn (s.startEnd c e acc).2 := by
  cases e with
  | mem va xl => exact s.walkDue_redrawn c va acc
  | buf d isA off => exact .refl s

/-- A copy begun: its translations are under way, and nothing else of the state has changed. -/
theorem State.startCopy_redrawn (s : State) (c : Nat) (cp : Copy) :
    s.Redrawn (s.startCopy c cp).2 ∧ ∃ bs, bs.length = cp.beats.length ∧ (s.startCopy c cp).1 = { cp with beats := bs } := by
  have hfold := foldl_redrawn (f := fun ((l, s) : List Beat × State) (b : Beat) =>
    let (srcs, s) := b.srcs.foldl (fun ((m, s) : List (CopyEnd × Nat) × State) e => let (x, s) := s.startEnd c e.1 .load; (m ++ [(x, e.2)], s)) ([], s)
    let (dsts, s) := b.dsts.foldl (fun ((m, s) : List CopyEnd × State) e => let (x, s) := s.startEnd c e .store; (m ++ [x], s)) ([], s)
    (l ++ [{ b with srcs := srcs, dsts := dsts }], s)) (fun p b => by
      obtain ⟨l, s⟩ := p
      have h1 := foldl_redrawn (f := fun (p : List (CopyEnd × Nat) × State) (e : CopyEnd × Nat) =>
        (p.1 ++ [((p.2.startEnd c e.1 .load).1, e.2)], (p.2.startEnd c e.1 .load).2))
        (fun p e => ⟨p.2.startEnd_redrawn c e.1 .load, by simp⟩) b.srcs ([], s)
      have h2 := foldl_redrawn (f := fun (p : List CopyEnd × State) (e : CopyEnd) => (p.1 ++ [(p.2.startEnd c e .store).1], (p.2.startEnd c e .store).2))
        (fun p e => ⟨p.2.startEnd_redrawn c e .store, by simp⟩) b.dsts
        ([], (b.srcs.foldl (fun (p : List (CopyEnd × Nat) × State) (e : CopyEnd × Nat) =>
          (p.1 ++ [((p.2.startEnd c e.1 .load).1, e.2)], (p.2.startEnd c e.1 .load).2)) ([], s)).2)
      exact ⟨h1.1.trans h2.1, by simp⟩) cp.beats ([], s)
  exact ⟨hfold.1, _, hfold.2.trans (by simp), rfl⟩

/-! ### EPI -/

/-- Something due on a core changes its list of things due alone. -/
theorem State.epi_addAct (s : State) (c due issued : Nat) (q : SeqId) (pc : Nat) (p : Pay) :
    ((s.addAct c due issued q pc p).core c).epi = (s.core c).epi := by rw [State.core_addAct]

/-- The reads of an EPI's bias, each due at some cycle, leave all but what is in flight. -/
theorem State.askBias_onlyCore (s : State) (c : Nat) : s.OnlyCore (s.askBias c) c ∧ ((s.askBias c).core c).epi = (s.core c).epi := by
  unfold State.askBias
  split
  · exact ⟨.refl s c, rfl⟩
  · rename_i e _ _
    split
    · exact ⟨.refl s c, rfl⟩
    · refine foldl_rel (R := fun s t => s.OnlyCore t c ∧ (t.core c).epi = (s.core c).epi) (fun s => ⟨.refl s c, rfl⟩) ?_ (fun s p => ?_)
        (biasPieces e.record) s
      · exact fun h1 h2 => ⟨h1.1.trans h2.1, h2.2.trans h1.2⟩
      · exact ⟨(s.draw_redrawn.onlyCore c).trans (State.onlyCore_addAct _ _ _ _ _ _ _), State.epi_addAct _ _ _ _ _ _ _⟩

theorem Core.sameData_queued (k : Core) (epi : List EpiCmd) (sacc : List SaccCmd) (copies : List Copy) :
    k.SameData { k with epi := epi, sacc := sacc, copies := copies } :=
  ⟨fun _ _ => rfl, fun _ _ => rfl, rfl, rfl, rfl, rfl, rfl, fun _ => rfl, fun _ => rfl, rfl, rfl, rfl⟩

/-- The state with a new number drawn differs in nothing else. -/
theorem State.newId_onlyCore (s : State) (c : Nat) : s.OnlyCore s.newId.2 c :=
  ⟨fun _ => rfl, fun _ _ => rfl, .refl _, ⟨rfl, rfl, rfl, rfl⟩, ⟨rfl, rfl, rfl, rfl⟩, ⟨rfl, rfl, rfl, rfl⟩⟩

/-- The command that an EPI with a record leaves in the engine's queue. -/
def Ctx.epiCmd (x : Ctx) (now : Nat) (r : BitVec 512) : EpiCmd :=
  { pc := x.x.pc, issued := now, task := x.k.task.getD 0, record := r, bank := !x.k.work
    committed := false, flushing := x.k.flushing, start := none, bias := [], sticky := 0, row := 0, st := 0
    todo := [], due := 0, kept := none }

/-- The state with a command at the end of a core's EPI queue, its bias asked for where it is the first. -/
def State.queueEpi (s : State) (c : Nat) (first : Bool) (e : EpiCmd) : State :=
  let t := s.modCore c fun k => { k with epi := k.epi ++ [e] }
  if first then t.askBias c else t

theorem State.queueEpi_onlyCore (s : State) (c : Nat) (first : Bool) (e : EpiCmd) :
    s.OnlyCore (s.queueEpi c first e) c ∧ ((s.queueEpi c first e).core c).epi = (s.core c).epi ++ [e] := by
  have h0 : s.OnlyCore (s.modCore c fun k => { k with epi := k.epi ++ [e] }) c := s.onlyCore_modCore c _ (Core.sameData_queued _ _ _ _)
  have he : ((s.modCore c fun k => { k with epi := k.epi ++ [e] }).core c).epi = (s.core c).epi ++ [e] := by rw [State.core_modCore]
  unfold State.queueEpi
  cases first with
  | false => exact ⟨h0, he⟩
  | true =>
    obtain ⟨h1, h2⟩ := State.askBias_onlyCore (s.modCore c fun k => { k with epi := k.epi ++ [e] }) c
    exact ⟨h0.trans h1, h2.trans he⟩

section Epi

variable {s : State} {h : Hdr} {x : Ctx} {a : BitVec 5} (ht : s.AtWord h x [.cm] regions [a]) (hlen : x.k.epi.length < 2)
include ht hlen

/-- An EPI with a place in its queue, by the checks of its record's offset and of the record. -/
theorem exec_epi_place : exec (.epi h a) s = .next (x.settled h s
    (match recordFault (x.reg a) 98304 with
     | some code => .trap code (x.reg a)
     | none =>
       match epiFault (recordOf (x.k.startA (x.reg a).toNat 64)) with
       | some code => .trap code (x.reg a)
       | none => x.go (s.queueEpi x.c x.k.epi.isEmpty (x.epiCmd s.now (recordOf (x.k.startA (x.reg a).toNat 64)))) 1)) := by
  have hi : s.Issues h (fun _ => engineGate false [a]) x := ht.issues _ rfl rfl rfl (fun _ hq => hq) (admits_regions rfl rfl) fun _ hr => hr
  rw [exec_epi]
  refine (issue_of_issues hi).trans ?_
  rw [if_neg (Nat.not_le.mpr hlen)]
  rfl

/-- An EPI that issues: its command stands last in the engine's queue. -/
theorem yields_epi (h1 : (x.reg a).toNat % 64 = 0) (h2 : (x.reg a).toNat + 64 ≤ 98304)
    (hr : epiFault (recordOf (x.k.startA (x.reg a).toNat 64)) = none) :
    ∃ t e, s.Yields (.epi h a) (x.done h t 1) x.c ∧ (t.core x.c).epi = x.k.epi ++ [e] ∧ e.record = recordOf (x.k.startA (x.reg a).toNat 64) ∧
      e.bank = !x.k.work ∧ e.issued = s.now ∧ e.start = none ∧ e.committed = false := by
  obtain ⟨honly, hepi⟩ := s.queueEpi_onlyCore x.c x.k.epi.isEmpty (x.epiCmd s.now (recordOf (x.k.startA (x.reg a).toNat 64)))
  rw [← (State.ctx_core ht.here).1] at hepi
  refine ⟨_, _, ⟨(exec_epi_place ht hlen).trans ?_, honly.trans (x.issued_onlyCore h _ _ _ _)⟩, hepi, rfl, rfl, rfl, rfl, rfl⟩
  rw [recordFault_eq_none h1 h2, hr]
  rfl

end Epi

/-! ### SACC -/

/-- The command that a SACC leaves in the engine's queue. -/
def Ctx.saccCmd (x : Ctx) (id now : Nat) (op : RedOp) (d : BitVec 5) : SaccCmd :=
  { id := id, pc := x.x.pc, issued := now, op := op, hd := d.toNat, record := x.k.shape d.toNat
    window := bits x.k.sacw.toNat 4 0, count := x.k.winCount, flushing := x.k.flushing, start := none, pairs := [], popSt := []
    applied := 0, todo := [], made := [], due := 0 }

/-- The state with a command, under a new number, at the end of a core's SACC queue. -/
def State.queueSacc (s : State) (c : Nat) (m : SaccCmd) : State := s.newId.2.modCore c fun k => { k with sacc := k.sacc ++ [m] }

theorem State.queueSacc_onlyCore (s : State) (c : Nat) (m : SaccCmd) :
    s.OnlyCore (s.queueSacc c m) c ∧ ((s.queueSacc c m).core c).sacc = (s.core c).sacc ++ [m] :=
  ⟨(s.newId_onlyCore c).trans (State.onlyCore_modCore _ c _ (Core.sameData_queued _ _ _ _)), by unfold State.queueSacc; rw [State.core_modCore]; rfl⟩

section Sacc

variable {s : State} {h : Hdr} {x : Ctx} {d u v : BitVec 5} {op : RedOp} {i : Instr} (he : exec i s = saccWord h op d u v s)
  (ht : s.AtWord h x [.cm] regions []) (hd : d.toNat ≤ 15) (hu : readPortOk u = true) (hv : readPortOk v = true) (huv : u ≠ v)
  (hset : x.k.portsSet [u.toNat, v.toNat] = true) (hlen : x.k.sacc.length < 2) (hready : x.k.sourcesReady s.now [u.toNat, v.toNat] = true)
include ht hd hu hv huv

theorem sacc_issues : s.Issues h (fun _ => engineGate (15 < d.toNat || !readPortOk u || !readPortOk v || u == v) []) x :=
  ht.issues _ rfl (by simp [engineGate, hd, hu, hv, huv]) rfl (fun _ hq => hq) (admits_regions rfl rfl) fun _ hr => hr

include he hset hlen hready

/-- A SACC that its ports and the engine's queue accept, by its record. -/
theorem exec_sacc : exec i s = .next (x.settled h s
    (if hSpace (x.k.shape d.toNat) != 0 then .trap cSpaceAccess (w64 d.toNat)
     else if hFmt (x.k.shape d.toNat) != 0 || hScl (x.k.shape d.toNat) then .trap cShapeMismatch (w64 d.toNat)
     else x.go (x.later (s.queueSacc x.c (x.saccCmd s.nextId s.now op d)) 0 (.saccPop s.nextId (u.toNat - 16) (v.toNat - 16) 0 none none)) 1)) := by
  rw [he]
  refine (issue_of_issues (sacc_issues ht hd hu hv huv)).trans ?_
  rw [hset, hready, decide_eq_false (Nat.not_le.mpr hlen)]
  rfl

/-- A SACC that issues: its command stands last in the engine's queue, and its first pair is popped in its cycle. -/
theorem yields_sacc (h1 : hSpace (x.k.shape d.toNat) = 0) (h2 : hFmt (x.k.shape d.toNat) = 0) (h3 : hScl (x.k.shape d.toNat) = false) :
    ∃ t m, s.Yields i (x.done h (x.later t 0 (.saccPop m.id (u.toNat - 16) (v.toNat - 16) 0 none none)) 1) x.c ∧ t.now = s.now ∧
      (t.core x.c).sacc = x.k.sacc ++ [m] ∧ m.op = op ∧ m.hd = d.toNat ∧ m.record = x.k.shape d.toNat ∧ m.window = x.k.sacw.toNat % 32 ∧
      m.count = x.k.winCount ∧ m.start = none ∧ m.pairs = [] ∧ m.applied = 0 := by
  have hx := exec_sacc he ht hd hu hv huv hset hlen hready
  rw [if_neg (by simp [h1]), if_neg (by simp [h2, h3])] at hx
  obtain ⟨honly, hsacc⟩ := s.queueSacc_onlyCore x.c (x.saccCmd s.nextId s.now op d)
  rw [← (State.ctx_core ht.here).1] at hsacc
  exact ⟨s.queueSacc x.c (x.saccCmd s.nextId s.now op d), x.saccCmd s.nextId s.now op d, ⟨hx, (x.later_onlyCore honly 0 _).trans (x.issued_onlyCore h _ _ _ _)⟩, rfl, hsacc, rfl, rfl, rfl, by simp [Ctx.saccCmd, bits],
    rfl, rfl, rfl, rfl⟩

end Sacc

/-! ### CPY -/

/-- The state once CPY has taken the banks of its record, and a number for its copy. -/
def State.cpyReads (s : State) (c off : Nat) (q : SeqId) : State := (s.modCore c fun k => k.claimBanks s.now true (banksOf off 128) s.now q).newId.2

theorem State.cpyReads_onlyCore (s : State) (c off : Nat) (q : SeqId) :
    s.OnlyCore (s.cpyReads c off q) c ∧ ((s.cpyReads c off q).core c).copies = (s.core c).copies :=
  ⟨(s.claimBanks_onlyCore c s.now true _ s.now q).trans (State.newId_onlyCore _ c), by
    have : (s.cpyReads c off q).core c = (s.modCore c fun k => k.claimBanks s.now true (banksOf off 128) s.now q).core c := rfl
    rw [this, State.core_modCore]
    rfl⟩

/-- A copy begun, at the end of its core's copies. -/
def State.queueCopy (s : State) (c : Nat) (cp : Copy) : State :=
  (s.startCopy c cp).2.drawDue.2.modCore c fun k =>
    { k with copies := k.copies ++ [{ (s.startCopy c cp).1 with due := (s.startCopy c cp).2.drawDue.1 }] }

theorem State.queueCopy_onlyCore (s : State) (c : Nat) (cp : Copy) :
    s.OnlyCore (s.queueCopy c cp) c ∧ ∃ bs due, bs.length = cp.beats.length ∧
      ((s.queueCopy c cp).core c).copies = (s.core c).copies ++ [{ cp with beats := bs, due := due }] := by
  obtain ⟨hr, bs, hlen, hcp⟩ := s.startCopy_redrawn c cp
  have hr' := hr.trans (s.startCopy c cp).2.drawDue_redrawn
  refine ⟨(hr'.onlyCore c).trans (State.onlyCore_modCore _ c _ (Core.sameData_queued _ _ _ _)), bs, (s.startCopy c cp).2.drawDue.1, hlen, ?_⟩
  unfold State.queueCopy
  rw [State.core_modCore, hcp, hr'.core]

section Copy

variable {s : State} {h : Hdr} {x : Ctx} {a : BitVec 5} (ht : s.AtWord h x [.ld, .st, .ct] regions [a])
include ht

theorem copy_issues : s.Issues h (fun _ => { Gate.regionOnly [.ld, .st, .ct] with uses := [a] }) x :=
  ht.issues _ rfl rfl rfl (fun _ hq => hq) (admits_regions rfl rfl) fun _ hr => hr

/-- A CPY whose record is read at its issue and holds no fault. -/
theorem exec_cpy_record (h1 : (x.reg a).toNat % 128 = 0) (h2 : (x.reg a).toNat + 128 ≤ 98304)
    (hfree : x.k.bankConflict s.now true (banksOf (x.reg a).toNat 128) s.now x.q = none) (hok : copyFault (x.k.readBuf true (x.reg a).toNat 128) = none)
    {beats : List Beat} (hb : copyBeats x.c (x.k.readBuf true (x.reg a).toNat 128) = .ok beats) (hal : s.copyAllowed x.c beats = true) :
    exec (.cpy h a) s = .next (x.settled h s
      (if !(makeCopy x h s.nextId s.now (x.k.readBuf true (x.reg a).toNat 128) beats).immediate then
         x.go (x.later (s.cpyReads x.c (x.reg a).toNat x.q) 1
           (.hold (.copy (makeCopy x h s.nextId s.now (x.k.readBuf true (x.reg a).toNat 128) beats)))) 1
       else if 64 ≤ x.k.copies.length then .hold s
       else x.go ((s.cpyReads x.c (x.reg a).toNat x.q).queueCopy x.c (makeCopy x h s.nextId s.now (x.k.readBuf true (x.reg a).toNat 128) beats)) 1)) := by
  have hal' : (s.modCore x.c fun k => k.claimBanks s.now true (banksOf (x.reg a).toNat 128) s.now x.q).copyAllowed x.c beats = true := by
    have htask : ∀ c, ((s.modCore x.c fun k => k.claimBanks s.now true (banksOf (x.reg a).toNat 128) s.now x.q).core c).task = (s.core c).task := by
      intro c
      by_cases hc : c = x.c
      · rw [hc, State.core_modCore]; rfl
      · rw [State.core_modCore_other _ _ hc]
    have hgroup : ∀ n, (s.modCore x.c fun k => k.claimBanks s.now true (banksOf (x.reg a).toNat 128) s.now x.q).sameGroup x.c n = s.sameGroup x.c n := by
      intro n
      unfold State.sameGroup State.taskOf
      rw [htask]
      rfl
    unfold State.copyAllowed at hal ⊢
    simp only [hgroup]
    exact hal
  rw [exec_cpy]
  refine (issue_of_issues (copy_issues ht)).trans ?_
  dsimp only
  rw [if_neg (by simpa using h1), if_neg (Nat.not_lt.mpr h2), hfree]
  dsimp only
  rw [hok]
  dsimp only
  rw [hb]
  dsimp only
  rw [hal']
  rfl

end Copy

/-- A record of 128 bytes copied to the core's own buffers alone is immediate. -/
theorem makeCopy_immediate {x : Ctx} {h : Hdr} {id now : Nat} {r : List W8} {beats : List Beat} :
    (makeCopy x h id now r beats).immediate = true ↔ ∀ b ∈ beats, ∀ e ∈ b.dsts, e.core? = some x.c := by
  simp [makeCopy, List.all_eq_true]

/-- Settles O15. -/
theorem epilogueScatterAndCopyWords : Obligations.EpilogueScatterAndCopyWords := by
  unfold Obligations.EpilogueScatterAndCopyWords
  refine ⟨fun s h x d u v a => ⟨?_, ?_⟩, fun s h x a ht => ⟨fun h1 => ?_, fun h1 h2 => ?_, ?_⟩⟩
  · intro ht hlen r
    have hx := exec_epi_place ht hlen
    refine ⟨fun h1 h2 hr => yields_epi ht hlen h1 h2 hr, fun code h1 h2 hr => hx.trans ?_, fun h1 => hx.trans ?_, fun h1 h2 => hx.trans ?_⟩
    · rw [recordFault_eq_none h1 h2]
      dsimp only
      rw [hr]
      rfl
    · rw [recordFault_align _ h1]
      rfl
    · rw [recordFault_range h1 h2]
      rfl
  · intro ht hlen hd hu hv huv hset hready r ops
    have each (P : Instr → RedOp → Prop) (hP : ∀ i op, exec i s = saccWord h op d u v s → P i op) : ops P :=
      ⟨hP _ _ (exec_saccFadd h d u v s), hP _ _ (exec_saccFmax h d u v s), hP _ _ (exec_saccFmin h d u v s), hP _ _ (exec_saccIadd h d u v s)⟩
    clear_value ops
    refine ⟨fun h1 h2 h3 => each _ fun i op he => yields_sacc he ht hd hu hv huv hset hlen hready h1 h2 h3,
      fun h1 => each _ fun i op he => ?_, fun h1 h2 => each _ fun i op he => ?_⟩
    · refine (exec_sacc he ht hd hu hv huv hset hlen hready).trans ?_
      rw [if_pos (by simpa using h1), w64_toNat_setWidth]
      rfl
    · refine (exec_sacc he ht hd hu hv huv hset hlen hready).trans ?_
      rw [if_neg (by simpa using h1), if_pos (by simpa using .inl h2), w64_toNat_setWidth]
      rfl
  · exact exec_trap_late (exec_eq_issueAt (exec_cpy h a s)) (copy_issues ht) (if_pos (by simpa using h1))
  · exact exec_trap_late (exec_eq_issueAt (exec_cpy h a s)) (copy_issues ht) ((if_neg (by simpa using h1)).trans (if_pos h2))
  · intro h1 h2 hfree hok beats hb hal toOwn
    have hx := exec_cpy_record ht h1 h2 hfree hok hb hal
    have himm := makeCopy_immediate (x := x) (h := h) (id := s.nextId) (now := s.now) (r := x.k.readBuf true (x.reg a).toNat 128) (beats := beats)
    obtain ⟨h0, hk⟩ := s.cpyReads_onlyCore x.c (x.reg a).toNat x.q
    rw [← (State.ctx_core ht.here).1] at hk
    refine ⟨fun hown hlen => ?_, fun hown => ?_⟩
    · rw [himm.mpr hown, if_neg (by decide), if_neg (Nat.not_le.mpr hlen)] at hx
      obtain ⟨hq, bs, due, hlen, hcopies⟩ := (s.cpyReads x.c (x.reg a).toNat x.q).queueCopy_onlyCore x.c
        (makeCopy x h s.nextId s.now (x.k.readBuf true (x.reg a).toNat 128) beats)
      rw [hk] at hcopies
      exact ⟨_, { makeCopy x h s.nextId s.now (x.k.readBuf true (x.reg a).toNat 128) beats with beats := bs, due := due },
        ⟨hx, (h0.trans hq).trans (x.issued_onlyCore h _ _ _ _)⟩, hcopies, himm.mpr hown, hlen, rfl, rfl⟩
    · have himm' := Bool.eq_false_iff.mpr fun hi => hown (himm.mp hi)
      rw [himm', if_pos (by decide)] at hx
      exact ⟨s.cpyReads x.c (x.reg a).toNat x.q, makeCopy x h s.nextId s.now (x.k.readBuf true (x.reg a).toNat 128) beats,
        ⟨hx, (x.later_onlyCore h0 1 _).trans (x.issued_onlyCore h _ _ _ _)⟩, rfl, himm', rfl, rfl, rfl⟩

end Sys2Proof.Machine
end

section
/-! PROOFS. RGN, RCMT, STEP, REALIGN and TAIL at their issue (R392, R409, R410, R412, R420, R422), and O22. -/

namespace Sys2Proof.Machine

/-! ### Words that change their core at their issue -/

/-- A word whose effect changes its core, and none of its data. -/
theorem yields_modCore {s : State} {h : Hdr} {gate : Ctx → Gate} {body : Ctx → State → Iss} {x : Ctx} {i : Instr} {f : Core → Core} {lat : Option Nat}
    {next extra : Nat} (he : exec i s = issueAt h gate body s) (hi : s.Issues h gate x) (hb : body x s = .ok (s.modCore x.c f) lat next extra)
    (hf : (s.core x.c).SameData (f (s.core x.c))) : s.Yields i (x.issued h (s.modCore x.c f) lat next extra) x.c :=
  yields_issued he hi hb (s.onlyCore_modCore x.c f hf)

/-! ### RGN -/

/-- A core at the RGN of a sequencer. -/
def Ctx.atRgn (x : Ctx) (h : Hdr) (b st m : BitVec 5) (timed : Bool) (now : Nat) (k : Core) : Core :=
  let k := k.modSeq x.q fun y => { y with st := .atRgn, reentered := false, rgnTimed := timed, rgnSp := h.sp, rgnSn := h.sn }
  let k := if x.q = .ct then { k with budget := bits (x.reg b).toNat 31 0, stamp := x.reg st, liveIn := x.reg m, rgnAddr := x.x.pc } else k
  { k with phase := .align, alignFrom := now + 1 }

theorem Ctx.sameData_atRgn (x : Ctx) (h : Hdr) (b st m : BitVec 5) (timed : Bool) (now : Nat) (k : Core) : k.SameData (x.atRgn h b st m timed now k) := by
  unfold Ctx.atRgn
  refine (k.sameData_modSeq x.q (fun y => { y with st := .atRgn, reentered := false, rgnTimed := timed, rgnSp := h.sp, rgnSn := h.sn }) rfl).trans ?_
  dsimp only
  split <;> exact ⟨fun _ _ => rfl, fun _ _ => rfl, rfl, rfl, rfl, rfl, rfl, fun _ => rfl, fun _ => rfl, rfl, rfl, rfl⟩

theorem Ctx.seq_atRgn (x : Ctx) (h : Hdr) (b st m : BitVec 5) (timed : Bool) (now : Nat) (k : Core) :
    (x.atRgn h b st m timed now k).seq x.q = { k.seq x.q with st := .atRgn, reentered := false, rgnTimed := timed, rgnSp := h.sp, rgnSn := h.sn } := by
  rw [← Core.seq_modSeq k x.q fun y => { y with st := .atRgn, reentered := false, rgnTimed := timed, rgnSp := h.sp, rgnSn := h.sn }]
  unfold Ctx.atRgn
  split <;> rfl

/-- A core at the RCMT of a sequencer. -/
def Ctx.atRcmt (x : Ctx) (h : Hdr) (a b : BitVec 5) (k : Core) : Core :=
  let k := k.modSeq x.q fun y => { y with st := .atRcmt, rgnSp := h.sp, rgnSn := h.sn }
  if x.q = .ct then { k with rcmtA := x.reg a, rcmtB := x.reg b } else k

theorem Ctx.sameData_atRcmt (x : Ctx) (h : Hdr) (a b : BitVec 5) (k : Core) : k.SameData (x.atRcmt h a b k) := by
  unfold Ctx.atRcmt
  refine (k.sameData_modSeq x.q (fun y => { y with st := .atRcmt, rgnSp := h.sp, rgnSn := h.sn }) rfl).trans ?_
  dsimp only
  split <;> exact ⟨fun _ _ => rfl, fun _ _ => rfl, rfl, rfl, rfl, rfl, rfl, fun _ => rfl, fun _ => rfl, rfl, rfl, rfl⟩

theorem Ctx.seq_atRcmt (x : Ctx) (h : Hdr) (a b : BitVec 5) (k : Core) :
    (x.atRcmt h a b k).seq x.q = { k.seq x.q with st := .atRcmt, rgnSp := h.sp, rgnSn := h.sn } := by
  rw [← Core.seq_modSeq k x.q fun y => { y with st := .atRcmt, rgnSp := h.sp, rgnSn := h.sn }]
  unfold Ctx.atRcmt
  split <;> rfl

/-- A sequencer at the barrier of a STEP. -/
def Seq.atBarrier (l : Nat) (h : Hdr) (y : Seq) : Seq := { y with st := .atStep l, rgnSp := h.sp, rgnSn := h.sn }

/-! ### TAIL -/

theorem length_putAt {α : Type} (l : List α) (d : α) {i : Nat} (v : α) (h : i < l.length) : (putAt l d i v).length = l.length := by
  induction l generalizing i with
  | nil => exact absurd h (Nat.not_lt_zero i)
  | cons a l ih =>
    cases i with
    | zero => rfl
    | succ i => exact congrArg (· + 1) (ih (Nat.lt_of_succ_lt_succ h))

theorem Core.length_seqs_modSeq {k : Core} (h : k.seqs.length = 4) (q : SeqId) (f : Seq → Seq) : (k.modSeq q f).seqs.length = 4 :=
  (length_putAt k.seqs Seq.idle _ (by rw [h]; cases q <;> decide)).trans h

theorem exists_of_length_four {α : Type} : ∀ l : List α, l.length = 4 → ∃ a b c d, l = [a, b, c, d]
  | [a, b, c, d], _ => ⟨a, b, c, d, rfl⟩

/-- Every sequencer of a core satisfies a condition: of its list, or by name. -/
theorem Core.all_seqs_iff {k : Core} (h : k.seqs.length = 4) (p : Seq → Bool) : k.seqs.all p = true ↔ ∀ q, p (k.seq q) = true := by
  obtain ⟨a, b, c, d, hl⟩ := exists_of_length_four k.seqs h
  have hq (q : SeqId) : k.seq q = [a, b, c, d].getD (seqIdx q) Seq.idle := by rw [Core.seq, hl]
  rw [hl]
  refine ⟨fun hall q => ?_, fun hall => ?_⟩
  · rw [hq]
    refine List.all_eq_true.mp hall _ ?_
    cases q <;> simp [seqIdx]
  · have h1 := hall .ld
    have h2 := hall .cm
    have h3 := hall .st
    have h4 := hall .ct
    rw [hq] at h1 h2 h3 h4
    simp only [List.all_cons, List.all_nil, Bool.and_true, Bool.and_eq_true]
    exact ⟨h1, h2, h3, h4⟩

/-- The tracker of a core after the TAIL of a sequencer that takes an entry where the task has none. -/
def Core.takesEntry (k : Core) (t : Nat) (has : Bool) : Core :=
  if has then k else { k with tracker := k.tracker ++ [{ task := t, closed := false }] }

/-- A sequencer out of its task. -/
def Seq.tailed (y : Seq) : Seq := { y with st := .off, pend := [], fetched := [], fetching := [], link := none }

/-- A core with a sequencer out of its task. -/
def Core.seqOff (k : Core) (q : SeqId) : Core :=
  { k.modSeq q Seq.tailed with snaps := (k.modSeq q Seq.tailed).snaps.modify (seqIdx q) fun y => { y with off := true } }

theorem Core.seqOff_seqs (k : Core) (q : SeqId) : (k.seqOff q).seqs = (k.modSeq q Seq.tailed).seqs := rfl

theorem Core.seqOff_seq (k : Core) (q p : SeqId) : (k.seqOff q).seq p = (k.modSeq q Seq.tailed).seq p := rfl

/-- A core after the TAIL of a sequencer. -/
def Core.tails (k : Core) (q : SeqId) (t : Nat) (has : Bool) : Core :=
  let k := (k.takesEntry t has).seqOff q
  if k.seqs.all (fun y => y.st == .off) then k.retire t else k

theorem Core.takesEntry_has (k : Core) (t : Nat) : ∃ e ∈ (k.takesEntry t (k.tracker.any fun e => e.task == t)).tracker, e.task = t := by
  unfold Core.takesEntry
  split
  · rename_i h
    obtain ⟨e, he, ht⟩ := List.any_eq_true.mp h
    exact ⟨e, he, by simpa using ht⟩
  · exact ⟨_, List.mem_append_right _ (List.mem_singleton.mpr rfl), rfl⟩

theorem Core.takesEntry_seqs (k : Core) (t : Nat) (has : Bool) : (k.takesEntry t has).seqs = k.seqs ∧ (k.takesEntry t has).task = k.task := by
  unfold Core.takesEntry
  split <;> exact ⟨rfl, rfl⟩

/-- An entry of a task that is closed stands closed. -/
theorem Core.closeEntry_closed {k : Core} {t : Nat} (h : ∃ e ∈ k.tracker, e.task = t) :
    (∃ e ∈ (k.closeEntry t).tracker, e.task = t ∧ e.closed = true) ∧ (k.closeEntry t).seqs = k.seqs := by
  obtain ⟨e, he, ht⟩ := h
  unfold Core.closeEntry
  rw [if_pos (List.any_eq_true.mpr ⟨e, he, by simp [ht]⟩)]
  exact ⟨⟨{ e with closed := true }, List.mem_map.mpr ⟨e, he, by rw [if_pos (by simp [ht])]⟩, ht, rfl⟩, rfl⟩

/-- A core after a TAIL: its sequencer is off, its task has an entry; it is free if that was its last sequencer, else it stays. -/
theorem Core.tails_spec {k : Core} {q : SeqId} {t : Nat} (ht : k.task = some t) (hlen : k.seqs.length = 4) :
    let l := k.tails q t (k.tracker.any fun e => e.task == t)
    let last : Prop := ∀ p, p ≠ q → (k.seq p).st = .off
    (l.seq q).st = .off ∧ (∃ e ∈ l.tracker, e.task = t) ∧
      (¬ last → l.task = some t ∧ ∀ p, p ≠ q → l.seq p = k.seq p) ∧
      (last → l.task = none ∧ l.phase = .idle ∧ ∃ e ∈ l.tracker, e.task = t ∧ e.closed = true) := by
  intro l last
  have hentry := k.takesEntry_has t
  obtain ⟨hseqs, htask⟩ := k.takesEntry_seqs t (k.tracker.any fun e => e.task == t)
  generalize hm : (k.takesEntry t (k.tracker.any fun e => e.task == t)) = m at hentry hseqs htask
  have hl : l = if (m.seqOff q).seqs.all (fun y => y.st == .off) then (m.seqOff q).retire t else m.seqOff q := by
    rw [← hm]; rfl
  have hseq (p : SeqId) : m.seq p = k.seq p := by unfold Core.seq; rw [hseqs]
  have hq : ((m.seqOff q).seq q).st = .off := by
    rw [Core.seqOff_seq, Core.seq_modSeq]
    rfl
  have hp (p : SeqId) (hne : p ≠ q) : (m.seqOff q).seq p = k.seq p := by
    rw [← hseq, Core.seqOff_seq, Core.seq_modSeq_other m _ hne]
  have hall : (m.seqOff q).seqs.all (fun y => y.st == .off) = true ↔ last := by
    rw [Core.all_seqs_iff (k := m.seqOff q) (Core.length_seqs_modSeq (hseqs ▸ hlen) q Seq.tailed)]
    refine ⟨fun h p hne => by simpa [hp p hne] using h p, fun h p => ?_⟩
    by_cases hne : p = q
    · rw [hne, hq]; rfl
    · rw [hp p hne, h p hne]; rfl
  obtain ⟨hclosed, hcseqs⟩ := Core.closeEntry_closed (k := m.seqOff q) hentry
  by_cases hlast : last
  · rw [if_pos (hall.mpr hlast)] at hl
    have hrseq : l.seq q = (m.seqOff q).seq q := by
      rw [hl]
      show ((m.seqOff q).closeEntry t).seq q = _
      unfold Core.seq
      rw [hcseqs]
    refine ⟨hrseq ▸ hq, ?_, fun h => absurd hlast h, fun _ => ?_⟩
    · obtain ⟨e, he, het, -⟩ := hclosed
      exact ⟨e, by rw [hl]; exact he, het⟩
    · rw [hl]
      exact ⟨rfl, rfl, hclosed⟩
  · rw [if_neg (fun h => hlast (hall.mp h))] at hl
    rw [hl]
    exact ⟨hq, hentry, fun _ => ⟨htask.trans ht, hp⟩, fun h => absurd h hlast⟩

/-- A word without waits or signals of its own that has issued has moved its sequencer's place in the program. -/
theorem Ctx.core_issued_none (x : Ctx) (t : State) (next extra : Nat) :
    ∃ g : Seq → Seq, (∀ y, (g y).st = y.st) ∧ (x.issued Hdr.none t none next extra).core x.c = (t.core x.c).modSeq x.q g := by
  refine ⟨_, fun y => ?_, State.core_modCore t x.c _⟩
  rfl

/-- Settles O22. -/
theorem regionAndTailWords : Obligations.RegionAndTailWords := by
  unfold Obligations.RegionAndTailWords
  refine ⟨fun s h x a b c l => ?_, fun s h x task ht htask hlen => ?_⟩
  · intro faults waits
    refine ⟨fun ht timed => ?_, fun ht => ?_, fun ht hl hrel => ?_, fun ht hl => ?_, fun ht => ?_, fun ht => ?_, fun ht => ?_⟩
    · have hk := (State.ctx_core ht.here).1
      have he : exec (if timed then .rgnT h a b c else .rgn h a b c) s = rgnWord h a b c timed s := by
        cases timed
        · exact exec_rgn h a b c s
        · exact exec_rgnT h a b c s
      have hi : s.Issues h (fun x => { Gate.gapOnly with uses := if x.q = .ct then [a, b, c] else [] }) x :=
        ht.issues _ rfl rfl rfl (fun q _ => mem_allSeqs q) (fun p hp => by rw [List.mem_singleton.mp hp]; rfl) fun r hr => by
          dsimp only at hr
          split at hr
          · exact hr
          · cases hr
      refine ⟨s.modCore x.c (x.atRgn h a b c timed s.now), yields_modCore he hi rfl (x.sameData_atRgn h a b c timed s.now _), ⟨?_, ?_, ?_⟩, ?_, ?_⟩
      · rw [State.core_modCore, Ctx.seq_atRgn]
      · rw [State.core_modCore, Ctx.seq_atRgn]
      · rw [State.core_modCore, Ctx.seq_atRgn]
      · rw [State.core_modCore, Ctx.seq_atRgn]
      rw [State.core_modCore]
      refine ⟨rfl, rfl, fun hq => ?_, fun hq => ?_⟩
      · simp only [Ctx.atRgn, if_pos hq]
        exact ⟨by simp [bits], trivial, trivial, trivial⟩
      · simp only [Ctx.atRgn, if_neg hq, hk]
        exact ⟨rfl, rfl, rfl⟩
    · have hk := (State.ctx_core ht.here).1
      have hi : s.Issues h (fun x => { Gate.regionOnly allSeqs with uses := if x.q = .ct then [a, b] else [] }) x :=
        ht.issues _ rfl rfl rfl (fun q _ => mem_allSeqs q) (admits_regions rfl rfl) fun r hr => by
          dsimp only at hr
          split at hr
          · exact hr
          · cases hr
      refine ⟨s.modCore x.c (x.atRcmt h a b), yields_modCore (exec_rcmt h a b s) hi rfl (x.sameData_atRcmt h a b _), ⟨?_, ?_, ?_⟩, ?_, ?_⟩
      · rw [State.core_modCore, Ctx.seq_atRcmt]
      · rw [State.core_modCore, Ctx.seq_atRcmt]
      · rw [State.core_modCore, Ctx.seq_atRcmt]
      · rw [State.core_modCore, hk]
        unfold Ctx.atRcmt
        split <;> rfl
      · rw [State.core_modCore, hk]
        unfold Ctx.atRcmt
        split <;> rfl
    · have hi : s.Issues h (fun _ => { Gate.gapOnly with illegalOp := 5 < l.toNat }) x :=
        ht.issues _ (by simpa using hl) rfl rfl (fun q _ => mem_allSeqs q) (fun p hp => by rw [List.mem_singleton.mp hp]; rfl) (by simp [Gate.gapOnly])
      refine ⟨s.modCore x.c fun k => k.modSeq x.q (Seq.atBarrier l.toNat h), yields_modCore (exec_eq_issueAt (exec_step h l s)) hi
        (if_neg (by simp [hrel])) (Core.sameData_modSeq _ x.q _ rfl), ?_, ?_, ?_⟩ <;> rw [State.core_modCore, Core.seq_modSeq] <;> rfl
    · exact exec_illegalOp (exec_eq_issueAt (exec_step h l s)) ht.here (.inl (by simpa using hl))
    · exact yields_modCore (exec_eq_issueAt (exec_realign h a s))
        (ht.issues _ rfl rfl rfl (fun _ hq => hq) (admits_regions rfl rfl) fun _ hr => hr) rfl
        ⟨fun _ _ => rfl, fun _ _ => rfl, rfl, rfl, rfl, rfl, rfl, fun _ => rfl, fun _ => rfl, rfl, rfl, rfl⟩
    · have hp : Gate.gapOnly.admits (x.k.place x.q) = false := by
        have : ∀ p ∈ [Place.timed, .tokened, .handler], Gate.gapOnly.admits p = false := by decide
        exact this _ ht.place
      have hrgn (timed : Bool) {i : Instr} (he : exec i s = rgnWord h a b c timed s) : faults 0x09 0 i :=
        exec_regionRule (gate := fun x => { Gate.gapOnly with uses := if x.q = .ct then [a, b, c] else [] }) he ht.here rfl (mem_allSeqs x.q) rfl (.inr hp)
      exact ⟨hrgn true (exec_rgnT h a b c s), hrgn false (exec_rgn h a b c s),
        fun hl => exec_regionRule (exec_eq_issueAt (exec_step h l s)) ht.here (by simpa using hl) (mem_allSeqs x.q) rfl (.inr hp),
        exec_regionRule (exec_eq_issueAt (exec_tail h s)) ht.here rfl (mem_allSeqs x.q) rfl (.inr hp)⟩
    · have hp (seqs : List SeqId) : (Gate.regionOnly seqs).admits (x.k.place x.q) = false := by
        have : ∀ p ∈ [Place.gap, .handler], (Gate.regionOnly seqs).admits p = false := by
          simp [Gate.regionOnly, Gate.admits]
        exact this _ ht.place
      exact ⟨exec_regionRule (exec_rcmt h a b s) ht.here rfl (mem_allSeqs x.q) rfl (.inr (hp allSeqs)),
        exec_regionRule (exec_eq_issueAt (exec_realign h a s)) ht.here rfl ht.seq rfl (.inr (hp [.ct]))⟩
  · intro has last
    have hk := (State.ctx_core ht.here).1
    have hi : s.Issues Hdr.none (fun _ => Gate.gapOnly) x :=
      ht.issues _ rfl rfl rfl (fun q _ => mem_allSeqs q) (fun p hp => by rw [List.mem_singleton.mp hp]; rfl) (by simp [Gate.gapOnly])
    have he := exec_eq_issueAt (exec_tail h s)
    have hhas : (x.k.tracker.any fun e => e.task == task) = true ↔ has := by simp [has]
    refine ⟨fun hno hfull => ?_, fun hroom => ?_⟩
    · refine exec_held he hi (if_pos ?_)
      rw [htask]
      simp [Bool.eq_false_iff.mpr fun h => hno (hhas.mp h), hfull]
    · obtain ⟨h1, h2, h3, h4⟩ := Core.tails_spec (q := x.q) htask hlen
      have hx : exec (.tail h) s = .next (x.issued Hdr.none (s.modCore x.c fun k => k.tails x.q task (x.k.tracker.any fun e => e.task == task)) none x.next 0) := by
        refine exec_issued he hi ((if_neg ?_).trans ?_)
        · rw [htask]
          rcases hroom with hr | hr
          · simp [hhas.mpr hr]
          · simp [Nat.not_le.mpr hr]
        · rw [htask]
          rfl
      obtain ⟨g, hg, hcore⟩ := x.core_issued_none (s.modCore x.c fun k => k.tails x.q task (x.k.tracker.any fun e => e.task == task)) x.next 0
      rw [State.core_modCore, ← hk] at hcore
      generalize x.k.tails x.q task (x.k.tracker.any fun e => e.task == task) = l at h1 h2 h3 h4 hcore
      refine ⟨_, hx, ?_, fun e he => ?_, rfl, ?_, fun hl => ?_, fun hl => ?_⟩
      · rw [hcore, Core.seq_modSeq, hg, h1]
      · exact (State.core_modCore_other _ _ he).trans (State.core_modCore_other _ _ he)
      · rw [hcore]
        exact h2
      · rw [hcore]
        exact ⟨(h3 hl).1, fun q hq => (Core.seq_modSeq_other _ _ hq).trans ((h3 hl).2 q hq)⟩
      · rw [hcore]
        exact h4 hl

end Sys2Proof.Machine
end

section
/-! PROOFS. What abandoning a region leaves of the machine (R54), the dispatch unit's fault policy (R282), and O26 and O28. -/

namespace Sys2Proof.Machine

/-! ### States that hold the same work -/

/-- The cores, the tasks and memory are those of another state, in its cycle. -/
structure State.SameWork (s t : State) : Prop where
  cores : t.cores = s.cores
  tasks : t.tasks = s.tasks
  mem : t.mem = s.mem
  now : t.now = s.now

theorem State.SameWork.refl (s : State) : s.SameWork s := ⟨rfl, rfl, rfl, rfl⟩

theorem State.SameWork.trans {s t u : State} (h : s.SameWork t) (g : t.SameWork u) : s.SameWork u :=
  ⟨g.cores.trans h.cores, g.tasks.trans h.tasks, g.mem.trans h.mem, g.now.trans h.now⟩

theorem State.SameWork.core {s t : State} (h : s.SameWork t) (c : Nat) : t.core c = s.core c := State.core_of_cores h.cores c

theorem State.SameWork.task? {s t : State} (h : s.SameWork t) (n : Nat) : t.task? n = s.task? n := by
  unfold State.task?
  rw [h.tasks]

theorem State.SameWork.foldl {α : Type} {f : State → α → State} (h : ∀ s a, State.SameWork s (f s a)) (l : List α) (s : State) : s.SameWork (l.foldl f s) :=
  foldl_rel State.SameWork.refl State.SameWork.trans h l s

theorem State.sameWork_modEnd (s : State) (c ch : Nat) (f : ChanEnd → ChanEnd) : s.SameWork (s.modEnd c ch f) := by
  unfold State.modEnd
  split
  · exact ⟨rfl, rfl, rfl, rfl⟩
  · exact .refl s

theorem State.sameWork_unreserve (s : State) (c : Nat) (h : HeldKind) : s.SameWork (s.unreserve c h) := by
  cases h with
  | send => exact s.sameWork_modEnd _ _ _
  | submit => exact ⟨rfl, rfl, rfl, rfl⟩
  | _ => exact .refl s

theorem State.sameWork_unreserveAct (s : State) (c : Nat) (a : Act) : s.SameWork (s.unreserveAct c a) := by
  unfold State.unreserveAct
  split
  · exact ⟨rfl, rfl, rfl, rfl⟩
  · exact s.sameWork_modEnd _ _ _
  · exact s.sameWork_modEnd _ _ _
  · exact .refl s

theorem State.sameWork_giveUnits (s : State) (c n : Nat) : s.SameWork (s.giveUnits c n) := by
  unfold State.giveUnits
  split
  · exact .refl s
  · exact ⟨rfl, rfl, rfl, rfl⟩

theorem State.sameWork_lowerStream (s : State) (t : Task) : s.SameWork (s.lowerStream t) := ⟨rfl, rfl, rfl, rfl⟩

/-! ### One core changed -/

/-- Of the cores, the tasks and memory one core has changed, by a function of what it was. -/
structure State.CoreBecomes (s t : State) (c : Nat) (f : Core → Core) : Prop where
  core : t.core c = f (s.core c)
  others : ∀ d, d ≠ c → t.core d = s.core d
  tasks : t.tasks = s.tasks
  mem : t.mem = s.mem
  now : t.now = s.now

theorem State.coreBecomes_modCore (s : State) (c : Nat) (f : Core → Core) : s.CoreBecomes (s.modCore c f) c f :=
  ⟨s.core_modCore c f, fun _ hd => s.core_modCore_other f hd, rfl, rfl, rfl⟩

theorem State.SameWork.becomes {s t : State} (h : s.SameWork t) (c : Nat) : s.CoreBecomes t c id :=
  ⟨h.core c, fun d _ => h.core d, h.tasks, h.mem, h.now⟩

theorem State.CoreBecomes.trans {s t u : State} {c : Nat} {f g : Core → Core} (a : s.CoreBecomes t c f) (b : t.CoreBecomes u c g) :
    s.CoreBecomes u c (fun k => g (f k)) :=
  ⟨by rw [b.core, a.core], fun d hd => (b.others d hd).trans (a.others d hd), b.tasks.trans a.tasks, b.mem.trans a.mem, b.now.trans a.now⟩

/-- The power units of a core given back. -/
def Core.unpowered (k : Core) : Core := { k with units := 0, powered := false }

/-- A core whose region has been abandoned in a cycle (R54). -/
def Core.abandoned (now : Nat) (k : Core) : Core := (((k.unpowered.noteMask now).keepBanks now).dropRegion).restartAll now

theorem State.returnUnits_becomes (s : State) (c : Nat) : s.CoreBecomes (s.returnUnits c) c Core.unpowered :=
  ((s.sameWork_giveUnits c _).becomes c).trans (State.coreBecomes_modCore _ c Core.unpowered)

/-- The state in which an abandonment changes its core: what the region had reserved and requested is gone. -/
def State.withdrawn (s : State) (c : Nat) : State :=
  let k := s.core c
  let s := (k.held.filter fun h => h.released.isNone).foldl (fun s h => s.unreserve c h.kind) s
  let s := k.acts.foldl (fun s a => s.unreserveAct c a) s
  let s := s.dropReqs fun r => r.stops c ((k.copies.filter Copy.stops).map Copy.id)
  { s with reqs := s.reqs.map fun (r : Req) => r.orphaned c }

theorem State.sameWork_withdrawn (s : State) (c : Nat) : s.SameWork (s.withdrawn c) :=
  (State.SameWork.foldl (fun s (h : Held) => s.sameWork_unreserve c h.kind) _ s).trans
    ((State.SameWork.foldl (fun s (a : Act) => s.sameWork_unreserveAct c a) _ _).trans ⟨rfl, rfl, rfl, rfl⟩)

theorem State.abandon_eq (s : State) (c : Nat) :
    s.abandon c = (((s.withdrawn c).returnUnits c).closeWaits c).modCore c fun k =>
      (((k.noteMask (((s.withdrawn c).returnUnits c).closeWaits c).now).keepBanks (((s.withdrawn c).returnUnits c).closeWaits c).now).dropRegion).restartAll
        (((s.withdrawn c).returnUnits c).closeWaits c).now := rfl

/-- An abandonment changes the core it is of, no other, no task and no memory. -/
theorem State.abandon_becomes (s : State) (c : Nat) : s.CoreBecomes (s.abandon c) c (Core.abandoned s.now) := by
  have hw : s.CoreBecomes (((s.withdrawn c).returnUnits c).closeWaits c) c Core.unpowered :=
    ((s.sameWork_withdrawn c).becomes c).trans (((s.withdrawn c).returnUnits_becomes c).trans
      (State.SameWork.becomes (s := (s.withdrawn c).returnUnits c) (t := ((s.withdrawn c).returnUnits c).closeWaits c) ⟨rfl, rfl, rfl, rfl⟩ c))
  rw [s.abandon_eq c, hw.now]
  exact hw.trans (State.coreBecomes_modCore _ c _)

/-! ### What an abandoned core holds -/

theorem Core.seq_restartAll (k : Core) (now : Nat) (q : SeqId) :
    (k.restartAll now).seq q = (k.seq q).restart (k.snaps.getD (seqIdx q) SeqSnap.idle) now := by
  cases q <;> rfl

/-- The core whose region is dropped in an abandonment. -/
def Core.dropping (now : Nat) (k : Core) : Core := (k.unpowered.noteMask now).keepBanks now

theorem Core.abandoned_eq (now : Nat) (k : Core) : k.abandoned now = ((k.dropping now).dropRegion).restartAll now := rfl

theorem Core.epi_abandoned {now : Nat} {k : Core} : ∀ e ∈ (k.abandoned now).epi, e.committed = true ∨ e.start ≠ none := by
  intro e he
  have h := (List.mem_filter.mp he).2
  rw [Bool.or_eq_true, Option.isSome_iff_ne_none] at h
  exact h

theorem Core.bank_abandoned {now : Nat} {k : Core} (h : k.banks.length = 2) :
    (k.abandoned now).bank k.work = Bank.zero ∧ (k.abandoned now).bank (!k.work) = k.bank (!k.work) := by
  have hb (b : Bool) : (k.abandoned now).bank b = (k.banks.set (flag k.work) Bank.zero).getD (flag b) Bank.zero := rfl
  have hk (b : Bool) : k.bank b = k.banks.getD (flag b) Bank.zero := rfl
  rw [hb, hb, hk]
  cases k.work <;> simp [flag, h]

/-- Settles O26: an abandonment changes its core alone, and leaves there what `dropRegion` and `restartAll` leave. -/
theorem abandonment : Obligations.Abandonment := by
  intro s c k t l
  have hb := s.abandon_becomes c
  have hl : l = k.abandoned s.now := hb.core
  rw [hl]
  clear_value k
  refine ⟨fun a ha => (List.mem_filter.mp ha).2, rfl, rfl, rfl, Core.epi_abandoned, ?_, ?_, Core.bank_abandoned, ?_, ?_, ?_, ?_, ?_, fun q => ?points,
    ?_, fun a => by rw [hb.mem], ?_, ?_, fun _ _ => ?_, ?_, ?_, ?_, hb.others⟩
  · intro h hh
    exact Option.isSome_iff_ne_none.mp (List.mem_filter.mp hh).2
  · intro e he hi
    have h := (List.mem_filter.mp he).2
    simpa [Copy.stops, hi] using h
  · intro e he
    obtain ⟨y, -, rfl⟩ := List.mem_map.mp he
    rfl
  case points =>
    rw [Core.abandoned_eq, Core.seq_restartAll]
    exact ⟨rfl, rfl⟩
  all_goals rfl

/-! ### The fault policy -/

/-- A core that a failed task leaves (R282). -/
def Core.stopped (t now : Nat) (k : Core) : Core :=
  { ((k.abandoned now).closeEntry t) with
    phase := .idle, preempt := none, causeUnread := false
    seqs := (k.abandoned now).seqs.map fun x => { x with st := .off } }

theorem Core.closeEntry_eq (k : Core) (t : Nat) : ∃ l, k.closeEntry t = { k with tracker := l } := by
  unfold Core.closeEntry
  split
  · exact ⟨_, rfl⟩
  · split
    · exact ⟨k.tracker, rfl⟩
    · exact ⟨_, rfl⟩

/-- A core stopped for a task either has not held it and stays, or is abandoned and stands idle. -/
theorem State.stopCore_becomes (s : State) (c t : Nat) : s.CoreBecomes (s.stopCore c t) c id ∨ s.CoreBecomes (s.stopCore c t) c (Core.stopped t s.now) := by
  unfold State.stopCore
  split
  · exact .inl ((State.SameWork.refl s).becomes c)
  · refine .inr ?_
    have h := (s.abandon_becomes c).trans (State.coreBecomes_modCore _ c fun k =>
      { (k.closeEntry t) with phase := .idle, preempt := none, causeUnread := false, seqs := k.seqs.map fun x => { x with st := .off } })
    exact h

/-- The trap CSRs of a core, TCAUSE2 apart (R273). -/
def Core.trapCsrs (k : Core) : List W64 := [k.tcause, k.taddr, k.tpc, k.tseq, k.trgn, k.tvec, k.tsp]

theorem Core.trapCsrs_abandoned (k : Core) (now : Nat) : (k.abandoned now).trapCsrs = k.trapCsrs ∧ (k.abandoned now).tcause2 = k.tcause2 := ⟨rfl, rfl⟩

theorem Core.trapCsrs_stopped (k : Core) (t now : Nat) : (k.stopped t now).trapCsrs = k.trapCsrs ∧ (k.stopped t now).tcause2 = k.tcause2 := by
  obtain ⟨hc, h2⟩ := k.trapCsrs_abandoned now
  rw [← hc, ← h2]
  unfold Core.stopped
  generalize k.abandoned now = m
  obtain ⟨l, hl⟩ := m.closeEntry_eq t
  rw [hl]
  exact ⟨rfl, rfl⟩

/-- Between two states no core's trap CSRs have changed, no task and no memory. -/
structure State.TrapsStay (s t : State) : Prop where
  csrs : ∀ c, (t.core c).trapCsrs = (s.core c).trapCsrs
  second : ∀ c, (t.core c).tcause2 = (s.core c).tcause2
  tasks : t.tasks = s.tasks
  mem : t.mem = s.mem

theorem State.TrapsStay.refl (s : State) : s.TrapsStay s := ⟨fun _ => rfl, fun _ => rfl, rfl, rfl⟩

theorem State.TrapsStay.trans {s t u : State} (h : s.TrapsStay t) (g : t.TrapsStay u) : s.TrapsStay u :=
  ⟨fun c => (g.csrs c).trans (h.csrs c), fun c => (g.second c).trans (h.second c), g.tasks.trans h.tasks, g.mem.trans h.mem⟩

theorem State.SameWork.trapsStay {s t : State} (h : s.SameWork t) : s.TrapsStay t :=
  ⟨fun c => by rw [h.core], fun c => by rw [h.core], h.tasks, h.mem⟩

theorem State.CoreBecomes.trapsStay {s t : State} {c : Nat} {f : Core → Core} (h : s.CoreBecomes t c f)
    (hf : ∀ k, (f k).trapCsrs = k.trapCsrs ∧ (f k).tcause2 = k.tcause2) : s.TrapsStay t := by
  refine ⟨fun d => ?_, fun d => ?_, h.tasks, h.mem⟩
  · by_cases hd : d = c
    · rw [hd, h.core]; exact (hf _).1
    · rw [h.others d hd]
  · by_cases hd : d = c
    · rw [hd, h.core]; exact (hf _).2
    · rw [h.others d hd]

theorem State.abandon_trapsStay (s : State) (c : Nat) : s.TrapsStay (s.abandon c) :=
  (s.abandon_becomes c).trapsStay fun k => k.trapCsrs_abandoned s.now

theorem State.stopCore_trapsStay (s : State) (c t : Nat) : s.TrapsStay (s.stopCore c t) := by
  obtain h | h := s.stopCore_becomes c t
  · exact h.trapsStay fun _ => ⟨rfl, rfl⟩
  · exact h.trapsStay fun k => k.trapCsrs_stopped t s.now

/-! ### Tasks by number -/

theorem State.task?_of_tasks {s t : State} (h : t.tasks = s.tasks) (n : Nat) : t.task? n = s.task? n := by
  unfold State.task?
  rw [h]

theorem State.id_of_task? {s : State} {n : Nat} {t : Task} (h : s.task? n = some t) : t.id = n := by
  simpa using List.find?_some h

/-- A task changed, and found under its number again. -/
theorem State.task?_modTask {s : State} {t : Task} (h : s.task? t.id = some t) (f : Task → Task) (hf : ∀ x, (f x).id = x.id) :
    (s.modTask t.id f).task? t.id = some (f t) := by
  have hp : ((fun x : Task => x.id == t.id) ∘ fun x => if x.id == t.id then f x else x) = fun x => x.id == t.id := by
    funext x
    by_cases hx : x.id = t.id
    · simp [hx, hf]
    · simp [hx]
  unfold State.task? at h ⊢
  unfold State.modTask
  rw [List.find?_map, hp, h]
  simp

/-! ### A task that fails -/

/-- A task as it fails with a code (R282). -/
def Task.failing (code : Nat) (x : Task) : Task := { x with st := .ending, status := .failed, code := code, counting := false }

/-- A task that fails stands ending, with its code; no trap CSR and no memory has changed. -/
theorem State.failTask_spec {s : State} {t : Task} (code : Nat) (ht : s.task? t.id = some t) (he : t.st ≠ .ending) :
    (s.failTask t.id code).task? t.id = some (t.failing code) ∧ (∀ c, ((s.failTask t.id code).core c).trapCsrs = (s.core c).trapCsrs) ∧
      (∀ c, ((s.failTask t.id code).core c).tcause2 = (s.core c).tcause2) ∧ (s.failTask t.id code).mem = s.mem := by
  have h := foldl_rel State.TrapsStay.refl State.TrapsStay.trans (fun (s : State) c => s.stopCore_trapsStay c t.id) t.cores s
  have heq : s.failTask t.id code = (t.cores.foldl (fun s c => s.stopCore c t.id) s).modTask t.id (Task.failing code) := by
    unfold State.failTask
    rw [ht]
    exact if_neg (by simpa using he)
  have hu : (t.cores.foldl (fun s c => s.stopCore c t.id) s).task? t.id = some t := (State.task?_of_tasks h.tasks t.id).trans ht
  rw [heq]
  exact ⟨State.task?_modTask hu _ fun _ => rfl, h.csrs, h.second, h.mem⟩

/-- A task that fails leaves every trap CSR and memory, whatever stands in its place. -/
theorem State.failTask_csrs (s : State) (t code : Nat) :
    (∀ c, ((s.failTask t code).core c).trapCsrs = (s.core c).trapCsrs) ∧ (∀ c, ((s.failTask t code).core c).tcause2 = (s.core c).tcause2) ∧
      (s.failTask t code).mem = s.mem := by
  by_cases hn : s.failTask t code = s
  · rw [hn]
    exact ⟨fun _ => rfl, fun _ => rfl, rfl⟩
  · unfold State.failTask at hn ⊢
    split
    · exact ⟨fun _ => rfl, fun _ => rfl, rfl⟩
    · split
      · exact ⟨fun _ => rfl, fun _ => rfl, rfl⟩
      · rename_i task _ _
        have h := foldl_rel State.TrapsStay.refl State.TrapsStay.trans (fun (s : State) c => s.stopCore_trapsStay c t) task.cores s
        exact ⟨h.csrs, h.second, h.mem⟩

/-! ### The choice of a fault -/

theorem leastBy_spec {α : Type} (f : α → Nat) (l : List α) :
    (l = [] → leastBy f l = none) ∧ (l ≠ [] → ∃ a ∈ l, leastBy f l = some a ∧ ∀ b ∈ l, f a ≤ f b) := by
  induction l with
  | nil => exact ⟨fun _ => rfl, fun h => (h rfl).elim⟩
  | cons a l ih =>
    refine ⟨nofun, fun _ => ?_⟩
    unfold leastBy
    by_cases hl : l = []
    · rw [ih.1 hl]
      refine ⟨a, List.mem_cons_self, rfl, fun b hb => ?_⟩
      rw [hl, List.mem_singleton] at hb
      rw [hb]
    · obtain ⟨b, hb, he, hm⟩ := ih.2 hl
      rw [he]
      dsimp only
      split
      · rename_i hlt
        refine ⟨b, List.mem_cons_of_mem _ hb, rfl, fun d hd => ?_⟩
        obtain rfl | hd := List.mem_cons.mp hd
        · exact hlt.le
        · exact hm d hd
      · rename_i hge
        refine ⟨a, List.mem_cons_self, rfl, fun d hd => ?_⟩
        obtain rfl | hd := List.mem_cons.mp hd
        · exact le_rfl
        · exact (Nat.le_of_not_lt hge).trans (hm d hd)

/-- The fault chosen is of the first rank that is there, and the earliest of it. -/
theorem chooseFault_spec (fs : List FaultRec) :
    (fs = [] → chooseFault fs = none) ∧ (fs ≠ [] → ∃ f ∈ fs, chooseFault fs = some f ∧
      ∀ g ∈ fs, f.precedence < g.precedence ∨ (f.precedence = g.precedence ∧ f.issued ≤ g.issued)) := by
  obtain ⟨h0, h1⟩ := leastBy_spec FaultRec.precedence fs
  refine ⟨fun h => by rw [chooseFault, h0 h], fun h => ?_⟩
  obtain ⟨f, hf, he, hm⟩ := h1 h
  have hne : (fs.filter fun g => g.precedence == f.precedence) ≠ [] := List.ne_nil_of_mem (List.mem_filter.mpr ⟨hf, beq_self_eq_true _⟩)
  obtain ⟨e, hmem, hc, hi⟩ := (leastBy_spec FaultRec.issued _).2 hne
  obtain ⟨he', hp⟩ := List.mem_filter.mp hmem
  refine ⟨e, he', by rw [chooseFault, he]; exact hc, fun g hg => ?_⟩
  rw [beq_iff_eq] at hp
  rw [hp]
  obtain hlt | heq := Nat.lt_or_eq_of_le (hm g hg)
  · exact .inl hlt
  · exact .inr ⟨heq, hi g (List.mem_filter.mpr ⟨hg, by rw [heq]; exact beq_self_eq_true _⟩)⟩

/-- Settles O28: the choice by the least rank and then the least issue, the policy by whether it retries. -/
theorem faultChoiceAndPolicy : Obligations.FaultChoiceAndPolicy := by
  refine ⟨fun fs => ?_, fun s t code atOnce ht he => ?_⟩
  · intro rank
    have hr : rank = FaultRec.precedence := by
      funext f
      cases hq : f.by_ <;> simp [rank, FaultRec.precedence, seqIdx, hq]
    rw [hr]
    exact chooseFault_spec fs
  · unfold State.faultPolicy
    rw [ht]
    dsimp only
    have hc : (!atOnce && t.fpol != 2 && decide (0 < t.retries)) = true ↔ atOnce = false ∧ t.fpol ≠ 2 ∧ 0 < t.retries := by
      simp [and_assoc]
    split
    · rename_i hr
      exact ⟨⟨fun _ => hc.mp hr, fun _ => rfl⟩, fun _ => ⟨State.task?_modTask ht (fun x => { x with retries := x.retries - 1 }) fun _ => rfl, rfl, rfl⟩, nofun⟩
    · rename_i hr
      refine ⟨⟨nofun, fun h => absurd (hc.mpr h) hr⟩, nofun, fun _ => ?_⟩
      have hs : State.task? (if t.fpol = 1 then s.lowerStream t else s) t.id = some t := by
        split
        · exact ht
        · exact ht
      exact ⟨_, (State.failTask_spec code hs he).1, rfl, rfl, rfl, rfl⟩

end Sys2Proof.Machine
end

section
/-! PROOFS. What the device's own accesses to memory may change: the die buffers, the channels, the stores of descriptors, the kept translations, and
nothing else (R12, R208, R286, R288, R305, R313). -/

namespace Sys2Proof.Machine

/-! ### States that differ by accesses to memory -/

/-- A state with what an access to memory may change taken from another. -/
def State.withMemory (s u : State) : State :=
  { s with
    nextId := u.nextId, fresh := u.fresh, cores := u.cores, dies := u.dies, channels := u.channels, mem := u.mem, lineKeys := u.lineKeys
    stores := u.stores, reqs := u.reqs, sent := u.sent, queues := u.queues, casements := u.casements, migration := u.migration, buffer := u.buffer
    rescaleDue := u.rescaleDue }

/-- Between two states there are accesses to memory: of a core only its kept translations have changed, and memory keeps its canonical form. -/
structure State.MemSide (s t : State) : Prop where
  kept : t = s.withMemory t
  core : ∀ c, ∃ l, t.core c = { s.core c with tlb := l }
  wf : s.mem.wf = true → t.mem.wf = true

theorem State.MemSide.refl (s : State) : s.MemSide s := ⟨rfl, fun _ => ⟨_, rfl⟩, id⟩

theorem State.MemSide.trans {s t u : State} (h : s.MemSide t) (g : t.MemSide u) : s.MemSide u := by
  refine ⟨?_, fun c => ?_, g.wf ∘ h.wf⟩
  · calc u = t.withMemory u := g.kept
      _ = (s.withMemory t).withMemory u := congrArg (State.withMemory · u) h.kept
      _ = s.withMemory u := rfl
  · obtain ⟨l, hl⟩ := h.core c
    obtain ⟨m, hm⟩ := g.core c
    exact ⟨m, by rw [hm, hl]⟩

/-- States with the same cores and the same memory. -/
theorem State.MemSide.of_same {s t : State} (hk : t = s.withMemory t) (hc : t.cores = s.cores) (hm : t.mem = s.mem) : s.MemSide t :=
  ⟨hk, fun c => ⟨_, by rw [State.core_of_cores hc]⟩, fun h => by rw [hm]; exact h⟩

theorem State.MemSide.foldl {α : Type} {f : State → α → State} (h : ∀ s a, State.MemSide s (f s a)) (l : List α) (s : State) : s.MemSide (l.foldl f s) :=
  foldl_rel State.MemSide.refl State.MemSide.trans h l s

theorem State.MemSide.now {s t : State} (h : s.MemSide t) : t.now = s.now := by rw [h.kept]; rfl

theorem State.MemSide.tasks {s t : State} (h : s.MemSide t) : t.tasks = s.tasks := by rw [h.kept]; rfl

theorem State.MemSide.task? {s t : State} (h : s.MemSide t) (n : Nat) : t.task? n = s.task? n := State.task?_of_tasks h.tasks n

theorem State.MemSide.trapCsrs {s t : State} (h : s.MemSide t) (c : Nat) : (t.core c).trapCsrs = (s.core c).trapCsrs := by
  obtain ⟨l, hl⟩ := h.core c
  rw [hl]
  rfl

theorem State.StoreKeeps.kept {s t : State} (h : s.StoreKeeps t) : t = s.withMemory t := by
  obtain ⟨⟩ := s
  obtain ⟨⟩ := t
  cases h
  simp_all only [State.withMemory]

theorem State.StoreKeeps.memSide {s t : State} (h : s.StoreKeeps t) (hw : s.mem.wf = true → t.mem.wf = true) : s.MemSide t :=
  ⟨h.kept, fun c => ⟨_, by rw [State.core_of_cores h.cores]⟩, hw⟩

/-! ### The die buffers and the channels -/

theorem State.memSide_drawSlot (s : State) (d : Nat) : s.MemSide (s.drawSlot d) := .of_same rfl rfl rfl

theorem State.memSide_modChannel (s : State) (n : Nat) (f : Channel → Channel) : s.MemSide (s.modChannel n f) := .of_same rfl rfl rfl

theorem State.memSide_countBytes (s : State) (k n : Nat) : s.MemSide (s.countBytes k n) := .of_same rfl rfl rfl

theorem State.memSide_takeKept (s : State) (a : Nat) : s.MemSide (s.takeKept a) := by
  unfold State.takeKept
  dsimp only
  split
  · exact (s.memSide_drawSlot _).trans (State.memSide_modChannel _ _ _)
  · exact s.memSide_modChannel _ _

theorem State.memSide_evictLine (s : State) (b : BufLine) : s.MemSide (s.evictLine b) := by
  unfold State.evictLine
  dsimp only
  split
  · exact .of_same rfl rfl rfl
  · exact .of_same rfl rfl rfl

theorem State.memSide_fillBuffer (s : State) (pa key : Nat) (dirty : Bool) : s.MemSide (s.fillBuffer pa key dirty) := by
  have h := State.MemSide.foldl State.memSide_evictLine (s.buffer.filter fun b => b.line == s.lineOf pa && b.key != key) s
  unfold State.fillBuffer
  dsimp only
  refine h.trans ?_
  generalize (s.buffer.filter fun b => b.line == s.lineOf pa && b.key != key).foldl State.evictLine s = t
  split
  · split
    · exact .of_same rfl rfl rfl
    · exact .refl t
  · split
    · exact .of_same rfl rfl rfl
    · split
      · exact .refl t
      · have hd : t.MemSide t.draw.2 := .of_same rfl rfl rfl
        split
        · exact hd
        · rename_i b _
          exact hd.trans ((State.memSide_evictLine t.draw.2 b).trans (.of_same rfl rfl rfl))

/-! ### Lines accessed -/

/-- An access to memory leads from a state by accesses to memory alone, whatever becomes of it. -/
def Touch.From (s : State) : Touch → Prop
  | .ok t => s.MemSide t
  | .wait _ => True
  | .check t _ => s.MemSide t

theorem State.touchFrom_from (base s : State) (k pa key n : Nat) (write : Bool) : (base.touchFrom s k pa key n write).From s := by
  unfold State.touchFrom
  dsimp only
  split
  · exact s.memSide_countBytes k n
  split
  · exact State.MemSide.refl s
  split
  · exact State.MemSide.refl s
  split
  · split
    · exact s.memSide_fillBuffer pa key true
    · exact State.MemSide.refl s
  split
  · trivial
  split
  · trivial
  have h := (s.memSide_takeKept (s.forward pa)).trans (State.memSide_modChannel (s.takeKept (s.forward pa)) (channelOf (s.forward pa)) fun c =>
    { (c.noteLink (((s.channel (channelOf (s.forward pa))).nextLink).getD .clean) key (s.forward pa / 64 * 64)) with nextLink := none })
  split
  · exact h.trans (.of_same rfl rfl rfl)
  · exact h.trans ((State.memSide_fillBuffer _ pa key write).trans (State.memSide_countBytes _ k 64))

theorem Touch.From.trans {s t : State} (h : s.MemSide t) {x : Touch} (g : x.From t) : x.From s := by
  cases x with
  | ok u => exact State.MemSide.trans h g
  | wait => trivial
  | check u pa => exact State.MemSide.trans h g

theorem State.touchLines_from (base : State) (k key : Nat) (write : Bool) (l : List Nat) (s : State) :
    (State.touchLines base s k key write l).From s := by
  induction l generalizing s with
  | nil => exact State.MemSide.refl s
  | cons a l ih =>
    have h := base.touchFrom_from s k a key (if write then 0 else 64) write
    unfold State.touchLines
    split
    · rename_i t ht
      rw [ht] at h
      exact Touch.From.trans h (ih t)
    · exact h

theorem State.touchLine_from (s : State) (k pa key n : Nat) (write : Bool) : (s.touchLine k pa key n write).From s := s.touchFrom_from ..

theorem State.touch_from (s : State) (k pa key n : Nat) (write : Bool) : (s.touch k pa key n write).From s := State.touchLines_from ..

/-! ### Walks -/

/-- A walk leads from a state by accesses to memory alone, whether it succeeds or fails. -/
def WalkFrom (s : State) {α : Type} : Except (State × XFault) (State × α) → Prop
  | .ok p => s.MemSide p.1
  | .error e => s.MemSide e.1

theorem WalkFrom.trans {s t : State} (h : s.MemSide t) {α : Type} {x : Except (State × XFault) (State × α)} (g : WalkFrom t x) : WalkFrom s x := by
  cases x with
  | ok p => exact State.MemSide.trans h g
  | error e => exact State.MemSide.trans h g

theorem State.readDesc_from (s : State) (die k level slot a : Nat) : WalkFrom s (s.readDesc die k level slot a) := by
  have h := s.touchLine_from k a slot 8 false
  unfold State.readDesc
  split
  · exact State.MemSide.refl s
  · split
    · rename_i t ht
      rw [ht] at h
      exact h
    · exact State.MemSide.refl s
    · rename_i t pa ht
      rw [ht] at h
      exact h

theorem State.walk2_from (die k ipa fuel level table : Nat) (s : State) : WalkFrom s (State.walk2 die k ipa fuel level table s) := by
  induction fuel generalizing level table s with
  | zero => exact State.MemSide.refl s
  | succ n ih =>
    have h := s.readDesc_from die k level (s.tableKey k) (table + 8 * tableIndex ipa level)
    unfold State.walk2
    dsimp only
    split
    · rename_i e he
      rw [he] at h
      exact h
    · rename_i t d hd
      rw [hd] at h
      split
      · exact h
      split
      · exact h
      split
      · split
        · exact h
        · exact h
      · exact WalkFrom.trans h (ih (level + 1) (dOA d) t)

theorem State.memSide_orDesc (s : State) (die core slot a m : Nat) : s.MemSide (s.orDesc die core slot a m) :=
  (s.orDesc_keeps die core slot a m).memSide (s.orDesc_wf die core slot a m)

theorem State.memSide_keepDie (s : State) (die : Nat) (e : TlbEntry) : s.MemSide (s.keepDie die e) := by
  unfold State.keepDie
  by_cases h : (s.die die).cache.length < 131072
  · rw [if_pos h]; exact .of_same rfl rfl rfl
  · rw [if_neg h]; exact .of_same rfl rfl rfl

theorem State.stage2_from (s : State) (die core k ipa : Nat) (acc : Access) : WalkFrom s (s.stage2 die core k ipa acc) := by
  unfold State.stage2
  split
  · exact State.MemSide.refl s
  split
  · exact State.MemSide.refl s
  have h := State.walk2_from die k ipa 4 0 (bits (s.casement k).s2bound.toNat 47 12 * 4096) s
  split
  · rename_i e he
    rw [he] at h
    exact h
  · rename_i t l hl
    rw [hl] at h
    split
    · exact h
    split
    · exact h
    exact State.MemSide.trans h ((State.memSide_orDesc t die core _ _ _).trans (State.memSide_keepDie _ die _))

theorem State.walk1_from (die core k va fuel level table : Nat) (s : State) : WalkFrom s (State.walk1 die core k va fuel level table s) := by
  induction fuel generalizing level table s with
  | zero => exact State.MemSide.refl s
  | succ n ih =>
    have h2 := s.stage2_from die core k (table + 8 * tableIndex va level) .load
    unfold State.walk1
    dsimp only
    split
    · rename_i e he
      rw [he] at h2
      exact h2
    · rename_i t e2 he
      rw [he] at h2
      have hd := WalkFrom.trans h2 (t.readDesc_from die k level e2.key (e2.paOf (table + 8 * tableIndex va level)))
      split
      · rename_i e he
        rw [he] at hd
        exact hd
      · rename_i u d hu
        rw [hu] at hd
        split
        · exact hd
        split
        · exact hd
        split
        · exact hd
        · exact WalkFrom.trans hd (ih (level + 1) (dOA d) u)

theorem State.walk_from (s : State) (die core k va : Nat) (acc : Access) : WalkFrom s (s.walk die core k va acc) := by
  unfold State.walk
  split
  · exact State.MemSide.refl s
  have h1 := State.walk1_from die core k va 4 0 (bits (s.casement k).s1bound.toNat 47 12 * 4096) s
  split
  · rename_i e he
    rw [he] at h1
    exact h1
  · rename_i t l slot hl
    rw [hl] at h1
    split
    · exact h1
    have h2 := WalkFrom.trans h1 (t.stage2_from die core k l.oa acc)
    split
    · rename_i e he
      rw [he] at h2
      exact h2
    · rename_i u e2 he
      rw [he] at h2
      exact State.MemSide.trans h2 (State.memSide_orDesc u die core slot _ _)

theorem State.memSide_keepTlb (s : State) (c : Nat) (e : TlbEntry) : s.MemSide (s.keepTlb c e) := by
  have one (t : State) (p : Nat) : t.MemSide ((t.modCore c fun k => { k with tlb := keepEntry 384 p k.tlb e }).keepDie (dieOf c) e) := by
    have h : t.MemSide (t.modCore c fun k => { k with tlb := keepEntry 384 p k.tlb e }) := by
      refine ⟨rfl, fun d => ?_, id⟩
      by_cases hd : d = c
      · rw [hd, State.core_modCore]; exact ⟨_, rfl⟩
      · rw [State.core_modCore_other _ _ hd]; exact ⟨_, rfl⟩
    exact h.trans (State.memSide_keepDie _ _ e)
  unfold State.keepTlb
  by_cases h : (s.core c).tlb.length < 384
  · rw [if_pos h]
    exact one s 0
  · rw [if_neg h]
    have hd : s.MemSide s.draw.2 := .of_same rfl rfl rfl
    exact hd.trans (one s.draw.2 s.draw.1)

theorem State.translate_from (s : State) (c va : Nat) (acc : Access) : WalkFrom s (s.translate c va acc) := by
  have done (t : State) (e : TlbEntry) (h : s.MemSide t) (b : Bool) :
      WalkFrom s (if b = true then .error (t, e.unpinned va) else .ok (t, e.paOf va, e.key) : Except (State × XFault) (State × Nat × Nat)) := by
    split
    · exact h
    · exact h
  have hw := s.walk_from (dieOf c) c (s.casementOf c) va acc
  unfold State.translate
  dsimp only
  split
  · exact State.MemSide.refl s
  split
  · exact done s _ (.refl s) _
  split
  · rename_i t e he
    rw [he] at hw
    exact done _ _ (State.MemSide.trans hw (State.memSide_keepTlb t c e)) _
  · rename_i t ipa code he
    rw [he] at hw
    split
    · exact hw
    · exact hw
  · rename_i e _ he
    rw [he] at hw
    exact hw

theorem State.translateFor_from (s : State) (k va : Nat) (acc : Access) : WalkFrom s (s.translateFor k va acc) := by
  have hw := s.walk_from 8 2304 k va acc
  unfold State.translateFor
  split
  · exact State.MemSide.refl s
  split
  · rename_i t e he
    rw [he] at hw
    split
    · exact hw
    · exact hw
  · rename_i e he
    rw [he] at hw
    exact hw

theorem State.translatePinned_from (s : State) (c va : Nat) (acc : Access) : WalkFrom s (s.translatePinned c va acc) := by
  have ht := s.translate_from c va acc
  unfold State.translatePinned
  split
  · exact State.MemSide.refl s
  split
  · rename_i e he
    rw [he] at ht
    exact ht
  · rename_i t pa key he
    rw [he] at ht
    split
    · split
      · exact ht
      · exact ht
    · exact ht

end Sys2Proof.Machine
end

section
/-! PROOFS. The delivery of a fault: what of the trap CSRs it writes, and where the handler starts (R272 to R282, R292, R293), and O25, O27 and O29. -/

namespace Sys2Proof.Machine

/-! ### The trap CSRs, TCAUSE2 apart -/

/-- Between two states no core's trap CSRs have changed, TCAUSE2 apart. -/
def State.CsrsStay (s t : State) : Prop := ∀ c, (t.core c).trapCsrs = (s.core c).trapCsrs

theorem State.CsrsStay.refl (s : State) : s.CsrsStay s := fun _ => rfl

theorem State.CsrsStay.trans {s t u : State} (h : s.CsrsStay t) (g : t.CsrsStay u) : s.CsrsStay u := fun c => (g c).trans (h c)

theorem State.csrsStay_of_cores {s t : State} (h : t.cores = s.cores) : s.CsrsStay t := fun c => by rw [State.core_of_cores h]

theorem State.csrsStay_modCore (s : State) (c : Nat) (f : Core → Core) (hf : ∀ k, (f k).trapCsrs = k.trapCsrs) : s.CsrsStay (s.modCore c f) := fun d => by
  by_cases hd : d = c
  · rw [hd, State.core_modCore, hf]
  · rw [State.core_modCore_other _ _ hd]

theorem State.csrsStay_abandon (s : State) (c : Nat) : s.CsrsStay (s.abandon c) := (s.abandon_trapsStay c).csrs

theorem State.csrsStay_failTask (s : State) (t code : Nat) : s.CsrsStay (s.failTask t code) := (s.failTask_csrs t code).1

/-- Of a task's fault the trap CSRs do not tell: neither they nor TCAUSE2 change by the policy. -/
theorem State.faultPolicy_csrs (s : State) (t code : Nat) (atOnce : Bool) :
    s.CsrsStay (s.faultPolicy t code atOnce).1 ∧ ∀ c, ((s.faultPolicy t code atOnce).1.core c).tcause2 = (s.core c).tcause2 := by
  unfold State.faultPolicy
  split
  · exact ⟨.refl s, fun _ => rfl⟩
  · split
    · exact ⟨.refl s, fun _ => rfl⟩
    · dsimp only
      split
      · exact ⟨(State.failTask_csrs _ t code).1, (State.failTask_csrs _ t code).2.1⟩
      · exact ⟨(State.failTask_csrs _ t code).1, (State.failTask_csrs _ t code).2.1⟩

theorem State.csrsStay_machineCheck (s : State) (c t pa : Nat) : s.CsrsStay (s.machineCheck c t pa) :=
  ((s.emitOut (.machineCheck c pa)).faultPolicy_csrs t cMachineCheck true).1

theorem State.csrsStay_doubleTrap (s : State) (c code : Nat) : s.CsrsStay (s.doubleTrap c code) := by
  have hn : s.CsrsStay (s.noteDoubleTrap c code) := s.csrsStay_modCore c (fun k => { k with tcause2 := w64 code }) fun _ => rfl
  unfold State.doubleTrap State.doubleTrapEnds
  dsimp only
  split
  · exact hn
  · split
    · exact hn.trans (State.csrsStay_failTask _ _ _)
    · exact hn.trans (State.csrsStay_failTask _ _ _)

theorem State.MemSide.csrsStay {s t : State} (h : s.MemSide t) : s.CsrsStay t := h.trapCsrs

/-! ### The entry of the handler -/

theorem State.csrsStay_entryHolds (s : State) (c : Nat) (hot : Bool) : s.CsrsStay (s.entryHolds c hot) := by
  have h : s.CsrsStay (s.modCore c fun k => { k with entryHot := true }) := s.csrsStay_modCore c (fun k => { k with entryHot := true }) fun _ => rfl
  unfold State.entryHolds State.markIfHot
  split
  · unfold State.markHot
    split
    · exact h
    · exact h
  · exact h

theorem State.csrsStay_entryFault (s : State) (c va kind : Nat) (f : XFault) : s.CsrsStay (s.entryFault c va kind f) := by
  have hr (f : XFault) : s.CsrsStay (s.reportS2 c va kind f) := by
    cases f <;> exact .refl s
  unfold State.entryFault
  split
  · exact .refl s
  · exact s.csrsStay_entryHolds c _
  · exact (hr _).trans (State.csrsStay_doubleTrap _ _ _)

/-- The page below TSP, as the entry of the handler reaches it (R276, step 4). -/
def State.handlerStack (s : State) (c tsp : Nat) : Except (State × XFault) State :=
  match locate c tsp 8 with
  | .own _ _ => .ok s
  | .remote _ _ _ => .ok s
  | _ => (s.translatePinned c tsp .store).map Prod.fst

/-- The translation of TVEC (R276, step 5). -/
def State.handlerWord (s : State) (c va : Nat) : Except (State × XFault) (State × Nat × Nat) :=
  if untranslated va then .error (s, .perm) else s.translate c va .fetch

/-- CT in its handler, with the word there fetched (R276). -/
def Seq.inHandler (x : Seq) (now : Nat) (regs : List W64) (va : Nat) (w : W32) : Seq :=
  { x with
    st := .run, pc := va, base := now + 1, retry := none, reentered := false
    regs := regs, fetched := [{ addr := va, word := w, fault := 0, xcode := 0 }], fetching := [] }

/-- The end of the handler's entry, with TVEC's word within reach or not. -/
def State.handlerReaches (s : State) (c pa key : Nat) : Touch → State
  | .check s _ => s.doubleTrap c cMachineCheck
  | .wait hot => s.entryHolds c hot
  | .ok s => s.modCore c fun l => l.modSeq .ct fun x =>
      x.inHandler s.now (l.snaps.getD 3 SeqSnap.idle).regs l.tvec.toNat (BitVec.ofNat 32 (leNat (s.readMem (some (dieOf c)) key pa 4)))

/-- The entry of the handler with the page below TSP translated. -/
def State.handlerFetch (s : State) (c : Nat) (k : Core) : State :=
  match s.handlerWord c k.tvec.toNat with
  | .error (s, f) => s.entryFault c k.tvec.toNat 0 f
  | .ok (s, pa, key) => s.handlerReaches c pa key (s.touch (s.casementOf c) pa key 4 false)

/-- The entry of the handler of a core. -/
def State.handlerEntry (s : State) (c : Nat) (k : Core) : State :=
  match s.handlerStack c (k.tsp - 8).toNat with
  | .error (s, f) => s.entryFault c (k.tsp - 8).toNat 2 f
  | .ok s => s.handlerFetch c k

theorem State.handlerStart_eq (s : State) (c : Nat) :
    s.handlerStart c = (s.modCore c fun k => { k with entryHot := false }).handlerEntry c ((s.modCore c fun k => { k with entryHot := false }).core c) := by
  rfl

/-- The page below TSP is reached by accesses to memory alone. -/
def StackFrom (s : State) : Except (State × XFault) State → Prop
  | .ok t => s.MemSide t
  | .error e => s.MemSide e.1

theorem WalkFrom.stack {s : State} {α : Type} : ∀ {x : Except (State × XFault) (State × α)}, WalkFrom s x → StackFrom s (x.map Prod.fst)
  | .ok _, h => h
  | .error _, h => h

theorem State.handlerStack_from (s : State) (c tsp : Nat) : StackFrom s (s.handlerStack c tsp) := by
  unfold State.handlerStack
  split
  · exact State.MemSide.refl s
  · exact State.MemSide.refl s
  · exact (s.translatePinned_from c tsp .store).stack

theorem State.handlerWord_from (s : State) (c va : Nat) : WalkFrom s (s.handlerWord c va) := by
  unfold State.handlerWord
  split
  · exact State.MemSide.refl s
  · exact s.translate_from c va .fetch

theorem State.csrsStay_handlerReaches (s : State) (c pa key : Nat) (t : Touch) (ht : t.From s) : s.CsrsStay (s.handlerReaches c pa key t) := by
  cases t with
  | check u a => exact (State.MemSide.csrsStay ht).trans (u.csrsStay_doubleTrap c _)
  | wait hot => exact s.csrsStay_entryHolds c hot
  | ok u => exact (State.MemSide.csrsStay ht).trans (u.csrsStay_modCore c _ fun _ => rfl)

theorem State.csrsStay_handlerFetch (s : State) (c : Nat) (k : Core) : s.CsrsStay (s.handlerFetch c k) := by
  have hw := s.handlerWord_from c k.tvec.toNat
  unfold State.handlerFetch
  split
  · rename_i u f he
    rw [he] at hw
    exact (State.MemSide.csrsStay hw).trans (u.csrsStay_entryFault c _ 0 f)
  · rename_i u pa key he
    rw [he] at hw
    exact (State.MemSide.csrsStay hw).trans (u.csrsStay_handlerReaches c pa key _ (u.touch_from ..))

theorem State.csrsStay_handlerStart (s : State) (c : Nat) : s.CsrsStay (s.handlerStart c) := by
  rw [s.handlerStart_eq c]
  refine (s.csrsStay_modCore c (fun k => { k with entryHot := false }) fun _ => rfl).trans ?_
  generalize (s.modCore c fun k => { k with entryHot := false }) = t
  have hs := t.handlerStack_from c ((t.core c).tsp - 8).toNat
  unfold State.handlerEntry
  split
  · rename_i u f he
    rw [he] at hs
    exact (State.MemSide.csrsStay hs).trans (u.csrsStay_entryFault c _ 2 f)
  · rename_i u ho
    rw [ho] at hs
    exact (State.MemSide.csrsStay hs).trans (u.csrsStay_handlerFetch c _)

/-- A core that enters its handler: LD, CM and ST held, its cause unread (R276). -/
def Core.trappedNow (k : Core) : Core := { k with phase := .trapped, causeUnread := true, seqs := k.seqs.map fun x => { x with st := .trapHeld } }

theorem State.csrsStay_enterHandler (s : State) (c : Nat) : s.CsrsStay (s.enterHandler c) :=
  (s.csrsStay_modCore c Core.trappedNow fun _ => rfl).trans (State.csrsStay_handlerStart _ c)

/-! ### Where a fault ends -/

theorem State.csrsStay_beginSave (s : State) (c kind tiles : Nat) (park : Bool) : s.CsrsStay (s.beginSave c kind tiles park) :=
  State.CsrsStay.trans (t := s.drawDue.2) (State.csrsStay_of_cores rfl)
    (s.drawDue.2.csrsStay_modCore c (fun k =>
      { k with
        phase := .saving, saveKind := kind, savePark := park, saveTiles := tiles, saveDue := s.drawDue.1, preempt := none, pushes := []
        causeUnread := false, seqs := k.seqs.map fun y => { y with st := .off } }) fun _ => rfl)

theorem State.csrsStay_park (s : State) (c tiles : Nat) (f : FaultRec) : s.CsrsStay (s.park c tiles f) := by
  unfold State.park
  split
  · exact .refl s
  · rename_i t _
    refine State.CsrsStay.trans (foldl_rel State.CsrsStay.refl State.CsrsStay.trans (fun u x => ?_) t.cores s) (State.csrsStay_of_cores rfl)
    split
    · dsimp only
      split
      · exact u.csrsStay_beginSave x 1 _ true
      · exact (u.csrsStay_abandon x).trans (State.csrsStay_beginSave _ x 1 _ true)
    · exact .refl u

theorem State.trapsStay_modCore (s : State) (c : Nat) (f : Core → Core) (hf : ∀ k, (f k).trapCsrs = k.trapCsrs ∧ (f k).tcause2 = k.tcause2) :
    s.TrapsStay (s.modCore c f) := (s.coreBecomes_modCore c f).trapsStay hf

theorem State.trapsStay_countSoft (s : State) (c : Nat) : s.TrapsStay (s.countSoft c) :=
  (s.trapsStay_modCore c (fun k => { k with softCount := k.softCount + 1 }) fun _ => ⟨rfl, rfl⟩).trans
    (State.SameWork.trapsStay (t := s.countSoft c) ⟨rfl, rfl, rfl, rfl⟩)

theorem State.repair_csrs (s : State) (c : Nat) (t : Task) : s.CsrsStay (s.repair c t) ∧ ∀ d, ((s.repair c t).core d).tcause2 = (s.core d).tcause2 := by
  have h1 (n : Nat) : State.TrapsStay s (((s.abandon c).modCore c fun k => { k with softRun := n }).countSoft c) :=
    (s.abandon_trapsStay c).trans ((State.trapsStay_modCore _ c (fun k => { k with softRun := n }) fun _ => ⟨rfl, rfl⟩).trans (State.trapsStay_countSoft _ c))
  unfold State.repair
  dsimp only
  generalize (s.core c).softRun + flag ((s.core c).phase == .run) = n
  have h2 := h1 n
  generalize ((s.abandon c).modCore c fun k => { k with softRun := n }).countSoft c = u at h2
  split
  · exact ⟨h2.csrs, h2.second⟩
  · obtain ⟨hp, hq⟩ := (u.emitOut (.softCore c)).faultPolicy_csrs t.id cSoftError false
    exact ⟨State.CsrsStay.trans h2.csrs hp, fun d => (hq d).trans (h2.second d)⟩

/-- The trap CSRs of a core once a fault has been written (R273). -/
theorem Core.trapCsrs_writeTrap (k : Core) (f : FaultRec) (outside handler : Bool) :
    (k.writeTrap f outside handler).trapCsrs =
      [w64 (f.code + 256 * flag outside + 512 * flag handler), f.taddr, w64 f.pc, w64 (seqIdx f.by_),
        if handler then k.trgn else if outside then 0 else w64 k.rgnAddr, k.tvec, k.tsp] := rfl

theorem Core.tcause2_writeTrap (k : Core) (f : FaultRec) (outside handler : Bool) : (k.writeTrap f outside handler).tcause2 = k.tcause2 := rfl

/-- What is left of a fault once its core is abandoned: whoever takes it, the trap CSRs stay as they were written. -/
theorem State.deliver_outside {s : State} {c : Nat} {f : FaultRec} {t : Task} (ht : s.taskOf c = some t) (hp : (s.core c).phase ≠ .trapped)
    (hs : (f.code = cSoftError && f.xkind = 1) = false) :
    ((s.deliver c f).core c).trapCsrs = (if f.code = cSoftError then s.core c else (s.core c).writeTrap f ((s.core c).phase != .run) false).trapCsrs := by
  have hw : ((s.modCore c fun k => if f.code = cSoftError then k else k.writeTrap f ((s.core c).phase != .run) false).abandon c |>.core c).trapCsrs =
      (if f.code = cSoftError then s.core c else (s.core c).writeTrap f ((s.core c).phase != .run) false).trapCsrs := by
    rw [State.csrsStay_abandon _ c c, State.core_modCore]
  rw [← hw]
  unfold State.deliver
  rw [ht]
  dsimp only
  rw [if_neg (by simpa using hp), if_neg (by simpa using hs)]
  generalize (s.modCore c fun k => if f.code = cSoftError then k else k.writeTrap f ((s.core c).phase != .run) false).abandon c = u
  split
  · exact u.csrsStay_machineCheck c t.id _ c
  split
  · exact (u.faultPolicy_csrs t.id f.code false).1 c
  split
  · exact u.csrsStay_enterHandler c c
  split
  · exact u.csrsStay_park c _ f c
  · exact (u.faultPolicy_csrs t.id f.code false).1 c

/-- TRAP and BRK, and the trap CSRs of a fault of a core outside its handler. -/
theorem state_trapWords (s : State) (h : Hdr) (x : Ctx) (a : BitVec 5) :
    (s.AtWord h x [.ct] everywhere [a] → exec (.trap h a) s = .next ((x.taken s h).raise x.c (x.fault s 0x16 (x.reg a)))) ∧
    (s.AtWord h x allSeqs everywhere [] → exec (.brk h) s = .next ((x.taken s h).raise x.c (x.fault s 0x17 0))) ∧
    (s.AtWord h x [.ld, .cm, .st] everywhere [] → exec (.trap h a) s = .next (s.raise x.c (x.fault s 0x01 (x.x.curWord.setWidth 64)))) := by
  refine ⟨fun ha => ?_, fun ha => ?_, fun ha => ?_⟩
  · exact exec_trap_late (exec_eq_issueAt (exec_trap h a s))
      (ha.issues _ rfl rfl rfl (fun q hq => hq) (fun p _ => admits_open rfl rfl rfl rfl p) fun _ hr => hr) rfl
  · exact exec_trap_late (exec_eq_issueAt (exec_brk h s)) (issues_open ha fun _ hr => hr) rfl
  · refine exec_illegalOp (exec_eq_issueAt (exec_trap h a s)) ha.here (.inr ?_)
    have hq := ha.seq
    cases hx : x.q <;> simp_all

/-- Settles O25: the words by the ways of an issue, the trap CSRs by who takes a fault. -/
theorem traps : Obligations.Traps := by
  refine ⟨state_trapWords, fun s c f t ht hp => ?_⟩
  intro k l outside
  refine ⟨fun hc => ?_, fun hc hx => ?_⟩
  · have h := State.deliver_outside ht hp (f := f) (by simp [cSoftError, hc])
    rw [if_neg hc, Core.trapCsrs_writeTrap] at h
    injection h with h1 h
    injection h with h2 h
    injection h with h3 h
    injection h with h4 h
    injection h with h5 h
    injection h with h6 h
    injection h with h7 h
    refine ⟨h1.trans ?_, h2, h3, h4, h5.trans ?_, h6, h7⟩
    · by_cases ho : (s.core c).phase = .run <;> simp [outside, k, ho, flag, w64]
    · by_cases ho : (s.core c).phase = .run <;> simp [outside, k, ho, w64]
  · have h := s.repair_csrs c t
    have hd : s.deliver c f = s.repair c t := by
      unfold State.deliver
      rw [ht]
      dsimp only
      rw [if_neg (by simpa using hp), if_pos (by simp [hc, hx])]
    have h1 := h.1 c
    have h2 := h.2 c
    rw [← hd] at h1 h2
    have ha := congrArg (· ++ [l.tcause2]) h1
    rw [show l.tcause2 = k.tcause2 from h2] at ha ⊢
    exact ha

/-! ### The handler -/

/-- CT of a core in its handler, LD, CM and ST held (R276). -/
theorem Core.trappedNow_seq {k : Core} (hl : k.seqs.length = 4) (q : SeqId) : (k.trappedNow.seq q).st = .trapHeld := by
  obtain ⟨a, b, c, d, h⟩ := exists_of_length_four k.seqs hl
  unfold Core.trappedNow Core.seq
  rw [h]
  cases q <;> rfl

/-- The state in which the handler's entry reaches for the page below TSP. -/
def State.trapping (s : State) (c : Nat) : State := (s.modCore c Core.trappedNow).modCore c fun k => { k with entryHot := false }

theorem State.core_trapping (s : State) (c : Nat) : (s.trapping c).core c = { (s.core c).trappedNow with entryHot := false } := by
  rw [State.trapping, State.core_modCore, State.core_modCore]

theorem State.enterHandler_eq (s : State) (c : Nat) : s.enterHandler c = (s.trapping c).handlerEntry c ((s.trapping c).core c) :=
  State.handlerStart_eq _ c

/-- The handler entered: its stack in a buffer of the core, TVEC's page translated, its word within reach (R276). -/
theorem State.enterHandler_reached {s u : State} {c off pa key : Nat} {isA : Bool} (hl : locate c ((s.core c).tsp - 8).toNat 8 = .own isA off)
    (hu : untranslated (s.core c).tvec.toNat = false) (ht : (s.trapping c).translate c (s.core c).tvec.toNat .fetch = .ok (s.trapping c, pa, key))
    (hw : (s.trapping c).touch ((s.trapping c).casementOf c) pa key 4 false = .ok u) :
    s.enterHandler c = (s.trapping c).handlerReaches c pa key (.ok u) := by
  have hk := s.core_trapping c
  rw [s.enterHandler_eq, hk]
  unfold State.handlerEntry State.handlerStack
  rw [show ({ (s.core c).trappedNow with entryHot := false } : Core).tsp = (s.core c).tsp from rfl, hl]
  dsimp only
  unfold State.handlerFetch State.handlerWord
  rw [show ({ (s.core c).trappedNow with entryHot := false } : Core).tvec = (s.core c).tvec from rfl, if_neg (by simp [hu]), ht]
  dsimp only
  rw [hw]

theorem State.taskOf_noteDoubleTrap (s : State) (c code : Nat) : (s.noteDoubleTrap c code).taskOf c = s.taskOf c := by
  have h : ((s.noteDoubleTrap c code).core c).task = (s.core c).task := by
    show ((s.modCore c fun k => { k with tcause2 := w64 code }).core c).task = _
    rw [State.core_modCore]
  unfold State.taskOf
  rw [h]
  rfl

/-- A double trap: TCAUSE2 takes the second fault's code, and the task ends with that of a double trap (R277). -/
theorem State.doubleTrap_spec {s : State} {c : Nat} {t : Task} (code : Nat) (ht : s.taskOf c = some t) (hi : s.task? t.id = some t) (he : t.st ≠ .ending) :
    ((s.doubleTrap c code).core c).tcause2 = w64 code ∧ (s.doubleTrap c code).task? t.id = some (t.failing cDoubleTrap) := by
  have hn : ((s.noteDoubleTrap c code).core c).tcause2 = w64 code := by
    show ((s.modCore c fun k => { k with tcause2 := w64 code }).core c).tcause2 = _
    rw [State.core_modCore]
  have hd : s.doubleTrap c code = (s.noteDoubleTrap c code).doubleTrapEnds t := by
    unfold State.doubleTrap
    dsimp only
    rw [State.taskOf_noteDoubleTrap, ht]
  have hi' : (s.noteDoubleTrap c code).task? t.id = some t := hi
  rw [hd]
  generalize s.noteDoubleTrap c code = u at hn hi'
  unfold State.doubleTrapEnds
  split
  · have h := (u.sameWork_lowerStream t).core c
    obtain ⟨h1, -, h3, -⟩ := State.failTask_spec cDoubleTrap (((u.sameWork_lowerStream t).task? t.id).trans hi') he
    exact ⟨(h3 c).trans (by rw [h, hn]), h1⟩
  · obtain ⟨h1, -, h3, -⟩ := State.failTask_spec cDoubleTrap hi' he
    exact ⟨(h3 c).trans hn, h1⟩

/-- A later fault in the handler: the trap CSRs are rewritten, but by a SOFT_ERROR_REEXEC (R278, R280). -/
theorem State.deliver_later {s : State} {c : Nat} {f : FaultRec} {t : Task} (ht : s.taskOf c = some t) (hp : (s.core c).phase = .trapped)
    (hu : (s.core c).causeUnread = false) :
    ((s.deliver c f).core c).trapCsrs = (if f.code = cSoftError then s.core c else (s.core c).writeTrap { f with by_ := .ct } true true).trapCsrs ∧
      ((s.deliver c f).core c).tcause2 = (s.core c).tcause2 := by
  have hf : (s.modCore c fun k => { (if f.code = cSoftError then k else k.writeTrap { f with by_ := .ct } true true) with faults := [] }).core c =
      { (if f.code = cSoftError then s.core c else (s.core c).writeTrap { f with by_ := .ct } true true) with faults := [] } := State.core_modCore ..
  have h2 (k : Core) : (if f.code = cSoftError then k else k.writeTrap { f with by_ := .ct } true true).tcause2 = k.tcause2 := by
    split
    · rfl
    · exact k.tcause2_writeTrap _ true true
  rw [← h2 (s.core c)]
  unfold State.deliver
  rw [ht]
  dsimp only
  rw [if_pos (by simp [hp]), if_neg (by simp [hu])]
  generalize (s.modCore c fun k => { (if f.code = cSoftError then k else k.writeTrap { f with by_ := .ct } true true) with faults := [] }) = u at hf
  generalize (if f.code = cSoftError then s.core c else (s.core c).writeTrap { f with by_ := .ct } true true) = k at hf
  have hc : ((u.abandon c).core c).trapCsrs = k.trapCsrs := by rw [State.csrsStay_abandon u c c, hf]; rfl
  have hs : ((u.abandon c).core c).tcause2 = k.tcause2 := by rw [(u.abandon_trapsStay c).second c, hf]
  rw [← hc, ← hs]
  generalize u.abandon c = v
  split
  · have hm := (v.emitOut (.machineCheck c f.taddr.toNat)).faultPolicy_csrs t.id cMachineCheck true
    exact ⟨hm.1 c, hm.2 c⟩
  · exact ⟨(v.faultPolicy_csrs t.id f.code false).1 c, (v.faultPolicy_csrs t.id f.code false).2 c⟩

/-- Settles O27: the entry by its two translations, a fault in the handler by whether its cause is unread. -/
theorem handlers : Obligations.Handlers := by
  refine ⟨fun s c isA off pa key => ?_, fun s c f t ht hi hp => ?_⟩
  · intro k h u hl hun htr hto hlen l
    have hr := State.enterHandler_reached hl hun htr hto
    have hm : (s.trapping c).MemSide u := by
      have := (s.trapping c).touch_from ((s.trapping c).casementOf c) pa key 4 false
      rw [show (s.trapping c).touch ((s.trapping c).casementOf c) pa key 4 false = .ok u from hto] at this
      exact this
    obtain ⟨m, hcore⟩ := hm.core c
    rw [s.core_trapping c] at hcore
    have hL : l = (u.core c).modSeq .ct fun x =>
        x.inHandler u.now ((u.core c).snaps.getD 3 SeqSnap.idle).regs (u.core c).tvec.toNat (BitVec.ofNat 32 (leNat (u.readMem (some (dieOf c)) key pa 4))) := by
      show (s.enterHandler c).core c = _
      rw [hr]
      exact State.core_modCore _ _ _
    have hct : l.seq .ct = ((u.core c).seq .ct).inHandler u.now ((u.core c).snaps.getD 3 SeqSnap.idle).regs (u.core c).tvec.toNat
        (BitVec.ofNat 32 (leNat (u.readMem (some (dieOf c)) key pa 4))) := by rw [hL, Core.seq_modSeq]
    have hph : l.phase = .trapped := by rw [hL, hcore]; rfl
    have hsn : (u.core c).snaps = k.snaps := by rw [hcore]; rfl
    have htv : (u.core c).tvec = k.tvec := by rw [hcore]; rfl
    refine ⟨hph, by rw [hL, hcore]; rfl, by rw [hct]; rfl, by rw [hct, htv]; rfl, by rw [hct, hsn]; rfl, ?_, by rw [hct, htv]; rfl, fun q hq => ?_⟩
    · unfold Core.place
      rw [hph]
      rfl
    · rw [hL, Core.seq_modSeq_other _ _ hq, hcore]
      exact Core.trappedNow_seq hlen q
  · intro k u l
    refine ⟨fun hu he => ?_, fun hu hc => ?_, fun hu hc => ?_⟩
    · have hd : u = s.doubleTrap c f.code := by
        show s.deliver c f = _
        unfold State.deliver
        rw [ht]
        dsimp only
        rw [if_pos (by simp [hp]), if_pos hu]
      obtain ⟨h2, h3⟩ := State.doubleTrap_spec f.code ht hi he
      have h1 := s.csrsStay_doubleTrap c f.code c
      rw [← hd] at h1 h2 h3
      unfold Core.trapCsrs at h1
      injection h1 with e1 h1
      injection h1 with e2 h1
      injection h1 with e3 h1
      injection h1 with e4 h1
      injection h1 with e5 h1
      exact ⟨h2, e1, e2, e3, e5, _, h3, rfl, rfl, rfl⟩
    · obtain ⟨h1, h2⟩ := State.deliver_later (f := f) ht hp hu
      rw [if_pos hc] at h1
      have h3 := congrArg (List.take 5) h1
      have h4 : [l.tcause, l.taddr, l.tpc, l.tseq, l.trgn] ++ [l.tcause2] = [k.tcause, k.taddr, k.tpc, k.tseq, k.trgn] ++ [k.tcause2] :=
        congrArg₂ (fun a (b : W64) => a ++ [b]) h3 h2
      exact h4
    · obtain ⟨h1, h2⟩ := State.deliver_later (f := f) ht hp hu
      rw [if_neg hc, Core.trapCsrs_writeTrap] at h1
      injection h1 with e1 h1
      injection h1 with e2 h1
      injection h1 with e3 h1
      injection h1 with e4 h1
      injection h1 with e5 h1
      exact ⟨e1.trans (congrArg w64 (by simp [flag])), e2, e3, e4, e5, h2⟩

/-! ### ERET -/

theorem Core.takeWaits_none (k : Core) (q : SeqId) : k.takeWaits q false false = k := rfl

/-- A word without SYNC bits that has issued moves its sequencer on, and does nothing else. -/
theorem Ctx.issued_none (x : Ctx) (s : State) (lat : Option Nat) (next extra : Nat) :
    x.issued Hdr.none s lat next extra = s.modCore x.c fun k => k.modSeq x.q fun y =>
      { y with pc := next, base := s.now + 1 + extra, retry := none, jump := if next = y.pc + 4 || isPair y.curWord then y.jump else some (y.pc, next) } := by
  cases lat <;> rfl

/-- A core whose handler has ended by an ERET without an operand. -/
def Core.returned (now : Nat) (k : Core) : Core :=
  { (k.restartAll now) with causeUnread := false, tokens := k.snap.tokens, acts := k.acts.filter fun a => !a.diesAtEret true }

/-- A sequencer at its restart point (R54, step 7). -/
structure Seq.AtPoint (x : Seq) (p : SeqSnap) : Prop where
  regs : x.regs = p.regs
  pc : x.pc = if p.atRgn then p.pc + 4 else p.pc
  st : x.st = if p.off then .off else if p.atRgn then .atRgn else .run
  reentered : x.reentered = p.atRgn

theorem Core.atPoint_restartAll (k : Core) (now : Nat) (q : SeqId) : ((k.restartAll now).seq q).AtPoint (k.snaps.getD (seqIdx q) SeqSnap.idle) := by
  rw [Core.seq_restartAll]
  exact ⟨rfl, rfl, rfl, rfl⟩

theorem Seq.AtPoint.spec {x : Seq} {p : SeqSnap} (h : x.AtPoint p) :
    x.regs = p.regs ∧ x.pc = (if p.atRgn then p.pc + 4 else p.pc) ∧ x.st = (if p.off then .off else if p.atRgn then .atRgn else .run) ∧
      x.reentered = p.atRgn := ⟨h.regs, h.pc, h.st, h.reentered⟩

/-- A core with its sequencers put back holds the data it held. -/
theorem Core.sameData_returned (k : Core) (now : Nat) : k.SameData { (k.returned now) with seqs := k.seqs } :=
  ⟨fun _ _ => rfl, fun _ _ => rfl, rfl, rfl, rfl, rfl, rfl, fun _ => rfl, fun _ => rfl, rfl, rfl, rfl⟩

/-- A core whose handler has ended by an ERET to an address. -/
def Core.returnedTo (now pc : Nat) (k : Core) : Core :=
  let ct := k.seq .ct
  let others := (k.snaps.take 3).any SeqSnap.atRgn
  let k := { (k.restartAll now) with
    causeUnread := false, tokens := k.snap.tokens, acts := k.acts.filter fun a => !a.diesAtEret false }
  let k := k.setSeq .ct { ct with st := .run, pc := pc, base := now + 1, retry := none, reentered := false, gapStart := pc }
  { (k.snapOne .ct) with phase := if others then .align else .gap }

theorem Core.sameData_returnedTo (k : Core) (now pc : Nat) : k.SameData { (k.returnedTo now pc) with seqs := k.seqs } :=
  ⟨fun _ _ => rfl, fun _ _ => rfl, rfl, rfl, rfl, rfl, rfl, fun _ => rfl, fun _ => rfl, rfl, rfl, rfl⟩

theorem Core.seq_returnedTo (k : Core) (now pc : Nat) (q : SeqId) :
    (k.returnedTo now pc).seq q = if q = .ct then { k.seq .ct with st := .run, pc := pc, base := now + 1, retry := none, reentered := false, gapStart := pc }
      else (k.restartAll now).seq q := by
  cases q <;> rfl

theorem State.elseSame_dropReqs (s : State) (p : Req → Bool) (c : Nat) : s.ElseSame (s.dropReqs p) c :=
  ⟨fun _ => rfl, fun _ _ => rfl, ⟨rfl, rfl, rfl, rfl⟩, ⟨rfl, rfl, rfl, rfl⟩, ⟨rfl, rfl, rfl, rfl⟩⟩

theorem State.returnToRestart_eq (s : State) (c : Nat) :
    s.returnToRestart c = (s.dropReqs fun r => r.stops c []).modCore c (Core.returned s.now) := rfl

theorem State.returnTo_eq (s : State) (c pc : Nat) : s.returnTo c pc = s.modCore c (Core.returnedTo s.now pc) := rfl

/-- Settles O29: both forms by what their issue does to their core, the rest by the gate. -/
theorem errorReturn : Obligations.ErrorReturn := by
  intro s h x a k point left faults
  have word : exec (.eret h) s = issueAt Hdr.none (eretGate []) (fun x s =>
      let s := s.returnToRestart x.c
      .ok s none ((s.core x.c).seq .ct).pc 0) s := rfl
  have wordSa : exec (.eretSa h a) s = issueAt Hdr.none (eretGate [a]) (fun x s =>
      let t := x.reg a
      if t.toNat % 4 != 0 then .trap cAlign t else .ok (s.returnTo x.c t.toNat) none t.toNat 0) s := rfl
  have issues (us : List (BitVec 5)) (ha : s.AtWord Hdr.none x [.ct] [.handler] us) : s.Issues Hdr.none (eretGate us) x := by
    have hp : x.k.place x.q = .handler := by simpa using ha.place
    exact ha.issues _ (by simp [eretGate, hp]) rfl rfl (fun q hq => hq) (by simp [Gate.admits, eretGate]) fun _ hr => hr
  have illegal (us : List (BitVec 5)) (hx : s.ctx = some x) (hb : x.k.place x.q ≠ .handler ∨ x.q ≠ .ct) :
      (eretGate us x).illegalOp = true ∨ x.q ∉ (eretGate us x).seqs := by
    simpa [eretGate] using hb
  have stands (l : Core) (q : SeqId) (hp : (l.seq q).AtPoint (k.snaps.getD (seqIdx q) SeqSnap.idle)) : point l q := hp.spec
  refine ⟨fun ha => ?_, fun ha h4 => ?_, fun ha h4 => ?_, fun ha => ?_, fun ha => ?_⟩
  · have hq : x.q = .ct := by simpa using ha.seq
    have hi := exec_issued word (issues [] ha) rfl
    rw [Ctx.issued_none, hq] at hi
    have hcore : (s.returnToRestart x.c).core x.c = k.returned s.now := State.core_modCore _ _ _
    have helse : s.ElseSame (s.returnToRestart x.c) x.c :=
      (s.elseSame_dropReqs (fun r => r.stops x.c []) x.c).trans (State.elseSame_modCore _ x.c (Core.returned s.now))
    refine ⟨_, hi, ⟨?_, ?_, helse.trans (State.elseSame_modCore _ x.c _) |>.alters ?_⟩, fun q => ?_, ?_⟩
    · rw [State.core_modCore, hcore]; rfl
    · rw [State.core_modCore, hcore]; rfl
    · rw [State.core_modCore, hcore]
      exact k.sameData_returned s.now
    · rw [State.core_modCore, hcore]
      refine stands _ q ?_
      have hr := k.atPoint_restartAll s.now q
      by_cases hqc : q = .ct
      · rw [hqc] at hr ⊢
        rw [Core.seq_modSeq]
        exact ⟨hr.regs, hr.pc, hr.st, hr.reentered⟩
      · rw [Core.seq_modSeq_other _ _ hqc]
        exact hr
    · rw [State.core_modCore, hcore]; rfl
  · have hq : x.q = .ct := by simpa using ha.seq
    have hi := exec_issued wordSa (issues [a] ha) (if_neg (by simpa using h4))
    rw [Ctx.issued_none, hq] at hi
    have hcore : (s.returnTo x.c (x.reg a).toNat).core x.c = k.returnedTo s.now (x.reg a).toNat := State.core_modCore _ _ _
    have helse : s.ElseSame (s.returnTo x.c (x.reg a).toNat) x.c := s.elseSame_modCore x.c (Core.returnedTo s.now (x.reg a).toNat)
    refine ⟨_, hi, ⟨?_, ?_, helse.trans (State.elseSame_modCore _ x.c _) |>.alters ?_⟩, fun q hqc => ?_, ?_⟩
    · rw [State.core_modCore, hcore]; rfl
    · rw [State.core_modCore, hcore]; rfl
    · rw [State.core_modCore, hcore]
      exact k.sameData_returnedTo s.now (x.reg a).toNat
    · rw [State.core_modCore, hcore]
      refine stands _ q ?_
      rw [Core.seq_modSeq_other _ _ hqc, Core.seq_returnedTo, if_neg hqc]
      exact k.atPoint_restartAll s.now q
    · rw [State.core_modCore, hcore, Core.seq_modSeq, Core.seq_returnedTo, if_pos rfl]
      exact ⟨rfl, rfl, rfl, rfl⟩
  · exact exec_trap_late wordSa (issues [a] ha) (if_pos (by simpa using h4))
  · have hp : x.k.place x.q ≠ .handler := by
      have := ha.place
      intro h
      simp [h] at this
    exact ⟨exec_illegalOp word ha.here (illegal [] ha.here (.inl hp)), exec_illegalOp wordSa ha.here (illegal [a] ha.here (.inl hp))⟩
  · have hq : x.q ≠ .ct := by
      have := ha.seq
      intro h
      simp [h] at this
    exact ⟨exec_illegalOp word ha.here (illegal [] ha.here (.inr hq)), exec_illegalOp wordSa ha.here (illegal [a] ha.here (.inr hq))⟩

end Sys2Proof.Machine
end

section
/-! PROOFS. A region's alignment and its closing alignment (R42 to R52), and O38 and O39. -/

namespace Sys2Proof.Machine

/-! ### Bits of words -/

theorem bits_eq_zero_iff_shift (v : W64) {lo : Nat} (hlo : lo < 64) : bits v.toNat 63 lo = 0 ↔ v >>> lo = 0 := by
  have hb : bits v.toNat 63 lo = (v >>> lo).toNat := by
    have h := v.isLt
    rw [BitVec.toNat_ushiftRight, Nat.shiftRight_eq_div_pow, bits, Nat.mod_eq_of_lt]
    rw [Nat.div_lt_iff_lt_mul (Nat.two_pow_pos lo), ← pow_add, show 63 - lo + 1 + lo = 64 by omega]
    exact h
  rw [hb]
  exact BitVec.toNat_inj (x := v >>> lo) (y := 0)

/-! ### Signals of all sequencers -/

/-- The signals of any sequencers touch the counters alone. -/
theorem Core.giveAll_eq (now : Nat) (l : List SeqId) (k : Core) :
    ∃ o tk cv, l.foldl (fun (k : Core) q => k.giveSignals q now (k.seq q).rgnSp (k.seq q).rgnSn) k = { k with overflowed := o, tokens := tk, covers := cv } := by
  induction l generalizing k with
  | nil => exact ⟨k.overflowed, k.tokens, k.covers, rfl⟩
  | cons q l ih =>
    obtain ⟨o, tk, cv, h⟩ := k.giveSignals_eq q now (k.seq q).rgnSp (k.seq q).rgnSn
    obtain ⟨o', tk', cv', h'⟩ := ih { k with overflowed := o, tokens := tk, covers := cv }
    refine ⟨o', tk', cv', ?_⟩
    rw [List.foldl_cons, h, h']

/-! ### Opening -/

/-- A sequencer at cycle 0 of its region. -/
def Seq.opening (now : Nat) (x : Seq) : Seq :=
  { x with st := .run, base := now, retry := none, reentered := false, fenced := none, lastHeld := none }

/-- A core at cycle 0 of its region, its RGNs' signals apart. -/
def Core.opening (k : Core) (now : Nat) : Core :=
  { k with
    pushes := [], snaps := k.seqs.map fun x => x.snapshot (x.pc - 4) true, snap := k.coreSnapshot
    phase := .run, timed := k.rgnTimed, cycle0 := now, flip := false, mirrored := false, realign := none, seqs := k.seqs.map (Seq.opening now) }

theorem Core.openRegion_eq (k : Core) (now : Nat) : ∃ o tk cv, k.openRegion now = { k.opening now with overflowed := o, tokens := tk, covers := cv } :=
  Core.giveAll_eq now allSeqs (k.opening now)

theorem Core.getD_map_seqs {α : Type} {k : Core} (hl : k.seqs.length = 4) (f : Seq → α) (d : α) (q : SeqId) : (k.seqs.map f).getD (seqIdx q) d = f (k.seq q) := by
  obtain ⟨a, b, c, e, h⟩ := exists_of_length_four k.seqs hl
  unfold Core.seq
  rw [h]
  cases q <;> rfl

theorem Core.sameData_opening {k : Core} (hl : k.seqs.length = 4) (now : Nat) (o : List (Nat × SeqId × Nat)) (tk : List Nat) (cv : List (List Nat)) :
    k.SameData { k.opening now with overflowed := o, tokens := tk, covers := cv } := by
  have hr (q : SeqId) (r : Nat) : ({ k.opening now with overflowed := o, tokens := tk, covers := cv } : Core).reg q r = k.reg q r := by
    show ((k.seqs.map (Seq.opening now)).getD (seqIdx q) Seq.idle).reg r = (k.seq q).reg r
    rw [Core.getD_map_seqs hl]
    rfl
  exact ⟨hr, fun _ _ => rfl, rfl, rfl, rfl, rfl, rfl, fun _ => rfl, fun _ => rfl, rfl, rfl, rfl⟩

/-- Settles O38: the alignment's checks in their order, then the core as it opens. -/
theorem regionsOpen : Obligations.RegionsOpen := by
  intro s c k ct view hph hlen hat hpow hfrom hheld hepi hfaults hwin broken passed
  have hexec : exec (.regionAlignment c) s = execRegionAlignment c s := exec_regionAlignment c s
  have hall : k.allAtRgn = true := (Core.all_seqs_iff hlen _).mpr fun q => by rw [hat q]; rfl
  have halign : (!k.alignable s.now || !k.faults.isEmpty) = false := by
    have : (!k.rgnTimed || k.windowFetched) = true := by
      cases ht : ct.rgnTimed
      · simp [Core.rgnTimed, show (k.seq .ct).rgnTimed = false from ht]
      · simp [hwin ht]
    simp [Core.alignable, hph, hall, hpow, hfrom, hheld, hepi, hfaults, this]
  have hbroken : k.rgnRuleBroken = true ↔ broken := by
    have h1 : (k.seqs.any fun x => x.rgnTimed != k.rgnTimed) = true ↔ ∃ q, (k.seq q).rgnTimed ≠ ct.rgnTimed := by
      have h := Core.all_seqs_iff hlen fun x => x.rgnTimed == k.rgnTimed
      rw [← not_iff_not, Bool.not_eq_true, not_exists]
      simp only [ne_eq, not_not]
      rw [show (∀ q, (k.seq q).rgnTimed = ct.rgnTimed) ↔ ∀ q, ((k.seq q).rgnTimed == k.rgnTimed) = true from by simp [ct, Core.rgnTimed], ← h]
      simp [List.any_eq_false, List.all_eq_true]
    simp only [Core.rgnRuleBroken, Bool.or_eq_true, h1, broken, Bool.and_eq_true, beq_iff_eq, bne_iff_ne, ne_eq, or_assoc,
      bits_eq_zero_iff_shift k.liveIn (lo := 16) (by omega)]
    rfl
  have hpassed : (((if ct.reentered then 0 else k.stamp) != 0 && (if ct.reentered then 0 else k.stamp).ult view) = true) ↔ passed := by
    cases hr : ct.reentered <;> simp [passed, hr]
  have hstamp : ct.reentered = true ∨ k.stamp = 0 ∨ k.stamp = view ↔
      ((if ct.reentered then 0 else k.stamp) == 0 || (if ct.reentered then 0 else k.stamp) == view) = true := by
    cases hr : ct.reentered <;> simp
  have hrun : exec (.regionAlignment c) s =
      if ((if ct.reentered then 0 else k.stamp) != 0 && (if ct.reentered then 0 else k.stamp).ult view) = true then .next (s.alignmentFault c cScheduleMiss)
      else if k.rgnRuleBroken = true then .next (s.alignmentFault c cRegionRule)
      else if ((if ct.reentered then 0 else k.stamp) == 0 || (if ct.reentered then 0 else k.stamp) == view) = true then .next (s.setCore c (k.openRegion s.now))
      else if (!k.pushes.isEmpty) = true then .next (s.setCore c k.drainAll)
      else .refused .eventNotEnabled := by
    rw [hexec]
    unfold execRegionAlignment
    dsimp only
    rw [if_neg (by rw [halign]; exact Bool.false_ne_true)]
  rw [hrun]
  refine ⟨fun hp => if_pos (hpassed.mpr hp), fun hb hp => ?_, fun hb hr hs hv hpu => ?_, fun hb hs => ?_⟩
  · rw [if_neg (mt hpassed.mp hp), if_pos (hbroken.mpr hb)]
  · have hlt : ¬ passed := by
      rintro ⟨-, -, hu⟩
      rw [BitVec.ult_iff_lt] at hu hv
      exact absurd hu (BitVec.lt_asymm hv)
    have hne : ¬ (ct.reentered = true ∨ k.stamp = 0 ∨ k.stamp = view) := by
      rintro (h | h | h)
      · rw [hr] at h; exact Bool.false_ne_true h
      · exact hs h
      · rw [h, BitVec.ult_iff_lt] at hv; exact BitVec.lt_irrefl _ hv
    rw [if_neg (mt hpassed.mp hlt), if_neg (mt hbroken.mp hb), if_neg (mt hstamp.mpr hne), if_pos (by simpa using hpu)]
  · have hlt : ¬ passed := by
      rintro ⟨hr, h0, hu⟩
      rcases hs with h | h | h
      · rw [hr] at h; exact Bool.false_ne_true h
      · exact h0 h
      · rw [h, BitVec.ult_iff_lt] at hu; exact BitVec.lt_irrefl _ hu
    obtain ⟨o, tk, cv, ho⟩ := k.openRegion_eq s.now
    rw [if_neg (mt hpassed.mp hlt), if_neg (mt hbroken.mp hb), if_pos (hstamp.mp hs), ho]
    refine ⟨_, rfl, State.onlyCore_setCore (Core.sameData_opening hlen s.now o tk cv), ?_⟩
    rw [State.core_setCore]
    have hseq (q : SeqId) : ({ k.opening s.now with overflowed := o, tokens := tk, covers := cv } : Core).seq q = (k.seq q).opening s.now :=
      Core.getD_map_seqs hlen (Seq.opening s.now) Seq.idle q
    have hsnap (q : SeqId) : ({ k.opening s.now with overflowed := o, tokens := tk, covers := cv } : Core).snaps.getD (seqIdx q) SeqSnap.idle =
        (k.seq q).snapshot ((k.seq q).pc - 4) true := Core.getD_map_seqs hlen (fun x => x.snapshot (x.pc - 4) true) SeqSnap.idle q
    refine ⟨rfl, rfl, rfl, rfl, rfl, rfl, rfl, fun q => ?_, fun q => ?_⟩
    · rw [hseq]
      exact ⟨rfl, rfl, rfl⟩
    · rw [hsnap]
      exact ⟨rfl, rfl, rfl⟩

/-! ### Closing -/

/-- A core after its commit, its RCMTs' signals and the snapshot's counters apart (R52). -/
def Core.committing (k : Core) (now : Nat) (m : List (Nat × Nat × Nat)) : Core :=
  { k with
    work := k.work != k.flip
    flip := false, realign := none, softRun := 0, phase := .gap
    epi := k.epi.map fun (e : EpiCmd) => { e with committed := true }
    copies := k.copies.map fun (cp : Copy) => { cp with committed := true }
    liveOut := k.rcmtA &&& 0xFFFF, ckeep := bit k.rcmtA.toNat 16, liveMap := m
    seqs := allSeqs.map fun q => (k.seq q).afterCommit now k.timed (k.windows q)
    snaps := (allSeqs.map fun q => (k.seq q).afterCommit now k.timed (k.windows q)).map fun x => x.snapshot x.gapStart false }

theorem Core.commit_eq (k : Core) (now : Nat) (m : List (Nat × Nat × Nat)) :
    ∃ o tk cv sn, k.commit now m = { k.committing now m with overflowed := o, tokens := tk, covers := cv, snap := sn } := by
  obtain ⟨o, tk, cv, h⟩ := Core.giveAll_eq now allSeqs { k with
    work := k.work != k.flip
    flip := false, realign := none, softRun := 0, phase := .gap
    epi := k.epi.map fun (e : EpiCmd) => { e with committed := true }
    copies := k.copies.map fun (cp : Copy) => { cp with committed := true }
    liveOut := k.rcmtA &&& 0xFFFF, ckeep := bit k.rcmtA.toNat 16, liveMap := m
    seqs := allSeqs.map fun q => (k.seq q).afterCommit now k.timed (k.windows q) }
  unfold Core.commit
  dsimp only
  rw [h]
  exact ⟨o, tk, cv, _, rfl⟩

theorem getD_map_allSeqs {α : Type} (f : SeqId → α) (d : α) (q : SeqId) : (allSeqs.map f).getD (seqIdx q) d = f q := by
  cases q <;> rfl

theorem Seq.afterCommit_spec (x : Seq) (now : Nat) (timed : Bool) (ws : List Nat) :
    (x.afterCommit now timed ws).regs = x.regs ∧ (x.afterCommit now timed ws).st = .run ∧ (x.afterCommit now timed ws).base = now + 1 ∧
      (x.afterCommit now timed ws).pc = x.pc ∧ (x.afterCommit now timed ws).gapStart = x.pc := by
  have hk (b : Bool) (p : Nat → Bool) : (if b then x.keepWords p else x).regs = x.regs ∧ (if b then x.keepWords p else x).pc = x.pc := by
    cases b <;> exact ⟨rfl, rfl⟩
  unfold Seq.afterCommit
  dsimp only
  exact ⟨(hk _ _).1, rfl, rfl, (hk _ _).2, rfl⟩

/-- What the closing alignment leaves of its core, beside its data: held effects, units and mirrors. -/
structure Core.Closed (k l : Core) (now : Nat) (m : List (Nat × Nat × Nat)) : Prop where
  data : k.SameData l
  phase : l.phase = .gap
  work : l.work = (k.work != k.flip)
  flip : l.flip = false
  liveOut : l.liveOut = k.rcmtA &&& 0xFFFF
  ckeep : l.ckeep = bit k.rcmtA.toNat 16
  liveMap : l.liveMap = m
  units : l.units = 0
  powered : l.powered = false
  epi : ∀ e ∈ l.epi, e.committed = true
  copies : ∀ cp ∈ l.copies, cp.committed = true
  seq : ∀ q, l.seq q = (k.seq q).afterCommit now k.timed (k.windows q)
  snaps : ∀ q, l.snaps.getD (seqIdx q) SeqSnap.idle = ((k.seq q).afterCommit now k.timed (k.windows q)).snapshot (k.seq q).pc false
  preempt : l.preempt = k.preempt

theorem Core.closed_commit (k : Core) (now : Nat) (m : List (Nat × Nat × Nat)) (h : List Held) :
    k.Closed { k.unpowered.commit now m with held := h, mirrored := false } now m := by
  obtain ⟨o, tk, cv, sn, he⟩ := k.unpowered.commit_eq now m
  rw [he]
  have hseq (q : SeqId) : ({ k.unpowered.committing now m with overflowed := o, tokens := tk, covers := cv, snap := sn, held := h, mirrored := false } : Core).seq q =
      (k.seq q).afterCommit now k.timed (k.windows q) := getD_map_allSeqs (fun q => (k.seq q).afterCommit now k.timed (k.windows q)) Seq.idle q
  have hsnap (q : SeqId) : ({ k.unpowered.committing now m with overflowed := o, tokens := tk, covers := cv, snap := sn, held := h, mirrored := false } : Core).snaps.getD
      (seqIdx q) SeqSnap.idle = ((k.seq q).afterCommit now k.timed (k.windows q)).snapshot (k.seq q).pc false := by
    show ((allSeqs.map fun q => (k.seq q).afterCommit now k.timed (k.windows q)).map fun x => x.snapshot x.gapStart false).getD _ _ = _
    rw [List.map_map, getD_map_allSeqs]
    rfl
  refine ⟨⟨fun q r => ?_, fun _ _ => rfl, rfl, rfl, rfl, rfl, rfl, fun _ => rfl, fun _ => rfl, rfl, rfl, rfl⟩, rfl, rfl, rfl, rfl, rfl, rfl, rfl, rfl, fun e he => ?_,
    fun e he => ?_, hseq, hsnap, rfl⟩
  · show Seq.reg (Core.seq _ q) r = (k.seq q).reg r
    rw [hseq]
    have hr := ((k.seq q).afterCommit_spec now k.timed (k.windows q)).1
    unfold Seq.reg
    rw [hr]
  · obtain ⟨y, -, rfl⟩ := List.mem_map.mp he
    rfl
  · obtain ⟨y, -, rfl⟩ := List.mem_map.mp he
    rfl

/-! ### Held effects released -/

/-- One held effect of a closing region released to drain (R52, R240). -/
def Held.releasing (timed : Bool) (acc : List Held × State × Nat × Bool) (h : Held) : List Held × State × Nat × Bool :=
  let (l, s, j, only) := acc
  if h.released.isSome then (l ++ [h], s, j, only) else
  let send : Bool :=
    match h.kind with
    | .send _ _ _ _ => true
    | _ => false
  let (due, s) := s.drawDue
  let fixed := send && timed && only
  let due := if fixed then s.now + 1 + j else due
  (l ++ [{ h with released := some (s.now + 1), due := due, fixed := fixed }], s, if send then j + 1 else j, only && (send || h.by_ != .ct))

theorem Held.releasing_spec (timed : Bool) (acc : List Held × State × Nat × Bool) (h : Held) :
    acc.2.1.Redrawn (h.releasing timed acc).2.1 ∧ ∃ e, (h.releasing timed acc).1 = acc.1 ++ [e] ∧ e.released ≠ none := by
  unfold Held.releasing
  dsimp only
  split
  · rename_i hr
    exact ⟨.refl _, _, rfl, Option.isSome_iff_ne_none.mp hr⟩
  · exact ⟨acc.2.1.drawDue_redrawn, _, rfl, nofun⟩

theorem Held.release_fold (timed : Bool) (l : List Held) (acc : List Held × State × Nat × Bool) :
    acc.2.1.Redrawn (l.foldl (fun a h => h.releasing timed a) acc).2.1 ∧
      ∃ es, (l.foldl (fun a h => h.releasing timed a) acc).1 = acc.1 ++ es ∧ es.length = l.length ∧ ∀ e ∈ es, e.released ≠ none := by
  induction l generalizing acc with
  | nil => exact ⟨.refl _, [], (List.append_nil _).symm, rfl, fun e he => absurd he List.not_mem_nil⟩
  | cons h l ih =>
    obtain ⟨h1, e, h2, h3⟩ := h.releasing_spec timed acc
    obtain ⟨i1, es, i2, i3, i4⟩ := ih (h.releasing timed acc)
    refine ⟨h1.trans i1, e :: es, ?_, by simp [i3], fun x hx => ?_⟩
    · rw [List.foldl_cons, i2, h2, List.append_assoc]; rfl
    · obtain rfl | hx := List.mem_cons.mp hx
      · exact h3
      · exact i4 x hx

/-- Every held effect of a core released. -/
theorem State.releaseHeld_spec (s : State) (c : Nat) :
    ∃ u es, s.Redrawn u ∧ s.releaseHeld c = (u.modCore c fun k => { k with held := es }) ∧ es.length = (s.core c).held.length ∧ ∀ e ∈ es, e.released ≠ none := by
  obtain ⟨h1, es, h2, h3, h4⟩ := Held.release_fold (s.core c).timed (s.core c).held ([], s, 0, true)
  have he : s.releaseHeld c =
      ((s.core c).held.foldl (fun a h => h.releasing (s.core c).timed a) ([], s, 0, true)).2.1.modCore c fun k =>
        { k with held := ((s.core c).held.foldl (fun a h => h.releasing (s.core c).timed a) ([], s, 0, true)).1 } := rfl
  rw [h2, List.nil_append] at he
  exact ⟨_, es, h1, he, h3, h4⟩

/-! ### The commit -/

/-- A core whose region has committed, its held effects still to be released. -/
def State.committedCore (s : State) (c : Nat) (m : List (Nat × Nat × Nat)) : State :=
  ((s.returnUnits c).modCore c fun k => k.commit (s.returnUnits c).now m).modCore c fun k =>
    { k with held := k.held.map fun h => h.fillMirror [], mirrored := false }

theorem State.committedCore_becomes (s : State) (c : Nat) (m : List (Nat × Nat × Nat)) :
    s.CoreBecomes (s.committedCore c m) c fun k =>
      { k.unpowered.commit s.now m with held := (k.unpowered.commit s.now m).held.map fun h => h.fillMirror [], mirrored := false } := by
  have h1 := s.returnUnits_becomes c
  have h2 := h1.trans ((State.coreBecomes_modCore _ c fun k => k.commit (s.returnUnits c).now m).trans
    (State.coreBecomes_modCore _ c fun k => { k with held := k.held.map fun h => h.fillMirror [], mirrored := false }))
  rw [h1.now] at h2
  unfold State.committedCore
  rw [h1.now]
  exact h2

/-- What a commit without a pre-emption leaves (R52). -/
structure State.Commits (s u : State) (c : Nat) (m : List (Nat × Nat × Nat)) : Prop where
  closed : (s.core c).Closed (u.core c) s.now m
  others : ∀ d, d ≠ c → u.core d = s.core d
  mem : u.mem = s.mem
  now : u.now = s.now
  released : ∀ e ∈ (u.core c).held, e.released ≠ none
  held : (u.core c).held.length = (s.core c).held.length

theorem State.releaseHeld_commits (s : State) (c : Nat) (m : List (Nat × Nat × Nat)) : s.Commits ((s.committedCore c m).releaseHeld c) c m := by
  have hb := s.committedCore_becomes c m
  obtain ⟨u, es, hu, he, hl, hr⟩ := (s.committedCore c m).releaseHeld_spec c
  have hcore : (u.modCore c fun k => { k with held := es }).core c = { (s.core c).unpowered.commit s.now m with held := es, mirrored := false } := by
    rw [State.core_modCore, hu.core, hb.core]
  have hlen : ((s.committedCore c m).core c).held.length = (s.core c).held.length := by
    rw [hb.core]
    show (List.map _ ((s.core c).unpowered.commit s.now m).held).length = _
    obtain ⟨o, tk, cv, sn, hc⟩ := (s.core c).unpowered.commit_eq s.now m
    rw [List.length_map, hc]
    rfl
  have hmem : u.mem = (s.committedCore c m).mem := by
    obtain ⟨n, rfl⟩ := hu
    rfl
  rw [he]
  refine ⟨?_, fun d hd => ?_, hmem.trans hb.mem, hu.now.trans hb.now, ?_, ?_⟩
  · rw [hcore]
    exact (s.core c).closed_commit s.now m es
  · rw [State.core_modCore_other _ _ hd, hu.core, hb.others d hd]
  · rw [hcore]; exact hr
  · rw [hcore]; exact hl.trans hlen

theorem State.commit_eq {s : State} {c : Nat} (m : List (Nat × Nat × Nat)) (hr : (s.core c).realign = none) (hm : (s.core c).mirrored = false) :
    s.commit c m = match (((s.committedCore c m).releaseHeld c).core c).preempt with
      | some p =>
        if p.at_ ≤ ((s.committedCore c m).releaseHeld c).now then
          ((s.committedCore c m).releaseHeld c).beginSave c 0
            (bits (((s.returnUnits c).modCore c fun k => k.commit (s.returnUnits c).now m).core c).liveOut.toNat 15 0) false
        else (s.committedCore c m).releaseHeld c
      | none => (s.committedCore c m).releaseHeld c := by
  unfold State.commit State.committedCore
  simp only [hr, hm, Bool.false_eq_true, if_false] <;> rfl

/-! ### What the closing alignment does -/

theorem Core.unfinishedFault_of_unfinished {k : Core} (now : Nat) (h : k.unfinished = true) :
    ∃ w ∈ k.unfinishedWords, (∀ v ∈ k.unfinishedWords, w.2.2 ≤ v.2.2) ∧ k.unfinishedFault now = some
      { code := cScheduleMiss, by_ := w.1, issued := w.2.2, pc := w.2.1, taddr := w64 (k.regionCycle now), xkind := 0, xcode := 0 } := by
  obtain ⟨w, hw, he, hl⟩ := (leastBy_spec (fun (x : SeqId × Nat × Nat) => x.2.2) k.unfinishedWords).2 (by simpa [Core.unfinished] using h)
  exact ⟨w, hw, hl, by rw [Core.unfinishedFault, he]; rfl⟩

theorem Core.unfinishedFault_none {k : Core} (now : Nat) (h : k.unfinished = false) : k.unfinishedFault now = none := by
  have hn : k.unfinishedWords = [] := by simpa [Core.unfinished] using h
  rw [Core.unfinishedFault, hn]
  rfl

section Closing

variable {s : State} {c : Nat} (hph : (s.core c).phase = .run) (hlen : (s.core c).seqs.length = 4) (hat : ∀ q, ((s.core c).seq q).st = .atRcmt)
  (hfaults : (s.core c).faults = [])
include hph hlen hat hfaults

theorem exec_closingAlignment_unfinished (ht : (s.core c).timed = true) {m : FaultRec} (hm : (s.core c).unfinishedFault s.now = some m) :
    exec (.closingAlignment c) s = .next (s.raise c m) := by
  have hall : ((s.core c).seqs.all fun x => x.st == .atRcmt) = true := (Core.all_seqs_iff hlen _).mpr fun q => by rw [hat q]; rfl
  rw [exec_closingAlignment]
  unfold execClosingAlignment
  simp [hph, hall, ht, hm, hfaults]

/-- The closing alignment of a region with nothing unfinished: the checks of RCMT, then the commit. -/
theorem exec_closingAlignment_finished (hu : (s.core c).unfinished = false) (hl : (s.core c).timed = false → s.landingsOut c = false) :
    (∀ code ta, (s.core c).checkRcmt = .error (code, ta) → exec (.closingAlignment c) s = .next (s.settleNow c
      { code := code, by_ := .ct, issued := s.now, pc := ((s.core c).seq .ct).pc - 4, taddr := ta, xkind := 0, xcode := 0 })) ∧
    (∀ m, (s.core c).checkRcmt = .ok m → (s.core c).realign = none → (s.core c).mirrored = false →
      exec (.closingAlignment c) s = .next (s.commit c m)) := by
  have hall : ((s.core c).seqs.all fun x => x.st == .atRcmt) = true := (Core.all_seqs_iff hlen _).mpr fun q => by rw [hat q]; rfl
  have hnone : (if (s.core c).timed then (s.core c).unfinishedFault s.now else none) = none := by
    rw [Core.unfinishedFault_none s.now hu, ite_self]
  have hwait : (!(s.core c).timed && ((s.core c).unfinished || s.landingsOut c)) = false := by
    cases ht : (s.core c).timed
    · simp [hu, hl ht]
    · rfl
  rw [exec_closingAlignment]
  unfold execClosingAlignment
  simp only [hph, hall, hwait, hnone, hfaults, bne_self_eq_false, Bool.not_true, Bool.or_false, Bool.false_eq_true, if_false, List.isEmpty_nil]
  refine ⟨fun code ta h => by rw [h], fun m h hr hm => ?_⟩
  simp [h, hr, State.mirrorTooLarge, hm]

end Closing

theorem Core.checkRcmt_misaligned {k : Core} (h : k.rcmtB.toNat % 8 ≠ 0) : k.checkRcmt = .error (cAlign, k.rcmtB) :=
  if_pos (by simpa using h)

theorem Core.checkRcmt_reserved {k : Core} (h0 : k.rcmtB = 0) (h : k.rcmtA >>> 17 ≠ 0) : k.checkRcmt = .error (cRegionRule, 0) := by
  have hb : bits k.rcmtA.toNat 63 17 ≠ 0 := mt (bits_eq_zero_iff_shift k.rcmtA (by omega)).mp h
  unfold Core.checkRcmt
  simp [h0, hb]

theorem bit_eq_getLsbD (v : W64) (i : Nat) : bit v.toNat i = v.getLsbD i := by
  rw [BitVec.getLsbD, Nat.testBit_eq_decide_div_mod_eq]
  rfl

theorem State.beginSave_core (s : State) (c kind tiles : Nat) (park : Bool) :
    ((s.beginSave c kind tiles park).core c).phase = .saving ∧ ((s.beginSave c kind tiles park).core c).saveKind = kind ∧
      ((s.beginSave c kind tiles park).core c).saveTiles = tiles ∧ ((s.beginSave c kind tiles park).core c).preempt = none := by
  have h : (s.beginSave c kind tiles park).core c = { s.drawDue.2.core c with
      phase := .saving, saveKind := kind, savePark := park, saveTiles := tiles, saveDue := s.drawDue.1, preempt := none, pushes := []
      causeUnread := false, seqs := (s.drawDue.2.core c).seqs.map fun y => { y with st := .off } } := State.core_modCore ..
  rw [h]
  exact ⟨rfl, rfl, rfl, rfl⟩

theorem bits_and_low (v : W64) : bits (v &&& 0xFFFF).toNat 15 0 = (v &&& 0xFFFF).toNat := by
  have h : (v &&& 0xFFFF).toNat < 65536 := by
    rw [BitVec.toNat_and]
    exact Nat.lt_of_le_of_lt Nat.and_le_right (by decide)
  rw [bits, pow_zero, Nat.div_one]
  exact Nat.mod_eq_of_lt h

/-- Settles O39: what keeps a region from closing, then the checks of its RCMT, then the commit, with a pre-emption or without. -/
theorem regionsClose : Obligations.RegionsClose := by
  intro s c k fault hph hlen hat hfaults
  refine ⟨fun ht hu => ?_, fun hu hl => ?_⟩
  · obtain ⟨w, hw, hmin, hf⟩ := Core.unfinishedFault_of_unfinished s.now hu
    exact ⟨w, hw, hmin, exec_closingAlignment_unfinished hph hlen hat hfaults ht hf⟩
  · obtain ⟨herr, hok⟩ := exec_closingAlignment_finished hph hlen hat hfaults hu hl
    refine ⟨fun h8 => herr _ _ (Core.checkRcmt_misaligned h8), fun h0 h17 => herr _ _ (Core.checkRcmt_reserved h0 h17), fun m hm hre hmi => ?_⟩
    have hx := hok m hm hre hmi
    have hc := s.releaseHeld_commits c m
    rw [State.commit_eq m hre hmi, hc.closed.preempt, hc.now] at hx
    refine ⟨fun hp => ?_, fun p hp hle => ?_⟩
    · have hx' : exec (.closingAlignment c) s = .next ((s.committedCore c m).releaseHeld c) := by
        rw [hx]
        split
        · rename_i p he
          rw [if_neg (Nat.not_le.mpr (hp p he))]
        · rfl
      have hcl := hc.closed
      refine ⟨_, hx', fun a => by rw [hc.mem], hc.others, hcl.data, hcl.phase, hcl.work, hcl.flip, hcl.liveOut, hcl.ckeep.trans (bit_eq_getLsbD _ _), hcl.liveMap,
        hcl.units, hcl.powered, hcl.epi, hcl.copies, hc.released, hc.held, fun q => ?_, fun q => ?_⟩
      · obtain ⟨-, h2, h3, h4, h5⟩ := (k.seq q).afterCommit_spec s.now k.timed (k.windows q)
        rw [hcl.seq q]
        exact ⟨h2, h3, h4, h5⟩
      · rw [hcl.snaps q]
        exact ⟨rfl, ((k.seq q).afterCommit_spec s.now k.timed (k.windows q)).1, rfl⟩
    · rw [show (s.core c).preempt = some p from hp] at hx
      dsimp only at hx
      rw [if_pos hle] at hx
      obtain ⟨h1, h2, h3, h4⟩ := State.beginSave_core ((s.committedCore c m).releaseHeld c) c 0
        (bits (((s.returnUnits c).modCore c fun k => k.commit (s.returnUnits c).now m).core c).liveOut.toNat 15 0) false
      refine ⟨_, hx, h1, h2, h3.trans ?_, h4⟩
      have hlo : (((s.returnUnits c).modCore c fun k => k.commit (s.returnUnits c).now m).core c).liveOut = k.rcmtA &&& 0xFFFF := by
        obtain ⟨o, tk, cv, sn, he⟩ := ((s.returnUnits c).core c).commit_eq (s.returnUnits c).now m
        rw [State.core_modCore, he, (s.returnUnits_becomes c).core]
        rfl
      rw [hlo]
      exact bits_and_low k.rcmtA

end Sys2Proof.Machine
end

section
/-! PROOFS. Budgets, soft errors and views that come into force (R53, R231, R280, R281), and O40. -/

namespace Sys2Proof.Machine

/-! ### Casements by number -/

theorem getD_modify_self {α : Type} {l : List α} {n : Nat} (h : n < l.length) (f : α → α) (d : α) : (l.modify n f).getD n d = f (l.getD n d) := by
  rw [List.getD_eq_getElem?_getD, List.getElem?_modify, List.getD_eq_getElem?_getD, List.getElem?_eq_getElem h]
  simp

theorem getD_modify_of_ne {α : Type} (l : List α) {n m : Nat} (h : m ≠ n) (f : α → α) (d : α) : (l.modify m f).getD n d = l.getD n d := by
  rw [List.getD_eq_getElem?_getD, List.getElem?_modify, List.getD_eq_getElem?_getD]
  simp [h]

theorem State.casement_modCasement (s : State) {n : Nat} (h : n < s.casements.length) (f : Casement → Casement) :
    (s.modCasement n f).casement n = f (s.casement n) :=
  getD_modify_self h f Casement.reset

theorem Core.sameData_softCount (k : Core) (n : Nat) : k.SameData { k with softCount := n } :=
  ⟨fun _ _ => rfl, fun _ _ => rfl, rfl, rfl, rfl, rfl, rfl, fun _ => rfl, fun _ => rfl, rfl, rfl, rfl⟩

/-! ### A task's budget -/

/-- What the trap registers of a task's cores say of its budget changes its cores alone. -/
theorem State.tasks_trapBudget (s : State) (t : Task) : (s.trapBudget t).tasks = s.tasks := rfl

theorem State.tasks_noteDoubleTraps (l : List Nat) (s : State) : (l.foldl (fun s c => s.noteDoubleTrap c cBudget) s).tasks = s.tasks :=
  foldl_rel (R := fun (s t : State) => t.tasks = s.tasks) (fun _ => rfl) (fun {s t u} (h : t.tasks = s.tasks) (g : u.tasks = t.tasks) => g.trans h)
    (f := fun s c => s.noteDoubleTrap c cBudget) (fun _ _ => rfl) l s

theorem State.faultPolicy_atOnce {s : State} {t : Task} (code : Nat) (ht : s.task? t.id = some t) (he : t.st ≠ .ending) :
    (s.faultPolicy t.id code true).1.task? t.id = some (t.failing code) := by
  unfold State.faultPolicy
  rw [ht]
  dsimp only
  rw [if_neg (by simp)]
  have hs : State.task? (if t.fpol = 1 then s.lowerStream t else s) t.id = some t := by
    split
    · exact ht
    · exact ht
  exact (State.failTask_spec code hs he).1

theorem State.doubleTrapEnds_task {s : State} {t : Task} (ht : s.task? t.id = some t) (he : t.st ≠ .ending) :
    (s.doubleTrapEnds t).task? t.id = some (t.failing cDoubleTrap) := by
  have hs : State.task? (if t.fpol = 1 then s.lowerStream t else s) t.id = some t := by
    split
    · exact ht
    · exact ht
  exact (State.failTask_spec cDoubleTrap hs he).1

/-- The end of a task's budget: the fault policy, or a double trap where a core of it has a cause unread. -/
theorem exec_taskBudgetExpiry_ends {s : State} {t : Task} (ht : s.task? t.id = some t) (hb : t.budget = 0) (hc : s.budgetCounts t = true) (he : t.st ≠ .ending)
    (hp : s.checkPending t = false) :
    ∃ u, exec (.taskBudgetExpiry t.id) s = .next u ∧ u.task? t.id = some (t.failing
      (if (t.cores.filter fun c => (s.core c).task == some t.id && (s.core c).unread).isEmpty then cBudget else cDoubleTrap)) := by
  rw [exec_taskBudgetExpiry]
  unfold execTaskBudgetExpiry
  rw [ht]
  dsimp only
  rw [if_neg (by simp [hb, hc, he, hp])]
  split
  · refine ⟨_, rfl, State.faultPolicy_atOnce cBudget ?_ he⟩
    exact ht
  · refine ⟨_, rfl, State.doubleTrapEnds_task ?_ he⟩
    rw [State.task?_of_tasks (State.tasks_noteDoubleTraps _ _)]
    exact ht

/-! ### A view that comes into force -/

theorem State.writeAnchor_casement (s : State) {n : Nat} (h : n < s.casements.length) :
    ((s.writeAnchor n).casement n).offsets = (s.casement n).offsets ∧ ((s.writeAnchor n).casement n).coming = (s.casement n).coming ∧
      ((s.writeAnchor n).casement n).anchorGen = ((s.casement n).anchorGen + 2) % 2 ^ 64 := by
  unfold State.writeAnchor
  rw [State.casement_modCasement s h]
  exact ⟨rfl, rfl, rfl⟩

/-- Settles O40: each form by its condition and what it raises or changes. -/
theorem regionTimers : Obligations.RegionTimers := by
  intro s c k fault
  refine ⟨fun hph hb hle hf => ?_, fun t ht hb hc he hp => ?_, fun ht hi hs => ?_, fun n d e hn h9 hd hfind => ?_⟩
  · have hcond : (k.phase != .run || k.budget == 0 || decide (s.now < k.cycle0 + k.budget) || k.faults.any fun f => f.code == cBudget) = false := by
      have hany : (k.faults.any fun f => f.code == cBudget) = false := by
        rw [List.any_eq_false]
        exact fun f hf' => by simpa using hf f hf'
      simp [hph, hb, Nat.not_lt.mpr hle, hany]
    rw [exec_budgetExceeded]
    unfold execBudgetExceeded
    exact if_neg (by rw [hcond]; exact Bool.false_ne_true)
  · intro unread
    obtain ⟨u, hu, hv⟩ := exec_taskBudgetExpiry_ends ht hb hc he hp
    have hiff : (t.cores.filter fun c => (s.core c).task == some t.id && (s.core c).unread).isEmpty = true ↔ ¬ unread := by
      simp [List.isEmpty_iff, List.filter_eq_nil_iff, unread, Core.unread]
    refine ⟨u, _, hu, hv, rfl, rfl, fun hn => ?_, fun hn => ?_⟩
    · exact if_pos (hiff.mpr hn)
    · exact if_neg fun h => hiff.mp h hn
  · have hcond : (k.task.isNone || k.phase == .idle || k.phase == .saving) = false := by simp [Option.isSome_iff_ne_none, ht, hi, hs]
    have hx (site : SoftSite) := exec_softErrorReexec c site s
    refine ⟨?_, ?_, ?_, ?_⟩
    · rw [hx]
      unfold execSoftErrorReexec
      exact if_neg (by rw [hcond]; exact Bool.false_ne_true)
    · rw [hx]
      unfold execSoftErrorReexec
      exact if_neg (by rw [hcond]; exact Bool.false_ne_true)
    · refine ⟨s.countSoft c, ?_, ?_, ?_, rfl⟩
      · rw [hx]
        unfold execSoftErrorReexec
        exact if_neg (by rw [hcond]; exact Bool.false_ne_true)
      all_goals
        have hcore : (s.countSoft c).core c = { k with softCount := k.softCount + 1 } := State.core_modCore s c fun k => { k with softCount := k.softCount + 1 }
        rw [hcore]
      exact k.sameData_softCount _
    · rw [hx]
      unfold execSoftErrorReexec
      exact if_neg (by rw [hcond]; exact Bool.false_ne_true)
  · have hx : exec (.realignVisible n d) s = .next (if d = 8 then
        (s.modCasement n fun x => { x with offsets := x.offsets.set d e.2.2, coming := x.coming.erase e }).writeAnchor n
        else s.modCasement n fun x => { x with offsets := x.offsets.set d e.2.2, coming := x.coming.erase e }) := by
      rw [exec_realignVisible]
      unfold execRealignVisible
      rw [hfind]
    have hcas := s.casement_modCasement hn fun x => { x with offsets := x.offsets.set d e.2.2, coming := x.coming.erase e }
    have hlen : n < (s.modCasement n fun x => { x with offsets := x.offsets.set d e.2.2, coming := x.coming.erase e }).casements.length := by
      show n < (s.casements.modify n _).length
      rw [List.length_modify]
      exact hn
    refine ⟨_, hx, ?_⟩
    by_cases h8 : d = 8
    · rw [if_pos h8]
      obtain ⟨h1, h2, h3⟩ := State.writeAnchor_casement _ hlen
      rw [h1, h2, h3, hcas]
      exact ⟨rfl, rfl, fun _ => rfl, rfl, rfl⟩
    · rw [if_neg h8, hcas]
      exact ⟨rfl, rfl, fun h => absurd h h8, rfl, rfl⟩

end Sys2Proof.Machine
end

section
/-! PROOFS. Decisions without work, pre-emptions, saves, and retirement entries (R60, R67, R68, R260 to R264), and O41. -/

namespace Sys2Proof.Machine

/-! ### A decision with nothing to decide -/

theorem State.allotWays_keeps (s : State) (k : Nat) : ∃ w, s.allotWays k = { s with wayTaint := w } :=
  foldl_rel (R := fun (s t : State) => ∃ w, t = { s with wayTaint := w }) (fun s => ⟨s.wayTaint, rfl⟩)
    (fun {s t u} (h : ∃ w, t = { s with wayTaint := w }) (g : ∃ w, u = { t with wayTaint := w }) => by
      obtain ⟨w, rfl⟩ := h
      obtain ⟨v, rfl⟩ := g
      exact ⟨v, rfl⟩)
    (fun _ _ => ⟨_, rfl⟩) _ s

theorem State.allotAll_keeps (l : List Nat) (s : State) : ∃ w, l.foldl State.allotWays s = { s with wayTaint := w } :=
  foldl_rel (R := fun (s t : State) => ∃ w, t = { s with wayTaint := w }) (fun s => ⟨s.wayTaint, rfl⟩)
    (fun {s t u} (h : ∃ w, t = { s with wayTaint := w }) (g : ∃ w, u = { t with wayTaint := w }) => by
      obtain ⟨w, rfl⟩ := h
      obtain ⟨v, rfl⟩ := g
      exact ⟨v, rfl⟩)
    State.allotWays_keeps l s

/-- The quotas of every casement as written, in force from now on (R298). -/
def State.quotasTaken (s : State) : State := { s with casements := s.casements.map fun x => { x with inForce := x.quota } }

theorem State.takeAllCommands_idle {s : State} (h : ∀ e ∈ s.queues, e.2.cmds = []) : ∃ w, s.takeAllCommands = { s.quotasTaken with wayTaint := w } := by
  have hq : (s.queues.filter fun e => !e.2.cmds.isEmpty) = [] := by
    rw [List.filter_eq_nil_iff]
    exact fun e he => by simp [h e he]
  unfold State.takeAllCommands
  rw [hq]
  exact State.allotAll_keeps _ _

section Idle

variable {s : State} (ht : s.tasks = [])
include ht

theorem State.markSaved_idle : s.markSaved = s := by
  unfold State.markSaved
  rw [show (s.tasks.map fun t => if t.st == .running && !t.savedCores.isEmpty && !t.cores.any (fun c => (s.core c).task == some t.id)
    then { t with st := .saved } else t) = s.tasks by rw [ht]; rfl]

theorem State.checkHolds_idle : s.checkHolds = s := by
  unfold State.checkHolds
  rw [show (s.tasks.map fun t => if t.holds.all s.stillHeld then t else { t with holds := [] }) = s.tasks by rw [ht]; rfl]

theorem State.retireAll_idle : s.retireAll = s := by
  unfold State.retireAll
  rw [ht]
  rfl

theorem State.admitAll_idle : s.admitAll = (s, none) := by
  unfold State.admitAll
  rw [ht]
  rfl

theorem State.launchAll_idle : s.launchAll = s := by
  unfold State.launchAll
  rw [ht]
  rfl

end Idle

theorem State.shedOrRestore_idle {s : State} (hs : s.streams = []) : s.shedOrRestore none = { s with squall := false } := by
  have hw : s.watchStreams = s := by
    unfold State.watchStreams
    rw [show (s.streams.map fun x => ({ x with since := if s.holdsHigher x then some (x.since.getD s.now) else none } : Stream)) = s.streams by rw [hs]; rfl]
  have hr : s.restorable = none := by
    unfold State.restorable
    rw [hs]
    rfl
  unfold State.shedOrRestore
  dsimp only
  rw [hw, hr, hs]
  simp

/-- With no task, no stream and no command a decision takes the quotas, and nothing else that a later one would. -/
theorem State.decision_idle {s : State} (ht : s.tasks = []) (hs : s.streams = []) (hq : ∀ e ∈ s.queues, e.2.cmds = []) :
    s.decision.nextDecision = s.now + 32 ∧ s.decision.casements = s.casements.map fun x => { x with inForce := x.quota } := by
  obtain ⟨w, hw⟩ := State.takeAllCommands_idle hq
  have h1 : s.takeAllCommands.tasks = [] := by rw [hw]; exact ht
  have h2 : s.takeAllCommands.streams = [] := by rw [hw]; exact hs
  have h3 : s.takeAllCommands.now = s.now := by rw [hw]; rfl
  have h4 : s.takeAllCommands.casements = s.casements.map fun x => { x with inForce := x.quota } := by rw [hw]; rfl
  generalize hu : s.takeAllCommands = u at h1 h2 h3 h4
  have hl : ({ u with squall := false } : State).launchAll = { u with squall := false } := State.launchAll_idle h1
  unfold State.decision
  rw [hu, State.markSaved_idle h1, State.checkHolds_idle h1, State.retireAll_idle h1]
  dsimp only
  rw [State.admitAll_idle h1]
  dsimp only
  rw [State.shedOrRestore_idle h2, hl, h3]
  exact ⟨rfl, h4⟩

/-! ### Saves -/

/-- A task found by its number after one of that or another number has changed. -/
theorem State.task?_modTask_map (s : State) (n m : Nat) (f : Task → Task) (hf : ∀ x, (f x).id = x.id) :
    (s.modTask n f).task? m = (s.task? m).map fun x => if x.id == n then f x else x := by
  have hp : ((fun x : Task => x.id == m) ∘ fun x => if x.id == n then f x else x) = fun x => x.id == m := by
    funext x
    by_cases hx : x.id = n
    · simp [hx, hf]
    · simp [hx]
  unfold State.task? State.modTask
  rw [List.find?_map, hp]

/-- The report of a parked task's fault leaves every core and memory, and what each task has saved. -/
theorem State.parkReport_spec (s : State) (n : Nat) :
    (s.parkReport n).cores = s.cores ∧ (s.parkReport n).mem = s.mem ∧
      ∀ m v, s.task? m = some v → ∃ w, (s.parkReport n).task? m = some w ∧ w.savedCores = v.savedCores := by
  have same : s.cores = s.cores ∧ s.mem = s.mem ∧ ∀ m v, s.task? m = some v → ∃ w, s.task? m = some w ∧ w.savedCores = v.savedCores :=
    ⟨rfl, rfl, fun _ v h => ⟨v, h, rfl⟩⟩
  unfold State.parkReport
  split
  · exact same
  split
  · exact same
  split
  · exact same
  dsimp only
  split
  · exact same
  · refine ⟨rfl, rfl, fun m v h => ⟨if v.id == n then { v with st := .parked } else v, ?_, ?_⟩⟩
    · have := s.task?_modTask_map n m (fun y => { y with st := .parked }) fun _ => rfl
      rw [h] at this
      exact this
    · split <;> rfl

/-- A save that ends: the core is free, its restart points remembered with the task. -/
theorem exec_saveComplete_ends {s u : State} {c n : Nat} (hn : (s.core c).task = some n) (hd : (s.core c).saveDone s.now = true) (hs : s.trySave c = .ok u) :
    exec (.saveComplete c) s = .next (((u.modTask n fun x => { x with savedCores := x.savedCores ++ [(s.core c).savedCore] }).modCore c Core.free).parkReport n) := by
  rw [exec_saveComplete]
  unfold execSaveComplete
  dsimp only
  rw [hn]
  dsimp only
  rw [if_neg (by simp [hd]), hs]

/-! ### A save that is cancelled -/

/-- What the cancelling of a task's save does on one of its cores (R60, R264). -/
def State.uncancelled (n : Nat) (s : State) (c : Nat) : State :=
  if (s.core c).task != some n then s
  else if (s.core c).phase == .saving then s.cancelSave c
  else s.modCore c fun k => { k with preempt := none }

/-- A core that goes on from its restart points. -/
def Core.goesOn (k : Core) : Prop := k.phase ∈ [Phase.align, Phase.gap]

theorem Core.goesOn_restartAll (k : Core) (now : Nat) : (k.restartAll now).goesOn := by
  show (if k.restartsAtRgn then Phase.align else Phase.gap) ∈ [Phase.align, Phase.gap]
  split <;> decide

theorem State.uncancelled_core (n : Nat) (s : State) (c d : Nat) :
    ((s.uncancelled n d).core c).task = (s.core c).task ∧ ((s.core c).goesOn → ((s.uncancelled n d).core c).goesOn) ∧
      (d = c → (s.core c).task = some n → (s.core c).phase = .saving → ((s.uncancelled n d).core c).goesOn) := by
  unfold State.uncancelled
  by_cases hd : c = d
  · subst hd
    split
    · rename_i h
      exact ⟨rfl, id, fun _ ht => absurd h (by simp [ht])⟩
    split
    · unfold State.cancelSave
      rw [State.core_modCore]
      exact ⟨rfl, fun _ => Core.goesOn_restartAll _ _, fun _ _ _ => Core.goesOn_restartAll _ _⟩
    · rename_i h
      rw [State.core_modCore]
      exact ⟨rfl, id, fun _ _ hp => absurd (by rw [hp]; rfl) h⟩
  · have hne : ∀ f, (s.modCore d f).core c = s.core c := fun f => s.core_modCore_other f hd
    split
    · exact ⟨rfl, id, fun h => absurd h.symm hd⟩
    split
    · unfold State.cancelSave
      rw [hne]
      exact ⟨rfl, id, fun h => absurd h.symm hd⟩
    · rw [hne]
      exact ⟨rfl, id, fun h => absurd h.symm hd⟩

theorem State.uncancelled_fold (n c : Nat) (l : List Nat) (s : State) :
    ((l.foldl (State.uncancelled n) s).core c).task = (s.core c).task ∧ ((s.core c).goesOn → ((l.foldl (State.uncancelled n) s).core c).goesOn) ∧
      (c ∈ l → (s.core c).task = some n → (s.core c).phase = .saving → ((l.foldl (State.uncancelled n) s).core c).goesOn) := by
  induction l generalizing s with
  | nil => exact ⟨rfl, id, fun h => absurd h List.not_mem_nil⟩
  | cons d l ih =>
    obtain ⟨a1, a2, a3⟩ := s.uncancelled_core n c d
    obtain ⟨b1, b2, b3⟩ := ih (s.uncancelled n d)
    refine ⟨b1.trans a1, fun h => b2 (a2 h), fun hm ht hp => ?_⟩
    by_cases hd : d = c
    · exact b2 (a3 hd ht hp)
    · have hcl : c ∈ l := (List.mem_cons.mp hm).resolve_left fun h => hd h.symm
      have hsame : (s.uncancelled n d).core c = s.core c := by
        have hne : ∀ f, (s.modCore d f).core c = s.core c := fun f => s.core_modCore_other f fun h => hd h.symm
        unfold State.uncancelled State.cancelSave
        split
        · rfl
        split
        · exact hne _
        · exact hne _
      exact b3 hcl (by rw [hsame]; exact ht) (by rw [hsame]; exact hp)

theorem State.rings_uncancelled (n : Nat) (l : List Nat) (s : State) : (l.foldl (State.uncancelled n) s).rings = s.rings :=
  foldl_rel (R := fun (s t : State) => t.rings = s.rings) (fun _ => rfl) (fun {s t u} (h : t.rings = s.rings) (g : u.rings = t.rings) => g.trans h)
    (f := State.uncancelled n) (fun s c => by
      unfold State.uncancelled
      split
      · rfl
      split
      · rfl
      · rfl) l s

/-- A task whose save is cancelled, its cores by then going on (R264). -/
def State.saveCancelled (s : State) (t : Task) (entry : List W8) : State :=
  let s := t.cores.foldl (State.uncancelled t.id) (s.report 16 entry .nothing)
  let s := if 1 ≤ t.saveFaults then s.saveAreaError t.casement else s
  s.modTask t.id fun x => { x with saveFaults := x.saveFaults + 1, park := none, st := if x.savedCores.isEmpty then .running else .saved }

theorem State.saveCancelled_cores (s : State) (t : Task) (entry : List W8) :
    (s.saveCancelled t entry).cores = (t.cores.foldl (State.uncancelled t.id) (s.report 16 entry .nothing)).cores := by
  unfold State.saveCancelled
  dsimp only
  split <;> rfl

theorem State.saveCancelled_rings (s : State) (t : Task) (entry : List W8) : (s.saveCancelled t entry).rings = (s.report 16 entry .nothing).rings := by
  rw [← State.rings_uncancelled t.id t.cores (s.report 16 entry .nothing)]
  unfold State.saveCancelled
  dsimp only
  split <;> rfl

theorem exec_saveFault_cancels {s u : State} {c va addr : Nat} {t : Task} (ht : s.taskOf c = some t) (hd : (s.core c).saveDone s.now = true)
    (hs : s.trySave c = .error (u, .fault va addr)) (hp : t.park = none) :
    exec (.saveFault c) s = .next (u.saveCancelled t (faultEntry addr va (u.taskIdOf t.id) c 4 t.casement 4)) := by
  rw [exec_saveFault]
  unfold execSaveFault
  dsimp only
  rw [ht]
  dsimp only
  rw [if_neg (by simp [hd]), hs]
  dsimp only
  rw [if_neg (by simp [hp])]
  rfl

/-! ### Retirement entries -/

theorem Core.drainPush_eq (k : Core) (port : Nat) : ∃ ps, k.drainPush port = { k with pushes := ps } := by
  unfold Core.drainPush
  split
  · exact ⟨k.pushes, rfl⟩
  · exact ⟨_, rfl⟩

theorem Core.drainWhere_eq (must : Push → Bool) (n : Nat) (k : Core) : ∃ ps, k.drainWhere must n = { k with pushes := ps } := by
  induction n generalizing k with
  | zero => exact ⟨k.pushes, rfl⟩
  | succ n ih =>
    unfold Core.drainWhere
    split
    · rename_i p _
      obtain ⟨ps, h⟩ := k.drainPush_eq p.port
      obtain ⟨qs, g⟩ := ih (k.drainPush p.port)
      refine ⟨qs, ?_⟩
      rw [g, h]
    · exact ⟨k.pushes, rfl⟩

/-- A core whose retirement entry of a task has freed (R67, R68). -/
def Core.entryFreed (n : Nat) (k : Core) : Core :=
  let x := k.drainMust fun p => p.task == n
  let x := { x with tracker := x.tracker.filter fun e => e.task != n }
  if x.task == some n then x.free else x

theorem Core.entryFreed_spec (n : Nat) (k : Core) :
    (k.entryFreed n).tracker = (k.tracker.filter fun e => e.task != n) ∧ (k.entryFreed n).task = (if k.task = some n then none else k.task) ∧
      (k.task = some n → (k.entryFreed n).phase = .idle) := by
  obtain ⟨ps, h⟩ := Core.drainWhere_eq (fun p => p.task == n) k.pushes.length k
  unfold Core.entryFreed Core.drainMust
  rw [h]
  dsimp only
  by_cases ht : k.task = some n
  · rw [if_pos (by simpa using ht), if_pos ht]
    exact ⟨rfl, rfl, fun _ => rfl⟩
  · rw [if_neg (by simpa using ht), if_neg ht]
    exact ⟨rfl, rfl, fun h => absurd h ht⟩

theorem Core.mem_closeEntry {k : Core} {t : Nat} {e : Track} (he : e ∈ (k.closeEntry t).tracker) : e.task = t ∨ ∃ d ∈ k.tracker, d.task = e.task := by
  unfold Core.closeEntry at he
  split at he
  · obtain ⟨d, hd, rfl⟩ := List.mem_map.mp he
    refine .inr ⟨d, hd, ?_⟩
    split <;> rfl
  · split at he
    · exact .inr ⟨e, he, rfl⟩
    · obtain hd | hd := List.mem_append.mp he
      · exact .inr ⟨e, hd, rfl⟩
      · rw [List.mem_singleton.mp hd]
        exact .inl rfl

/-- A stopped task that waits for an entry takes it, or the core stays (R67, R282). -/
theorem State.takeWaiting_spec (s : State) (c : Nat) :
    (s.takeWaiting c).tasks = s.tasks ∧ (s.takeWaiting c).mem = s.mem ∧ (s.takeWaiting c).casements = s.casements ∧
      ((s.takeWaiting c).core c = s.core c ∨
        ∃ t, s.taskOf c = some t ∧ t.st = .ending ∧ (s.takeWaiting c).core c = (s.core c).closeEntry t.id) := by
  unfold State.takeWaiting
  split
  · rename_i t ht
    split
    · rename_i he
      exact ⟨rfl, rfl, rfl, .inr ⟨t, ht, by simpa using he, State.core_modCore s c _⟩⟩
    · exact ⟨rfl, rfl, rfl, .inl rfl⟩
  · exact ⟨rfl, rfl, rfl, .inl rfl⟩

theorem State.maybeErase_of_not_stopping {s : State} {k : Nat} (h : (s.casement k).st ≠ .stopping) : s.maybeErase k = s :=
  if_neg (by simp [h])

/-- The state with a task's entry on a core freed. -/
def State.entryFreed (s : State) (c n : Nat) : State :=
  (s.modCore c (Core.entryFreed n)).modTask n fun t => { t with freed := if t.freed.contains c then t.freed else t.freed ++ [c] }

theorem exec_trackerEntryFree_frees {s : State} {c n : Nat} (he : ∃ e ∈ (s.core c).tracker, e.task = n ∧ e.closed = true) (ho : s.noneOut c n = true)
    (hl : s.boot.hingeLost = false) (hv : ∀ v, s.task? n = some v → (s.casement v.casement).st ≠ .stopping) (h16 : (s.casement 16).st ≠ .stopping) :
    exec (.trackerEntryFree c n) s = .next ((s.entryFreed c n).takeWaiting c) := by
  obtain ⟨e, hm, ht, hc⟩ := he
  have hany : ((s.core c).tracker.any fun e => e.task == n && e.closed) = true := List.any_eq_true.mpr ⟨e, hm, by simp [ht, hc]⟩
  have hst (v : State) (h : v.casements = s.casements) : (v.casement (((s.task? n).map Task.casement).getD 16)).st ≠ .stopping := by
    unfold State.casement
    rw [h]
    cases hs : s.task? n with
    | none => exact h16
    | some t => exact hv t hs
  rw [exec_trackerEntryFree]
  unfold execTrackerEntryFree
  rw [if_neg (by simp [hany, ho, hl])]
  exact congrArg _ (State.maybeErase_of_not_stopping (hst _ (State.takeWaiting_spec (s.entryFreed c n) c).2.2.1))

/-- What holds a core once an entry of its has freed. -/
theorem State.taskOf_entryFreed {s : State} {c n : Nat} {t : Task} (h : (s.entryFreed c n).taskOf c = some t) :
    t.id ≠ n ∧ ∃ v, s.taskOf c = some v ∧ v.st = t.st := by
  obtain ⟨-, htask, -⟩ := (s.core c).entryFreed_spec n
  have hcore : (s.entryFreed c n).core c = (s.core c).entryFreed n := State.core_modCore s c _
  unfold State.taskOf at h ⊢
  rw [hcore, htask] at h
  split at h
  · cases h
  · rename_i hn
    cases hk : (s.core c).task with
    | none => rw [hk] at h; cases h
    | some m =>
      rw [hk] at h hn
      have hid := State.id_of_task? h
      have hne : m ≠ n := fun e => hn (by rw [e])
      have hmap : (s.entryFreed c n).task? m = (s.task? m).map _ :=
        (s.modCore c (Core.entryFreed n)).task?_modTask_map n m (fun t => { t with freed := if t.freed.contains c then t.freed else t.freed ++ [c] }) fun _ => rfl
      have h' : (s.entryFreed c n).task? m = some t := h
      rw [hmap] at h'
      obtain ⟨v, hv, rfl⟩ := Option.map_eq_some_iff.mp h'
      refine ⟨hid ▸ hne, v, hv, ?_⟩
      split <;> rfl

/-- Settles O41: each form by its condition, then what it leaves of its core and its task. -/
theorem savesAndRetirement : Obligations.SavesAndRetirement := by
  intro s c k
  refine ⟨fun hn hr hl => ⟨?_, fun ht hs hq => ?_⟩, fun p hp hle ht hph => ?_, fun n u hn hph hd he hs => ?_, fun v u va addr hv hph hd he hpk hs hm hut hup hr => ?_,
    fun n he ho hl hv h16 => ?_⟩
  · rw [exec_dispatchDecision]
    exact if_neg (by simp [Nat.not_lt.mpr hn, hr, hl])
  · obtain ⟨h1, h2⟩ := State.decision_idle ht hs hq
    refine ⟨h1, fun n hn => ?_⟩
    unfold State.casement
    rw [h2, List.getD_eq_getElem?_getD, List.getElem?_map, List.getD_eq_getElem?_getD, List.getElem?_eq_getElem hn]
    rfl
  · have hx : exec (.preemptRequest c) s = .next ((s.abandon c).beginSave c 1 k.saveMask false) := by
      rw [exec_preemptRequest]
      unfold execPreemptRequest
      dsimp only
      rw [show (s.core c).preempt = some p from hp]
      dsimp only
      rw [if_neg (by simp [Nat.not_lt.mpr hle, show (s.core c).task ≠ none from ht])]
      obtain hm | ⟨hrun, hb⟩ := hph
      · simp only [List.mem_cons, List.not_mem_nil, or_false] at hm
        obtain hm | hm | hm := hm <;> rw [show (s.core c).phase = _ from hm]
      · rw [show (s.core c).phase = .run from hrun]
        refine if_neg ?_
        obtain hb | hb := hb
        · simp [show (s.core c).budget = 0 from hb]
        · simpa using fun _ => hb
    have hcore : ((s.abandon c).beginSave c 1 k.saveMask false).core c = { (s.abandon c).drawDue.2.core c with
        phase := .saving, saveKind := 1, savePark := false, saveTiles := k.saveMask, saveDue := (s.abandon c).drawDue.1, preempt := none, pushes := []
        causeUnread := false, seqs := ((s.abandon c).drawDue.2.core c).seqs.map fun y => { y with st := .off } } := State.core_modCore ..
    refine ⟨_, hx, rfl, ?_⟩
    rw [hcore]
    refine ⟨rfl, rfl, rfl, ?_, fun q hq => ?_⟩
    · show s.now < (s.abandon c).now + 1 + Config.freeNat (s.abandon c).fresh
      rw [(s.abandon_becomes c).now]
      omega
    · obtain ⟨y, -, rfl⟩ := List.mem_map.mp hq
      rfl
  · have hx := exec_saveComplete_ends hn (by simp [Core.saveDone, show (s.core c).phase = .saving from hph, show (s.core c).saveDue ≤ s.now from hd, show (s.core c).epi = [] from he]) hs
    obtain ⟨h1, h2, h3⟩ := State.parkReport_spec ((u.modTask n fun x => { x with savedCores := x.savedCores ++ [k.savedCore] }).modCore c Core.free) n
    have hcore : ((((u.modTask n fun x => { x with savedCores := x.savedCores ++ [k.savedCore] }).modCore c Core.free).parkReport n).core c) = (u.core c).free := by
      rw [State.core_of_cores h1]
      exact State.core_modCore _ c _
    refine ⟨_, hx, ?_, ?_, ?_, h2, fun v hv => ?_⟩
    · rw [hcore]; rfl
    · rw [hcore]; rfl
    · rw [hcore]
      intro x hx
      obtain ⟨y, -, rfl⟩ := List.mem_map.mp hx
      rfl
    · have hmod := u.task?_modTask_map n n (fun x => { x with savedCores := x.savedCores ++ [k.savedCore] }) fun _ => rfl
      rw [hv] at hmod
      obtain ⟨w, hw, hs⟩ := h3 n _ hmod
      refine ⟨w, hw, hs.trans ?_⟩
      dsimp only
      rw [if_pos (by simpa using State.id_of_task? hv)]
  · have hx := exec_saveFault_cancels hv (by simp [Core.saveDone, show (s.core c).phase = .saving from hph, show (s.core c).saveDue ≤ s.now from hd,
      show (s.core c).epi = [] from he]) hs hpk
    refine ⟨_, hx, ?_, ?_⟩
    · rw [State.core_of_cores (State.saveCancelled_cores u v _)]
      exact (State.uncancelled_fold v.id c v.cores _).2.2 hm hut hup
    · unfold State.ring
      rw [State.saveCancelled_rings]
      show ((u.rings.modify 16 _).getD 16 Ring.reset).waiting = _
      rw [getD_modify_self hr]
  · have hx := exec_trackerEntryFree_frees he ho hl hv h16
    obtain ⟨h1, h2, -, h3⟩ := State.takeWaiting_spec (s.entryFreed c n) c
    obtain ⟨htr, htask, hph⟩ := k.entryFreed_spec n
    have hcore : (s.entryFreed c n).core c = k.entryFreed n := State.core_modCore s c _
    refine ⟨_, hx, fun e hm => ?_, fun hne => ?_, fun hk => ?_, h2, fun v hv => ?_⟩
    · have hf : ∀ d ∈ (k.entryFreed n).tracker, d.task ≠ n := fun d hd => by
        rw [htr] at hd
        simpa using (List.mem_filter.mp hd).2
      obtain hc | ⟨t, ht, -, hc⟩ := h3
      · rw [hc, hcore] at hm
        exact hf e hm
      · rw [hc, hcore] at hm
        obtain h | ⟨d, hd, h⟩ := Core.mem_closeEntry hm
        · rw [h]
          exact (State.taskOf_entryFreed ht).1
        · rw [← h]
          exact hf d hd
    · obtain hc | ⟨t, ht, hen, -⟩ := h3
      · rw [hc, hcore]
        exact htr
      · obtain ⟨-, v, hv', hst⟩ := State.taskOf_entryFreed ht
        exact absurd (hst.trans hen) (hne v hv')
    · obtain hc | ⟨t, ht, -, -⟩ := h3
      · rw [hc, hcore, htask, if_pos hk]
        exact ⟨rfl, hph hk⟩
      · unfold State.taskOf at ht
        rw [hcore, htask, if_pos hk] at ht
        cases ht
    · have hmod := (s.modCore c (Core.entryFreed n)).task?_modTask_map n n
        (fun t => { t with freed := if t.freed.contains c then t.freed else t.freed ++ [c] }) fun _ => rfl
      rw [show (s.modCore c (Core.entryFreed n)).task? n = some v from hv] at hmod
      refine ⟨_, (State.task?_of_tasks h1 n).trans hmod, ?_⟩
      dsimp only
      rw [if_pos (by simpa using State.id_of_task? hv)]
      dsimp only
      split
      · rename_i h; simpa using h
      · simp

end Sys2Proof.Machine
end

section
/-! PROOFS. Task queues, completion queues and fault rings: their commands, records, entries and answers (R247 to R251, R269 to R271, R290 to R293), and
O42, O43 and O44. -/

namespace Sys2Proof.Machine

/-! ### Queues and completion queues by number -/

@[simp] theorem State.queue_modQueue (s : State) (q : Nat) (f : Queue → Queue) : (s.modQueue q f).queue q = f (s.queue q) := by
  unfold State.queue State.modQueue
  rw [keyGet_keySet_same]
  rfl

theorem State.queue_modQueue_other (s : State) {q p : Nat} (f : Queue → Queue) (h : p ≠ q) : (s.modQueue q f).queue p = s.queue p := by
  unfold State.queue State.modQueue
  rw [keyGet_keySet_other _ _ h]

@[simp] theorem State.cq_modCq (s : State) (n : Nat) (f : ComplQueue → ComplQueue) : (s.modCq n f).cq n = f (s.cq n) := by
  unfold State.cq State.modCq
  rw [keyGet_keySet_same]
  rfl

/-! ### Commands -/

theorem Queue.ringVa_eq (x : Queue) : x.ringVa = x.qbase.toNat / 4096 % 2 ^ 36 * 4096 := rfl

/-- START of a queue that does not run, by what the check of its ring finds. -/
theorem State.queueStart_opens {s : State} {q : Nat} (h : (s.queue q).st ∈ [QState.idle, QState.error, QState.stopped]) :
    (∀ u, s.rangePinned (s.queue q).owner (s.queue q).ringVa (128 * 2 ^ (s.queue q).qsz) .load = .ok u true →
      s.queueStart q = u.modQueue q fun x => if (u.casement x.owner).saveErr then x.stopped else { x with st := .active, due := u.now }) ∧
    (∀ u, s.rangePinned (s.queue q).owner (s.queue q).ringVa (128 * 2 ^ (s.queue q).qsz) .load = .ok u false →
      s.queueStart q = u.modQueue q fun x => x.errored 0x0E) ∧
    (∀ u, s.rangePinned (s.queue q).owner (s.queue q).ringVa (128 * 2 ^ (s.queue q).qsz) .load = .wait u →
      s.queueStart q = u.modQueue q fun x => { x with cmds := (0, 0) :: x.cmds }) := by
  unfold State.queueStart
  dsimp only
  simp only [List.mem_cons, List.not_mem_nil, or_false] at h
  refine ⟨fun u hu => ?_, fun u hu => ?_, fun u hu => ?_⟩ <;> rw [hu] <;> obtain h | h | h := h <;> rw [h]

theorem State.queueStart_runs {s : State} {q : Nat} (h : (s.queue q).st ∈ [QState.active, QState.waitFault]) : s.queueStart q = s := by
  unfold State.queueStart
  dsimp only
  simp only [List.mem_cons, List.not_mem_nil, or_false] at h
  obtain h | h := h <;> rw [h]

/-- A command of a queue once the part is READY. -/
theorem exec_queueWord {s t : State} {q : Nat} {f : State → State} (hq : q < 256) (hr : s.boot.ready = true) (hf : f s = t) :
    (if 256 ≤ q then .refused .eventNotEnabled else .next (if s.boot.ready then f s else s) : Host.Outcome State Fault Refusal) = .next t := by
  rw [if_neg (Nat.not_le.mpr hq), if_pos hr, hf]

/-- Settles O42: each command by the queue's state. -/
theorem queueCommands : Obligations.QueueCommands := by
  intro s q w hq hr x pinned
  have start {t : State} (h : s.queueStart q = t) : exec (.start q) s = .next t := (exec_start q s).trans (exec_queueWord (f := fun s => s.queueStart q) hq hr h)
  have stop {t : State} (h : s.queueStop q = t) : exec (.stop q) s = .next t := (exec_stop q s).trans (exec_queueWord (f := fun s => s.queueStop q) hq hr h)
  have setrd {t : State} (h : s.queueSetrd q w = t) : exec (.setrd q w) s = .next t :=
    (exec_setrd q w s).trans (exec_queueWord (f := fun s => s.queueSetrd q w) hq hr h)
  have qwr {fn : HostFn} {t : State} (h : s.writeQwr fn q w = t) : exec (.qwrWrite fn q w) s = .next t :=
    (exec_qwrWrite fn q w s).trans (exec_queueWord (f := fun s => s.writeQwr fn q w) hq hr h)
  refine ⟨fun h => ⟨_, start rfl, ?_, ?_, ?_⟩, fun h => start (State.queueStart_runs h), fun hs h => ⟨_, stop rfl, ?_⟩, fun hs h => ⟨_, stop rfl, ?_⟩,
    fun hs => ⟨_, stop rfl, ?_⟩, fun h => ⟨_, setrd rfl, ?_⟩, fun h => setrd ?_, fun fn hfn => ⟨_, qwr rfl, ?_⟩, fun n hn => qwr ?_, fun c a code hf hd hp => ?_⟩
  · intro u hu
    rw [(State.queueStart_opens h).1 u hu, State.queue_modQueue]
    split <;> rfl
  · intro u hu
    rw [(State.queueStart_opens h).2.1 u hu, State.queue_modQueue]
    exact ⟨rfl, rfl, rfl⟩
  · intro u hu
    rw [(State.queueStart_opens h).2.2 u hu, State.queue_modQueue]
    exact ⟨rfl, rfl⟩
  · have he : x.stop = x.stopped := by
      unfold Queue.stop
      rw [if_neg (by simp [hs])]
      simp only [List.mem_cons, List.not_mem_nil, or_false] at h
      exact if_pos (by simpa using h)
    unfold State.queueStop
    rw [State.queue_modQueue, show (s.queue q).stop = x.stopped from he]
    exact ⟨rfl, rfl, rfl, rfl, fun p hp => s.queue_modQueue_other _ hp⟩
  · have he : x.stop = x := by
      unfold Queue.stop
      rw [if_neg (by simp [hs])]
      refine if_neg ?_
      simp only [List.mem_cons, List.not_mem_nil, or_false] at h
      obtain h | h | h := h <;> rw [h] <;> decide
    refine ⟨fun p => ?_, rfl, rfl⟩
    by_cases hp : p = q
    · rw [hp]
      exact (s.queue_modQueue q Queue.stop).trans he
    · exact s.queue_modQueue_other _ hp
  · unfold State.queueStop
    rw [State.queue_modQueue]
    have he : x.stop = { x with cmds := x.cmds ++ [(1, 0)] } := if_pos hs
    rw [show (s.queue q).stop = _ from he]
    exact ⟨rfl, rfl⟩
  · have he : s.queueSetrd q w = s.modQueue q fun x => { x with qrd := w } := by
      unfold State.queueSetrd
      simp only [List.mem_cons, List.not_mem_nil, or_false] at h
      obtain h | h := h <;> rw [show (s.queue q).st = _ from h]
    rw [he, State.queue_modQueue]
    exact ⟨rfl, fun p hp => s.queue_modQueue_other _ hp⟩
  · unfold State.queueSetrd
    simp only [List.mem_cons, List.not_mem_nil, or_false] at h
    obtain h | h | h := h <;> rw [show (s.queue q).st = _ from h]
  · have hown : (!HostFn.owns fn (s.queue q).owner) = false := by
      obtain rfl | rfl := hfn <;> simp [HostFn.owns, x]
    have he : s.writeQwr fn q w = s.modQueue q fun x =>
        if x.st == .active && decide (2 ^ x.qsz < ({ x with qwr := w } : Queue).unread) then ({ x with qwr := w } : Queue).errored 0x18
        else if ({ x with qwr := w } : Queue).unread = 0 then { x with qwr := w, slot := false } else { x with qwr := w } := by
      unfold State.writeQwr
      rw [if_neg (by rw [hown]; exact Bool.false_ne_true)]
    have hun : ({ s.queue q with qwr := w } : Queue).unread = (w - x.qrd).toNat := rfl
    rw [he, State.queue_modQueue, hun]
    by_cases h1 : x.st = .active ∧ 2 ^ x.qsz < (w - x.qrd).toNat
    · rw [if_pos (show ((s.queue q).st == .active && decide (2 ^ (s.queue q).qsz < (w - x.qrd).toNat)) = true by simpa using h1), if_pos h1]
      exact ⟨rfl, rfl, rfl, rfl, fun _ => rfl, rfl, rfl, rfl⟩
    · rw [if_neg (show ¬ ((s.queue q).st == .active && decide (2 ^ (s.queue q).qsz < (w - x.qrd).toNat)) = true by simpa using h1), if_neg h1]
      by_cases h0 : (w - x.qrd).toNat = 0
      · rw [if_pos h0]
        exact ⟨rfl, rfl, rfl, rfl, fun _ => rfl, rfl, rfl⟩
      · rw [if_neg h0]
        exact ⟨rfl, rfl, rfl, rfl, fun hw => absurd (by rw [hw]; simp) h0, rfl, rfl⟩
  · exact if_pos (by simpa [HostFn.owns] using hn)
  · have ht : a.isTlbi = false := by unfold Act.isTlbi; rw [hp]
    have hx := exec_resultLands_of_due hf hd ht
    have hperf : s.perform c a = (s.modCore c fun k => k.dropAct a.id).modQueue q fun y => { y with cmds := y.cmds ++ [(code, w)] } := by
      unfold State.perform
      rw [hp]
    rw [hperf] at hx
    refine ⟨_, hx, ?_, fun p hpq => ?_, rfl⟩
    · exact State.queue_modQueue (s.modCore c fun k => k.dropAct a.id) q fun y => { y with cmds := y.cmds ++ [(code, w)] }
    · exact State.queue_modQueue_other (s.modCore c fun k => k.dropAct a.id) (fun y => { y with cmds := y.cmds ++ [(code, w)] }) hpq

/-! ### Records -/

theorem Queue.recordVa_eq (x : Queue) : x.recordVa = x.qbase.toNat / 4096 % 2 ^ 36 * 4096 + 128 * (x.qrd.toNat % 2 ^ x.qsz) := rfl

theorem Queue.unread_ne_zero {x : Queue} (h : x.qwr ≠ x.qrd) : x.unread ≠ 0 := by
  intro h0
  have h1 : (x.qwr - x.qrd).toNat = 0 := h0
  exact h (by bv_omega)

theorem bits_low_two (v : Nat) : bits v 1 0 = v % 4 := by
  rw [bits, pow_zero, Nat.div_one]
  rfl

/-- A record read at the index of a queue with a slot, by what reaching for it finds. -/
theorem exec_queueRecordRead_reads {s : State} {q : Nat} (hl : s.boot.hingeLost = false) (hr : s.boot.ready = true) (hst : (s.queue q).st = .active)
    (hs : (s.queue q).slot = true) (hne : (s.queue q).qwr ≠ (s.queue q).qrd) (hd : (s.queue q).due ≤ s.now) (hn : (s.queue q).reached = none) :
    exec (.queueRecordRead q) s = match s.devReach (s.queue q).owner (s.queue q).recordVa 128 .load with
      | .fault s _ => .next (s.modQueue q fun y => y.errored 0x0E)
      | .check s => .next (s.modQueue q fun y => y.errored 0x0E)
      | .wait s => .next (s.modQueue q fun y => { y with due := s.now + 1 })
      | .ok u e =>
        let (v, bs) := u.acquireRead e.key (e.paOf (s.queue q).recordVa) 128
        if fieldLE bs 0 1 == 1 && decide (8192 ≤ v.tasks.length) then .refused .eventNotEnabled
        else .next (v.takeRecord q bs) := by
  rw [exec_queueRecordRead]
  unfold execQueueRecordRead
  dsimp only
  rw [if_neg (by simp [hl, hr, hst, hs, Queue.unread_ne_zero hne, Nat.not_lt.mpr hd, hn])] <;> rfl

theorem State.takeRecord_empty {s : State} {q : Nat} {r : List W8} (h : fieldLE r 0 1 = 0) :
    s.takeRecord q r = s.drawDue.2.modQueue q fun x => { x with slot := false, due := s.drawDue.1 } := by
  unfold State.takeRecord
  rw [h]
  rfl

theorem State.takeRecord_task {s : State} {q : Nat} {r : List W8} (h : fieldLE r 0 1 = 1) : s.takeRecord q r = s.readTask q r := by
  unfold State.takeRecord
  rw [h]
  rfl

theorem State.takeRecord_mark {s : State} {q : Nat} {r : List W8} (h : fieldLE r 0 1 = 3) :
    s.takeRecord q r = s.modQueue q fun x => { x with reached := some r } := by
  unfold State.takeRecord
  rw [h]
  rfl

theorem State.takeRecord_reserved {s : State} {q : Nat} {r : List W8} (h : 3 < fieldLE r 0 1 ∨ (fieldLE r 0 1 = 2 ∧ fieldLE r 1 1 % 4 = 3)) :
    s.takeRecord q r = s.modQueue q fun x => x.errored 0x18 := by
  unfold State.takeRecord
  obtain h | ⟨h2, h3⟩ := h
  · split
    · omega
    · omega
    · omega
    · omega
    · rfl
  · rw [h2]
    exact if_pos ((bits_low_two _).trans h3)

/-- The index of a queue that has advanced (R249). -/
theorem State.advanceQueue_queue (s : State) (q : Nat) :
    ((s.advanceQueue q).queue q).qrd = (s.queue q).qrd + 1 ∧ ((s.advanceQueue q).queue q).reached = none ∧ ((s.advanceQueue q).queue q).st = (s.queue q).st := by
  have h : (s.advanceQueue q).queue q =
      if ({ s.queue q with qrd := (s.queue q).qrd + 1, reached := none, waitLine := none, stalled := false, due := s.drawDue.1 } : Queue).unread = 0
      then { s.queue q with qrd := (s.queue q).qrd + 1, reached := none, waitLine := none, stalled := false, due := s.drawDue.1, slot := false }
      else { s.queue q with qrd := (s.queue q).qrd + 1, reached := none, waitLine := none, stalled := false, due := s.drawDue.1 } :=
    State.queue_modQueue s.drawDue.2 q _
  rw [h]
  split <;> exact ⟨rfl, rfl, rfl⟩

theorem waitMet_iff (r : List W8) (n : Nat) : waitMet r n = true ↔
    if fieldLE r 1 1 % 4 = 0 then n = fieldLE r 16 8 else if fieldLE r 1 1 % 4 = 1 then fieldLE r 16 8 ≤ n else n ≠ fieldLE r 16 8 := by
  unfold waitMet
  dsimp only
  rw [bits_low_two]
  split
  · rename_i h
    rw [if_pos h]
    exact beq_iff_eq
  · rename_i h
    rw [h, if_neg (by decide), if_pos rfl]
    exact decide_eq_true_iff
  · rename_i h0 h1
    rw [if_neg h0, if_neg h1]
    exact bne_iff_ne

/-- A wait whose word is reached: met, the queue goes on; not met, it is tried again. -/
theorem State.evalWait_reached {s u v : State} {q : Nat} {r : List W8} {e : TlbEntry} {bs : List W8} (hr : (s.queue q).reached = some r) (tell : Bool)
    (hd : s.devReach (s.queue q).owner (recordSig r) 8 .load = .ok u e) (ha : u.acquireRead e.key (e.paOf (recordSig r)) 8 = (v, bs)) :
    s.evalWait q tell =
      if waitMet r (leNat bs) then (v.modQueue q fun y => { y with st := .active }).advanceQueue q
      else (v.modQueue q fun y => { y with st := .active }).modQueue q fun y =>
        { y with
          waitLine := some ((v.modQueue q fun y => { y with st := .active }).forward (e.paOf (recordSig r)) / 64)
          nextWait := (v.modQueue q fun y => { y with st := .active }).now + 12500 } := by
  unfold State.evalWait
  dsimp only
  rw [hr]
  dsimp only
  rw [hd]
  dsimp only
  rw [ha]

/-- Settles O43: the record by its type, the wait by its word, the mark by its signal write. -/
theorem queueRecords : Obligations.QueueRecords := by
  intro s q hl hrdy x va
  refine ⟨fun hst hs hne hd hn => ?_, fun r hr h2 hst hnw => ?_, fun r hr h3 hst hs hd ht u hu => ?_, fun hst hto => ?_⟩
  · have hx := exec_queueRecordRead_reads hl hrdy hst hs hne hd hn
    refine ⟨fun u f h => ?_, fun u h => ?_, fun u e v bs h ha hlen => ?_⟩
    · rw [show s.devReach (s.queue q).owner (s.queue q).recordVa 128 .load = .fault u f from h] at hx
      refine ⟨_, hx, ?_⟩
      rw [State.queue_modQueue]
      exact ⟨rfl, rfl, rfl, rfl⟩
    · rw [show s.devReach (s.queue q).owner (s.queue q).recordVa 128 .load = .wait u from h] at hx
      refine ⟨_, hx, ?_⟩
      rw [State.queue_modQueue]
      exact ⟨rfl, rfl, rfl, rfl⟩
    · rw [show s.devReach (s.queue q).owner (s.queue q).recordVa 128 .load = .ok u e from h] at hx
      dsimp only at hx
      rw [show u.acquireRead e.key (e.paOf (s.queue q).recordVa) 128 = (v, bs) from ha] at hx
      dsimp only at hx
      rw [if_neg (by simp [Nat.not_le.mpr hlen])] at hx
      refine ⟨fun h0 => ⟨_, hx, ?_⟩, fun h1 => ?_, fun h3 => ⟨_, hx, ?_⟩, fun hb => ⟨_, hx, ?_⟩⟩
      · rw [State.takeRecord_empty h0, State.queue_modQueue]
        exact ⟨rfl, rfl, rfl⟩
      · rw [hx, State.takeRecord_task h1]
      · rw [State.takeRecord_mark h3, State.queue_modQueue]
        exact ⟨rfl, rfl⟩
      · rw [State.takeRecord_reserved hb, State.queue_modQueue]
        exact ⟨rfl, rfl, rfl⟩
  · intro sig u e v bs hd ha met
    have hat : x.atWait = true := by
      unfold Queue.atWait
      rw [hr]
      simp [h2]
    have hst' : ((s.queue q).st == .active || (s.queue q).st == .waitFault) = true := by
      simp only [List.mem_cons, List.not_mem_nil, or_false] at hst
      simpa using hst
    have hx : exec (.waitRecheck q) s = .next (s.evalWait q false) := by
      rw [exec_waitRecheck]
      unfold execWaitRecheck
      dsimp only
      rw [if_pos (by rw [hst', show (s.queue q).atWait = true from hat]; simp [hl, show (s.queue q).nextWait ≤ s.now from hnw])]
    rw [State.evalWait_reached hr false hd ha] at hx
    have hmet : waitMet r (leNat bs) = true ↔ met := waitMet_iff r (leNat bs)
    by_cases hm : met
    · rw [if_pos (hmet.mpr hm)] at hx
      obtain ⟨h1, h2, h3⟩ := State.advanceQueue_queue (v.modQueue q fun y => { y with st := .active }) q
      rw [State.queue_modQueue] at h1 h3
      exact ⟨_, hx, h3, fun _ => ⟨h1, h2⟩, fun h => absurd hm h⟩
    · rw [if_neg (mt hmet.mp hm)] at hx
      refine ⟨_, hx, ?_, fun h => absurd h hm, fun _ => ?_⟩
      · rw [State.queue_modQueue, State.queue_modQueue]
      · rw [State.queue_modQueue, State.queue_modQueue]
        exact ⟨rfl, rfl⟩
  · have hany : (s.tasks.any fun t => t.queue == q) = false := by
      rw [List.any_eq_false]
      exact fun t hm => by simpa using ht t hm
    have hx : exec (.markRecord q) s = .next (u.advanceQueue q) := by
      rw [exec_markRecord]
      unfold execMarkRecord
      dsimp only
      rw [show (s.queue q).reached = some r from hr]
      dsimp only
      rw [if_neg (by simp [h3, show (s.queue q).st = .active from hst, show (s.queue q).stalled = false from hs,
        Nat.not_lt.mpr (show (s.queue q).due ≤ s.now from hd), hl, hany])]
      unfold State.markWrite
      rw [show s.signalWrite (s.queue q).owner (recordSig r) (w64 (fieldLE r 16 8)) 0 (.markWrite q) = .done u from hu]
    obtain ⟨h1, h2, -⟩ := u.advanceQueue_queue q
    exact ⟨_, hx, h1, h2, rfl⟩
  · have hx : exec (.waitFaultTimeout q) s = .next (s.modQueue q fun y => y.errored 0x0E) := by
      rw [exec_waitFaultTimeout]
      unfold execWaitFaultTimeout
      exact if_pos (by simp [show (s.queue q).st = .waitFault from hst, show (s.queue q).faultAt + 1000 * (s.casement (s.queue q).owner).fto ≤ s.ftime from hto, hl])
    refine ⟨_, hx, ?_⟩
    rw [State.queue_modQueue]
    exact ⟨rfl, rfl, rfl, fun p hp => s.queue_modQueue_other _ hp, rfl⟩

/-! ### Entries and answers -/

theorem State.takeAnswer_none {s : State} {n i : Nat} (h : ∀ o ∈ (s.ring n).open_, o.1 ≠ i % 2 ^ (s.ring n).size) : s.takeAnswer n i = none := by
  have hf : ((s.ring n).open_.find? fun e => e.1 == i % 2 ^ (s.ring n).size) = none := by
    rw [List.find?_eq_none]
    exact fun o ho => by simpa using h o ho
  unfold State.takeAnswer
  dsimp only
  rw [hf]
  rfl

theorem State.takeAnswer_some {s : State} {n i : Nat} {w : Nat × RingWait} (h : (s.ring n).open_.find? (fun o => o.1 == i % 2 ^ (s.ring n).size) = some w) :
    s.takeAnswer n i =
      some ({ s with rings := s.rings.set n { s.ring n with open_ := (s.ring n).open_.filter fun o => o.1 != i % 2 ^ (s.ring n).size } }, w.2) := by
  unfold State.takeAnswer
  dsimp only
  rw [h]
  rfl

theorem State.ring_set {s : State} {n : Nat} (h : n < s.rings.length) (x : Ring) : ({ s with rings := s.rings.set n x } : State).ring n = x := by
  unfold State.ring
  rw [List.getD_eq_getElem?_getD, List.getElem?_set_self h]
  rfl

/-- A fault ring once its oldest waiting entry has been written (R291, R292). -/
def Ring.written (x : Ring) (w : RingWait) (rest : List (List W8 × RingWait)) : Ring :=
  { x with
    tail := x.tail + 1, waiting := rest
    open_ := (x.open_.filter fun o => o.1 != x.tail.toNat % 2 ^ x.size) ++ (if w == .nothing then [] else [(x.tail.toNat % 2 ^ x.size, w)]) }

/-- A RETRY lets a stalled request walk again (R292). -/
theorem State.retryWait_request {s : State} {y : Req} (hy : y ∈ s.reqs) (hs : ∃ e, y.st = .stalled e) :
    { y with st := .walking, arrived := s.now } ∈ (s.retryWait (.request y.id)).reqs := by
  obtain ⟨e, he⟩ := hs
  refine List.mem_map.mpr ⟨y, hy, ?_⟩
  rw [if_pos (beq_self_eq_true _), he]

/-- Settles O44: an entry by its room, an interrupt by its conditions, an answer by what is open at its index. -/
theorem completionsAndAnswers : Obligations.CompletionsAndAnswers := by
  intro s n hl x g
  refine ⟨fun r rest hw h0 hroom u hu => ?_, fun hp hc => ?_, ?_, fun i h17 ho => ?_, fun i w h17 hn hr hf => ?_⟩
  · have hx : exec (.completionEntryWrite n) s = .next (u.modCq n fun x =>
        { x with
          tail := x.tail + 1, waiting := rest, pending := x.pending + 1, newest := u.ftime
          oldest := if x.pending = 0 then u.ftime else x.oldest }) := by
      rw [exec_completionEntryWrite]
      unfold execCompletionEntryWrite
      dsimp only
      rw [show (s.cq n).waiting = r :: rest from hw]
      dsimp only
      have hr : roomIn (s.cq n).head (s.cq n).tail (s.cq n).size = true := decide_eq_true hroom
      rw [if_neg (by simp [h0, hr, hl])]
      rw [show s.deviceWrite ((s.cq n).base.toNat + 32 * ((s.cq n).tail.toNat % 2 ^ (s.cq n).size))
        (r.entry.set 7 (BitVec.ofNat 8 (phaseOf (s.cq n).tail (s.cq n).size))) = some u from hu]
    refine ⟨_, hx, rfl, ?_⟩
    rw [State.cq_modCq]
    exact ⟨rfl, rfl, rfl⟩
  · have hx : exec (.cqInterrupt n) s = .next ((s.emitOut (.interrupt n x.vec)).modCq n fun x => { x with pending := 0 }) := by
      have hdue : (s.cq n).interruptDue s.ftime = true := by
        simp only [ComplQueue.interruptDue, Bool.and_eq_true, Bool.or_eq_true, decide_eq_true_iff]
        exact ⟨hp, by simpa only [or_assoc] using hc⟩
      rw [exec_cqInterrupt]
      unfold execCqInterrupt
      dsimp only
      rw [if_neg (by simp [hdue, hl])]
    refine ⟨_, hx, rfl, ?_⟩
    rw [State.cq_modCq]
    exact ⟨rfl, rfl, rfl⟩
  · intro e w rest hw hroom i u hu hn
    have hx : exec (.faultEntryWrite n) s = .next ({ u with rings := u.rings.set n (g.written w rest) }.emitOut (.ringInterrupt n g.vec)) := by
      rw [exec_faultEntryWrite]
      unfold execFaultEntryWrite
      dsimp only
      rw [show (s.ring n).waiting = (e, w) :: rest from hw]
      dsimp only
      have hr : roomIn (s.ring n).head (s.ring n).tail (s.ring n).size = true := decide_eq_true hroom
      rw [if_neg (by simp [hr, hl])]
      rw [show s.deviceWrite ((s.ring n).base.toNat + 32 * ((s.ring n).tail.toNat % 2 ^ (s.ring n).size))
        (e.set 24 (BitVec.ofNat 8 (phaseOf (s.ring n).tail (s.ring n).size))) = some u from hu]
      rfl
    refine ⟨_, hx, rfl, ?_⟩
    have hring : (({ u with rings := u.rings.set n (g.written w rest) } : State).emitOut (.ringInterrupt n g.vec)).ring n =
        g.written w rest := State.ring_set hn _
    rw [hring]
    refine ⟨rfl, rfl, rfl, fun hne => ?_, fun he o ho => ?_⟩
    · refine List.mem_append_right _ ?_
      rw [if_neg (by simpa using hne)]
      exact List.mem_singleton.mpr rfl
    · have ho : o ∈ (g.open_.filter fun o => o.1 != i) ++ (if w == .nothing then [] else [(i, w)]) := ho
      rw [if_pos (by simp [he]), List.append_nil] at ho
      simpa using (List.mem_filter.mp ho).2
  · have h := State.takeAnswer_none ho
    refine ⟨?_, ?_⟩
    · rw [exec_retry]
      unfold execRetry
      rw [if_neg (Nat.not_le.mpr h17), h]
    · rw [exec_abort]
      unfold execAbort
      rw [if_neg (Nat.not_le.mpr h17), h]
  · intro u
    have h := State.takeAnswer_some hf
    refine ⟨?_, ?_, fun r hw y hy hid hs => ?_, fun k v hw hv hpk => ⟨?_, ?_⟩⟩
    · rw [exec_retry]
      unfold execRetry
      rw [if_neg (Nat.not_le.mpr h17), h]
      dsimp only
      rw [if_pos hr]
    · rw [exec_abort]
      unfold execAbort
      rw [if_neg (Nat.not_le.mpr h17), h]
      dsimp only
      rw [if_pos hr]
    · rw [hw, ← hid]
      exact State.retryWait_request (s := u) hy hs
    · have hk := State.id_of_task? hv
      subst hk
      rw [hw]
      have hm := State.task?_modTask (s := u) hv (fun x => if x.st == .parked then { x with st := .saved, park := none } else x)
        (fun x => by split <;> rfl)
      rw [if_pos (by simp [hpk])] at hm
      exact hm
    · have hk := State.id_of_task? hv
      subst hk
      rw [hw]
      have hfail := (State.failTask_spec (s := u) cXlateS1 hv (by rw [hpk]; decide)).1
      refine ⟨v.failing cXlateS1, ?_, rfl, rfl, rfl⟩
      unfold State.abortWait
      dsimp only
      rw [if_pos (by rw [show u.task? v.id = some v from hv]; simp [hpk])]
      exact hfail

end Sys2Proof.Machine
end

section
/-! PROOFS. Values that land (O45), walks, remote stores and fetches (O46). -/

namespace Sys2Proof.Machine

/-! ### Landings of requests -/

/-- A request's value in its sequencer: the register takes it, the words that wait for it go on, and so does an acquire. -/
def Req.intoSeq (r : Req) (v : W64) (now : Nat) (x : Seq) : Seq :=
  let x := x.setReg r.rd v
  let x := { x with pend := x.pend.erase r.rd }
  match x.st with
  | .atAcquire id => if id = r.id then { x with st := .run, base := now + 1 } else x
  | _ => x

theorem Req.reg_intoSeq (r : Req) (v : W64) (now : Nat) (x : Seq) (n : Nat) : (r.intoSeq v now x).reg n = (x.setReg r.rd v).reg n := by
  unfold Req.intoSeq
  dsimp only
  split
  · split <;> rfl
  · rfl

theorem Seq.setReg_pend_st (x : Seq) (r : Nat) (v : W64) : (x.setReg r v).pend = x.pend ∧ (x.setReg r v).st = x.st := by
  unfold Seq.setReg
  split <;> exact ⟨rfl, rfl⟩

theorem Req.pend_intoSeq (r : Req) (v : W64) (now : Nat) (x : Seq) : (r.intoSeq v now x).pend = x.pend.erase r.rd := by
  rw [← (x.setReg_pend_st r.rd v).1]
  unfold Req.intoSeq
  dsimp only
  split
  · split <;> rfl
  · rfl

theorem Req.st_intoSeq_atAcquire {r : Req} (v : W64) (now : Nat) {x : Seq} (h : x.st = .atAcquire r.id) : (r.intoSeq v now x).st = .run := by
  unfold Req.intoSeq
  simp [(x.setReg_pend_st r.rd v).2, h]

theorem Core.seq_blame_giveSignals (k : Core) (q p : SeqId) (now : Nat) (sp sn : Bool) (n pc : Nat) :
    ((k.giveSignals q now sp sn).blame n pc).seq p = k.seq p := by
  obtain ⟨o, tk, cv, h⟩ := k.giveSignals_eq q now sp sn
  rw [h]
  rfl

/-- A request's value landed on its core. -/
def Req.intoCore (r : Req) (v : W64) (now : Nat) (k : Core) : Core :=
  let l := k.modSeq r.by_ (r.intoSeq v now)
  (l.giveSignals r.by_ now r.sp r.sn).blame l.overflowed.length r.pc

theorem Req.seq_intoCore (r : Req) (v : W64) (now : Nat) (k : Core) : (r.intoCore v now k).seq r.by_ = r.intoSeq v now (k.seq r.by_) := by
  rw [Req.intoCore, Core.seq_blame_giveSignals, Core.seq_modSeq]

theorem Req.seq_intoCore_other {r : Req} (v : W64) (now : Nat) (k : Core) {q : SeqId} (h : q ≠ r.by_) : (r.intoCore v now k).seq q = k.seq q := by
  rw [Req.intoCore, Core.seq_blame_giveSignals, Core.seq_modSeq_other _ _ h]

theorem Req.reg_intoCore (r : Req) (v : W64) (now : Nat) (k : Core) : 0 < r.rd → (r.intoCore v now k).reg r.by_ r.rd = v := by
  intro h
  rw [Core.reg, Req.seq_intoCore, Req.reg_intoSeq, Seq.reg_setReg, if_pos ⟨rfl, by omega⟩]

theorem Req.reg_intoCore_other {r : Req} (v : W64) (now : Nat) (k : Core) {q : SeqId} {n : Nat} (h : ¬ (q = r.by_ ∧ n = r.rd ∧ 0 < n)) :
    (r.intoCore v now k).reg q n = k.reg q n := by
  by_cases hq : q = r.by_
  · subst hq
    rw [Core.reg, Req.seq_intoCore, Req.reg_intoSeq, Seq.reg_setReg, if_neg (fun g => h ⟨rfl, g.1, by omega⟩)]
    rfl
  · rw [Core.reg, Req.seq_intoCore_other v now k hq]
    rfl

theorem Req.sameData_intoCore (r : Req) (v : W64) (now : Nat) (k : Core) : k.SameData { r.intoCore v now k with seqs := k.seqs } := by
  obtain ⟨o, tk, cv, h⟩ := (k.modSeq r.by_ (r.intoSeq v now)).giveSignals_eq r.by_ now r.sp r.sn
  unfold Req.intoCore
  dsimp only
  rw [h]
  exact ⟨fun _ _ => rfl, fun _ _ => rfl, rfl, rfl, rfl, rfl, rfl, fun _ => rfl, fun _ => rfl, rfl, rfl, rfl⟩

theorem State.landReq_orphan {s : State} {r : Req} (v : W64) (h : r.orphan = true) : s.landReq r v = s.dropReq r.id := by
  simp only [State.landReq, h, if_true]

theorem State.landReq_core {s : State} {r : Req} (v : W64) (h : r.orphan = false) :
    s.landReq r v = (s.dropReq r.id).modCore r.core (r.intoCore v s.now) := by
  simp only [State.landReq, h]
  rfl

theorem State.reqs_dropReq (s : State) (id : Nat) : ∀ x ∈ (s.dropReq id).reqs, x.id ≠ id := by
  intro x hx
  simp only [State.dropReq, State.dropReqs, List.mem_filter, Bool.not_eq_true', beq_eq_false_iff_ne] at hx
  exact hx.2

section
variable {s : State} {r : Req} {v : W64} {due : Nat} (hf : s.reqs.find? (fun x => x.id == r.id) = some r) (hst : r.st = .served v due) (hdue : due ≤ s.now)
include hf hst hdue

theorem State.landingDue_load {n : Nat} {e : Bool} (hk : r.kind = .load n e) : s.landingDue r.id false = some (r, v) := by
  simp [State.landingDue, hf, hst, hk, hdue]

theorem State.landingDue_amoc {o n : Nat} {b e : W64} (hk : r.kind = .amoc o n b e) : s.landingDue r.id true = some (r, v) := by
  simp [State.landingDue, hf, hst, hk, hdue]

end

/-- Settles O45. -/
theorem valuesLand : Obligations.ValuesLand := by
  unfold Obligations.ValuesLand
  intro s r v due hf hst hdue k lands
  have landed (i : Instr) (h : exec i s = .next (s.landReq r v)) : lands i := by
    refine ⟨_, h, ?_, fun ho => by rw [State.landReq_orphan v ho]; rfl, fun ho => ?_⟩
    · cases ho : r.orphan
      · rw [State.landReq_core v ho]
        exact s.reqs_dropReq r.id
      · rw [State.landReq_orphan v ho]
        exact s.reqs_dropReq r.id
    · have hk : (s.landReq r v).core r.core = r.intoCore v s.now k := by
        rw [State.landReq_core v ho, State.core_modCore]
        rfl
      refine ⟨State.ElseSame.alters ?_ ?_, ?_, ?_, ?_, ?_⟩
      · rw [State.landReq_core v ho]
        exact (s.elseSame_dropReqs _ r.core).trans (State.elseSame_modCore _ _ _)
      · rw [hk]
        exact r.sameData_intoCore v s.now k
      · rw [hk]
        exact r.reg_intoCore v s.now k
      · intro q n h
        rw [hk]
        exact Req.reg_intoCore_other v s.now k h
      · rw [hk, Req.seq_intoCore, Req.pend_intoSeq]
      · intro hs
        rw [hk, Req.seq_intoCore]
        exact Req.st_intoSeq_atAcquire v s.now hs
  constructor
  · intro n e hk
    refine landed _ ?_
    rw [exec_loadValueLands, execLoadValueLands, State.landingDue_load hf hst hdue hk]
  · intro o n b e hk
    refine landed _ ?_
    rw [exec_amocOldValueLands, execAmocOldValueLands, State.landingDue_amoc hf hst hdue hk]


/-! ### What folding a store leaves of memory (R211, R303) -/

theorem Cells.get_writeAll_outside {m : Cells} {bs : List (Nat × W8)} {a : Nat} (h : ∀ b ∈ bs, b.1 ≠ a) : (m.writeAll bs).get a = m.get a := by
  induction bs generalizing m with
  | nil => rfl
  | cons b bs ih =>
    obtain ⟨x, v⟩ := b
    rw [Cells.writeAll, ih fun c hc => h c (List.mem_cons_of_mem _ hc), Cells.get_set_other]
    exact fun e => h (x, v) List.mem_cons_self e.symm

theorem addrBytes_range {a : Nat} {bs : List W8} : ∀ b ∈ addrBytes a bs, a ≤ b.1 ∧ b.1 < a + bs.length := by
  induction bs generalizing a with
  | nil => simp [addrBytes]
  | cons v bs ih =>
    intro b hb
    rw [addrBytes, List.mem_cons] at hb
    rcases hb with rfl | hb
    · simp
    · have := ih b hb
      simp only [List.length_cons]
      omega

theorem length_span (a n : Nat) : (span a n).length = n := by simp [span]

theorem length_leBytes (n v : Nat) : (leBytes n v).length = n := by
  induction n generalizing v with
  | zero => rfl
  | succ n ih => rw [leBytes, List.length_cons, ih]

theorem length_recrypt (old new_ : Nat × Nat) (line : Nat) {bs : List W8} (h : bs.length = 64) : (recrypt old new_ line bs).length = 64 := by
  unfold recrypt
  split
  · exact h
  · exact length_leBytes 64 _

/-- A store that is folded changes bytes of the lines it touches only. -/
theorem State.foldBytes_mem_outside {s : State} {r : StoreRec} {a : Nat} (h : ∀ b ∈ r.bytes, b.1 / 64 ≠ a / 64) : (s.foldBytes r).mem.get a = s.mem.get a := by
  have off (m : Cells) : (m.writeAll r.bytes).get a = m.get a := Cells.get_writeAll_outside fun b hb e => h b hb (by rw [e])
  unfold State.foldBytes
  cases r.key with
  | none => exact off s.mem
  | some tag =>
    refine (off _).trans ?_
    have lines : ∀ l ∈ (r.bytes.map fun b => b.1 / 64).eraseDups, l ≠ a / 64 := by
      intro l hl
      rw [List.mem_eraseDups, List.mem_map] at hl
      obtain ⟨b, hb, rfl⟩ := hl
      exact h b hb
    generalize (r.bytes.map fun b => b.1 / 64).eraseDups = ls at lines
    generalize s.mem = m
    induction ls generalizing m with
    | nil => rfl
    | cons l ls ih =>
      rw [List.foldl_cons, ih fun x hx => lines x (List.mem_cons_of_mem _ hx)]
      split
      · rfl
      · split
        · rfl
        · refine Cells.get_writeAll_outside fun b hb e => ?_
          have hlen := length_recrypt ‹_› tag l (bs := (span (64 * l) 64).map m.get) (by rw [List.length_map, length_span])
          have := addrBytes_range b hb
          exact lines l List.mem_cons_self (by omega)

theorem State.foldStores_mem_outside {s : State} (n : Nat) {a : Nat} (h : ∀ x ∈ s.stores, ∀ b ∈ x.bytes, b.1 / 64 ≠ a / 64) :
    (s.foldStores n).mem.get a = s.mem.get a := by
  induction n generalizing s with
  | zero => rfl
  | succ n ih =>
    unfold State.foldStores
    split
    · rfl
    · rename_i r rest hs
      rw [hs] at h
      split
      · refine (ih ?_).trans (State.foldBytes_mem_outside (h r List.mem_cons_self))
        exact fun x hx => h x (List.mem_cons_of_mem _ hx)
      · rfl

theorem State.foldStores_dies (s : State) (n : Nat) : (s.foldStores n).dies = s.dies := by
  induction n generalizing s with
  | zero => rfl
  | succ n ih =>
    unfold State.foldStores
    split
    · rfl
    · split
      · refine (ih _).trans ?_
        show (s.foldBytes _).dies = s.dies
        unfold State.foldBytes
        split <;> rfl
      · rfl

/-! ### Stores applied at a die (R211) -/

theorem State.die_modDie {s : State} {d : Nat} (h : d < s.dies.length) (f : Die → Die) : (s.modDie d f).die d = f (s.die d) := by
  simp [State.die, State.modDie, h]

theorem State.die_modDie_other (s : State) {d e : Nat} (h : e ≠ d) (f : Die → Die) : (s.modDie d f).die e = s.die e := by
  simp [State.die, State.modDie, Ne.symm h]

/-- The stores once a die has applied one of them. -/
def State.marked (s : State) (d id : Nat) : State :=
  { s with stores := s.stores.map fun (x : StoreRec) => if x.id == id && !x.applied.contains d then { x with applied := x.applied ++ [d] } else x }

theorem State.applyOn_of_find {s : State} {d : Nat} {r : StoreRec} (hf : s.stores.find? (fun x => x.id == r.id) = some r) :
    s.applyOn d r.id = (s.marked d r.id).modDie d fun x => { x with vc := x.vc.modify r.die fun v => Max.max v r.num } := by
  rw [State.applyOn, hf]
  rfl

theorem State.bytes_of_marked {s : State} {d id : Nat} {x : StoreRec} (h : x ∈ (s.marked d id).stores) : ∃ y ∈ s.stores, y.bytes = x.bytes := by
  obtain ⟨y, hy, rfl⟩ := List.mem_map.mp h
  exact ⟨y, hy, by split <;> rfl⟩

theorem State.mayApply_of {s : State} {d : Nat} {r : StoreRec} (ha : r.arrives.getD d 0 ≤ s.now) (hn : d ∉ r.applied)
    (hc : covers (s.die d).vc r.stamp = true) (hnum : (s.die d).vc.getD r.die 0 + 1 = r.num) : s.mayApply d r = true := by
  unfold State.mayApply
  rw [decide_eq_true ha, hc, decide_eq_true hnum, List.contains_eq_mem, decide_eq_false hn]
  rfl

/-- The first clause of O46: a store applied at a die. -/
theorem State.remoteStoreApplied {s : State} {d : Nat} {r : StoreRec} (hf : s.stores.find? (fun x => x.id == r.id) = some r)
    (hm : s.mayApply d r = true) (hnum : (s.die d).vc.getD r.die 0 + 1 = r.num) (hd : d < s.dies.length) (hr : r.die < (s.die d).vc.length) :
    ∃ t, exec (.remoteStoreApply d r.id) s = .next t ∧ (t.die d).vc.getD r.die 0 = r.num ∧ t.cores = s.cores ∧
      (∀ e, e ≠ d → t.die e = s.die e) ∧ ∀ a, (∀ x ∈ s.stores, ∀ b ∈ x.bytes, b.1 / 64 ≠ a / 64) → t.mem.get a = s.mem.get a := by
  have hdies (e n : Nat) : ((s.applyOn d r.id).foldStores n).die e = (s.applyOn d r.id).die e := by
    rw [State.die, State.foldStores_dies, State.die]
  refine ⟨(s.applyOn d r.id).foldStores (s.applyOn d r.id).stores.length, ?_, ?_, ?_, ?_, ?_⟩
  · rw [exec_remoteStoreApply, execRemoteStoreApply, hf]
    simp only [hm]
    rfl
  · rw [hdies, State.applyOn_of_find hf, State.die_modDie (s := s.marked d r.id) hd]
    show ((s.die d).vc.modify r.die fun v => Max.max v r.num).getD r.die 0 = r.num
    rw [getD_modify_self hr]
    omega
  · rw [(State.foldStores_keeps _ _).cores, (s.applyOn_keeps d r.id).cores]
  · intro e he
    rw [hdies, State.applyOn_of_find hf, State.die_modDie_other _ he]
    rfl
  · intro a h
    rw [State.foldStores_mem_outside, State.applyOn_mem]
    rw [State.applyOn_of_find hf]
    intro x hx
    obtain ⟨y, hy, hb⟩ := State.bytes_of_marked hx
    rw [← hb]
    exact h y hy

/-! ### Walks (R283 to R292) -/

/-- The first element that a search of a filtered list finds. -/
theorem find?_filterMap_of_find? {α β : Type} {p : α → Bool} {f : α → Option β} {q : β → Bool} {a : α} {b : β} {l : List α}
    (hp : l.find? p = some a) (ha : f a = some b) (hb : q b = true) (hq : ∀ x y, f x = some y → q y = true → p x = true) :
    (l.filterMap f).find? q = some b := by
  induction l with
  | nil => cases hp
  | cons x l ih =>
    rw [List.find?_cons] at hp
    split at hp
    · cases hp
      rw [List.filterMap_cons_some ha, List.find?_cons_of_pos hb]
    · rename_i hx
      cases hfx : f x with
      | none => rw [List.filterMap_cons_none hfx, ih hp]
      | some y =>
        have hy : ¬ q y = true := fun h => by rw [hq x y hfx h] at hx; cases hx
        rw [List.filterMap_cons_some hfx, List.find?_cons_of_neg hy, ih hp]

theorem State.walkItem_req {s : State} {r : Req} (hf : s.reqs.find? (fun x => x.id == r.id) = some r) (hs : r.st = .walking) (ha : r.arrived ≤ s.now) :
    s.walkItems.find? (fun x => x.1 == r.id) = some (r.id, .req r) := by
  unfold State.walkItems
  rw [List.find?_append, find?_filterMap_of_find? (a := r) (b := (r.id, WalkItem.req r)) hf]
  · rfl
  · simp only [hs, if_pos ha]
  · exact beq_self_eq_true _
  · intro x y hx hy
    split at hx
    · split at hx
      · cases hx
        exact hy
      · cases hx
    · cases hx

/-- A walk that is due is made. -/
theorem State.walk_completes {s : State} {w : Nat × WalkItem} (h : w ∈ s.walkItems) : ∃ t, exec (.translationWalk w.1) s = .next t := by
  rw [exec_translationWalk]
  unfold execTranslationWalk
  split
  · rename_i hn
    exact absurd (List.find?_eq_none.mp hn w h) (by simp)
  · exact ⟨_, rfl⟩
  · exact ⟨_, rfl⟩
  · exact ⟨_, rfl⟩
  · dsimp only
    split
    · exact ⟨_, rfl⟩
    · split <;> exact ⟨_, rfl⟩

theorem exec_translationWalk_req {s : State} {r : Req} (hf : s.reqs.find? (fun x => x.id == r.id) = some r) (hs : r.st = .walking)
    (ha : r.arrived ≤ s.now) : exec (.translationWalk r.id) s = .next (s.walkReq r) := by
  rw [exec_translationWalk, execTranslationWalk, State.walkItem_req hf hs ha]

/-- The operation of a request that is an AMOC. -/
def ReqKind.amocOp (k : ReqKind) : Option Nat :=
  match k with
  | .amoc op _ _ _ => some op
  | _ => none

theorem State.mem_putReq (s : State) (r : Req) : r ∈ (s.putReq r).reqs := by
  unfold State.putReq
  split
  · rename_i h
    obtain ⟨x, hx, he⟩ := List.any_eq_true.mp h
    exact List.mem_map.mpr ⟨x, hx, by simp only [he, if_true]⟩
  · exact List.mem_append_right _ List.mem_cons_self

theorem State.reqs_markIfHot (s : State) (t : Nat) (hot : Bool) : (s.markIfHot t hot).reqs = s.reqs := by
  unfold State.markIfHot State.markHot
  cases hot
  · rfl
  · cases s.task? t <;> rfl

/-- A request that is translated waits at its channel or is on its way. -/
theorem State.mem_enqueue (s : State) (r : Req) (pa key : Nat) :
    ∃ y ∈ (s.enqueue r pa key).reqs, y.id = r.id ∧ y.kind = r.kind ∧ y.rd = r.rd ∧ ∃ ch, y.st = .queued pa key ch := by
  unfold State.enqueue
  dsimp only
  split
  · refine ⟨{ r with st := .queued pa key (some (channelOf (s.forward pa))), arrived := s.now, heldHot := s.waitsHot pa && !s.inBuffer pa key }, ?_, rfl, rfl, rfl, _, rfl⟩
    rw [State.modChannel_reqs, State.reqs_markIfHot]
    exact State.mem_putReq _ _
  · exact ⟨{ r with st := .queued pa key none, arrived := s.drawDue.1 }, State.mem_putReq _ _, rfl, rfl, rfl, _, rfl⟩

section
variable {s u : State} {r : Req} {amoc : Option Nat} (hamoc : amoc = r.kind.amocOp)
include hamoc

theorem State.walkReq_ok {pa key : Nat} (hw : s.walkNow r.core r.va r.kind.access r.kind.code amoc = .ok u pa key) (hr : u.channelRoom pa = true) :
    s.walkReq r = u.enqueue r pa key := by
  subst hamoc
  unfold State.walkReq
  extract_lets drop put amoc
  have ha : amoc = r.kind.amocOp := rfl
  clear_value amoc
  rw [ha, hw]
  simp only [hr, if_true]

theorem State.walkReq_fault {code xcode : Nat} (hw : s.walkNow r.core r.va r.kind.access r.kind.code amoc = .fault u code xcode) :
    s.walkReq r = ({ u with reqs := u.reqs.filter fun x => x.id != r.id } : State).lateFault r.core r.task false
      { code := code, by_ := r.by_, issued := r.issued, pc := r.pc, taddr := BitVec.ofNat 64 r.va, xkind := r.kind.code, xcode := xcode } := by
  subst hamoc
  unfold State.walkReq
  extract_lets drop put amoc
  have ha : amoc = r.kind.amocOp := rfl
  clear_value amoc
  rw [ha, hw]
  rfl

theorem State.walkReq_stall {ipa code : Nat} (hw : s.walkNow r.core r.va r.kind.access r.kind.code amoc = .stall u ipa code) :
    s.walkReq r = (u.setReq { r with st := .stalled 0 }).reportAccess 16 ipa r.va r.core r.kind.code code (.request r.id) := by
  subst hamoc
  unfold State.walkReq
  extract_lets drop put amoc
  have ha : amoc = r.kind.amocOp := rfl
  clear_value amoc
  rw [ha, hw]
  rfl

end

theorem State.reqs_reportAccess (s : State) (ring addr va core kind code : Nat) (w : RingWait) :
    (s.reportAccess ring addr va core kind code w).reqs = s.reqs := rfl

theorem State.ring_reportAccess {s : State} {ring : Nat} (h : ring < s.rings.length) (addr va core kind code : Nat) (w : RingWait) :
    ((s.reportAccess ring addr va core kind code w).ring ring).waiting.length = (s.ring ring).waiting.length + 1 := by
  unfold State.reportAccess State.report State.ring
  dsimp only
  rw [List.getD_eq_getElem?_getD, List.getElem?_modify_eq, List.getD_eq_getElem?_getD]
  simp [h]

/-! ### Fetches (R225, R357, R458) -/

/-- The fetch of a word has ended so. -/
def State.Fetched (t : State) (c : Nat) (q : SeqId) (f : Sys2Proof.Machine.Fetched) : Prop :=
  ((t.core c).seq q).fetched.find? (fun x => x.addr == f.addr) = some f ∧ ∀ x ∈ ((t.core c).seq q).fetching, x.addr ≠ f.addr

theorem State.fetched_setFetched (s : State) (c : Nat) (q : SeqId) (f : Sys2Proof.Machine.Fetched) : (s.setFetched c q f).Fetched c q f := by
  unfold State.Fetched State.setFetched
  rw [State.core_modCore, Core.seq_modSeq]
  constructor
  · rw [List.find?_append, List.find?_eq_none.mpr]
    · simp
    · intro x hx
      have := (List.mem_filter.mp hx).2
      simpa using this
  · intro x hx
    simpa using (List.mem_filter.mp hx).2

theorem exec_instructionFetchComplete_due {s : State} {c : Nat} {q : SeqId} {a : Nat} {f : FetchReq}
    (hf : ((s.core c).seq q).fetching.find? (fun x => x.addr == a) = some f) (hs : f.stalled = false) (hd : f.due ≤ s.now) :
    exec (.instructionFetchComplete c q a) s = .next (s.endFetch c q a) := by
  rw [exec_instructionFetchComplete, execInstructionFetchComplete, hf]
  simp [hs, hd]

theorem State.endFetch_beyond {s : State} {c a : Nat} {q : SeqId} (h : 2 ^ 48 ≤ a) :
    s.endFetch c q a = s.setFetched c q { addr := a, word := 0, fault := 0x0D, xcode := 1 } := by
  simp only [State.endFetch, if_pos h]

theorem State.endFetch_aperture {s : State} {c a : Nat} {q : SeqId} (h : 0xFD0000000000 ≤ a) (h' : a < 2 ^ 48) :
    s.endFetch c q a = s.setFetched c q { addr := a, word := 0, fault := 0x0F, xcode := 0 } := by
  have hu : untranslated a = true := by
    simp only [untranslated, Bool.and_eq_true, decide_eq_true_eq]
    omega
  simp only [State.endFetch, if_neg (Nat.not_le.mpr h'), hu, if_true]

theorem State.endFetch_word {s u v : State} {c a pa key : Nat} {q : SeqId} (h : a < 0xFD0000000000) (hw : s.walkNow c a .fetch 0 none = .ok u pa key)
    (ht : u.touch (u.casementOf c) pa key 4 false = .ok v) :
    s.endFetch c q a =
      v.setFetched c q { addr := a, word := BitVec.ofNat 32 (leNat (v.readMem (some (dieOf c)) key pa 4)), fault := 0, xcode := 0 } := by
  have hu : untranslated a = false := by simp [untranslated]; omega
  have hb : ¬ 2 ^ 48 ≤ a := by omega
  simp only [State.endFetch, if_neg hb, hu, hw, ht] <;> rfl

/-- Settles O46. -/
theorem walksAndFetches : Obligations.WalksAndFetches := by
  unfold Obligations.WalksAndFetches
  intro s
  refine ⟨fun d r hf ha hn hc hnum hd hr => State.remoteStoreApplied hf (State.mayApply_of ha hn hc hnum) hnum hd hr,
    fun w hw => State.walk_completes hw, fun r hf hs ha => ⟨⟨_, exec_translationWalk_req hf hs ha⟩, ?_⟩, fun c q a f hf hs hd => ?_⟩
  · intro amoc walk
    have hx := exec_translationWalk_req hf hs ha
    refine ⟨fun u pa key hw hr => ?_, fun u code xcode hw => ?_, fun u ipa code hw hid hlen => ?_⟩
    · obtain ⟨y, hy, hrest⟩ := u.mem_enqueue r pa key
      rw [State.walkReq_ok rfl hw hr] at hx
      exact ⟨_, y, hx, hy, hrest⟩
    · rw [hx, State.walkReq_fault rfl hw]
    · rw [State.walkReq_stall rfl hw] at hx
      refine ⟨_, hx, ?_, State.ring_reportAccess hlen _ _ _ _ _ _⟩
      obtain ⟨x, hmem, hxid⟩ := hid
      exact List.mem_map.mpr ⟨x, hmem, if_pos (by simp [hxid])⟩
  · have hx := exec_instructionFetchComplete_due hf hs hd
    refine ⟨⟨_, hx⟩, ?_⟩
    intro got
    refine ⟨fun h => ⟨_, hx, ?_⟩, fun h h' => ⟨_, hx, ?_⟩, fun u v pa key h hw ht => ⟨_, hx, ?_, ?_⟩⟩
    · simp only [got, State.endFetch_beyond h, if_neg (Nat.not_lt.mpr h)]
      exact State.fetched_setFetched s c q { addr := a, word := 0, fault := 0x0D, xcode := 1 }
    · simp only [got, State.endFetch_aperture h h', if_pos h']
      exact State.fetched_setFetched s c q { addr := a, word := 0, fault := 0x0F, xcode := 0 }
    · simp only [got, State.endFetch_word h hw ht, if_pos (show a < 2 ^ 48 by omega)]
      exact State.fetched_setFetched v c q { addr := a, word := BitVec.ofNat 32 (leNat (v.readMem (some (dieOf c)) key pa 4)), fault := 0, xcode := 0 }
    · rw [State.endFetch_word h hw ht]
      rfl

end Sys2Proof.Machine
end

section
/-! PROOFS. The matrix engine and the starts of commands (O47). -/

namespace Sys2Proof.Machine

/-! ### Banks and beats -/

theorem flag_not_ne (p : Bool) : flag (!p) ≠ flag p := by cases p <;> decide

theorem Core.bank_setBank (k : Core) (p : Bool) (b : Bank) : (k.setBank p b).bank p = b := getD_putAt_same _ _ _ _

theorem Core.bank_setBank_other (k : Core) (p : Bool) (b : Bank) : (k.setBank p b).bank (!p) = k.bank (!p) :=
  getD_putAt_other _ _ _ (flag_not_ne p)

theorem Core.foldl_claimBanks_eq (k : Core) (now issued : Nat) (ws : List (Bool × Nat)) :
    ∃ bu bc, ws.foldl (fun k w => k.claimBanks now w.1 [w.2 % 16] issued .cm) k = { k with banksUsed := bu, banksCycle := bc } := by
  induction ws generalizing k with
  | nil => exact ⟨_, _, rfl⟩
  | cons w ws ih =>
    obtain ⟨bu, bc, h⟩ := ih (k.claimBanks now w.1 [w.2 % 16] issued .cm)
    exact ⟨bu, bc, h⟩

/-- The beats of a command that are sampled take their banks for the cycle, and change nothing else of the core. -/
theorem Core.sampleBeats_eq {k l : Core} {now issued : Nat} {bs beats : Beats} {want : List (Bool × Nat)}
    (h : k.sampleBeats now issued bs want = .ok (l, beats)) : ∃ bu bc, l = { k with banksUsed := bu, banksCycle := bc } := by
  unfold Core.sampleBeats at h
  dsimp only at h
  split at h
  · cases h
  · have he := (Prod.ext_iff.mp (Except.ok.inj h)).1
    obtain ⟨bu, bc, hf⟩ := k.foldl_claimBanks_eq now issued (want.eraseDups.filter fun w => !(bs.any fun b => b.1 == w.1 && b.2.1 == w.2))
    exact ⟨bu, bc, he.symm.trans hf⟩

/-! ### Commands at their starts (R159, R164) -/

theorem State.takeUnits_zero (s : State) (c : Nat) : s.takeUnits c 0 = some s := rfl

/-- The core at the start of its one MMA in a timed region. -/
def Core.mmaStarted (k : Core) (m : MmaCmd) (now : Nat) : Core :=
  { (k.setBank k.work (m.prepare (k.bank k.work))) with mma := { m with start := some now, units := 0 } :: k.mma.tail }

theorem State.startMatrix_timed {s : State} {c : Nat} {m : MmaCmd} (hm : (s.core c).mma = [m]) (hs : m.start = none) (hi : m.issued + 2 ≤ s.now)
    (ht : (s.core c).timed = true) : s.startMatrix c = some (s.modCore c fun k => k.mmaStarted m s.now) := by
  have hlt : ¬ s.now < m.issued + 2 := Nat.not_lt.mpr hi
  simp [State.startMatrix, hm, hs, ht, hlt, State.takeUnits_zero, Core.mmaStarted]

theorem Core.sameData_mmaStarted (k : Core) (m : MmaCmd) (now : Nat) : k.SameData { k.mmaStarted m now with banks := k.banks } :=
  ⟨fun _ _ => rfl, fun _ _ => rfl, rfl, rfl, rfl, rfl, rfl, fun _ => rfl, fun _ => rfl, rfl, rfl, rfl⟩

theorem State.startLookup_tinv {s : State} {c q : Nat} {m : LookupCmd} (hm : (s.core c).lookup = [m]) (hk : m.kind = .tinv q) (hs : m.start = none)
    (hi : m.issued + 2 ≤ s.now) :
    s.startLookup c = some ((s.modCore c fun k => k.setLookup { m with start := some s.now, units := 0 }).modCore c fun k =>
      k.setLookup { m with start := some s.now, units := 0, done := some (s.now + 1) }) := by
  have hlt : ¬ s.now < m.issued + 2 := Nat.not_lt.mpr hi
  simp [State.startLookup, hm, hs, hk, hlt, State.takeUnits_zero, LookupKind.extra]

theorem Core.sameData_setLookup (k : Core) (m : LookupCmd) : k.SameData (k.setLookup m) :=
  ⟨fun _ _ => rfl, fun _ _ => rfl, rfl, rfl, rfl, rfl, rfl, fun _ => rfl, fun _ => rfl, rfl, rfl, rfl⟩

theorem Core.lookup_setLookup_only {k : Core} {m : LookupCmd} (h : k.lookup = [m]) {n : LookupCmd} (hi : n.id = m.id) : (k.setLookup n).lookup = [n] := by
  simp [Core.setLookup, h, hi]

/-- The state at the start of a core's oldest EPI. -/
def State.epiStarted (s : State) (c : Nat) (e : EpiCmd) : State :=
  (s.modCore c fun k => { k with epi := { e with start := some s.now, sticky := (k.bank e.bank).sticky } :: k.epi.drop 1 }).addAct c
    (e.rowReady s.now 0 - 1) e.issued .cm e.pc .epiBeat

theorem State.startEpi_of {s : State} {c : Nat} {e : EpiCmd} {rest : List EpiCmd} (he : (s.core c).epi = e :: rest) (hs : e.start = none)
    (hi : e.issued + 2 ≤ s.now) : s.startEpi c = some (s.epiStarted c e) := by
  have hlt : ¬ s.now < e.issued + 2 := Nat.not_lt.mpr hi
  simp [State.startEpi, he, hs, hlt, State.epiStarted]

theorem State.startSacc_of {s : State} {c : Nat} {m : SaccCmd} {rest : List SaccCmd} (hm : (s.core c).sacc = m :: rest) (hs : m.start = none)
    (hi : m.issued + 2 ≤ s.now) :
    s.startSacc c = some (s.drawDue.2.modCore c fun k => { k with sacc := { m with start := some s.now, due := s.drawDue.1 } :: rest }) := by
  have hlt : ¬ s.now < m.issued + 2 := Nat.not_lt.mpr hi
  simp [State.startSacc, hm, hs, hlt]

/-! ### Steps of an MMA (R164, R169) -/

/-- The core after a step of its running MMA whose beats it has sampled. -/
def Core.mmaStepped (l : Core) (m : MmaCmd) (start : Nat) : Core := (l.setBank l.work (m.apply (l.bank l.work))).setMma (m.next start)

theorem Core.sameData_mmaStepped (k : Core) (bu : List (Bool × Nat × Nat × SeqId)) (bc : Nat) (m : MmaCmd) (start : Nat) :
    k.SameData { ({ k with banksUsed := bu, banksCycle := bc } : Core).mmaStepped m start with banks := k.banks } :=
  ⟨fun _ _ => rfl, fun _ _ => rfl, rfl, rfl, rfl, rfl, rfl, fun _ => rfl, fun _ => rfl, rfl, rfl, rfl⟩

theorem exec_mmaStep_sampled {s : State} {c start : Nat} {m : MmaCmd} (hr : (s.core c).runningMma = some (m, start)) (hd : m.stepAt start ≤ s.now)
    {l : Core} {beats : Beats} (hb : (s.core c).sampleBeats s.now m.issued m.sampled m.wanted = .ok (l, beats)) :
    exec (.mmaStep c) s = .next (s.setCore c (l.mmaStepped { m with sampled := beats } start)) := by
  have hlt : ¬ s.now < m.stepAt start := Nat.not_lt.mpr hd
  rw [exec_mmaStep]
  simp only [execMmaStep, hr, if_neg hlt, hb] <;> rfl

theorem exec_mmaStep_delayed {s : State} {c start : Nat} {m : MmaCmd} (hr : (s.core c).runningMma = some (m, start)) (hd : m.stepAt start ≤ s.now)
    {isA : Bool} {b : Nat} (hb : (s.core c).sampleBeats s.now m.issued m.sampled m.wanted = .error (isA, b)) :
    exec (.mmaStep c) s = .next (let t := s.setCore c ((s.core c).setMma { m with delay := m.delay + 1 })
      if (s.core c).inTimed then t.raise c (commandFault m.pc m.issued 0x04 (w64 (16 * flag isA + b))) else t) := by
  have hlt : ¬ s.now < m.stepAt start := Nat.not_lt.mpr hd
  rw [exec_mmaStep]
  simp only [execMmaStep, hr, if_neg hlt, hb]
  cases (s.core c).inTimed <;> rfl

theorem Core.sameData_setMma (k : Core) (m : MmaCmd) : k.SameData (k.setMma m) :=
  ⟨fun _ _ => rfl, fun _ _ => rfl, rfl, rfl, rfl, rfl, rfl, fun _ => rfl, fun _ => rfl, rfl, rfl, rfl⟩

/-- The command that an MMA's core steps is the replaced one. -/
theorem Core.mem_setMma_running {k : Core} {m x : MmaCmd} (h : x ∈ (k.setMma m).mma) (hs : x.start ≠ none) (hd : x.done = none) : x = m := by
  obtain ⟨y, _, rfl⟩ := List.mem_map.mp h
  split
  · rfl
  · rename_i hn
    rw [if_neg hn] at hs hd
    simp [Option.isSome_iff_ne_none, hs, hd] at hn

theorem State.elseSame_setCore (s : State) (c : Nat) (k : Core) : s.ElseSame (s.setCore c k) c := s.elseSame_modCore c fun _ => k

theorem State.core_giveUnits (s : State) (c n d : Nat) : (s.giveUnits c n).core d = s.core d := by
  unfold State.giveUnits
  split <;> rfl

/-- Settles O47. -/
theorem matrixSteps : Obligations.MatrixSteps := by
  unfold Obligations.MatrixSteps
  intro s c k
  have started {u : EngineUnit} {t : State} (h : s.startEngine c u = some t) : exec (.engineCommandStart c u) s = .next t := by
    rw [exec_engineCommandStart, execEngineCommandStart, h]
  refine ⟨fun m hm hs hi ht => ?_, fun m q hm hk hs hi => ?_, fun e rest he hs hi => ?_, fun m rest hm hs hi => ?_, fun m start hr hd => ⟨?_, ?_, ?_⟩,
    fun m rest d hm hd hn => ?_⟩
  · refine ⟨_, started (State.startMatrix_timed hm hs hi ht), ?_, ?_, (s.elseSame_modCore c _).alters ?_, ?_⟩
    · rw [State.core_modCore]
      show _ :: k.mma.tail = _
      rw [hm]
      rfl
    · rw [State.core_modCore]
      exact Core.bank_setBank k k.work _
    · rw [State.core_modCore]
      exact k.sameData_mmaStarted m s.now
    · rw [State.core_modCore]
      exact Core.bank_setBank_other k k.work _
  · refine ⟨_, started (State.startLookup_tinv hm hk hs hi), ?_, ?_⟩
    · exact (s.onlyCore_modCore c _ (k.sameData_setLookup _)).trans (State.onlyCore_modCore _ c _ (Core.sameData_setLookup _ _))
    · rw [State.core_modCore, State.core_modCore]
      exact Core.lookup_setLookup_only (m := { m with start := some s.now, units := 0 })
        (Core.lookup_setLookup_only (n := { m with start := some s.now, units := 0 }) hm rfl) rfl
  · refine ⟨_, started (State.startEpi_of he hs hi), ?_, { e with start := some s.now, sticky := (k.bank e.bank).sticky }, ?_, rfl, rfl, rfl⟩
    · exact (s.onlyCore_modCore c _
        ⟨fun _ _ => rfl, fun _ _ => rfl, rfl, rfl, rfl, rfl, rfl, fun _ => rfl, fun _ => rfl, rfl, rfl, rfl⟩).trans (State.onlyCore_addAct _ c _ _ _ _ _)
    · rw [State.epiStarted, State.core_addAct, State.core_modCore]
      show _ :: k.epi.drop 1 = _
      rw [he]
      rfl
  · refine ⟨_, started (State.startSacc_of hm hs hi), ?_, s.drawDue.1, ?_⟩
    · exact ((State.drawDue_redrawn s).onlyCore c).trans (State.onlyCore_modCore _ c _
        ⟨fun _ _ => rfl, fun _ _ => rfl, rfl, rfl, rfl, rfl, rfl, fun _ => rfl, fun _ => rfl, rfl, rfl, rfl⟩)
    · rw [State.core_modCore]
  · intro l beats hb
    obtain ⟨bu, bc, rfl⟩ := Core.sampleBeats_eq hb
    refine ⟨_, exec_mmaStep_sampled hr hd hb, (s.elseSame_setCore c _).alters ?_, ?_, ?_⟩
    · rw [State.core_setCore]
      exact k.sameData_mmaStepped bu bc _ start
    · rw [State.core_setCore]
      exact Core.bank_setBank _ _ _
    · rw [State.core_setCore]
      exact Core.bank_setBank_other _ _ _
  · intro isA b hb ht
    have ht' : (s.core c).inTimed = false := ht
    have hx := exec_mmaStep_delayed hr hd hb
    simp only [ht', Bool.false_eq_true, if_false] at hx
    refine ⟨_, hx, State.onlyCore_setCore (k.sameData_setMma _), fun x hmem hs hdn => ?_⟩
    rw [State.core_setCore] at hmem
    rw [Core.mem_setMma_running hmem hs hdn]
  · intro isA b hb ht
    have ht' : (s.core c).inTimed = true := ht
    have hx := exec_mmaStep_delayed hr hd hb
    simp only [ht', if_true] at hx
    rw [hx]
    cases isA
    · simp only [flag, w64, Bool.false_eq_true, if_false, Nat.mul_zero, Nat.zero_add]
      rfl
    · rfl
  · have hx : exec (.mmaComplete c) s = .next ((s.giveUnits c m.units).modCore c fun k => { k with mma := rest, flip := k.flip || m.f }) := by
      have hlt : ¬ s.now < d := Nat.not_lt.mpr hn
      have hm' : (s.core c).mma = m :: rest := hm
      rw [exec_mmaComplete]
      simp only [execMmaComplete, hm', hd, if_neg hlt]
    refine ⟨_, hx, ?_, ?_, ?_⟩ <;> rw [State.core_modCore, State.core_giveUnits]
    exact ⟨fun _ _ => rfl, fun _ _ => rfl, rfl, rfl, rfl, rfl, rfl, fun _ => rfl, fun _ => rfl, rfl, rfl, rfl⟩

end Sys2Proof.Machine
end

section
/-! PROOFS. The lookup engine's steps and completions (O48). -/

namespace Sys2Proof.Machine

/-! ### A lookup of an LMMA (R181, R183, R390) -/

/-- Whether one of a lookup's codes is above 3. -/
def LookupCmd.wildCode (m : LookupCmd) (rw : BitVec 512) (beats : Beats) : Bool :=
  (span (64 * m.tile) (Min.min 64 (hCols rw - 64 * m.tile))).any fun n =>
    (List.range 4).any fun g => decide (4 ≤ lookupCode beats rw m.step m.plane g n)

theorem mem_span {a n x : Nat} : x ∈ span a n ↔ a ≤ x ∧ x < a + n := by
  unfold span
  rw [List.mem_map]
  constructor
  · rintro ⟨i, hi, rfl⟩
    have := List.mem_range.mp hi
    omega
  · intro h
    exact ⟨x - a, List.mem_range.mpr (by omega), by omega⟩

theorem LookupCmd.wildCode_iff (m : LookupCmd) (rw : BitVec 512) (beats : Beats) :
    m.wildCode rw beats = true ↔ ∃ n g, 64 * m.tile ≤ n ∧ n < 64 * m.tile + Min.min 64 (hCols rw - 64 * m.tile) ∧ g < 4 ∧
      4 ≤ lookupCode beats rw m.step m.plane g n := by
  simp only [LookupCmd.wildCode, List.any_eq_true, mem_span, List.mem_range, decide_eq_true_eq]
  constructor
  · rintro ⟨n, ⟨h1, h2⟩, g, hg, hc⟩
    exact ⟨n, g, h1, h2, hg, hc⟩
  · rintro ⟨n, g, h1, h2, hg, hc⟩
    exact ⟨n, ⟨h1, h2⟩, g, hg, hc⟩

/-- The core after a lookup of its running LMMA whose weights it has sampled. -/
def Core.lookedUp (k : Core) (m : LookupCmd) (t : Table) (rc rw : BitVec 512) (beats : Beats) (now : Nat) : Core :=
  let bank := (k.bank k.work).update (tilePositions rc 0 16 (64 * m.tile) 64) fun i j c =>
    let (v, st) := lookupValue m.flushing t t.body.toArray rw beats m.step m.plane i j
    let (w, sw) := accumulate m.flushing (m.step == 0 && m.plane == 0) c v
    (w, st ||| sw)
  (k.setBank k.work bank).setLookup ({ m with sampled := beats }.nextLookup rw now)

theorem Core.sameData_lookedUp (k : Core) (bu : List (Bool × Nat × Nat × SeqId)) (bc : Nat) (m : LookupCmd) (t : Table) (rc rw : BitVec 512) (beats : Beats)
    (now : Nat) : k.SameData { ({ k with banksUsed := bu, banksCycle := bc } : Core).lookedUp m t rc rw beats now with banks := k.banks } :=
  ⟨fun _ _ => rfl, fun _ _ => rfl, rfl, rfl, rfl, rfl, rfl, fun _ => rfl, fun _ => rfl, rfl, rfl, rfl⟩

/-- The fault of a lookup, which comes again a cycle later. -/
def State.lookupFault (s : State) (c : Nat) (m : LookupCmd) (code : Nat) (taddr : W64) : State :=
  (s.setCore c ((s.core c).setLookup { m with delay := m.delay + 1 })).raise c (commandFault m.pc m.issued code taddr)

section
variable {s : State} {c start : Nat} {m : LookupCmd} {z f : Bool} {q w : Nat} {rc rw : BitVec 512}
  (hr : (s.core c).runningLookup = some (m, start)) (hk : m.kind = .lmma z f q w rc rw) (hd : m.lookupAt rw start ≤ s.now)
include hr hk hd

theorem exec_lmmaLookup_stale (hw : ((s.core c).table q).was = false) :
    exec (.lmmaLookup c) s = .next (s.lookupFault c m 0x07 (BitVec.ofNat 64 q)) := by
  have hlt : ¬ s.now < m.lookupAt rw start := Nat.not_lt.mpr hd
  obtain ⟨id, pc, issued, kind⟩ := m
  subst hk
  rw [exec_lmmaLookup]
  simp only [execLmmaLookup, hr, if_neg hlt, hw]
  rfl

theorem exec_lmmaLookup_sampled (hw : ((s.core c).table q).was = true) {l : Core} {beats : Beats}
    (hb : (s.core c).sampleBeats s.now m.issued m.sampled (m.wantedWeights rw) = .ok (l, beats)) :
    exec (.lmmaLookup c) s = .next (if (decide (((s.core c).table q).mode = 2) && m.wildCode rw beats) = true then s.lookupFault c m 0x08 (BitVec.ofNat 64 q)
      else s.setCore c (l.lookedUp m ((s.core c).table q) rc rw beats s.now)) := by
  have hlt : ¬ s.now < m.lookupAt rw start := Nat.not_lt.mpr hd
  obtain ⟨id, pc, issued, kind⟩ := m
  subst hk
  rw [exec_lmmaLookup]
  simp only [execLmmaLookup, hr, if_neg hlt, hw, hb, Bool.not_true, Bool.false_eq_true, if_false]
  exact (apply_ite Host.Outcome.next _ _ _).symm

/-- A lookup whose codes are in its table accumulates into the working bank, and into nothing else of the core's data. -/
theorem exec_lmmaLookup_accumulates (hw : ((s.core c).table q).was = true) {l : Core} {beats : Beats}
    (hb : (s.core c).sampleBeats s.now m.issued m.sampled (m.wantedWeights rw) = .ok (l, beats))
    (hn : ¬ (decide (((s.core c).table q).mode = 2) && m.wildCode rw beats) = true) :
    ∃ u, exec (.lmmaLookup c) s = .next u ∧ s.Alters u c (fun n => { n with banks := (s.core c).banks }) ∧
      (u.core c).bank (!(s.core c).work) = (s.core c).bank (!(s.core c).work) := by
  have hx := exec_lmmaLookup_sampled hr hk hd hw hb
  rw [if_neg hn] at hx
  obtain ⟨bu, bc, rfl⟩ := Core.sampleBeats_eq hb
  refine ⟨_, hx, (s.elseSame_setCore c _).alters ?_, ?_⟩
  · rw [State.core_setCore]
    exact (s.core c).sameData_lookedUp bu bc m _ rc rw beats s.now
  · rw [State.core_setCore]
    exact Core.bank_setBank_other _ _ _

end

/-! ### Completions (R177, R181, R185) -/

theorem Core.endedLookup_head {k : Core} {m : LookupCmd} {rest : List LookupCmd} {d now : Nat} (hl : k.lookup = m :: rest) (hd : m.done = some d)
    (hn : d ≤ now) : k.endedLookup now = some m := by
  simp [Core.endedLookup, hl, hd, hn]

theorem Core.popLookup_head {k : Core} {m : LookupCmd} {rest : List LookupCmd} (hl : k.lookup = m :: rest) : k.popLookup m = { k with lookup := rest } := by
  rw [Core.popLookup, hl, List.erase_cons_head]

theorem Core.table_setTable (k : Core) (q : Nat) (t : Table) : (k.setTable q t).table q = t := getD_putAt_same _ _ _ _

theorem Core.table_setTable_other (k : Core) {p q : Nat} (t : Table) (h : p ≠ q) : (k.setTable q t).table p = k.table p := getD_putAt_other _ _ _ h

theorem Core.table_addStatus (k : Core) (st : Status) (p : Nat) : (k.addStatus st).table p = k.table p := by
  rw [Core.table, Core.addStatus_tables, Core.table]

theorem Core.sameData_withTables (k : Core) (rest : List LookupCmd) (q : Nat) (t : Table) :
    k.SameData { ({ k with lookup := rest } : Core).setTable q t with tables := k.tables } :=
  ⟨fun _ _ => rfl, fun _ _ => rfl, rfl, rfl, rfl, rfl, rfl, fun _ => rfl, fun _ => rfl, rfl, rfl, rfl⟩

theorem Core.sameData_lookup (k : Core) (rest : List LookupCmd) : k.SameData { k with lookup := rest } :=
  ⟨fun _ _ => rfl, fun _ _ => rfl, rfl, rfl, rfl, rfl, rfl, fun _ => rfl, fun _ => rfl, rfl, rfl, rfl⟩

/-- The table that a TBUILD leaves. -/
def Table.built (t : Table) (mode : Nat) (r : BitVec 512) (body : List W32) : Table :=
  let ok := t.st == .building
  { t with mode := mode, koff := hKoff r, body := body, st := if ok then .valid else .invalid, was := ok }

/-- A TFILL with what its memory's lines gave, if it is one from memory. -/
def LookupCmd.filler (m : LookupCmd) : LookupCmd := if m.xl = [] then m else m.gathered

theorem LookupCmd.filler_keeps (m : LookupCmd) : m.filler.pc = m.pc ∧ m.filler.issued = m.issued := by
  unfold LookupCmd.filler
  split <;> exact ⟨rfl, rfl⟩

theorem headerBad_iff (h : List W8) : headerBad h = true ↔ fieldLE h 9 1 = 0 ∨ 16 < fieldLE h 9 1 ∨ 96 < fieldLE h 8 1 + fieldLE h 9 1 := by
  simp [headerBad, or_assoc]

theorem fieldLE_one_lt (h : List W8) (a : Nat) : fieldLE h a 1 < 256 := by
  unfold fieldLE
  generalize h.drop a = l
  cases l with
  | nil => exact Nat.zero_lt_succ 255
  | cons b l =>
    have := b.isLt
    simp only [List.take_succ_cons, List.take_zero, leNat]
    omega

theorem bit_seven_of_byte {v : Nat} (h : v < 256) : bit v 7 = true ↔ 128 ≤ v := by
  simp only [bit, beq_iff_eq]
  omega

theorem getD_map_span {α : Type} (f : Nat → α) (d : α) {n i : Nat} (h : i < n) : ((span 0 n).map f).getD i d = f i := by
  simp [span, List.getD_eq_getElem?_getD, h]

/-- When the table that a TFILL leaves is VALID (R185). -/
theorem Core.filled_valid_iff (k : Core) (c : Nat) (h : List W8) (body : List W32) (hn : fieldLE h 9 1 ≤ 16) :
    (k.filled c h body).st = .valid ↔ fieldLE h 0 1 = 1 ∧ 128 ≤ fieldLE h 1 1 ∧ fieldLE h 2 2 % 4096 = c ∧ fieldLE h 4 2 = k.epoch ∧
      ∀ i, i < fieldLE h 9 1 → fieldLE h (16 + 2 * i) 2 = (keyGet k.blocks (fieldLE h 8 1 + i)).getD 0 := by
  have hb : bits (fieldLE h 2 2) 11 0 = fieldLE h 2 2 % 4096 := by simp [bits]
  have hst (ok : Bool) : (if ok = true then TableState.valid else TableState.invalid) = .valid ↔ ok = true := by cases ok <;> decide
  refine (hst _).trans ?_
  simp only [Bool.and_eq_true, beq_iff_eq, bit_seven_of_byte (fieldLE_one_lt h 1), hb, List.all_eq_true, List.mem_range, Core.blockCount, and_assoc]
  have hc : (∀ x, x < fieldLE h 9 1 → ((span 0 16).map fun i => fieldLE h (16 + 2 * i) 2).getD x 0 = (keyGet k.blocks (fieldLE h 8 1 + x)).getD 0) ↔
      ∀ i, i < fieldLE h 9 1 → fieldLE h (16 + 2 * i) 2 = (keyGet k.blocks (fieldLE h 8 1 + i)).getD 0 :=
    forall_congr' fun i => imp_congr_right fun hi => by rw [getD_map_span _ _ (Nat.lt_of_lt_of_le hi hn)]
  rw [hc]

section
variable {s : State} {c d : Nat} {m : LookupCmd} {rest : List LookupCmd} (hl : (s.core c).lookup = m :: rest) (hd : m.done = some d) (hn : d ≤ s.now)
include hl hd hn

theorem exec_lmmaComplete_due {z f : Bool} {q w : Nat} {rc rw : BitVec 512} (hk : m.kind = .lmma z f q w rc rw) :
    exec (.lmmaComplete c) s = .next ((s.giveUnits c m.units).modCore c fun k => { k.popLookup m with flip := k.flip || f }) := by
  rw [exec_lmmaComplete, execLmmaComplete, Core.endedLookup_head hl hd hn]
  simp only [hk]

theorem exec_tbuildComplete_due {mode q a : Nat} {r : BitVec 512} {cb : List W16} (hk : m.kind = .tbuild mode q a r cb) :
    exec (.tbuildComplete c) s = .next ((s.giveUnits c m.units).modCore c fun k =>
      ((k.popLookup m).setTable q (((s.core c).table q).built mode r m.got)).addStatus m.st) := by
  rw [exec_tbuildComplete, execTbuildComplete, Core.endedLookup_head hl hd hn]
  simp only [hk] <;> rfl

theorem exec_tinvComplete_due {q : Nat} (hk : m.kind = .tinv q) :
    exec (.tinvComplete c) s =
      .next (s.setCore c (({ s.core c with lookup := rest } : Core).setTable q { (s.core c).table q with st := .invalid, was := false })) := by
  rw [exec_tinvComplete, execTinvComplete, Core.endedLookup_head hl hd hn]
  simp only [hk, Core.popLookup_head hl]

theorem exec_tspillComplete_due {q sa : Nat} (hk : m.kind = .tspill q sa) :
    exec (.tspillComplete c) s = .next (s.setCore c { s.core c with lookup := rest }) := by
  rw [exec_tspillComplete, execTspillComplete, Core.endedLookup_head hl hd hn]
  simp only [hk, Core.popLookup_head hl]

theorem exec_tfillComplete_due {q sa : Nat} (hk : m.kind = .tfill q sa) :
    exec (.tfillComplete c) s = .next (if m.xl ≠ [] ∧ headerBad m.filler.head = true
      then (s.setCore c { s.core c with lookup := rest }).raise c (commandFault m.pc m.issued 0x06 (BitVec.ofNat 64 q))
      else s.setCore c (({ s.core c with lookup := rest } : Core).setTable q ((s.core c).filled c m.filler.head m.filler.got))) := by
  rw [exec_tfillComplete, execTfillComplete, Core.endedLookup_head hl hd hn]
  simp only [hk, Core.popLookup_head hl]
  have hg : m.gathered.xl = m.xl := rfl
  by_cases hx : m.xl = []
  · simp [hx, LookupCmd.filler]
  · have he : m.xl.isEmpty = false := by simpa using hx
    have hf : m.filler = m.gathered := if_neg hx
    cases hh : headerBad m.gathered.head
    · simp [hx, hf, hg, hh]
    · simp [hx, hf, hg, hh, m.filler_keeps.1.symm, m.filler_keeps.2.symm, cShapeMismatch, w64]

end

/-- Settles O48. -/
theorem lookupSteps : Obligations.LookupSteps := by
  unfold Obligations.LookupSteps
  intro s c m k
  refine ⟨fun start z f q w rc rw hr hk hd => ?_, fun rest d hl hd hn => ⟨?_, ?_, ?_, ?_, ?_⟩⟩
  · intro t
    refine ⟨fun hw => exec_lmmaLookup_stale hr hk hd hw, fun hw hm l beats hb => ?_, fun hw hm l beats hb => ?_⟩
    · exact exec_lmmaLookup_accumulates hr hk hd hw hb (by rw [decide_eq_false hm]; exact Bool.false_ne_true)
    · intro wild
      refine ⟨fun h => ?_, fun h => exec_lmmaLookup_accumulates hr hk hd hw hb fun g =>
        h ((m.wildCode_iff rw beats).mp ((Bool.and_eq_true _ _).mp g).2)⟩
      rw [exec_lmmaLookup_sampled hr hk hd hw hb, if_pos (by rw [(m.wildCode_iff rw beats).mpr h, decide_eq_true hm]; rfl)]
      rfl
  · intro z f q w rc rw hk
    refine ⟨_, exec_lmmaComplete_due hl hd hn hk, ?_, ?_, ?_⟩ <;> rw [State.core_modCore, State.core_giveUnits, Core.popLookup_head hl]
    exact ⟨fun _ _ => rfl, fun _ _ => rfl, rfl, rfl, rfl, rfl, rfl, fun _ => rfl, fun _ => rfl, rfl, rfl, rfl⟩
  · intro mode q a r cb hk
    refine ⟨_, exec_tbuildComplete_due hl hd hn hk, ?_⟩
    rw [State.core_modCore, State.core_giveUnits, Core.popLookup_head hl]
    simp only [Core.table_addStatus, Core.table_setTable, Core.addStatus_lookup]
    refine ⟨rfl, rfl, rfl, rfl, ?_, ?_, fun p hp => Core.table_setTable_other _ _ hp⟩
    · show (if (k.table q).st == .building then TableState.valid else .invalid) = _
      simp only [beq_iff_eq]
    · rw [Core.vstat_addStatus]
      rfl
  · intro q hk
    refine ⟨_, exec_tinvComplete_due hl hd hn hk, (s.elseSame_setCore c _).alters ?_, ?_⟩ <;> rw [State.core_setCore]
    · exact k.sameData_withTables rest q _
    · exact ⟨rfl, by rw [Core.table_setTable], fun p hp => Core.table_setTable_other _ _ hp⟩
  · intro q sa hk
    refine ⟨_, exec_tspillComplete_due hl hd hn hk, State.onlyCore_setCore (k.sameData_lookup rest), ?_⟩
    rw [State.core_setCore]
  · intro q sa hk
    have hx := exec_tfillComplete_due hl hd hn hk
    intro g n lo
    refine ⟨fun hm hbad => ?_, fun h0 h16 h96 => ?_⟩
    · rw [hx, if_pos ⟨hm, (headerBad_iff _).mpr hbad⟩]
    · have hgood : ¬ (m.xl ≠ [] ∧ headerBad m.filler.head = true) := fun h => by
        have := (headerBad_iff g.head).mp h.2
        omega
      rw [if_neg hgood] at hx
      refine ⟨_, hx, (s.elseSame_setCore c _).alters ?_, ?_⟩ <;> rw [State.core_setCore]
      · exact k.sameData_withTables rest q _
      · rw [Core.table_setTable]
        exact ⟨rfl, rfl, fun p hp => Core.table_setTable_other _ _ hp, k.filled_valid_iff c g.head _ h16⟩

end Sys2Proof.Machine
end

section
/-! PROOFS. The end of an EPI and the updates of a SACC (O49). -/

namespace Sys2Proof.Machine

/-! ### What some writes leave -/

/-- Writes one after another of pieces of one image: what they cover is the image's, the rest as it was. -/
theorem Cells.get_foldl_write {L : List (Nat × List W8)} {g : Nat → W8} (h : ∀ e ∈ L, ∀ i, i < e.2.length → e.2.getD i 0 = g (e.1 + i)) (m : Cells) (o : Nat) :
    ((∃ e ∈ L, e.1 ≤ o ∧ o < e.1 + e.2.length) → (L.foldl (fun m b => Cells.write m b.1 b.2) m).get o = g o) ∧
    ((∀ e ∈ L, o < e.1 ∨ e.1 + e.2.length ≤ o) → (L.foldl (fun m b => Cells.write m b.1 b.2) m).get o = m.get o) := by
  induction L generalizing m with
  | nil => exact ⟨fun h => by simp at h, fun _ => rfl⟩
  | cons e L ih =>
    have ih := ih (fun x hx => h x (List.mem_cons_of_mem _ hx)) (m.write e.1 e.2)
    rw [List.foldl_cons]
    constructor
    · rintro ⟨x, hx, hlo, hhi⟩
      by_cases hc : ∃ y ∈ L, y.1 ≤ o ∧ o < y.1 + y.2.length
      · exact ih.1 hc
      · have hout : ∀ y ∈ L, o < y.1 ∨ y.1 + y.2.length ≤ o := fun y hy => by
          by_contra hn
          exact hc ⟨y, hy, by omega, by omega⟩
        rw [ih.2 hout]
        rcases List.mem_cons.mp hx with rfl | hx
        · obtain ⟨i, rfl⟩ := Nat.exists_eq_add_of_le hlo
          rw [Cells.get_write_in (by omega)]
          exact h x List.mem_cons_self i (by omega)
        · exact absurd ⟨x, hx, hlo, hhi⟩ hc
    · intro hout
      rw [ih.2 fun y hy => hout y (List.mem_cons_of_mem _ hy), Cells.get_write_outside (hout e List.mem_cons_self)]

/-- The pieces of 64 bytes of a run are pieces of it. -/
theorem cutBeats_piece {off : Nat} {bs : List W8} {e : Nat × List W8} (h : e ∈ cutBeats off bs) :
    off ≤ e.1 ∧ e.1 + e.2.length ≤ off + bs.length + (e.1 - (off + bs.length)) ∧ ∀ i, i < e.2.length → e.2.getD i 0 = bs.getD (e.1 + i - off) 0 := by
  simp only [cutBeats, List.map_map, List.mem_map, mem_span] at h
  obtain ⟨b, -, rfl⟩ := h
  dsimp only [Function.comp]
  have hlen : ((bs.drop (Max.max off (64 * b) - off)).take (Min.min (off + bs.length) (64 * b + 64) - Max.max off (64 * b))).length ≤
      bs.length - (Max.max off (64 * b) - off) := by
    rw [List.length_take, List.length_drop]
    exact Nat.min_le_right _ _
  refine ⟨Nat.le_max_left _ _, by omega, fun i hi => ?_⟩
  rw [List.length_take] at hi
  rw [List.getD_eq_getElem?_getD, List.getElem?_take_of_lt (by omega), List.getElem?_drop, List.getD_eq_getElem?_getD]
  congr 2
  omega

theorem cutBeats_covers {off o : Nat} {bs : List W8} (hlo : off ≤ o) (hhi : o < off + bs.length) :
    ∃ e ∈ cutBeats off bs, e.1 ≤ o ∧ o < e.1 + e.2.length := by
  refine ⟨_, List.mem_map.mpr ⟨_, List.mem_map.mpr ⟨o / 64, mem_span.mpr ⟨by omega, by omega⟩, rfl⟩, rfl⟩, ?_⟩
  dsimp only
  rw [List.length_take, List.length_drop]
  omega

/-- A run of bytes written by its pieces of 64 bytes is written. -/
theorem Cells.get_writeBeats (m : Cells) (off : Nat) (bs : List W8) (o : Nat) :
    ((cutBeats off bs).foldl (fun m b => Cells.write m b.1 b.2) m).get o = (m.write off bs).get o := by
  have h := Cells.get_foldl_write (L := cutBeats off bs) (g := fun o => bs.getD (o - off) 0) (fun e he => (cutBeats_piece he).2.2) m o
  by_cases hin : off ≤ o ∧ o < off + bs.length
  · rw [h.1 (cutBeats_covers hin.1 hin.2)]
    obtain ⟨i, rfl⟩ := Nat.exists_eq_add_of_le hin.1
    rw [Cells.get_write_in (by omega), Nat.add_sub_cancel_left]
  · rw [h.2, Cells.get_write_outside (by omega)]
    intro e he
    obtain ⟨h1, h2, -⟩ := cutBeats_piece he
    omega

theorem Core.readBuf_eq {k : Core} {off : Nat} {bs : List W8} (h : ∀ i, i < bs.length → k.aspace.get (off + i) = bs.getD i 0) :
    k.readBuf true off bs.length = bs := by
  refine List.ext_getElem (by simp [Core.readBuf, Cells.read]) fun i h1 h2 => ?_
  have := h i h2
  rw [List.getD_eq_getElem?_getD, List.getElem?_eq_getElem h2, Option.getD_some] at this
  rw [← this]
  simp [Core.readBuf, Cells.read, Core.buf]

theorem Core.readBuf_of_get {k : Core} {m : Cells} {off : Nat} {bs : List W8} (h : ∀ o, k.aspace.get o = (m.write off bs).get o) :
    k.readBuf true off bs.length = bs :=
  Core.readBuf_eq fun i hi => by rw [h, Cells.get_write_in hi]

/-- Writes of the A-space one after another: its bytes, and pushes, block counters, tables and the cycle's log besides. -/
theorem Core.foldl_writeBuf_eq (L : List (Nat × List W8)) (k : Core) : ∃ wl ps b tb, L.foldl (fun k b => k.writeBuf true b.1 b.2) k =
    { k with aspace := L.foldl (fun m b => Cells.write m b.1 b.2) k.aspace, wlog := wl, pushes := ps, blocks := b, tables := tb } := by
  induction L generalizing k with
  | nil => exact ⟨_, _, _, _, rfl⟩
  | cons e L ih =>
    obtain ⟨wl, ps, b, tb, h⟩ := k.writeBuf_aspace e.1 e.2
    rw [List.foldl_cons, h]
    obtain ⟨wl', ps', b', tb', h'⟩ := ih { k with aspace := k.aspace.write e.1 e.2, wlog := wl, pushes := ps, blocks := b, tables := tb }
    rw [h']
    exact ⟨wl', ps', b', tb', rfl⟩

/-- A row written by its beats is in the A-space, and touches pushes, block counters, tables and the cycle's log besides. -/
theorem Core.writeRow_eq (k : Core) (off : Nat) (bs : List W8) :
    ∃ m wl ps b tb, k.writeRow off bs = { k with aspace := m, wlog := wl, pushes := ps, blocks := b, tables := tb } ∧
      ∀ o, m.get o = (k.aspace.write off bs).get o := by
  obtain ⟨wl, ps, b, tb, h⟩ := Core.foldl_writeBuf_eq (cutBeats off bs) k
  exact ⟨_, wl, ps, b, tb, h, k.aspace.get_writeBeats off bs⟩

/-! ### The end of an EPI (R173, R373) -/

/-- Between two states nothing but what is due on one core has changed, and the source of free values. -/
def State.OnlyActs (s t : State) (c : Nat) : Prop := s.ElseSame t c ∧ ∃ acts, t.core c = { s.core c with acts := acts }

theorem State.OnlyActs.refl (s : State) (c : Nat) : s.OnlyActs s c := ⟨(State.OnlyCore.refl s c).elseSame, _, rfl⟩

theorem State.OnlyActs.trans {s t u : State} {c : Nat} (h : s.OnlyActs t c) (g : t.OnlyActs u c) : s.OnlyActs u c := by
  obtain ⟨he, a, ha⟩ := h
  obtain ⟨ge, b, hb⟩ := g
  exact ⟨he.trans ge, b, by rw [hb, ha]⟩

theorem State.onlyActs_addAct (s : State) (c due issued : Nat) (q : SeqId) (pc : Nat) (p : Pay) : s.OnlyActs (s.addAct c due issued q pc p) c :=
  ⟨(s.onlyCore_addAct c due issued q pc p).elseSame, _, State.core_addAct _ _ _ _ _ _ _⟩

theorem State.Redrawn.onlyActs {s t : State} (h : s.Redrawn t) (c : Nat) : s.OnlyActs t c :=
  ⟨(h.onlyCore c).elseSame, (s.core c).acts, by rw [h.core]⟩

theorem State.askBias_onlyActs (s : State) (c : Nat) : s.OnlyActs (s.askBias c) c := by
  unfold State.askBias
  split
  · exact .refl s c
  · dsimp only
    split
    · exact .refl s c
    · exact foldl_rel (R := fun (s t : State) => s.OnlyActs t c) (fun s => .refl s c) (fun h g => h.trans g)
        (fun (s : State) p => (s.draw_redrawn.onlyActs c).trans (State.onlyActs_addAct _ _ _ _ _ _ _)) _ _

/-- The core once its oldest EPI has written its status word. -/
def Core.epiEnded (k : Core) (now : Nat) (e : EpiCmd) (rest : List EpiCmd) : Core :=
  { ((k.claimFree now true (banksOf (eStatusAt e.record) 8)).writeEpi (eStatusAt e.record) (leBytes 8 (e.st ||| e.sticky).toNat)) with epi := rest }

theorem Core.epiEnded_spec (k : Core) (now : Nat) (e : EpiCmd) (rest : List EpiCmd) :
    (k.epiEnded now e rest).epi = rest ∧ (k.epiEnded now e rest).aspace = k.aspace.write (eStatusAt e.record) (leBytes 8 (e.st ||| e.sticky).toNat) ∧
      ∀ acts, k.SameData { k.epiEnded now e rest with acts := acts, aspace := k.aspace, tables := k.tables } := by
  obtain ⟨wl, ps, b, tb, h⟩ := (k.claimFree now true (banksOf (eStatusAt e.record) 8)).writeBuf_aspace (eStatusAt e.record) (leBytes 8 (e.st ||| e.sticky).toNat)
  unfold Core.epiEnded Core.writeEpi
  rw [h]
  exact ⟨rfl, rfl, fun acts => ⟨fun _ _ => rfl, fun _ _ => rfl, rfl, rfl, rfl, rfl, rfl, fun _ => rfl, fun _ => rfl, rfl, rfl, rfl⟩⟩

theorem exec_epiComplete_due {s : State} {c : Nat} {e : EpiCmd} {rest : List EpiCmd} (he : (s.core c).epi = e :: rest) (hs : e.start ≠ none)
    (ht : e.todo = []) (hr : eRows e.record ≤ e.row) (hd : e.due ≤ s.now)
    (hf : (s.core c).banksFree s.now true (banksOf (eStatusAt e.record) 8) = true) :
    exec (.epiComplete c) s = .next ((s.setCore c ((s.core c).epiEnded s.now e rest)).askBias c) := by
  have hn : e.start.isNone = false := by rwa [Option.isNone_eq_false_iff, Option.isSome_iff_ne_none]
  have h1 : ¬ e.row < eRows e.record := Nat.not_lt.mpr hr
  have h2 : ¬ s.now < e.due := Nat.not_lt.mpr hd
  rw [exec_epiComplete]
  simp only [execEpiComplete, he, hn, ht, List.isEmpty_nil, decide_eq_false h1, decide_eq_false h2, hf, Bool.not_true, Bool.or_self, Bool.false_eq_true,
    if_false] <;> rfl

/-! ### The updates of a SACC (R143, R199) -/

/-- The command as an update of its next row leaves it. -/
def SaccCmd.updated (m : SaccCmd) (k : Core) (ps : List (W32 × Row)) (r : W32) (more : List W32) (fresh due : Nat) : SaccCmd :=
  let off := hBase m.record + r.toNat * hStride m.record
  { (m.noteMade off (m.updateRow k off (rowsFor ps r) fresh).1) with
    todo := more, due := due, applied := if more.isEmpty then m.applied + ps.length else m.applied }

/-- The core as an update of its SACC's next row leaves it. -/
def Core.saccUpdated (k : Core) (now : Nat) (m : SaccCmd) (rest : List SaccCmd) (ps : List (W32 × Row)) (r : W32) (more : List W32) (fresh due : Nat) : Core :=
  let off := hBase m.record + r.toNat * hStride m.record
  let u := m.updateRow k off (rowsFor ps r) fresh
  let st := m.popStatus ps r ||| if more.isEmpty then m.popStatus ps 0xFFFFFFFF else 0
  { (((k.claimFree now true (banksOf off (4 * hCols m.record))).writeRow off u.1).landStatus now (st ||| u.2)) with
    sacc := m.updated k ps r more fresh due :: rest }

section
variable {s : State} {c : Nat} {m : SaccCmd} {rest : List SaccCmd} (hm : (s.core c).sacc = m :: rest) (hs : m.start ≠ none) (hd : m.due ≤ s.now)
include hm hs hd

theorem exec_saccUpdate_ends (ha : m.applied = m.count) : exec (.saccUpdate c) s = .next (s.setCore c { s.core c with sacc := rest }) := by
  have hn : m.start.isNone = false := by rwa [Option.isNone_eq_false_iff, Option.isSome_iff_ne_none]
  have h2 : ¬ s.now < m.due := Nat.not_lt.mpr hd
  rw [exec_saccUpdate]
  simp only [execSaccUpdate, hm, hn, decide_eq_false h2, Bool.or_self, Bool.false_eq_true, if_false, if_pos ha]

variable {ps : List (W32 × Row)} {r : W32} {more : List W32} (ha : m.applied ≠ m.count) (hp : m.pairsNow = some ps) (ht : m.todo = r :: more)
include ha hp ht

theorem exec_saccUpdate_outside (hr : (r.getLsbD 31 || decide (hRows m.record ≤ r.toNat)) = true) :
    exec (.saccUpdate c) s = .next ((s.drawDue.2.setCore c { s.core c with sacc := { m with due := s.now + 1 } :: rest }).raise c
      (commandFault m.pc m.issued 0x08 (BitVec.ofNat 64 m.hd))) := by
  have hn : m.start.isNone = false := by rwa [Option.isNone_eq_false_iff, Option.isSome_iff_ne_none]
  have h2 : ¬ s.now < m.due := Nat.not_lt.mpr hd
  rw [exec_saccUpdate]
  simp only [execSaccUpdate, hm, hn, decide_eq_false h2, Bool.or_self, Bool.false_eq_true, if_false, if_neg ha, hp, ht, List.isEmpty_cons, hr, if_true] <;> rfl

theorem exec_saccUpdate_row (hr : (r.getLsbD 31 || decide (hRows m.record ≤ r.toNat)) = false)
    (hf : (s.core c).banksFree s.now true (banksOf (hBase m.record + r.toNat * hStride m.record) (4 * hCols m.record)) = true) :
    exec (.saccUpdate c) s = .next (({ s.drawDue.2 with fresh := s.drawDue.2.fresh + hCols m.record } : State).setCore c
      ((s.core c).saccUpdated s.now m rest ps r more s.drawDue.2.fresh s.drawDue.1)) := by
  have hn : m.start.isNone = false := by rwa [Option.isNone_eq_false_iff, Option.isSome_iff_ne_none]
  have h2 : ¬ s.now < m.due := Nat.not_lt.mpr hd
  have hnow : s.drawDue.2.now = s.now := s.drawDue_redrawn.now
  rw [exec_saccUpdate]
  simp only [hnow, execSaccUpdate, hm, hn, decide_eq_false h2, Bool.or_self, Bool.false_eq_true, if_false, if_neg ha, hp, ht, List.isEmpty_cons, hr, hf, Bool.not_true] <;> rfl

end

theorem Core.landStatus_eq (k : Core) (now : Nat) (st : Status) :
    ∃ vs vn acts, k.landStatus now st = { k with vstat := vs, vnew := vn, acts := acts } := by
  unfold Core.landStatus Core.addStatus
  split <;> exact ⟨_, _, _, rfl⟩

theorem Core.saccUpdated_spec (k : Core) (now : Nat) (m : SaccCmd) (rest : List SaccCmd) (ps : List (W32 × Row)) (r : W32) (more : List W32) (fresh due : Nat) :
    let l := k.saccUpdated now m rest ps r more fresh due
    let off := hBase m.record + r.toNat * hStride m.record
    k.SameData { l with aspace := k.aspace, tables := k.tables, vstat := k.vstat } ∧
      ∀ o, l.aspace.get o = (k.aspace.write off (m.updateRow k off (rowsFor ps r) fresh).1).get o := by
  intro l off
  obtain ⟨a, wl, pu, b, tb, h, ha⟩ := (k.claimFree now true (banksOf off (4 * hCols m.record))).writeRow_eq off (m.updateRow k off (rowsFor ps r) fresh).1
  obtain ⟨vs, vn, acts, h'⟩ := (({ k.claimFree now true (banksOf off (4 * hCols m.record)) with
    aspace := a, wlog := wl, pushes := pu, blocks := b, tables := tb } : Core)).landStatus_eq now
      ((m.popStatus ps r ||| if more.isEmpty then m.popStatus ps 0xFFFFFFFF else 0) ||| (m.updateRow k off (rowsFor ps r) fresh).2)
  simp only [l, Core.saccUpdated]
  rw [h, h']
  exact ⟨⟨fun _ _ => rfl, fun _ _ => rfl, rfl, rfl, rfl, rfl, rfl, fun _ => rfl, fun _ => rfl, rfl, rfl, rfl⟩, ha⟩

theorem SaccCmd.foldl_step_fst (m : SaccCmd) (ws : List W32) (acc : W32 × Status) :
    (ws.foldl (fun (a : W32 × Status) w => ((m.op.op m.flushing a.1 w).1, a.2 ||| (m.op.op m.flushing a.1 w).2)) acc).1 =
      ws.foldl (fun a w => (m.op.op m.flushing a w).1) acc.1 := by
  induction ws generalizing acc with
  | nil => rfl
  | cons w ws ih => exact ih _

/-- A column: the values of its index combined in pair order, then into the destination (R199). -/
theorem SaccCmd.column_cons (m : SaccCmd) (own : Bool) (d v : W32) (ws : List W32) :
    (m.column own d (v :: ws)).1 = (m.op.op m.flushing d (ws.foldl (fun a w => (m.op.op m.flushing a w).1) v)).1 := by
  show (m.op.op m.flushing d _).1 = _
  exact congrArg (fun x => (m.op.op m.flushing d x).1) (m.foldl_step_fst ws (v, 0))

theorem getD_flatMap_blocks {α : Type} {f : α → List W8} {n : Nat} (hf : ∀ a, (f a).length = n) {l : List α} {j i : Nat} {a : α} (hj : l[j]? = some a)
    (hi : i < n) : (l.flatMap f).getD (n * j + i) 0 = (f a).getD i 0 := by
  induction l generalizing j with
  | nil => cases hj
  | cons b l ih =>
    rw [List.flatMap_cons]
    cases j with
    | zero =>
      cases hj
      rw [Nat.mul_zero, Nat.zero_add, List.getD_append _ _ _ _ (by rw [hf]; exact hi)]
    | succ j =>
      rw [List.getD_append_right _ _ _ _ (by rw [hf, Nat.mul_succ]; omega), hf, ← ih hj]
      congr 1
      rw [Nat.mul_succ]
      omega

theorem SaccCmd.length_updateRow (m : SaccCmd) (k : Core) (off : Nat) (vs : List Row) (fresh : Nat) :
    (m.updateRow k off vs fresh).1.length = 4 * hCols m.record := by
  simp only [SaccCmd.updateRow, List.length_flatMap, length_leBytes, List.map_const', List.sum_replicate, List.length_map, List.length_range, smul_eq_mul]
  omega

/-- The bytes of a column of an updated row. -/
theorem SaccCmd.updateRow_column {m : SaccCmd} {j : Nat} (hc : j < hCols m.record) (hj : j < 64) (k : Core) (off : Nat) {vs : List Row} (fresh : Nat)
    {v : W32} {ws : List W32} (hv : (vs.map fun x => x.lane j) = v :: ws) {i : Nat} (hi : i < 4) :
    (m.updateRow k off vs fresh).1.getD (4 * j + i) 0 =
      (leBytes 4 (m.op.op m.flushing (BitVec.ofNat 32 (leNat (k.viewBuf true (off + 4 * j) 4)))
        (ws.foldl (fun a w => (m.op.op m.flushing a w).1) v)).1.toNat).getD i 0 := by
  unfold SaccCmd.updateRow
  dsimp only
  rw [getD_flatMap_blocks (fun _ => length_leBytes 4 _) (by rw [List.getElem?_map, List.getElem?_range hc]; rfl) hi]
  beta_reduce
  rw [if_pos hj, hv, SaccCmd.column_cons]

/-- Settles O49. -/
theorem epilogueAndScatterSteps : Obligations.EpilogueAndScatterSteps := by
  unfold Obligations.EpilogueAndScatterSteps
  intro s c k
  refine ⟨fun e rest he hs ht hr hd => ?_, fun m rest hm hs hd => ⟨fun ha => ?_, fun ps r more ha hp ht => ?_⟩⟩
  · intro a hf
    obtain ⟨hepi, hasp, hdata⟩ := k.epiEnded_spec s.now e rest
    obtain ⟨hels, acts, hcore⟩ := (s.setCore c (k.epiEnded s.now e rest)).askBias_onlyActs c
    rw [State.core_setCore] at hcore
    refine ⟨_, exec_epiComplete_due he hs ht hr hd hf, ?_, ?_, ?_, ((s.elseSame_setCore c _).trans hels).alters ?_⟩ <;> rw [hcore]
    · exact hepi
    · exact Core.readBuf_of_get (bs := leBytes 8 (e.st ||| e.sticky).toNat) fun o => by rw [← hasp]
    · intro o ho
      show (k.epiEnded s.now e rest).aspace.get o = _
      rw [hasp, Cells.get_write_outside (by rwa [length_leBytes])]
    · exact hdata acts
  · refine ⟨_, exec_saccUpdate_ends hm hs hd ha, State.onlyCore_setCore ?_, by rw [State.core_setCore]⟩
    exact ⟨fun _ _ => rfl, fun _ _ => rfl, rfl, rfl, rfl, rfl, rfl, fun _ => rfl, fun _ => rfl, rfl, rfl, rfl⟩
  · intro off
    have hdraw := s.drawDue_redrawn
    refine ⟨fun hr => ?_, fun hneg hrow hf => ?_⟩
    · refine ⟨_, ?_, exec_saccUpdate_outside hm hs hd ha hp ht (by simpa using hr)⟩
      refine (hdraw.onlyCore c).trans (State.onlyCore_setCore ?_)
      rw [hdraw.core]
      exact ⟨fun _ _ => rfl, fun _ _ => rfl, rfl, rfl, rfl, rfl, rfl, fun _ => rfl, fun _ => rfl, rfl, rfl, rfl⟩
    · have hx := exec_saccUpdate_row hm hs hd ha hp ht (by rw [hneg, decide_eq_false (Nat.not_le.mpr hrow)]; rfl) hf
      obtain ⟨hdata, hasp⟩ := k.saccUpdated_spec s.now m rest ps r more s.drawDue.2.fresh s.drawDue.1
      have hels : s.ElseSame (({ s.drawDue.2 with fresh := s.drawDue.2.fresh + hCols m.record } : State).setCore c
          (k.saccUpdated s.now m rest ps r more s.drawDue.2.fresh s.drawDue.1)) c :=
        (State.Redrawn.onlyCore (s := s) (t := { s.drawDue.2 with fresh := s.drawDue.2.fresh + hCols m.record }) ⟨_, rfl⟩ c).elseSame.trans
          (State.elseSame_setCore _ _ _)
      refine ⟨_, hx, fun j v ws hc hj hv => ?_, fun o ho => ?_, hels.alters ?_⟩ <;> rw [State.core_setCore]
      · refine Core.readBuf_eq (bs := leBytes 4 _) fun i hi => ?_
        have hi4 : i < 4 := by rwa [length_leBytes] at hi
        have hlen : 4 * j + i < (m.updateRow k off (rowsFor ps r) s.drawDue.2.fresh).1.length := by
          rw [SaccCmd.length_updateRow]
          omega
        rw [hasp, Nat.add_assoc, Cells.get_write_in hlen]
        exact SaccCmd.updateRow_column hc hj k off s.drawDue.2.fresh (by rw [rowsFor, List.map_map]; exact hv) hi4
      · rw [hasp, Cells.get_write_outside (by rwa [SaccCmd.length_updateRow])]
      · exact hdata

end Sys2Proof.Machine
end

section
/-! PROOFS. What drains: held effects, copies, pushed rows and mirrors (O50). -/

namespace Sys2Proof.Machine

/-! ### A store through the remote aperture (R182, R188) -/

theorem State.core_modCore_ite (s : State) (c e : Nat) (f : Core → Core) : (s.modCore c f).core e = if e = c then f (s.core c) else s.core e := by
  split
  · next h => rw [h, State.core_modCore]
  · next h => rw [State.core_modCore_other s f h]

theorem Core.foldl_touchBlocks_eq (k : Core) (l : List Nat) :
    ∃ b tb, l.foldl (fun k b => k.touchBlocks (1024 * b) 1) k = { k with blocks := b, tables := tb } := by
  induction l generalizing k with
  | nil => exact ⟨_, _, rfl⟩
  | cons x l ih =>
    obtain ⟨b, tb, h⟩ := k.touchBlocks_eq (1024 * x) 1
    obtain ⟨b', tb', h'⟩ := ih { k with blocks := b, tables := tb }
    rw [List.foldl_cons, h]
    exact ⟨b', tb', h'⟩

/-- A core whose buffer a store through the remote aperture has written. -/
def Core.remoteWritten (k : Core) (now : Nat) (isA : Bool) (bytes : List Host.Cell) : Core :=
  let k := (k.claimFree now isA (bytes.map fun b => b.1 / 64 % 16)).writeBytes isA bytes
  if isA then (bytes.map fun b => b.1 / 1024).eraseDups.foldl (fun k b => k.touchBlocks (1024 * b) 1) k else k

theorem Core.writeBytes_spec (k : Core) (isA : Bool) (bytes : List Host.Cell) :
    (k.writeBytes isA bytes).buf isA = (k.buf isA).writeAll bytes ∧ (k.writeBytes isA bytes).held = k.held := by
  cases isA <;> exact ⟨rfl, rfl⟩

theorem Core.buf_claimFree (k : Core) (now : Nat) (a : Bool) (banks : List Nat) (isA : Bool) : (k.claimFree now a banks).buf isA = k.buf isA := by
  cases isA <;> rfl

theorem Core.buf_withBlocks (k : Core) (b : List (Nat × Nat)) (tb : List Table) : ({ k with blocks := b, tables := tb } : Core).buf true = k.buf true := rfl

theorem Core.remoteWritten_spec (k : Core) (now : Nat) (isA : Bool) (bytes : List Host.Cell) :
    (k.remoteWritten now isA bytes).buf isA = (k.buf isA).writeAll bytes ∧ (k.remoteWritten now isA bytes).held = k.held := by
  obtain ⟨hbuf, hheld⟩ := (k.claimFree now isA (bytes.map fun b => b.1 / 64 % 16)).writeBytes_spec isA bytes
  rw [Core.buf_claimFree] at hbuf
  unfold Core.remoteWritten
  cases isA
  · exact ⟨hbuf, hheld⟩
  · obtain ⟨b, tb, h⟩ := ((k.claimFree now true (bytes.map fun b => b.1 / 64 % 16)).writeBytes true bytes).foldl_touchBlocks_eq
      (bytes.map fun b => b.1 / 1024).eraseDups
    simp only [if_true, h, Core.buf_withBlocks]
    exact ⟨hbuf, hheld⟩

/-- The state in which a store through the remote aperture makes its write. -/
def State.remoteSent (s : State) (c : Nat) (h : Held) (d : Nat) : State := (s.modCore c fun k => k.freeHeld h.id).stampBuffer d c h.by_

theorem State.drainRemote_eq (s : State) (c : Nat) (h : Held) (d : Nat) (isA : Bool) (bytes : List Host.Cell) :
    s.drainRemote c h d isA bytes = (s.remoteSent c h d).modCore d fun k => k.remoteWritten s.now isA bytes := rfl

theorem Core.buf_freeHeld (k : Core) (id : Nat) (isA : Bool) : (k.freeHeld id).buf isA = k.buf isA := by cases isA <;> rfl

theorem Core.buf_withStamp (k : Core) (st : List Nat) (isA : Bool) : ({ k with bufStamp := st } : Core).buf isA = k.buf isA := by cases isA <;> rfl

theorem State.buf_remoteSent (s : State) (c : Nat) (h : Held) (d e : Nat) (isA : Bool) : ((s.remoteSent c h d).core e).buf isA = (s.core e).buf isA := by
  have free (e : Nat) : ((s.modCore c fun k => k.freeHeld h.id).core e).buf isA = (s.core e).buf isA := by
    rw [State.core_modCore_ite]
    split
    · next he => rw [he, Core.buf_freeHeld]
    · rfl
  unfold State.remoteSent State.stampBuffer
  dsimp only
  rw [State.core_modCore_ite]
  split
  · next he => rw [Core.buf_withStamp, free, he]
  · exact free e

theorem State.held_remoteSent (s : State) (c : Nat) (h : Held) (d : Nat) : ∀ x ∈ ((s.remoteSent c h d).core c).held, x.id ≠ h.id := by
  have free : ((s.remoteSent c h d).core c).held = ((s.core c).freeHeld h.id).held := by
    unfold State.remoteSent State.stampBuffer
    dsimp only
    rw [State.core_modCore_ite]
    split
    · next he => rw [← he, State.core_modCore]
    · rw [State.core_modCore]
  intro x hx
  rw [free] at hx
  simpa using (List.mem_filter.mp hx).2

theorem State.drainRemote_spec (s : State) (c : Nat) (h : Held) (d : Nat) (isA : Bool) (bytes : List Host.Cell) :
    let t := s.drainRemote c h d isA bytes
    (t.core d).buf isA = ((s.core d).buf isA).writeAll bytes ∧ (∀ x ∈ (t.core c).held, x.id ≠ h.id) ∧ t.mem = s.mem := by
  intro t
  have ht : t = (s.remoteSent c h d).modCore d fun k => k.remoteWritten s.now isA bytes := s.drainRemote_eq c h d isA bytes
  refine ⟨?_, ?_, by rw [ht]; rfl⟩
  · rw [ht, State.core_modCore, (Core.remoteWritten_spec _ _ _ _).1, State.buf_remoteSent]
  · have hheld : (t.core c).held = ((s.remoteSent c h d).core c).held := by
      rw [ht, State.core_modCore_ite]
      split
      · next he => rw [(Core.remoteWritten_spec _ _ _ _).2, he]
      · rfl
    rw [hheld]
    exact s.held_remoteSent c h d

/-! ### Beats of copies (R191, R193) -/

/-- A copy that has one beat and no acknowledgement to take has that beat ready. -/
theorem State.copyReady_one {s : State} {c : Nat} {cp : Copy} {b : Beat} (hr : s.copyReady c cp = true) (ha : cp.acks = []) (hb : cp.beats = [b]) :
    cp.beats.filter (s.beatReady c) = [b] := by
  simp only [State.copyReady, ha, hb, List.any_nil, Bool.false_or, List.any_cons, Bool.or_false, Bool.and_eq_true] at hr
  rw [hb, List.filter_cons_of_pos hr.1.2, List.filter_nil]

section
variable {s : State} {c : Nat} {cp : Copy} {b : Beat} (hc : (s.core c).copy? cp.id = some cp) (hr : s.copyReady c cp = true) (ha : cp.acks = [])
  (hb : cp.beats = [b])
include hc hr ha hb

theorem exec_copyBeat_piece {d off n : Nat} {isA : Bool} (hs : b.srcs = [(.buf d isA off, n)]) (h0 : b.read = 0) :
    exec (.copyBeat c cp.id) s = .next (s.draw.2.readPiece c cp b (.buf d isA off) n) := by
  have hp : b.piece = some (.buf d isA off, n) := by rw [Beat.piece, hs, h0]; rfl
  have hn : b.nextEnds = [(.buf d isA off, n)] := by rw [Beat.nextEnds, hp]
  rw [exec_copyBeat]
  simp only [execCopyBeat, hc, hr, ha, State.copyReady_one hr ha hb, Bool.not_true, Bool.false_eq_true, if_false, List.any_nil, List.length_singleton, Nat.mod_one,
    List.getElem?_cons_zero, hn, hp, List.findSome?_cons, List.findSome?_nil, State.deadEnd]

theorem exec_copyBeat_whole {d off : Nat} {isA : Bool} (hs : b.srcs.length ≤ b.read) (hd : b.dsts = [.buf d isA off]) :
    exec (.copyBeat c cp.id) s = .next (s.draw.2.writeBeat c cp b) := by
  have hp : b.piece = none := List.getElem?_eq_none hs
  have hn : b.nextEnds = [(.buf d isA off, b.len)] := by rw [Beat.nextEnds, hp, hd]; rfl
  rw [exec_copyBeat]
  simp only [execCopyBeat, hc, hr, ha, State.copyReady_one hr ha hb, Bool.not_true, Bool.false_eq_true, if_false, List.any_nil, List.length_singleton, Nat.mod_one,
    List.getElem?_cons_zero, hn, hp, List.findSome?_cons, List.findSome?_nil, State.deadEnd]

end

/-- The first of a list with some number, replaced where it stands. -/
theorem find?_map_replace {l : List Copy} {x y : Copy} (hx : l.find? (fun z => z.id == y.id) = some x) :
    (l.map fun z => if z.id == y.id then y else z).find? (fun z => z.id == y.id) = some y := by
  induction l with
  | nil => cases hx
  | cons z l ih =>
    rw [List.map_cons]
    by_cases hz : (z.id == y.id) = true
    · simp [hz]
    · simp only [List.find?_cons, Bool.eq_false_iff.mpr hz] at hx
      rw [if_neg hz]
      simp only [List.find?_cons, Bool.eq_false_iff.mpr hz]
      exact ih hx

theorem Core.copy?_setCopy {k : Core} {x y : Copy} (hx : k.copy? y.id = some x) (hb : y.beats ≠ []) : (k.setCopy y).copy? y.id = some y := by
  have hne : y.beats.isEmpty = false := by simpa using hb
  simp only [Core.setCopy, hne, Bool.false_and, Bool.false_eq_true, if_false, Core.copy?]
  exact find?_map_replace hx

theorem Core.copy?_setCopy_done {k : Core} {y : Copy} (hb : y.beats = []) (ha : y.acks = []) : (k.setCopy y).copy? y.id = none := by
  simp only [Core.setCopy, hb, ha, List.isEmpty_nil, Bool.and_self, if_true, Core.copy?, List.find?_eq_none, List.mem_filter]
  intro x hx
  simpa using hx.2

theorem Core.buf_setCopy (k : Core) (y : Copy) (isA : Bool) : (k.setCopy y).buf isA = k.buf isA := by
  unfold Core.setCopy
  split <;> rfl

theorem Core.copies_claimFree (k : Core) (now : Nat) (isA : Bool) (banks : List Nat) : (k.claimFree now isA banks).copies = k.copies := rfl

/-- The copy with a piece read in its one beat. -/
def Copy.pieceRead (cp : Copy) (b : Beat) (bs : List W8) (due : Nat) : Copy := { (cp.modBeat b.id fun x => x.take bs) with due := due }

/-- A piece of a buffer read by a copy. -/
theorem State.readPiece_spec (s : State) {c : Nat} {cp : Copy} (b : Beat) (d : Nat) (isA : Bool) (off n : Nat) (hc : (s.core c).copy? cp.id = some cp)
    (hb : cp.beats ≠ []) :
    let t := s.readPiece c cp b (.buf d isA off) n
    let y := cp.pieceRead b ((s.core d).viewBuf isA off n) s.drawDue.1
    (t.core c).copy? cp.id = some y ∧ (∀ e i, ((t.core e).buf i) = (s.core e).buf i) ∧ t.mem = s.mem := by
  intro t y
  have ht : t = ((s.modCore d fun k => k.claimFree s.now isA (banksOf off n)).drawDue.2).modCore c fun k => { k.setCopy y with copyAt := s.now + 1 } := rfl
  have hu (e : Nat) : (((s.modCore d fun k => k.claimFree s.now isA (banksOf off n)).drawDue.2).core e) =
      if e = d then (s.core d).claimFree s.now isA (banksOf off n) else s.core e := by
    rw [(State.drawDue_redrawn _).core, State.core_modCore_ite]
  have hcopies : (((s.modCore d fun k => k.claimFree s.now isA (banksOf off n)).drawDue.2).core c).copies = (s.core c).copies := by
    rw [hu]
    split
    · next h => rw [h]; rfl
    · rfl
  refine ⟨?_, fun e i => ?_, by rw [ht]; rfl⟩
  · rw [ht, State.core_modCore]
    refine Core.copy?_setCopy (x := cp) (y := y) ?_ ?_
    · rw [Core.copy?, hcopies]
      exact hc
    · exact fun h => hb (List.map_eq_nil_iff.mp h)
  · have keep : (((s.modCore d fun k => k.claimFree s.now isA (banksOf off n)).drawDue.2).core e).buf i = (s.core e).buf i := by
      rw [hu]
      split
      · next h => rw [h]; rfl
      · rfl
    rw [ht, State.core_modCore_ite]
    split
    · next h => rw [← h]; exact (Core.buf_setCopy _ _ _).trans keep
    · exact keep

/-- A beat of a buffer's core as a copy writes it. -/
def Core.beatWritten (k : Core) (now : Nat) (isA : Bool) (off : Nat) (b : Beat) : Core := (k.claimFree now isA (banksOf off b.len)).writeBuf isA off b.got

theorem Core.buf_beatWritten (k : Core) (now : Nat) (isA : Bool) (off : Nat) (b : Beat) : (k.beatWritten now isA off b).buf isA = (k.buf isA).write off b.got := by
  unfold Core.beatWritten
  cases isA
  · rw [Core.writeBuf_wspace]
    rfl
  · obtain ⟨wl, ps, bl, tb, h⟩ := (k.claimFree now true (banksOf off b.len)).writeBuf_aspace off b.got
    rw [h]
    rfl

theorem State.writeBeat_spec (s : State) {c : Nat} {cp : Copy} {b : Beat} {d off : Nat} {isA : Bool} (hd : b.dsts = [.buf d isA off]) (hb : cp.beats = [b])
    (ha : cp.acks = []) (harv : cp.arv = false) :
    let t := s.writeBeat c cp b
    (t.core d).buf isA = ((s.core d).buf isA).write off b.got ∧ (t.core c).copy? cp.id = none ∧ t.mem = s.mem := by
  intro t
  have ht : t = ((s.drawDue.2.modCore d fun k => k.beatWritten s.now isA off b).modCore c fun k =>
      k.setCopy { (cp.dropBeat b.id) with due := s.drawDue.1 }) := by
    simp only [t, State.writeBeat, hd, List.foldl_cons, List.foldl_nil, harv, Bool.false_eq_true, if_false] <;> rfl
  refine ⟨?_, ?_, by rw [ht]; rfl⟩
  · have hw : ((s.drawDue.2.modCore d fun k => k.beatWritten s.now isA off b).core d).buf isA = ((s.core d).buf isA).write off b.got := by
      rw [State.core_modCore, Core.buf_beatWritten, s.drawDue_redrawn.core]
    rw [ht, State.core_modCore_ite]
    split
    · next h => rw [← h, Core.buf_setCopy, hw]
    · exact hw
  · rw [ht, State.core_modCore]
    exact Core.copy?_setCopy_done (y := { (cp.dropBeat b.id) with due := s.drawDue.1 }) (by simp [Copy.dropBeat, hb]) ha

theorem Core.readBuf_of_buf {k : Core} {m : Cells} {isA : Bool} {off : Nat} {bs : List W8} (h : k.buf isA = m.write off bs) :
    k.readBuf isA off bs.length = bs := by
  refine List.ext_getElem (by simp [Core.readBuf, Cells.read]) fun i h1 h2 => ?_
  simp only [Core.readBuf, Cells.read, List.getElem_map, List.getElem_range, h]
  rw [Cells.get_write_in h2, List.getD_eq_getElem?_getD, List.getElem?_eq_getElem h2, Option.getD_some]

/-! ### The drain of a pushed row (R206) -/

section
variable {k : Core} {g : Nat} {p : Push} (hf : k.pushes.find? (fun x => x.port == g) = some p)
include hf

/-- What a drain leaves of the pushes: older rows without its bytes, and the rows behind it. -/
theorem Core.mem_pushes_drainPush {x : Push} (hx : x ∈ (k.drainPush g).pushes) :
    x.id ≠ p.id ∧ ((∀ o ∈ p.offs, o ∉ x.offs) ∨ x ∈ k.pushes) := by
  rw [Core.drainPush, hf] at hx
  rcases List.mem_append.mp hx with hx | hx
  · obtain ⟨y, hy, rfl⟩ := List.mem_map.mp hx
    refine ⟨?_, .inl fun o ho hmem => ?_⟩
    · have := List.all_takeWhile (p := fun z : Push => z.id != p.id) (l := k.pushes)
      simpa using List.all_eq_true.mp this y hy
    · have := (List.mem_filter.mp hmem).2
      simp [ho] at this
  · obtain ⟨hmem, hcond⟩ := List.mem_filter.mp hx
    rw [Bool.and_eq_true] at hcond
    exact ⟨by simpa using hcond.2, .inr hmem⟩

theorem Core.viewA_drainPush {o : Nat} (ho : o ∈ p.offs) (hn : ∀ x ∈ k.pushes, x.id ≠ p.id → o ∉ x.offs) : (k.drainPush g).viewA o = k.aspace.get o := by
  have hnone : (k.drainPush g).pushes.find? (fun x => x.offs.contains o) = none := by
    rw [List.find?_eq_none]
    intro x hx hc
    have hmem : o ∈ x.offs := by simpa using hc
    obtain ⟨hid, h | h⟩ := Core.mem_pushes_drainPush hf hx
    · exact h o ho hmem
    · exact hn x h hid hmem
  rw [Core.viewA, hnone]
  obtain ⟨ps, h⟩ := k.drainPush_eq g
  rw [h]

end

/-- Settles O50. -/
theorem drains : Obligations.Drains := by
  unfold Obligations.Drains
  intro s c k
  refine ⟨fun h hf hr => ⟨?_, fun d isA off bs rl hk => ?_⟩, fun cp b p isA off n hc hr ha hb hs h0 => ?_,
    fun cp b d isA off hc hr ha harv hb hs hd hlen => ?_, fun g p hf hdue hn => ?_, fun a m hf hm h0 hdue => ?_⟩
  · have hf' : (s.core c).held.find? (fun x => x.id == h.id) = some h := hf
    rw [exec_heldEffectDrain]
    simp only [execHeldEffectDrain, hf', hr, if_true]
  · have hd : s.drain c h = s.drainRemote c h d isA bs := by rw [State.drain, hk]
    obtain ⟨hbuf, hheld, hmem⟩ := s.drainRemote_spec c h d isA bs
    rw [hd]
    exact ⟨fun a => by rw [hbuf], hheld, fun a => by rw [hmem]⟩
  · have hcore : s.draw.2.core c = k := s.draw_redrawn.core c
    obtain ⟨hcopy, hbuf, hmem⟩ := s.draw.2.readPiece_spec b p isA off n (by rw [hcore]; exact hc) (by rw [hb]; exact List.cons_ne_nil _ _)
    refine ⟨_, _, exec_copyBeat_piece hc hr ha hb hs h0, hcopy, ha, ?_, fun e i o => ?_, hmem⟩
    · show (cp.beats.map _) = _
      rw [hb, s.draw_redrawn.core p]
      simp [Beat.take, h0]
    · rw [hbuf, s.draw_redrawn.core e]
  · obtain ⟨hbuf, hcopy, hmem⟩ := s.draw.2.writeBeat_spec (c := c) hd hb ha harv
    rw [s.draw_redrawn.core d] at hbuf
    refine ⟨_, exec_copyBeat_whole hc hr ha hb hs hd, ?_, fun o ho => ?_, hcopy, hmem⟩
    · rw [← hlen]
      exact Core.readBuf_of_buf hbuf
    · rw [hbuf, Cells.get_write_outside (by rwa [hlen])]
  · have hf' : (s.core c).pushes.find? (fun x => x.port == g) = some p := hf
    have hx : exec (.portDrain c g) s = .next (s.modCore c fun k => k.drainPush g) := by
      rw [exec_portDrain]
      simp only [execPortDrain, hf', decide_eq_false (Nat.not_lt.mpr hdue), hn, Bool.or_self, Bool.false_eq_true, if_false]
    refine ⟨_, hx, s.onlyCore_modCore c _ ?_, ?_, ?_⟩
    · obtain ⟨ps, h⟩ := (s.core c).drainPush_eq g
      rw [h]
      exact ⟨fun _ _ => rfl, fun _ _ => rfl, rfl, rfl, rfl, rfl, rfl, fun _ => rfl, fun _ => rfl, rfl, rfl, rfl⟩
    · rw [State.core_modCore]
      exact fun x hx => (Core.mem_pushes_drainPush hf' hx).1
    · rw [State.core_modCore]
      exact fun o ho hno => Core.viewA_drainPush hf' ho hno
  · have hfind : s.mirrors.find? (fun m => m.core == c && m.area == a && !m.complete && m.due != 0 && decide (m.due ≤ s.now)) = some m := by
      have hgood : (m.core == c && m.area == a && !m.complete && m.due != 0 && decide (m.due ≤ s.now)) = true := by
        have := List.find?_some hf
        simp_all
      have := List.find?_eq_some_iff_append.mp hf
      obtain ⟨-, as, bs, hl, hb⟩ := this
      refine List.find?_eq_some_iff_append.mpr ⟨hgood, as, bs, hl, fun x hx => ?_⟩
      have := hb x hx
      revert this
      cases x.core == c <;> cases x.area == a <;> simp
    have hx : exec (.mirrorAreaComplete c a) s = .next { s with mirrors := s.mirrors.map fun x =>
        if x.core == c && x.area == a && x.task == m.task then { x with complete := true, due := 0 } else x } := by
      rw [exec_mirrorAreaComplete, execMirrorAreaComplete, hfind]
    refine ⟨_, hx, ?_, rfl, rfl⟩
    refine List.mem_map.mpr ⟨m, List.mem_of_find?_eq_some hf, if_pos ?_⟩
    have := List.find?_some hf
    simpa using this

end Sys2Proof.Machine
end

section
/-! PROOFS. Grants, groups and chunks at their ends (O51). -/

namespace Sys2Proof.Machine

/-! ### Grants (R236) -/

theorem ChanEnd.slot_modSlot {e : ChanEnd} {i : Nat} (h : i < e.slots.length) (f : Slot → Slot) : (e.modSlot i f).slot i = f (e.slot i) := by
  simp [ChanEnd.slot, ChanEnd.modSlot, h]

theorem ChanEnd.takeGrant_fills {e : ChanEnd} {g : Grant} (hg : (e.slot g.slot).granted = false) (hs : g.gseq = (e.slot g.slot).nseq) :
    e.takeGrant g = e.modSlot g.slot fun x => { x with granted := true, off := g.off, len := g.len, darv := g.darv } := by
  simp [ChanEnd.takeGrant, hg, hs]

theorem ChanEnd.takeGrant_discards {e : ChanEnd} {g : Grant} (h : (e.slot g.slot).granted = true ∨ g.gseq ≠ (e.slot g.slot).nseq) :
    e.takeGrant g = { e with gerr := e.gerr || !(g.gseq == (e.slot g.slot).nseq - 1 || ((e.slot g.slot).granted && g.gseq == (e.slot g.slot).nseq)) } := by
  unfold ChanEnd.takeGrant
  dsimp only
  rw [if_neg]
  intro hn
  rw [Bool.and_eq_true, Bool.not_eq_true', beq_iff_eq] at hn
  rcases h with h | h
  · rw [hn.1] at h
    cases h
  · exact h hn.2

/-! ### Groups (R239) -/

/-- The write accesses of a group's bytes. -/
def Group.beats (g : Group) (bytes : List W8) : List (Nat × List W8) :=
  (List.range (ceilDiv g.len 64)).map fun b => (g.off + 64 * b, (bytes.drop (64 * b)).take 64)

/-- The receiver's core once a group has landed. -/
def Group.landed (g : Group) (bytes : List W8) (k : Core) : Core :=
  ((g.beats bytes).foldl (fun k b => k.writeBuf true b.1 b.2) k).arrive g.darv g.len

theorem Core.aspace_arrive (k : Core) (off b o : Nat) (h : o < off ∨ off + 16 ≤ o) : (k.arrive off b).aspace.get o = k.aspace.get o := by
  unfold Core.arrive
  split
  · rfl
  · refine Eq.trans (congrArg (fun m => Cells.get m o) (?_ : _ = (k.aspace.write off (leBytes 16 (arriveWord (leNat (k.readBuf true off 16)) b))))) ?_
    · rw [← Cells.writeAll_addrBytes]
      rfl
    · exact Cells.get_write_outside (by rwa [length_leBytes])

section
variable {g : Group} {bytes : List W8} (hl : bytes.length = g.len)
include hl

theorem Group.beat_piece {e : Nat × List W8} (h : e ∈ g.beats bytes) :
    g.off ≤ e.1 ∧ e.1 + e.2.length ≤ g.off + g.len ∧ ∀ i, i < e.2.length → e.2.getD i 0 = bytes.getD (e.1 + i - g.off) 0 := by
  obtain ⟨b, hb, rfl⟩ := List.mem_map.mp h
  have hb := List.mem_range.mp hb
  unfold ceilDiv at hb
  dsimp only
  rw [List.length_take, List.length_drop]
  refine ⟨by omega, by omega, fun i hi => ?_⟩
  rw [List.getD_eq_getElem?_getD, List.getElem?_take_of_lt (by omega), List.getElem?_drop, List.getD_eq_getElem?_getD]
  congr 2
  omega

theorem Group.beats_cover {o : Nat} (hlo : g.off ≤ o) (hhi : o < g.off + g.len) : ∃ e ∈ g.beats bytes, e.1 ≤ o ∧ o < e.1 + e.2.length := by
  refine ⟨_, List.mem_map.mpr ⟨(o - g.off) / 64, List.mem_range.mpr (by unfold ceilDiv; omega), rfl⟩, ?_⟩
  dsimp only
  rw [List.length_take, List.length_drop]
  omega

/-- What a landed group leaves of the receiver's A-space, apart from its arrival word. -/
theorem Group.aspace_landed (k : Core) {o : Nat} (h : o < g.darv ∨ g.darv + 16 ≤ o) :
    ((g.off ≤ o ∧ o < g.off + g.len) → (g.landed bytes k).aspace.get o = bytes.getD (o - g.off) 0) ∧
    ((o < g.off ∨ g.off + g.len ≤ o) → (g.landed bytes k).aspace.get o = k.aspace.get o) := by
  obtain ⟨wl, ps, b, tb, hw⟩ := Core.foldl_writeBuf_eq (g.beats bytes) k
  have hg := Cells.get_foldl_write (L := g.beats bytes) (g := fun o => bytes.getD (o - g.off) 0) (fun e he => (Group.beat_piece hl he).2.2) k.aspace o
  rw [Group.landed, Core.aspace_arrive _ _ _ _ h, hw]
  refine ⟨fun hin => hg.1 (Group.beats_cover hl hin.1 hin.2), fun hout => hg.2 fun e he => ?_⟩
  obtain ⟨h1, h2, -⟩ := Group.beat_piece hl he
  omega

end

theorem exec_transomGroupLands_due {s : State} {g : Group} {bytes : List W8} {d : Nat} (hf : s.groups.find? (fun x => x.id == g.id) = some g)
    (hb : g.data = some bytes) (hd : g.due ≤ s.now) (hm : s.memberCore g.task g.rank = some d) (ht : (s.core d).task = some g.task) :
    ∃ u : State, u.cores = s.cores ∧ u.mem = s.mem ∧ (∀ x ∈ u.groups, x.id ≠ g.id) ∧ exec (.transomGroupLands g.id) s = .next (u.modCore d (g.landed bytes)) := by
  let v : State := { s with groups := s.groups.filter fun x => x.id != g.id }
  let u : State := if g.last then v.modEndOf g.task g.rank g.ch fun e => e.arrived g.slot g.gseq else v
  have hcores : u.cores = s.cores := by dsimp only [u]; split <;> rfl
  have htasks : u.tasks = s.tasks := by dsimp only [u]; split <;> rfl
  have hgroups : u.groups = v.groups := by dsimp only [u]; split <;> rfl
  have hmem : u.memberCore g.task g.rank = some d := by
    rw [← hm]
    unfold State.memberCore
    rw [State.task?_of_tasks htasks]
  have htask : (u.core d).task = some g.task := by rw [← ht, State.core_of_cores hcores]
  refine ⟨u, hcores, by dsimp only [u]; split <;> rfl, ?_, ?_⟩
  · rw [hgroups]
    intro x hx
    simpa using (List.mem_filter.mp hx).2
  · have hlt : ¬ s.now < g.due := Nat.not_lt.mpr hd
    rw [exec_transomGroupLands]
    unfold execTransomGroupLands
    simp only [hf, hb, if_neg hlt]
    change (match u.memberCore g.task g.rank with
      | none => Host.Outcome.next u
      | some c => if (u.core c).task != some g.task then .next u else .next (u.modCore c _)) = _
    simp only [hmem, htask, bne_self_eq_false, Bool.false_eq_true, if_false]
    refine congrArg Host.Outcome.next (congrArg (u.modCore d) (funext fun k => ?_))
    rw [Group.landed, Group.beats, List.foldl_map]

/-! ### Chunks (R330, R332) -/

section
variable {s : State} {x : Chunk}

theorem State.chunkBehind_of_first (h : ∀ y ∈ s.chunks, y.session = x.session → y.id ≠ x.id → x.due < y.due ∨ (x.due = y.due ∧ x.id ≤ y.id)) :
    s.chunkBehind x = false := by
  unfold State.chunkBehind
  rw [List.any_eq_false]
  intro y hy hc
  simp only [Bool.and_eq_true, beq_iff_eq, bne_iff_ne, Bool.or_eq_true, decide_eq_true_eq] at hc
  obtain ⟨⟨hs, hid⟩, hdue⟩ := hc
  have := h y hy hs hid
  omega

theorem State.chunkYields_of (h : x.action = true ∨ ∀ y ∈ s.chunks, y.action = true → s.now < y.due) : s.chunkYields x = false := by
  unfold State.chunkYields
  rcases h with h | h
  · rw [h]
    rfl
  · rw [Bool.and_eq_false_iff]
    right
    rw [List.any_eq_false]
    intro y hy hc
    simp only [Bool.and_eq_true, decide_eq_true_eq] at hc
    have := h y hy hc.1.1.1.1
    omega

/-- The state without a chunk that has reached its end. -/
def State.withoutChunk (s : State) (id : Nat) : State := { s with chunks := s.chunks.filter fun y => y.id != id }

theorem State.chunks_withoutChunk (s : State) (id : Nat) : ∀ y ∈ (s.withoutChunk id).chunks, y.id ≠ id := by
  intro y hy
  simpa using (List.mem_filter.mp hy).2

theorem State.session_modSession (s : State) (n : Nat) (f : Session → Session) : (s.modSession n f).session n = f (s.session n) := by
  simp [State.session, State.modSession]

theorem exec_chunkAtEndpoint_due (hf : s.chunks.find? (fun y => y.id == x.id) = some x) (hd : x.due ≤ s.now) (hl : s.boot.hingeLost = false)
    (hb : s.chunkBehind x = false) (hy : s.chunkYields x = false) :
    exec (.chunkAtEndpoint x.id) s = .next (let t := s.withoutChunk x.id
      if (s.session x.session).isOpen = false then t
      else if fieldLE x.header 0 8 ≤ (s.session x.session).lastseq.toNat then t.modSession x.session fun y => { y with dup := satInc y.dup }
      else (t.sendChunk x.session x.header x.payload).modSession x.session fun y => { y with lastseq := w64 (fieldLE x.header 0 8) }) := by
  have hcond : ((decide (s.now < x.due) || s.chunkBehind x) || s.chunkYields x || s.boot.hingeLost) = false := by
    rw [hb, hy, hl, decide_eq_false (Nat.not_lt.mpr hd)]
    rfl
  rw [exec_chunkAtEndpoint]
  unfold execChunkAtEndpoint
  simp only [hf, hcond, Bool.false_eq_true, if_false, Bool.not_eq_true']
  change (if (s.session x.session).isOpen = false then _ else if fieldLE x.header 0 8 ≤ (s.session x.session).lastseq.toNat then _ else _) = _
  split
  · rfl
  · split <;> rfl

end

/-- Settles O51. -/
theorem arrivals : Obligations.Arrivals := by
  unfold Obligations.Arrivals
  intro s
  refine ⟨fun g e hf hd he ht hr hch hslot => ?_, fun g bytes d hf hb hd hl hm ht hdis => ?_, fun x hf hd hhl hfirst hact => ?_⟩
  · intro y
    have hx : exec (.grantArrival g.id) s =
        .next (({ s with grants := s.grants.filter fun x => x.id != g.id } : State).modEndOf g.task g.rank g.ch fun e => e.takeGrant g) := by
      rw [exec_grantArrival, execGrantArrival, hf]
      simp only [if_neg (Nat.not_lt.mpr hd)]
    refine ⟨_, e.takeGrant g, hx, ?_, fun x hx => by simpa using (List.mem_filter.mp hx).2, rfl, fun hg hs => ?_, fun hn => ?_⟩
    · exact List.mem_map.mpr ⟨e, he, if_pos (by simp [ht, hr, hch])⟩
    · rw [ChanEnd.takeGrant_fills hg hs, ChanEnd.slot_modSlot hslot]
      exact ⟨rfl, rfl⟩
    · rw [ChanEnd.takeGrant_discards hn]
      refine ⟨rfl, ?_⟩
      show (e.gerr || !(g.gseq == y.nseq - 1 || (y.granted && g.gseq == y.nseq))) = true ↔ _
      simp only [Bool.or_eq_true, Bool.not_eq_true', Bool.or_eq_false_iff, Bool.and_eq_false_iff, beq_eq_false_iff_ne, not_or, not_and_or, ne_eq,
        Bool.not_eq_true]
  · obtain ⟨u, hcores, hmem, hgroups, hx⟩ := exec_transomGroupLands_due hf hb hd hm ht
    have hcore : u.core d = s.core d := State.core_of_cores hcores d
    refine ⟨_, hx, hgroups, ?_, fun o ho ho' => ?_, hmem⟩ <;> rw [State.core_modCore, hcore]
    · rw [← hl]
      refine Core.readBuf_eq fun i hi => ?_
      rw [(Group.aspace_landed hl (s.core d) (o := g.off + i) (by omega)).1 (by omega), Nat.add_sub_cancel_left]
    · exact (Group.aspace_landed hl (s.core d) ho').2 ho
  · intro n seq
    have hx := exec_chunkAtEndpoint_due hf hd hhl (State.chunkBehind_of_first hfirst) (State.chunkYields_of hact)
    have hses : (s.withoutChunk x.id).session x.session = n := rfl
    dsimp only at hx
    cases ho : n.isOpen with
    | false =>
      rw [if_pos ho] at hx
      exact ⟨_, hx, s.chunks_withoutChunk x.id, rfl, rfl, nofun, nofun, fun _ => ⟨rfl, rfl⟩⟩
    | true =>
      have ho' : ¬ (s.session x.session).isOpen = false := fun h => by rw [show (s.session x.session).isOpen = true from ho] at h; cases h
      rw [if_neg ho'] at hx
      by_cases hseq : seq ≤ n.lastseq.toNat
      · rw [if_pos hseq] at hx
        refine ⟨_, hx, s.chunks_withoutChunk x.id, rfl, rfl, fun _ h => absurd h (Nat.not_lt.mpr hseq), fun _ _ => ⟨rfl, ?_, ?_⟩, nofun⟩ <;>
          rw [State.session_modSession, hses]
        rfl
      · rw [if_neg hseq] at hx
        refine ⟨_, hx, s.chunks_withoutChunk x.id, rfl, rfl, fun _ _ => ⟨rfl, ?_⟩, fun _ h => absurd h hseq, nofun⟩
        rw [State.session_modSession]
        rfl

end Sys2Proof.Machine
end

section
/-! PROOFS. Invalidations: TLBI, HTLBI and S2INV (O52). -/

namespace Sys2Proof.Machine

theorem keyGet_map_values {α β : Type} {l : List (Nat × α)} {f : Nat × α → Nat × β} {g : Nat → α → β} (h : ∀ n x, f (n, x) = (n, g n x)) (n : Nat) :
    keyGet (l.map f) n = (keyGet l n).map (g n) := by
  induction l with
  | nil => rfl
  | cons e l ih =>
    obtain ⟨m, x⟩ := e
    rw [List.map_cons, h]
    unfold keyGet
    split
    · next he => rw [he]; rfl
    · exact ih

/-- A kept translation's place among a core's, with those that go dropped. -/
def Core.without (gone : TlbEntry → Bool) (k : Core) : Core := { k with tlb := k.tlb.filter fun e => !gone e }

/-! ### TLBI (R61, R289) -/

/-- The core of a number, as a TLBI of a core leaves it. -/
def scopeDrop (scope c : Nat) (gone : TlbEntry → Bool) (n : Nat) (k : Core) : Core := if inScope scope c n then k.without gone else k

theorem State.tlb_dropTranslations (s : State) (c scope : Nat) (gone : TlbEntry → Bool) (n : Nat) :
    ((s.dropTranslations c scope gone).core n).tlb = if inScope scope c n then (s.core n).tlb.filter (fun e => !gone e) else (s.core n).tlb := by
  have hmap : (s.dropTranslations c scope gone).core n = (((keyGet s.cores n).map (scopeDrop scope c gone n)).getD Core.idle) := by
    show (keyGet (s.cores.map _) n).getD Core.idle = _
    rw [keyGet_map_values (g := scopeDrop scope c gone)]
    intro m x
    unfold scopeDrop
    dsimp only
    split <;> rfl
  rw [hmap]
  unfold State.core
  cases keyGet s.cores n with
  | none =>
    show Core.idle.tlb = _
    split <;> rfl
  | some k =>
    show (scopeDrop scope c gone n k).tlb = _
    unfold scopeDrop
    split <;> rfl

theorem State.cache_dropTranslations (s : State) (c scope : Nat) (gone : TlbEntry → Bool) (d : Nat) :
    ((s.dropTranslations c scope gone).die d).cache =
      if (3 ≤ scope || d == dieOf c) = true then (s.die d).cache.filter (fun e => !gone e) else (s.die d).cache := by
  unfold State.die State.dropTranslations
  simp only [List.getD_eq_getElem?_getD, List.getElem?_map, List.getElem?_zipIdx, Nat.zero_add]
  cases s.dies[d]? with
  | none =>
    show (Die.reset 0).cache = _
    split <;> rfl
  | some x =>
    simp only [Option.map_some, Option.getD_some]
    split <;> rfl

/-- A TLBI of a kind that is due on a core drops the translations that it names. -/
theorem State.tlbi_due {s : State} {c : Nat} {a : Act} {n : Nat} {v : W64} {kind : Nat}
    (hf : (s.core c).acts.find? (fun a => a.isTlbi && decide (a.due ≤ s.now)) = some a) (hp : a.pay = .csr n v) (hk : v.toNat % 16 = kind) :
    s.tlbi c kind = .next ((s.dropTranslations c (v.toNat / 16 % 8) fun e =>
      e.casement == s.casementOf c && (kind == 0 || e.covers (v.toNat / 2 ^ 12 % 2 ^ 36 * 4096))).modCore c fun k => k.dropAct a.id) := by
  have hdue : s.tlbiDue c = some (a, v.toNat) := by
    unfold State.tlbiDue
    rw [hf]
    simp only [hp]
  have h0 : bits v.toNat 3 0 = kind := by rw [← hk]; simp [bits]
  unfold State.tlbi
  simp only [hdue, h0, bne_self_eq_false, Bool.false_eq_true, if_false]
  rfl

theorem Core.tlb_dropAct (k : Core) (id : Nat) : (k.dropAct id).tlb = k.tlb := rfl

theorem inScope_iff (scope c n : Nat) :
    inScope scope c n = true ↔ (match scope with
      | 0 => n = c
      | 1 => clusterOf n = clusterOf c
      | 2 => dieOf n = dieOf c
      | _ => True) := by
  unfold inScope
  split <;> simp

/-- What a TLBI leaves of the kept translations, with its act taken out. -/
theorem State.dropTranslations_spec (s : State) (c scope id : Nat) (gone : TlbEntry → Bool) :
    let t := (s.dropTranslations c scope gone).modCore c fun k => k.dropAct id
    t.mem = s.mem ∧ (∀ n, (inScope scope c n = true → (t.core n).tlb = (s.core n).tlb.filter fun e => !gone e) ∧
        (¬ inScope scope c n = true → (t.core n).tlb = (s.core n).tlb)) ∧
      ∀ d, (3 ≤ scope ∨ d = dieOf c → (t.die d).cache = (s.die d).cache.filter fun e => !gone e) ∧
        (scope < 3 → d ≠ dieOf c → (t.die d).cache = (s.die d).cache) := by
  intro t
  have htlb (n : Nat) : (t.core n).tlb = ((s.dropTranslations c scope gone).core n).tlb := by
    rw [State.core_modCore_ite]
    split
    · next h => rw [Core.tlb_dropAct, h]
    · rfl
  have hdie (d : Nat) : t.die d = (s.dropTranslations c scope gone).die d := rfl
  refine ⟨rfl, fun n => ⟨fun h => ?_, fun h => ?_⟩, fun d => ⟨fun h => ?_, fun h h' => ?_⟩⟩
  · rw [htlb, State.tlb_dropTranslations, if_pos h]
  · rw [htlb, State.tlb_dropTranslations, if_neg h]
  · rw [hdie, State.cache_dropTranslations, if_pos (by simpa using h)]
  · rw [hdie, State.cache_dropTranslations, if_neg (by simp [h', h])]

/-! ### HTLBI and S2INV (R287) -/

theorem State.managerCommand_ready {s : State} {k : Nat} (hk : k < 16) (hr : s.boot.ready = true) (t : State) : s.managerCommand k t = .next t := by
  rw [State.managerCommand, if_neg (Nat.not_le.mpr hk), if_pos hr]

theorem State.drawDue_later (s : State) : s.now < s.drawDue.1 := by
  show s.now < s.now + 1 + _
  omega

theorem State.casements_drawDue (s : State) : s.drawDue.2.casements = s.casements := rfl

theorem State.htlbi_spec (s : State) {k : Nat} (h : k < s.casements.length) (page : Option Nat) :
    ((s.htlbi k page).casement k).htlbi = (s.casement k).htlbi ++ [(s.drawDue.1, page)] := by
  unfold State.htlbi
  dsimp only
  rw [State.casement_modCasement s.drawDue.2 h]
  rfl

theorem State.s2inv_spec (s : State) {k : Nat} (h : k < s.casements.length) (ipa : Option Nat) :
    ((s.s2inv k ipa).casement k).s2inv = (s.casement k).s2inv ++ [(s.drawDue.1, ipa)] := by
  unfold State.s2inv
  dsimp only
  rw [State.casement_modCasement s.drawDue.2 h]
  rfl

theorem State.core_dropAll (s : State) (gone : TlbEntry → Bool) (n : Nat) : ((s.dropAll gone).core n).tlb = (s.core n).tlb.filter fun e => !gone e := by
  have hmap : (s.dropAll gone).core n = ((keyGet s.cores n).map (Core.without gone)).getD Core.idle := by
    show (keyGet (s.cores.map _) n).getD Core.idle = _
    rw [keyGet_map_values (g := fun _ => Core.without gone)]
    exact fun _ _ => rfl
  rw [hmap]
  unfold State.core
  cases keyGet s.cores n <;> rfl

/-- What the end of an HTLBI drops. -/
def State.htlbiEnded (s : State) (k : Nat) (d : Nat) (page : Option Nat) : State :=
  (s.dropAll fun t => t.casement == k && (match page with
    | some va => t.covers va
    | none => true)).modCasement k fun y => { (y.ended page) with htlbi := y.htlbi.erase (d, page) }

/-- What the end of an S2INV drops. -/
def State.s2invEnded (s : State) (k : Nat) (d : Nat) (ipa : Option Nat) : State :=
  (s.dropAll fun t => t.casement == k && (match ipa with
    | some a => t.usesIpa a
    | none => true)).modCasement k fun y => { (y.ended ipa) with s2inv := y.s2inv.erase (d, ipa) }

theorem State.endInvalidation_htlbi {s : State} {k d : Nat} {page : Option Nat} (hk : k < s.casements.length) (hh : (s.casement k).htlbi = [(d, page)])
    (hd : d ≤ s.now) (hs : (s.casement k).s2inv = []) : s.endInvalidation k = s.htlbiEnded k d page := by
  have hc : (s.htlbiEnded k d page).casement k = { ((s.casement k).ended page) with htlbi := (s.casement k).htlbi.erase (d, page) } :=
    State.casement_modCasement (s.dropAll _) hk _
  have hs' : ((s.htlbiEnded k d page).casement k).s2inv = [] := by
    rw [hc, ← hs]
    unfold Casement.ended
    cases page <;> rfl
  unfold State.endInvalidation
  simp only [hh, List.foldl_cons, List.foldl_nil, if_neg (Nat.not_lt.mpr hd)]
  change ((s.htlbiEnded k d page).casement k).s2inv.foldl _ (s.htlbiEnded k d page) = _
  rw [hs']
  rfl

theorem State.endInvalidation_s2inv {s : State} {k d : Nat} {ipa : Option Nat} (hs : (s.casement k).s2inv = [(d, ipa)])
    (hd : d ≤ s.now) (hh : (s.casement k).htlbi = []) : s.endInvalidation k = s.s2invEnded k d ipa := by
  unfold State.endInvalidation
  simp only [hh, hs, List.foldl_cons, List.foldl_nil, if_neg (Nat.not_lt.mpr hd)]
  rfl

/-- Settles O52. -/
theorem invalidations : Obligations.Invalidations := by
  unfold Obligations.Invalidations
  intro s c mine same drops
  have dropped (a : Act) (scope : Nat) (gone : TlbEntry → Bool) :
      drops ((s.dropTranslations c scope gone).modCore c fun k => k.dropAct a.id) scope gone := by
    obtain ⟨hmem, hcores, hdies⟩ := s.dropTranslations_spec c scope a.id gone
    exact ⟨hmem, fun n => ⟨fun h => (hcores n).1 ((inScope_iff scope c n).mpr h), fun h => (hcores n).2 fun g => h ((inScope_iff scope c n).mp g)⟩, hdies⟩
  refine ⟨fun a n v hf hp hv => ?_, fun a n v hf hp hv => ?_, fun k hk hlen hr => ?_, fun k va hk hlen hr => ?_, fun k hk hlen hr => ?_,
    fun k ipa hk hlen hr hipa => ?_, fun k d hlen hh hd hs => ?_, fun k d ipa hlen hs hd hh => ?_⟩
  · have hx := State.tlbi_due hf hp hv
    simp only [beq_self_eq_true, Bool.true_or, Bool.and_true] at hx
    exact ⟨_, hx, dropped a _ _⟩
  · exact ⟨_, State.tlbi_due hf hp hv, dropped a _ _⟩
  · exact ⟨_, s.drawDue.1, State.managerCommand_ready hk hr _, s.htlbi_spec hlen none, s.drawDue_later, rfl⟩
  · exact ⟨_, s.drawDue.1, State.managerCommand_ready hk hr _, s.htlbi_spec hlen (some va), s.drawDue_later, rfl⟩
  · exact ⟨_, s.drawDue.1, State.managerCommand_ready hk hr _, s.s2inv_spec hlen none, s.drawDue_later, rfl⟩
  · have hx : exec (.s2invIpa k ipa) s = .next (s.s2inv k (some ipa)) := by
      rw [exec_s2invIpa, execS2invIpa, if_neg (Nat.not_le.mpr hipa)]
      exact State.managerCommand_ready hk hr _
    exact ⟨_, s.drawDue.1, hx, s.s2inv_spec hlen (some ipa), s.drawDue_later, rfl⟩
  · have hc : (s.htlbiEnded k d none).casement k = { (s.casement k).bindRoots with htlbi := (s.casement k).htlbi.erase (d, none) } :=
      State.casement_modCasement (s.dropAll _) hlen _
    rw [State.endInvalidation_htlbi hlen hh hd hs, hc]
    refine ⟨by simp [hh], rfl, fun n => ?_⟩
    show (((s.dropAll _).core n).tlb) = _
    rw [State.core_dropAll]
    simp only [Bool.and_true]
  · have hc : (s.s2invEnded k d (some ipa)).casement k = { s.casement k with s2inv := (s.casement k).s2inv.erase (d, some ipa) } :=
      State.casement_modCasement (s.dropAll _) hlen _
    rw [State.endInvalidation_s2inv hs hd hh, hc]
    refine ⟨by simp [hs], rfl, fun n => ?_⟩
    exact s.core_dropAll _ n

end Sys2Proof.Machine
end

section
/-! PROOFS. The commands of a casement (O53), quotas, the scrub and usage records (O54). -/

namespace Sys2Proof.Machine

theorem State.casement_modCasement_other (s : State) {j k : Nat} (h : j ≠ k) (f : Casement → Casement) : (s.modCasement k f).casement j = s.casement j :=
  getD_modify_of_ne s.casements h.symm f Casement.reset

theorem State.length_modCasement (s : State) (k : Nat) (f : Casement → Casement) : (s.modCasement k f).casements.length = s.casements.length :=
  List.length_modify ..

/-! ### Stopping the queues of a casement (R251) -/

/-- A queue that neither runs nor stalls. -/
def Queue.Halted (x : Queue) : Prop := x.stalled = false ∧ x.st ≠ .active ∧ x.st ≠ .waitFault

theorem Queue.stalled_stop {x : Queue} (h : x.stalled = false) : x.stop.stalled = false := by
  unfold Queue.stop
  rw [h]
  simp only [Bool.false_eq_true, if_false]
  split
  · rfl
  · exact h

theorem Queue.halted_stop {x : Queue} (h : x.stalled = false) : x.stop.Halted := by
  refine ⟨Queue.stalled_stop h, ?_⟩
  unfold Queue.stop
  rw [h]
  simp only [Bool.false_eq_true, if_false]
  split
  · exact ⟨nofun, nofun⟩
  · next hn =>
    simp only [Bool.or_eq_true, beq_iff_eq, not_or] at hn
    exact hn

theorem State.queueStop_queue (s : State) (q p : Nat) : (s.queueStop q).queue p = if p = q then (s.queue q).stop else s.queue p := by
  unfold State.queueStop
  split
  · next h => rw [h, State.queue_modQueue]
  · next h => rw [State.queue_modQueue_other s _ h]

/-- Queues sent STOP one after another: a queue among them that no mark stalls is halted, as is one that was. -/
theorem State.foldl_queueStop {L : List (Nat × Queue)} {q : Nat} (s : State) (hs : (s.queue q).stalled = false)
    (h : (∃ e ∈ L, e.1 = q) ∨ (s.queue q).Halted) : ((L.foldl (fun s e => s.queueStop e.1) s).queue q).Halted := by
  induction L generalizing s with
  | nil => exact h.elim (fun ⟨e, he, _⟩ => by cases he) id
  | cons e L ih =>
    rw [List.foldl_cons]
    have hq := s.queueStop_queue e.1 q
    by_cases heq : q = e.1
    · subst heq
      rw [if_pos rfl] at hq
      refine ih _ ?_ (.inr ?_) <;> rw [hq]
      · exact Queue.stalled_stop hs
      · exact Queue.halted_stop hs
    · rw [if_neg heq] at hq
      refine ih _ (by rw [hq]; exact hs) ?_
      rw [hq]
      rcases h with ⟨x, hx, hxq⟩ | h
      · rcases List.mem_cons.mp hx with rfl | hx
        · exact absurd hxq.symm heq
        · exact .inl ⟨x, hx, hxq⟩
      · exact .inr h

theorem keyGet_mem {α : Type} {l : List (Nat × α)} {k : Nat} {v : α} (h : keyGet l k = some v) : (k, v) ∈ l := by
  induction l with
  | nil => cases h
  | cons e l ih =>
    obtain ⟨x, w⟩ := e
    unfold keyGet at h
    split at h
    · next hx =>
      cases h
      rw [hx]
      exact List.mem_cons_self
    · exact List.mem_cons_of_mem _ (ih h)

theorem State.halted_stopQueues {s : State} {k q : Nat} (ho : (s.queue q).owner = k) (hs : (s.queue q).stalled = false) : ((s.stopQueues k).queue q).Halted := by
  refine State.foldl_queueStop s hs ?_
  cases hg : keyGet s.queues q with
  | none =>
    have hr : s.queue q = Queue.reset := by rw [State.queue, hg]; rfl
    exact .inr (hr ▸ ⟨rfl, nofun, nofun⟩)
  | some x =>
    have hx : s.queue q = x := by rw [State.queue, hg]; rfl
    exact .inl ⟨(q, x), List.mem_filter.mpr ⟨keyGet_mem hg, by simpa [← hx] using ho⟩, rfl⟩

/-- Nothing but queues has changed between two states. -/
def State.OnlyQueues (s t : State) : Prop := ∃ qs, t = { s with queues := qs }

theorem State.stopQueues_onlyQueues (s : State) (k : Nat) : s.OnlyQueues (s.stopQueues k) :=
  foldl_rel (R := State.OnlyQueues) (fun s => ⟨s.queues, rfl⟩) (fun {s t u} (h : s.OnlyQueues t) (g : t.OnlyQueues u) => by
    obtain ⟨a, rfl⟩ := h
    obtain ⟨b, rfl⟩ := g
    exact ⟨b, rfl⟩) (fun (s : State) (e : Nat × Queue) => ⟨_, rfl⟩) _ s

/-! ### The commands (R297, R309) -/

theorem State.refuseCommand_spec (s : State) {k : Nat} (h : k < s.casements.length) :
    let t := s.refuseCommand k
    t.casement k = { s.casement k with err := true } ∧ (∀ j, j ≠ k → t.casement j = s.casement j) ∧ t.tasks = s.tasks ∧ t.queues = s.queues ∧
      t.cores = s.cores ∧ t.mem = s.mem :=
  ⟨s.casement_modCasement h _, fun _ hj => s.casement_modCasement_other hj _, rfl, rfl, rfl, rfl⟩

theorem State.create_refused {s : State} {k : Nat}
    (h : (s.casement k).st ≠ .free ∨ s.quotasBad k = true ∨ s.fleet.everLocked = false ∨ s.taintBlocks k = true) : s.create k = s.refuseCommand k := by
  unfold State.create
  rw [if_pos]
  simpa [or_assoc] using h

theorem State.create_made {s : State} {k : Nat} (hs : (s.casement k).st = .free) (hq : s.quotasBad k = false) (hl : s.fleet.everLocked = true)
    (ht : s.taintBlocks k = false) : s.create k = s.createCasement k := by
  simp [State.create, hs, hq, hl, ht]

/-- Nothing but the marks of ways has changed between two states. -/
def State.OnlyWays (s t : State) : Prop := ∃ w, t = { s with wayTaint := w }

theorem State.allotWays_onlyWays (s : State) (k : Nat) : s.OnlyWays (s.allotWays k) :=
  foldl_rel (R := State.OnlyWays) (fun s => ⟨s.wayTaint, rfl⟩) (fun {s t u} (h : s.OnlyWays t) (g : t.OnlyWays u) => by
    obtain ⟨a, rfl⟩ := h
    obtain ⟨b, rfl⟩ := g
    exact ⟨b, rfl⟩) (fun _ _ => ⟨_, rfl⟩) _ s

/-- A casement as CREATE makes it of a FREE one. -/
theorem State.createCasement_spec (s : State) {k : Nat} (h : k < s.casements.length) :
    let t := s.createCasement k
    let x := s.casement k
    (t.casement k).st = .active ∧ (t.casement k).err = false ∧ (t.casement k).inForce = x.quota ∧ (t.casement k).keyValid = true ∧
      (t.casement k).keyGen = x.keyGen + 1 ∧ (t.casement k).chains = [] ∧ t.mem = s.mem ∧ t.cores = s.cores := by
  intro t x
  let u : State := s.modCasement k fun x =>
    { x with
      st := .active, err := false, inForce := x.quota, keyValid := true, keyGen := x.keyGen + 1, chains := []
      offsets := (List.range 9).map fun d => ((s.die d).zero : Int) - (s.die 8).zero, coming := []
      usage := Usage.open_ true 0 (List.replicate 48 0) (s.ftime / 10000000), lost := false, actedSince := [] }
  obtain ⟨w, hw⟩ := u.allotWays_onlyWays k
  have ht : t = { u with wayTaint := w } := hw
  have hc : t.casement k = u.casement k := by rw [ht]; rfl
  rw [hc, s.casement_modCasement h, ht]
  exact ⟨rfl, rfl, rfl, rfl, rfl, rfl, rfl, rfl⟩

theorem State.resumeCasement_drained {s : State} {k : Nat} (h : (s.casement k).st = .drained) :
    s.resumeCasement k = s.modCasement k fun x => { x with st := .active, err := false } :=
  if_neg (by simp [h])

theorem State.clearSaveErr_taken {s : State} {k : Nat} (h : (s.casement k).st ≠ .free) :
    s.clearSaveErr k = s.modCasement k fun x => { x with saveErr := false, err := false } :=
  if_neg (by simpa using h)

theorem State.maybeDrained_spec (s : State) {k : Nat} (h : k < s.casements.length) (hst : (s.casement k).st = .draining) :
    (s.maybeDrained k).casement k = (if s.tasks.any (fun t => t.casement == k) then s.casement k else { s.casement k with st := .drained }) ∧
      (s.maybeDrained k).tasks = s.tasks ∧ (s.maybeDrained k).queues = s.queues := by
  unfold State.maybeDrained
  rw [hst, beq_self_eq_true, Bool.true_and]
  cases s.tasks.any fun t => t.casement == k
  · exact ⟨s.casement_modCasement h _, rfl, rfl⟩
  · exact ⟨rfl, rfl, rfl⟩

/-- What DRAIN makes of an ACTIVE casement, its queues and the part's tasks. -/
theorem State.drainCasement_spec (s : State) {k : Nat} (h : k < s.casements.length) (hst : (s.casement k).st = .active) :
    let t := s.drainCasement k
    t.tasks = s.tasks ∧ (t.casement k).err = false ∧ (t.casement k).st = (if s.tasks.any (fun t => t.casement == k) then .draining else .drained) ∧
      ∀ q, (s.queue q).owner = k → (s.queue q).stalled = false → (t.queue q).st ≠ .active ∧ (t.queue q).st ≠ .waitFault := by
  intro t
  let u := s.modCasement k fun x => { x with st := .draining, err := false }
  have ht : t = (u.stopQueues k).maybeDrained k := by simp only [t, State.drainCasement, hst] <;> rfl
  obtain ⟨qs, hqs⟩ := u.stopQueues_onlyQueues k
  have hlen : k < (u.stopQueues k).casements.length := by
    rw [hqs]
    exact (s.length_modCasement k _).symm ▸ h
  have hu : (u.stopQueues k).casement k = { s.casement k with st := .draining, err := false } := by
    rw [hqs]
    exact s.casement_modCasement h _
  have htasks : (u.stopQueues k).tasks = s.tasks := by
    rw [hqs]
    rfl
  obtain ⟨hc, htk, hq⟩ := (u.stopQueues k).maybeDrained_spec hlen (by rw [hu])
  rw [hu, htasks] at hc
  have hqueue (q : Nat) : t.queue q = (u.stopQueues k).queue q := by rw [ht, State.queue, hq, State.queue]
  refine ⟨by rw [ht, htk, htasks], ?_, ?_, fun q ho hs => ?_⟩
  · rw [ht, hc]
    split <;> rfl
  · rw [ht, hc]
    split <;> rfl
  · rw [hqueue]
    exact (State.halted_stopQueues (s := u) ho hs).2

/-! ### TEARDOWN (R309, R310) -/

/-- What the steps of an erasing leave alone: memory and the sessions, and the number of the casements. -/
structure State.Erases (s t : State) : Prop where
  mem : t.mem = s.mem
  sessions : t.sessions = s.sessions
  length : t.casements.length = s.casements.length

theorem State.Erases.trans {s t u : State} (h : s.Erases t) (g : t.Erases u) : s.Erases u :=
  ⟨g.mem.trans h.mem, g.sessions.trans h.sessions, g.length.trans h.length⟩

theorem State.erases_modCasement (s : State) (k : Nat) (f : Casement → Casement) : s.Erases (s.modCasement k f) := ⟨rfl, rfl, s.length_modCasement k f⟩

theorem State.scrubEnd_spec (s : State) {k : Nat} (h : k < s.casements.length) : s.Erases (s.scrubEnd k) ∧ ((s.scrubEnd k).casement k).st = .free :=
  ⟨s.erases_modCasement k _, by rw [State.scrubEnd, s.casement_modCasement h]⟩

theorem State.startScrub_spec (s : State) {k : Nat} (h : k < s.casements.length) :
    s.Erases (s.startScrub k) ∧ (((s.startScrub k).casement k).st = (s.casement k).st ∨ ((s.startScrub k).casement k).st = .free) := by
  unfold State.startScrub
  dsimp only
  have he (f : Casement → Casement) : s.Erases (s.drawDue.2.modCasement k f) := ⟨rfl, rfl, s.drawDue.2.length_modCasement k f⟩
  have ended (f : Casement → Casement) := State.scrubEnd_spec (s.drawDue.2.modCasement k f) (k := k) (by rw [State.length_modCasement]; exact h)
  split
  · exact ⟨(he _).trans (ended _).1, .inr (ended _).2⟩
  · refine ⟨he _, .inl ?_⟩
    rw [s.drawDue.2.casement_modCasement h]
    rfl

theorem State.closeWindow_spec (s : State) {k : Nat} (h : k < s.casements.length) (fend : Nat) (closed : Bool) :
    s.Erases (s.closeWindow k fend closed) ∧ ((s.closeWindow k fend closed).casement k).st = (s.casement k).st := by
  refine ⟨⟨rfl, rfl, State.length_modCasement _ k _⟩, ?_⟩
  unfold State.closeWindow
  dsimp only
  rw [State.casement_modCasement (s.draw.2.draw.2) h]
  rfl

theorem State.eraseCasement_spec (s : State) {k : Nat} (h : k < s.casements.length) :
    s.Erases (s.eraseCasement k) ∧ (((s.eraseCasement k).casement k).st = .erasing ∨ ((s.eraseCasement k).casement k).st = .free) := by
  let u := s.modCasement k fun x => { x with st := .erasing, keyValid := false }
  let v : State := { u with buffer := u.buffer.filter fun b => b.key != k }
  have hv : s.Erases v := ⟨rfl, rfl, s.length_modCasement k _⟩
  have hlen : k < v.casements.length := hv.length ▸ h
  have hst : (v.casement k).st = .erasing := by
    show ((s.modCasement k _).casement k).st = _
    rw [s.casement_modCasement h]
  obtain ⟨hw, hwst⟩ := v.closeWindow_spec hlen v.ftime true
  obtain ⟨hs, hsst⟩ := (v.closeWindow k v.ftime true).startScrub_spec (k := k) (hw.length ▸ hlen)
  rw [hwst, hst] at hsst
  exact ⟨hv.trans (hw.trans hs), hsst⟩

theorem State.session_closeSessions {s : State} {k n : Nat} (h : (s.session n).owner = k) : ((s.closeSessions k).session n).isOpen = false := by
  have hmap : (s.closeSessions k).session n = ((keyGet s.sessions n).map fun x => if x.owner == k then { x with isOpen := false } else x).getD Session.reset := by
    show (keyGet (s.sessions.map _) n).getD Session.reset = _
    rw [keyGet_map_values (g := fun _ x => if x.owner == k then { x with isOpen := false } else x)]
    intro m x
    dsimp only
    split <;> rfl
  rw [hmap]
  unfold State.session at h
  cases hg : keyGet s.sessions n with
  | none => rfl
  | some x =>
    rw [hg] at h
    simp only [Option.map_some, Option.getD_some]
    rw [if_pos (by simpa using h)]

theorem State.teardown_spec (s : State) {k : Nat} (h : k < s.casements.length) (hst : (s.casement k).st ∈ [CaseState.active, .draining, .drained])
    (ht : s.tasks = []) :
    let t := s.teardown k
    (t.casement k).st ∈ [CaseState.stopping, .erasing, .free] ∧ (∀ n, (s.session n).owner = k → (t.session n).isOpen = false) ∧ t.mem = s.mem := by
  intro t
  let u := s.modCasement k fun x => { x with st := .stopping, err := false }
  let v := (u.closeSessions k).stopQueues k
  have hteq : t = v.maybeErase k := by
    have hu : u.tasks = [] := ht
    simp only [List.mem_cons, List.not_mem_nil, or_false] at hst
    rcases hst with h | h | h <;> simp only [t, State.teardown, h] <;> (change ((((u.tasks.filter _).foldl _ u).closeSessions k).stopQueues k).maybeErase k = _; rw [hu]; rfl)
  obtain ⟨qs, hqs⟩ := (u.closeSessions k).stopQueues_onlyQueues k
  have hv : v = { u.closeSessions k with queues := qs } := hqs
  have hmem : v.mem = s.mem := by rw [hv]; rfl
  have hses : v.sessions = (u.closeSessions k).sessions := by rw [hv]
  have hlen : k < v.casements.length := by
    rw [hv]
    exact (s.length_modCasement k _).symm ▸ h
  have hvst : (v.casement k).st = .stopping := by
    rw [hv]
    show ((s.modCasement k _).casement k).st = _
    rw [s.casement_modCasement h]
  have hclosed (n : Nat) (hn : (s.session n).owner = k) : (v.session n).isOpen = false := by
    rw [State.session, hses]
    exact State.session_closeSessions (s := u) hn
  rw [hteq]
  unfold State.maybeErase
  dsimp only
  split
  · obtain ⟨he, hest⟩ := v.eraseCasement_spec hlen
    refine ⟨?_, fun n hn => ?_, he.mem.trans hmem⟩
    · rcases hest with h | h <;> rw [h] <;> decide
    · rw [State.session, he.sessions]
      exact hclosed n hn
  · exact ⟨by rw [hvst]; decide, hclosed, hmem⟩

/-- Settles O53. -/
theorem casementCommands : Obligations.CasementCommands := by
  unfold Obligations.CasementCommands
  intro s k hk hlen hr x err
  have refused {i : Instr} (h : exec i s = .next (s.refuseCommand k)) : err i := ⟨_, h, s.refuseCommand_spec hlen⟩
  refine ⟨fun hst hq hl ht => ?_, fun h => refused ?_, fun hst => ?_, fun hst => refused ?_, fun hst => ?_, fun hst => refused ?_, fun hst => ?_,
    fun hst => refused ?_, fun hst ht => ?_, fun hst => refused ?_, ?_⟩
  · exact ⟨_, (State.managerCommand_ready hk hr _).trans (congrArg _ (State.create_made hst hq hl ht)), s.createCasement_spec hlen⟩
  · exact (State.managerCommand_ready hk hr _).trans (congrArg _ (State.create_refused h))
  · exact ⟨_, State.managerCommand_ready hk hr _, s.drainCasement_spec hlen hst⟩
  · refine (State.managerCommand_ready hk hr _).trans ?_
    rw [State.drainCasement, if_pos (by simpa using hst)]
  · refine ⟨_, (State.managerCommand_ready hk hr _).trans (congrArg _ (State.resumeCasement_drained hst)), ?_, rfl, rfl⟩
    exact s.casement_modCasement hlen _
  · refine (State.managerCommand_ready hk hr _).trans ?_
    rw [State.resumeCasement, if_pos (by simpa using hst)]
  · refine ⟨_, (State.managerCommand_ready hk hr _).trans (congrArg _ (State.clearSaveErr_taken hst)), ?_, rfl, rfl⟩
    exact s.casement_modCasement hlen _
  · refine (State.managerCommand_ready hk hr _).trans ?_
    rw [State.clearSaveErr, if_pos (by simpa using hst)]
  · exact ⟨_, State.managerCommand_ready hk hr _, s.teardown_spec hlen hst ht⟩
  · refine (State.managerCommand_ready hk hr _).trans ?_
    simp only [List.mem_cons, List.not_mem_nil, or_false] at hst
    rcases hst with h | h | h <;> rw [State.teardown, show (s.casement k).st = _ from h]
  · have hx : exec (.vfFlr k) s = .next (s.stopQueues k) := by
      rw [exec_vfFlr, execVfFlr, if_neg (Nat.not_le.mpr hk), if_pos hr]
    obtain ⟨qs, hqs⟩ := s.stopQueues_onlyQueues k
    refine ⟨_, hx, by rw [hqs], by rw [hqs], by rw [hqs], by rw [hqs], fun q ho hs => ?_⟩
    exact (State.halted_stopQueues ho hs).2

/-! ### Quotas (R298) -/

theorem State.endRefusal_keeps (s : State) : (s.endRefusal).casements = s.casements ∧ s.endRefusal.cores = s.cores ∧ s.endRefusal.mem = s.mem := by
  unfold State.endRefusal
  split <;> exact ⟨rfl, rfl, rfl⟩

/-- A quota written alone, before it is judged. -/
def State.withQuota (s : State) (k i v : Nat) : State := s.modCasement k fun x => { x with quota := x.quota.set i v }

theorem State.writeQuota_bad {s : State} {k v i w : Nat} {f : QuotaField} (hp : quotaPlace f = (i, w))
    (hb : (s.withQuota k i (v % 2 ^ w)).quotasBad k = true) : s.writeQuota k f v = s.refuseCommand k := by
  unfold State.writeQuota
  rw [hp]
  exact if_pos hb

theorem State.writeQuota_good {s : State} {k v i w : Nat} {f : QuotaField} (hp : quotaPlace f = (i, w))
    (hb : (s.withQuota k i (v % 2 ^ w)).quotasBad k = false) :
    s.writeQuota k f v = ((s.withQuota k i (v % 2 ^ w)).modCasement k fun x => { (x.rewritten i) with err := false }).endRefusal := by
  unfold State.writeQuota
  rw [hp]
  exact if_neg (by simpa [State.withQuota] using hb)

/-! ### The scrub (R310) -/

/-- A unit of the scrub done: the casement counts it, and nothing beside the casements changes. -/
theorem State.scrubNext_spec (s : State) {k : Nat} (h : k < s.casements.length) :
    ((s.scrubNext k).casement k).scrubDone = (s.casement k).scrubDone + 1 ∧ (s.scrubNext k).cores = s.cores ∧ (s.scrubNext k).mem = s.mem ∧
      (s.scrubNext k).wayTaint = s.wayTaint := by
  unfold State.scrubNext
  dsimp only
  split
  · refine ⟨?_, rfl, rfl, rfl⟩
    rw [State.scrubEnd, State.casement_modCasement _ (by rw [State.length_modCasement]; exact h), State.casement_modCasement s.drawDue.2 h]
  · refine ⟨?_, rfl, rfl, rfl⟩
    rw [State.casement_modCasement s.drawDue.2 h]

section
variable {s : State} {k : Nat} (hr : s.boot.ready = true) (hh : s.boot.hingeLost = false) (hst : (s.casement k).st = .erasing)
  (hd : (s.casement k).scrubDue ≤ s.now)
include hr hh hst hd

theorem exec_scrubUnitDone_core {c : Nat} {rest : List Nat} (hc : s.taintedCores k = c :: rest) :
    exec (.scrubUnitDone k) s = .next ((s.modCore c Core.scrubbed).scrubNext k) := by
  rw [exec_scrubUnitDone]
  simp [execScrubUnitDone, hr, hh, hst, Nat.not_lt.mpr hd, hc]

theorem exec_scrubUnitDone_way {d w : Nat} {rest : List (Nat × Nat)} (hc : s.taintedCores k = []) (hw : s.taintedWays k = (d, w) :: rest) :
    exec (.scrubUnitDone k) s = .next (({ s with wayTaint := s.wayTaint.filter fun e => e.1 != d || e.2.1 != w } : State).scrubNext k) := by
  rw [exec_scrubUnitDone]
  simp [execScrubUnitDone, hr, hh, hst, Nat.not_lt.mpr hd, hc, hw]

end

/-! ### Usage records (R304, R306) -/

/-- The record of a window that closes. -/
def State.windowRecord (s : State) (k fend : Nat) (closed : Bool) : UsageRec :=
  { bytes := usageRecord (usageBody k (s.casement k).usage closed (s.casement k).lost s.draw.1 fend)
    due := s.now + 1 + s.draw.2.draw.1 % 1249000, seq := (s.casement k).usage.seq, read := false }

theorem State.casement_closeWindow (s : State) {k : Nat} (h : k < s.casements.length) (fend : Nat) (closed : Bool) :
    let t := s.closeWindow k fend closed
    (t.casement k).records = (s.casement k).records ++ [s.windowRecord k fend closed] ∧ (t.casement k).usage.seq = (s.casement k).usage.seq + 1 ∧
      (t.casement k).usage.first = false ∧ (t.casement k).usage.bytes = 0 ∧ (t.casement k).usage.window = s.ftime / 10000000 := by
  intro t
  have ht : t.casement k = _ := State.casement_modCasement (s.draw.2.draw.2) h _
  rw [ht]
  exact ⟨rfl, rfl, rfl, rfl, rfl⟩

/-- A casement with its next record complete (R306). -/
def Casement.completed (x : Casement) (r : UsageRec) : Casement :=
  { x with
    urseq := r.seq
    lost := x.lost || x.records.any fun y => y.due == 0 && !y.read && y.seq % 1024 == r.seq % 1024
    records := (x.records.filter fun y => y.due != 0 || y.seq % 1024 != r.seq % 1024).map fun (y : UsageRec) =>
      if y.due == r.due && y.seq == r.seq then { y with due := 0 } else y }

theorem Casement.mem_completed {x : Casement} {r : UsageRec} (h : x.nextRecord = some r) : { r with due := 0 } ∈ (x.completed r).records := by
  have hne : r.due ≠ 0 := by simpa using List.find?_some h
  refine List.mem_map.mpr ⟨r, List.mem_filter.mpr ⟨List.mem_of_find?_eq_some h, by simp [hne]⟩, by simp⟩

/-- Settles O54. -/
theorem quotasScrubAndUsage : Obligations.QuotasScrubAndUsage := by
  unfold Obligations.QuotasScrubAndUsage
  intro s k hk hlen hr hh x
  refine ⟨fun f v => ?_, fun c rest hst hd hc => ?_, fun d w rest hst hd hc hw => ?_, fun hg hw => ?_, fun r hn hd => ?_⟩
  · cases hp : quotaPlace f with
    | mk i w =>
    show ∃ t, exec (.quotaWrite k f v) s = .next t ∧ t.cores = s.cores ∧ t.mem = s.mem ∧
      ((s.withQuota k i (v % 2 ^ w)).quotasBad k = true → t.casement k = { x with err := true }) ∧
      ((s.withQuota k i (v % 2 ^ w)).quotasBad k = false → (t.casement k).quota = x.quota.set i (v % 2 ^ w) ∧ (t.casement k).err = false ∧
        (t.casement k).inForce = x.inForce)
    have hx : exec (.quotaWrite k f v) s = .next (s.writeQuota k f v) := by
      rw [exec_quotaWrite, execQuotaWrite, if_neg (Nat.not_le.mpr hk), if_pos hr]
    refine ⟨_, hx, ?_⟩
    cases hb : (s.withQuota k i (v % 2 ^ w)).quotasBad k with
    | true =>
      rw [State.writeQuota_bad hp hb]
      obtain ⟨hc, -, -, -, hcores, hmem⟩ := s.refuseCommand_spec hlen
      exact ⟨hcores, hmem, fun _ => hc, nofun⟩
    | false =>
      rw [State.writeQuota_good hp hb]
      obtain ⟨hcs, hcores, hmem⟩ := ((s.withQuota k i (v % 2 ^ w)).modCasement k fun x => { (x.rewritten i) with err := false }).endRefusal_keeps
      have hc : (((s.withQuota k i (v % 2 ^ w)).modCasement k fun x => { (x.rewritten i) with err := false }).endRefusal).casement k =
          { (({ x with quota := x.quota.set i (v % 2 ^ w) } : Casement).rewritten i) with err := false } := by
        rw [State.casement, hcs]
        refine ((s.withQuota k i (v % 2 ^ w)).casement_modCasement (by rw [State.withQuota, State.length_modCasement]; exact hlen) _).trans ?_
        rw [State.withQuota, s.casement_modCasement hlen]
      rw [hc]
      exact ⟨hcores, hmem, nofun, fun _ => ⟨rfl, rfl, rfl⟩⟩
  · obtain ⟨hdone, hcores, hmem, -⟩ := (s.modCore c Core.scrubbed).scrubNext_spec hlen
    have hcore : ((s.modCore c Core.scrubbed).scrubNext k).core c = (s.core c).scrubbed := by rw [State.core_of_cores hcores, State.core_modCore]
    refine ⟨_, exec_scrubUnitDone_core hr hh hst hd hc, ?_⟩
    rw [hcore]
    refine ⟨rfl, rfl, rfl, rfl, fun m => ?_, fun p => ?_, fun n => ?_, fun q => ?_, hdone, hmem⟩
    · exact getD_replicate_self 0 8 m
    · cases p <;> rfl
    · exact getD_replicate_self 0 16 n
    · exact getD_replicate_self Table.none 4 q
  · obtain ⟨-, hcores, -, hways⟩ := (({ s with wayTaint := s.wayTaint.filter fun e => e.1 != d || e.2.1 != w } : State)).scrubNext_spec (k := k) hlen
    refine ⟨_, exec_scrubUnitDone_way hr hh hst hd hc hw, fun e he => ?_, hcores⟩
    rw [hways] at he
    have := (List.mem_filter.mp he).2
    rintro ⟨h1, h2⟩
    simp [h1, h2] at this
  · have hx : exec (.usageWindowClose k) s = .next (s.closeWindow k (s.ftime / 10000000 * 10000000) false) := by
      have hg' : (s.casement k).guaranteed = true := hg
      have hw' : ¬ s.ftime / 10000000 ≤ (s.casement k).usage.window := Nat.not_le.mpr hw
      rw [exec_usageWindowClose]
      simp [execUsageWindowClose, Nat.not_le.mpr hk, hg', hh, hw']
    obtain ⟨hrec, hseq, hfirst, hbytes, hwin⟩ := s.casement_closeWindow hlen (s.ftime / 10000000 * 10000000) false
    refine ⟨_, s.windowRecord k (s.ftime / 10000000 * 10000000) false, hx, hrec, rfl, ?_, ?_, hseq, hfirst, hbytes, hwin, rfl, rfl⟩
    · show s.now < s.now + 1 + _
      omega
    · show s.now + 1 + s.draw.2.draw.1 % 1249000 ≤ _
      omega
  · have hx : exec (.usageRecordComplete k) s = .next (s.modCasement k fun x => x.completed r) := by
      have hn' : (s.casement k).nextRecord = some r := hn
      rw [exec_usageRecordComplete]
      simp only [execUsageRecordComplete, hn', decide_eq_false (Nat.not_lt.mpr hd), hh, Bool.or_self, Bool.false_eq_true, if_false]
      rfl
    refine ⟨_, hx, ?_⟩
    rw [s.casement_modCasement hlen]
    exact ⟨rfl, rfl, ⟨_, Casement.mem_completed hn, rfl, rfl, rfl⟩, rfl⟩

end Sys2Proof.Machine
end

section
/-! PROOFS. Sessions at the endpoint and fleet time (O55). -/

namespace Sys2Proof.Machine

/-! ### Opening and closing (R328) -/

theorem exec_sessionOpen_ready {s : State} {n : Nat} (hn : n < 65536) (hr : s.boot.ready = true) : exec (.sessionOpen n) s = .next (s.openSession n) := by
  rw [exec_sessionOpen, execSessionOpen, if_neg (Nat.not_le.mpr hn), if_pos hr]

/-- A session once it has opened. -/
def Session.opened (y : Session) : Session := { y with isOpen := true, incnt := 0, dup := 0, dropin := 0, tokRead := 0, tokRetired := 0 }

section
variable {s : State} {n : Nat} (ho : (s.session n).isOpen = false) (hst : (s.casement (s.session n).owner).st = .active) (hi : (s.session n).inslot ≠ 0)
  (hz : (s.session n).isz ≠ 0) (hra : s.refuseAction = false)
include ho hst hi hz hra

theorem State.openSession_pinned {u : State} (h : s.sessionPinned (s.session n) = .ok u true) :
    s.openSession n = ({ u with arriving := u.arriving.filter fun e => e.1 != n } : State).modSession n Session.opened := by
  simp only [State.openSession, ho, hst, hi, hz, hra, h, bne_self_eq_false, Bool.or_self, decide_false, Bool.false_eq_true, if_false] <;> rfl

theorem State.openSession_unpinned {u : State} (h : s.sessionPinned (s.session n) = .ok u false) : s.openSession n = u := by
  simp only [State.openSession, ho, hst, hi, hz, hra, h, bne_self_eq_false, Bool.or_self, decide_false, Bool.false_eq_true, if_false]

theorem State.openSession_waits {u : State} (h : s.sessionPinned (s.session n) = .wait u) :
    s.openSession n = { u with opening := u.opening ++ [n] } := by
  simp only [State.openSession, ho, hst, hi, hz, hra, h, bne_self_eq_false, Bool.or_self, decide_false, Bool.false_eq_true, if_false]

end

theorem State.openSession_refused {s : State} {n : Nat}
    (h : (s.session n).isOpen = true ∨ (s.casement (s.session n).owner).st ≠ .active ∨ (s.session n).inslot = 0 ∨ (s.session n).isz = 0 ∨ s.refuseAction = true) :
    s.openSession n = s := by
  unfold State.openSession
  dsimp only
  rw [if_pos]
  simpa [or_assoc] using h

theorem State.session_modSession_other (s : State) {m n : Nat} (h : m ≠ n) (f : Session → Session) : (s.modSession n f).session m = s.session m := by
  unfold State.session State.modSession
  rw [keyGet_keySet_other _ _ h]

/-! ### Messages (R329, R332) -/

theorem exec_sessionIngress_other {s : State} {n : Nat} {who : BitVec 128} {job : BitVec 24} (payload : List W8) (hr : s.boot.ready = true)
    (h : (s.session n).isOpen = false ∨ (s.session n).peer ≠ who ∨ (s.session n).jobid ≠ job) :
    exec (.sessionIngress n ⟨who, job, true⟩ payload) s = .next s := by
  have hc : (!(s.session n).isOpen || (s.session n).peer != who || (s.session n).jobid != job) = true := by simpa [or_assoc] using h
  rw [exec_sessionIngress]
  simp [execSessionIngress, hr, hc]

theorem exec_sessionIngress_own {s : State} {n : Nat} (payload : List W8) (hr : s.boot.ready = true) (ho : (s.session n).isOpen = true) :
    exec (.sessionIngress n ⟨(s.session n).peer, (s.session n).jobid, true⟩ payload) s = .next (s.arrive n payload) := by
  rw [exec_sessionIngress]
  simp [execSessionIngress, hr, ho]

theorem State.arrive_behind {s : State} {n : Nat} (payload : List W8) (ho : (s.session n).isOpen = true) (h : ∃ e ∈ s.arriving, e.1 = n) :
    s.arrive n payload = { s with arriving := s.arriving ++ [(n, payload)] } := by
  have ha : (s.arriving.any fun e => e.1 == n) = true := by simpa using h
  simp only [State.arrive, ho, ha, Bool.not_true, Bool.false_eq_true, if_false, if_true]

/-- What becomes of a message by what its ingress came to. -/
def Dev.arrived (d : Dev Unit) (n : Nat) (payload : List W8) : State :=
  match d with
  | .ok s _ => s
  | .wait s => { s with arriving := s.arriving ++ [(n, payload)] }
  | .fault s _ => s
  | .check s => s

theorem State.arrive_first {s : State} {n : Nat} (payload : List W8) (ho : (s.session n).isOpen = true) (h : ∀ e ∈ s.arriving, e.1 ≠ n) :
    s.arrive n payload = (s.ingress n payload).arrived n payload := by
  have ha : (s.arriving.any fun e => e.1 == n) = false := by simpa using h
  simp only [State.arrive, ho, ha, Bool.not_true, Bool.false_eq_true, if_false]
  cases s.ingress n payload <;> rfl

/-- A message that its session drops, and counts. -/
def State.dropMessage (s : State) (n : Nat) : State := s.modSession n fun y => { y with dropin := satInc y.dropin }

/-- Whether a message fits its slot, finds room in the ring, and keeps its casement within CAPE (R329, R332). -/
def State.ingressFits (s : State) (n : Nat) (payload : List W8) : Prop :=
  payload.length ≤ 64 * (s.session n).isz ∧ (s.session n).incnt.toNat - (s.session n).tokRetired < (s.session n).inslot ∧
    s.ingressLevel (s.session n).owner ≤ Config.ingressBurst (s.session n).owner

/-- How the landing writes of a session's next message come out. -/
def State.ingressReach (s : State) (n : Nat) (payload : List W8) : Dev (List (Nat × Nat × Nat) × Option IngressFault) :=
  let x := s.session n
  s.reachPieces x.owner (pagePieces (x.ibase + 64 * x.isz * (x.incnt.toNat % x.inslot)) (payload.length / 4096 + 2) payload.length)

theorem State.ingress_unfit {s : State} {n : Nat} {payload : List W8} (h : ¬ s.ingressFits n payload) : s.ingress n payload = .ok (s.dropMessage n) () := by
  unfold State.ingress
  dsimp only
  rw [if_pos]
  · rfl
  · simp only [Bool.or_eq_true, decide_eq_true_eq]
    unfold State.ingressFits at h
    omega

section
variable {s u : State} {n : Nat} {payload : List W8} (hf : s.ingressFits n payload)
include hf

theorem State.ingressFits_cond : (decide (64 * (s.session n).isz < payload.length) ||
    decide ((s.session n).inslot ≤ (s.session n).incnt.toNat - (s.session n).tokRetired) ||
      decide (Config.ingressBurst (s.session n).owner < s.ingressLevel (s.session n).owner)) = false := by
  unfold State.ingressFits at hf
  simp only [Bool.or_eq_false_iff, decide_eq_false_iff_not]
  omega

/-- A message landed: its bytes, its casement's count, and INCNT. -/
def State.messageLanded (u : State) (n owner : Nat) (payload : List W8) (ps : List (Nat × Nat × Nat)) : State :=
  (((u.landMessage payload ps).countIngress owner payload.length).modSession n fun y => { y with incnt := y.incnt + 1 }).countBytes owner payload.length

omit hf in
theorem State.messageLanded_spec (u : State) (n owner : Nat) (payload : List W8) (ps : List (Nat × Nat × Nat)) :
    (u.messageLanded n owner payload ps).mem = (u.landMessage payload ps).mem ∧
      ((u.messageLanded n owner payload ps).session n).incnt = ((u.landMessage payload ps).session n).incnt + 1 := by
  refine ⟨rfl, ?_⟩
  show ((((u.landMessage payload ps).countIngress owner payload.length).modSession n fun y => { y with incnt := y.incnt + 1 }).session n).incnt = _
  rw [State.session_modSession]
  rfl

theorem State.ingress_lands {ps : List (Nat × Nat × Nat)} (h : s.ingressReach n payload = .ok u (ps, none)) :
    s.ingress n payload = .ok (u.messageLanded n (s.session n).owner payload ps) () := by
  unfold State.ingressReach at h
  simp only [State.ingress, State.ingressFits_cond hf, Bool.false_eq_true, if_false, h] <;> rfl

theorem State.ingress_reported {ps : List (Nat × Nat × Nat)} {f : IngressFault} (h : s.ingressReach n payload = .ok u (ps, some f)) :
    s.ingress n payload =
      .ok ((u.report (if f.stage2 then 16 else (s.session n).owner) (faultEntry f.shown f.va 0 0 9 (s.session n).owner f.code) .nothing).dropMessage n) () := by
  unfold State.ingressReach at h
  simp only [State.ingress, State.ingressFits_cond hf, Bool.false_eq_true, if_false, h] <;> rfl

theorem State.ingress_waits (h : s.ingressReach n payload = .wait u) : s.ingress n payload = .wait u := by
  unfold State.ingressReach at h
  simp only [State.ingress, State.ingressFits_cond hf, Bool.false_eq_true, if_false, h]

end

theorem State.waiting_report {s : State} {ring : Nat} (h : ring < s.rings.length) (entry : List W8) (w : RingWait) :
    ((s.report ring entry w).ring ring).waiting = (s.ring ring).waiting ++ [(entry, w)] := by
  unfold State.report State.ring
  dsimp only
  rw [getD_modify_self h]

theorem State.dropMessage_spec (s : State) (n : Nat) :
    ((s.dropMessage n).session n).dropin = (if (s.session n).dropin = 0xFFFF then (s.session n).dropin else (s.session n).dropin + 1) ∧
      ((s.dropMessage n).session n).incnt = (s.session n).incnt := by
  rw [State.dropMessage, State.session_modSession]
  exact ⟨rfl, rfl⟩

/-! ### Rescaling (R308) -/

/-- Nothing but casements and the refusals of step 5 of R308 has changed between two states. -/
def State.OnlyQuotas (s t : State) : Prop := ∃ cs ra, t = { s with casements := cs, refuseAction := ra }

theorem State.OnlyQuotas.refl (s : State) : s.OnlyQuotas s := ⟨s.casements, s.refuseAction, rfl⟩

theorem State.OnlyQuotas.trans {s t u : State} (h : s.OnlyQuotas t) (g : t.OnlyQuotas u) : s.OnlyQuotas u := by
  obtain ⟨a, b, rfl⟩ := h
  obtain ⟨c, d, rfl⟩ := g
  exact ⟨c, d, rfl⟩

/-- One field of one casement as a rescaling leaves it: `e` names the field, the casement, and its old and its new value. -/
def State.requote (back : Nat → Nat) (s : State) (e : Nat × Nat × Nat × Nat) : State :=
  if e.2.2.1 = e.2.2.2 then s
  else s.modCasement e.2.1 fun x => { x with quota := x.quota.set e.1 (back e.2.2.2), inForce := x.inForce.set e.1 (back e.2.2.2) }

theorem State.requotes_onlyQuotas (back : Nat → Nat) (l : List (Nat × Nat × Nat × Nat)) (s : State) :
    s.OnlyQuotas (l.foldl (State.requote back) s) := by
  refine foldl_rel (R := State.OnlyQuotas) State.OnlyQuotas.refl State.OnlyQuotas.trans (fun s e => ?_) l s
  unfold State.requote
  split
  · exact .refl s
  · exact ⟨_, s.refuseAction, rfl⟩

theorem State.rescaleOne_onlyQuotas (s : State) (fields : List Nat) (unit avail : Nat) (into back : Nat → Nat) :
    s.OnlyQuotas (s.rescaleOne fields unit avail into back) := by
  unfold State.rescaleOne
  dsimp only
  split
  · exact .refl s
  · generalize hu : List.foldl _ s _ = u
    have h : s.OnlyQuotas u := hu ▸ State.requotes_onlyQuotas back _ s
    split
    · exact h.trans ⟨_, true, rfl⟩
    · exact h.trans ⟨_, u.refuseAction, rfl⟩

theorem State.rescaleAll_onlyQuotas (s : State) : s.OnlyQuotas s.rescaleAll := by
  unfold State.rescaleAll
  dsimp only
  generalize s.channelsUp = c
  refine .trans ?_ (State.rescaleOne_onlyQuotas _ _ _ _ _ _)
  refine .trans ?_ (State.rescaleOne_onlyQuotas _ _ _ _ _ _)
  exact (State.rescaleOne_onlyQuotas _ _ _ _ _ _).trans (State.rescaleOne_onlyQuotas _ _ _ _ _ _)

/-! ### Fleet time (R323 to R326) -/

/-- Nothing but casements has changed between two states. -/
def State.OnlyCasements (s t : State) : Prop := ∃ cs, t = { s with casements := cs }

theorem State.writeAnchors_onlyCasements (s : State) (l : List Nat) : s.OnlyCasements (l.foldl State.writeAnchor s) :=
  foldl_rel (R := State.OnlyCasements) (fun s => ⟨s.casements, rfl⟩) (fun {s t u} (h : s.OnlyCasements t) (g : t.OnlyCasements u) => by
    obtain ⟨a, rfl⟩ := h
    obtain ⟨b, rfl⟩ := g
    exact ⟨b, rfl⟩) (fun _ _ => ⟨_, rfl⟩) _ s

theorem slewTowards_spec {old off : Int} {n : Nat} (h1 : -200 ≤ old) (h2 : old ≤ 200) (hn : n ≤ 2) :
    -200 ≤ slewTowards old off n ∧ slewTowards old off n ≤ 200 ∧ (0 < off → slewTowards old off n ≤ old) ∧ (off < 0 → old ≤ slewTowards old off n) ∧
      old - 2 ≤ slewTowards old off n ∧ slewTowards old off n ≤ old + 2 := by
  unfold slewTowards
  dsimp only
  split
  · split <;> omega
  · split <;> omega

/-- The clock as its first sync sets it. -/
def State.firstLock (s : State) (g : Nat) : Fleet :=
  { s.fleet with
    ftstat := 1, everLocked := true, sub := g * 10000000, ftoff := BitVec.ofInt 64 ((s.ftime : Int) - g), lastSync := s.now, slew := 0, slewAt := s.now }

/-- The clock as a later sync sets it. -/
def State.laterLock (s : State) (g : Nat) : Fleet :=
  let f := { s.fleet with ftstat := 1, ftoff := BitVec.ofInt 64 ((s.ftime : Int) - g), lastSync := s.now }
  if f.slewAt + 2500000 ≤ s.now then { f with slew := slewTowards f.slew ((s.ftime : Int) - g) (s.draw.1 % 3), slewAt := s.now } else f

section
variable {s : State} {g : Nat} (hh : s.boot.hingeLost = false) (hp : s.fleet.ftport ≠ 2) (hu : s.fleet.pup.getD s.fleet.ftport false = true)
include hh hp hu

theorem exec_ptpSync_first (hl : s.fleet.everLocked = false) :
    exec (.ptpSync g) s = .next ((List.range 16).foldl State.writeAnchor { s with fleet := s.firstLock g }) := by
  rw [exec_ptpSync]
  simp only [execPtpSync, hh, hu, hl, beq_eq_false_iff_ne.mpr hp, Bool.not_true, Bool.or_self, Bool.false_eq_true, if_false, Bool.not_false, if_true] <;> rfl

theorem exec_ptpSync_later (hl : s.fleet.everLocked = true) : exec (.ptpSync g) s = .next { s.draw.2 with fleet := s.laterLock g } := by
  rw [exec_ptpSync]
  unfold execPtpSync
  dsimp only
  rw [if_neg (by rw [hh, hu]; simpa using hp), if_neg (by simp [hl])]
  rfl

end

/-- What a later sync leaves of the clock. -/
theorem State.laterLock_spec (s : State) (g : Nat) :
    let f := s.fleet
    let y := s.laterLock g
    y.ftstat = 1 ∧ y.lastSync = s.now ∧ y.ftoff = BitVec.ofInt 64 ((s.ftime : Int) - g) ∧ y.sub = f.sub ∧
      (-200 ≤ f.slew → f.slew ≤ 200 → -200 ≤ y.slew ∧ y.slew ≤ 200 ∧ (g < s.ftime → y.slew ≤ f.slew) ∧ (s.ftime < g → f.slew ≤ y.slew) ∧
        f.slew - 2 ≤ y.slew ∧ y.slew ≤ f.slew + 2) ∧
      (s.now < f.slewAt + 2500000 → y.slew = f.slew) := by
  intro f y
  simp only [y, State.laterLock]
  split
  · next hd =>
    refine ⟨rfl, rfl, rfl, rfl, fun h1 h2 => ?_, fun h => absurd hd (Nat.not_le.mpr h)⟩
    obtain ⟨a, b, hc, hd, e, g'⟩ := slewTowards_spec (off := (s.ftime : Int) - g) h1 h2 (n := s.draw.1 % 3) (by omega)
    exact ⟨a, b, fun h => hc (by omega), fun h => hd (by omega), e, g'⟩
  · exact ⟨rfl, rfl, rfl, rfl, fun h1 h2 => ⟨h1, h2, fun _ => Int.le_refl _, fun _ => Int.le_refl _, Int.sub_le_self _ (by decide), Int.le_add_of_nonneg_right (by decide)⟩, fun _ => rfl⟩

/-- The clock once a port has changed. -/
def Fleet.portChanged (f : Fleet) (p : Nat) (up : Bool) : Fleet :=
  let pup := f.pup.set p up
  { f with pup := pup, ftport := if !pup.any id then 2 else if f.ftport = 2 then p else f.ftport }

theorem Fleet.portChanged_spec {f : Fleet} {p : Nat} (hp : p < 2) (hl : f.pup.length = 2) (up : Bool) :
    let y := f.portChanged p up
    y.pup.getD p (!up) = up ∧ y.pup.getD (1 - p) false = f.pup.getD (1 - p) false ∧ (y.pup = [false, false] → y.ftport = 2) ∧
      (up = true → f.ftport = 2 → y.ftport = p) := by
  intro y
  obtain ⟨a, b, hab⟩ := List.length_eq_two.mp hl
  have hpup : y.pup = [a, b].set p up := by rw [← hab]; rfl
  have hport : y.ftport = if !y.pup.any id then 2 else if f.ftport = 2 then p else f.ftport := rfl
  obtain rfl | rfl : p = 0 ∨ p = 1 := by omega
  all_goals
    refine ⟨by rw [hpup]; rfl, by rw [hpup, hab]; rfl, fun h => by rw [hport, h]; rfl, fun h h' => ?_⟩
    subst h
    rw [hport, hpup, if_pos h']
    simp

/-- Settles O55. -/
theorem sessionsAndFleetTime : Obligations.SessionsAndFleetTime := by
  unfold Obligations.SessionsAndFleetTime
  refine ⟨fun s n payload hn hr => ?_, fun s hh => ?_⟩
  · intro x send counted fits va reach
    refine ⟨fun ho hst hi hz hra => ?_, fun h => ?_, ?_, fun who job => ?_, fun who job h => exec_sessionIngress_other payload hr h, fun ho h => ?_, fun ho h => ?_⟩
    · have hx := exec_sessionOpen_ready hn hr
      refine ⟨⟨_, hx⟩, fun u hu => ?_, fun u hu => ?_, fun u hu => ?_⟩
      · rw [State.openSession_pinned ho hst hi hz hra hu] at hx
        refine ⟨_, hx, ?_⟩
        rw [State.session_modSession]
        exact ⟨rfl, rfl, rfl, rfl, rfl⟩
      · rw [hx, State.openSession_unpinned ho hst hi hz hra hu]
      · rw [hx, State.openSession_waits ho hst hi hz hra hu]
    · rw [exec_sessionOpen_ready hn hr, State.openSession_refused h]
    · have hx : exec (.sessionClose n) s = .next (s.modSession n fun y => { y with isOpen := false }) := by
        rw [exec_sessionClose, execSessionClose, if_neg (Nat.not_le.mpr hn), if_pos hr]
      exact ⟨_, hx, s.session_modSession n _, fun m hm => s.session_modSession_other hm _, rfl⟩
    · rw [exec_sessionIngress]
      simp [execSessionIngress, hr]
    · exact (exec_sessionIngress_own payload hr ho).trans (congrArg _ (State.arrive_behind payload ho h))
    · have hx : exec (send x.peer x.jobid) s = .next ((s.ingress n payload).arrived n payload) :=
        (exec_sessionIngress_own payload hr ho).trans (congrArg _ (State.arrive_first payload ho h))
      refine ⟨fun hf => ?_, fun _ => ⟨_, hx⟩, fun u ps hf h => ?_, fun u ps f hf h hlen => ?_, fun u hf h => ?_⟩
      · rw [State.ingress_unfit hf] at hx
        obtain ⟨hd, hi⟩ := s.dropMessage_spec n
        exact ⟨_, hx, hd, hi, rfl⟩
      · rw [State.ingress_lands hf h] at hx
        exact ⟨_, hx, u.messageLanded_spec n x.owner payload ps⟩
      · rw [State.ingress_reported hf h] at hx
        refine ⟨_, hx, rfl, ?_, u.waiting_report hlen _ _⟩
        exact (State.dropMessage_spec _ n).2
      · rw [hx, State.ingress_waits hf h]
        rfl
  · intro f
    refine ⟨fun g hp hu => ?_, fun hs hd => ?_, fun hp => ?_, fun p up hp hl => ?_, fun k hk hlen hd => ?_⟩
    · cases hl : f.everLocked with
      | false =>
        obtain ⟨cs, hcs⟩ := State.writeAnchors_onlyCasements { s with fleet := s.firstLock g } (List.range 16)
        refine ⟨_, exec_ptpSync_first hh hp hu hl, ?_⟩
        rw [hcs]
        refine ⟨rfl, rfl, rfl, rfl, rfl, fun _ => ⟨?_, rfl⟩, nofun⟩
        show g * 10000000 / 10000000 = g
        omega
      | true =>
        obtain ⟨h1, h2, h3, h4, h5, h6⟩ := s.laterLock_spec g
        refine ⟨_, exec_ptpSync_later hh hp hu hl, h1, h2, h3, rfl, rfl, nofun, fun _ ha hb => ?_⟩
        obtain ⟨r1, r2, r3, r4, r5, r6⟩ := h5 ha hb
        exact ⟨congrArg (· / 10000000) h4, r1, r2, r3, r4, r5, r6, h6⟩
    · have hs' : s.fleet.ftstat = 1 := hs
      have hd' : s.fleet.lastSync + 2500000000 ≤ s.now := hd
      rw [exec_holdover]
      unfold execHoldover
      dsimp only
      rw [if_neg (by simp [hs', hh, hd'])]
    · have hx : exec .ptpPortRebind s = .next { s with fleet := { s.fleet with ftport := if s.fleet.ftport = 0 then 1 else 0 } } := by
        rw [exec_ptpPortRebind]
        have hp' : s.fleet.ftport ≠ 2 := hp
        unfold execPtpPortRebind
        rw [if_neg (by simp [hh, hp'])]
      exact ⟨_, hx, rfl, rfl⟩
    · let t : State := { s with fleet := s.fleet.portChanged p up }
      have hx : exec (.ethernetPortStateChange p up) s = .next (if up then t else t.rescaleAll) := by
        rw [exec_ethernetPortStateChange]
        simp only [execEthernetPortStateChange, hh, decide_eq_false (Nat.not_le.mpr hp), Bool.or_self, Bool.false_eq_true, if_false] <;> rfl
      obtain ⟨cs, ra, hq⟩ := t.rescaleAll_onlyQuotas
      have hkeep : (if up then t else t.rescaleAll).fleet = s.fleet.portChanged p up ∧ (if up then t else t.rescaleAll).cores = s.cores ∧
          (if up then t else t.rescaleAll).mem = s.mem := by
        cases up
        · rw [if_neg Bool.false_ne_true, hq]
          exact ⟨rfl, rfl, rfl⟩
        · exact ⟨rfl, rfl, rfl⟩
      obtain ⟨h1, h2, h3, h4⟩ := Fleet.portChanged_spec hp hl up
      refine ⟨_, hx, ?_⟩
      rw [hkeep.1]
      exact ⟨h1, h2, h3, h4, hkeep.2⟩
    · have hx : exec (.fleetAnchorRewrite k) s = .next (s.writeAnchor k) := by
        rw [exec_fleetAnchorRewrite]
        simp only [execFleetAnchorRewrite, hh, decide_eq_false (Nat.not_le.mpr hk), decide_eq_false (Nat.not_lt.mpr hd), Bool.or_self, Bool.false_eq_true, if_false]
      refine ⟨_, hx, ?_⟩
      rw [State.writeAnchor, s.casement_modCasement hlen]
      refine ⟨rfl, rfl, rfl, fun d hd9 => ?_, rfl, rfl⟩
      show ((List.range 9).map fun d => (BitVec.ofInt 64 (s.rawCount d + (s.casement k).offsets.getD d 0)).toNat).getD d 0 = _
      simp [List.getD_eq_getElem?_getD, hd9, State.zview]

end Sys2Proof.Machine
end

section
/-! PROOFS. The loss of dies, lanes and clocks and the retirement of units (R21, R27, R245, R308, R333, R335, R336, R339, R459), and O56. -/

namespace Sys2Proof.Machine

/-! ### Units in service (R27) -/

theorem State.clusterUp_cleared (s : State) (d i : Nat) (h : dieOfCluster i = d) :
    (s.clusters.zipIdx.map fun (up, c) => up && dieOfCluster c != d).getD i false = false := by
  simp only [List.getD_eq_getElem?_getD, List.getElem?_map, List.getElem?_zipIdx]
  cases s.clusters[i]? with
  | none => rfl
  | some up => simp [h]

theorem State.channel_modChannel (s : State) (n : Nat) (f : Channel → Channel) : (s.modChannel n f).channel n = f (s.channel n) := by
  simp [State.channel, State.modChannel]

/-- Tasks that a fold over the state leaves as they are. -/
theorem State.tasks_foldl {α : Type} {f : State → α → State} (h : ∀ s a, (f s a).tasks = s.tasks) (l : List α) (s : State) :
    (l.foldl f s).tasks = s.tasks :=
  foldl_rel (R := fun s t : State => t.tasks = s.tasks) (fun _ => rfl) (fun a b => b.trans a) h l s

/-! ### The fence of a lost die (R335, R336) -/

/-- A core of a lost die: idle, but for its taint mark and its counters. -/
def Core.lost (k : Core) : Core := { Core.idle with taint := k.taint, softCount := k.softCount, epoch := k.epoch, blocks := k.blocks }

/-- A task once the cores of a lost die have left it. -/
def Task.bereft (d : Nat) (t : Task) : Task :=
  { t with
    freed := t.freed ++ t.cores.filter fun c =>
      dieOf c == d && !t.freed.contains c && !t.savedCores.any fun x => t.cores.getD x.rank 0 == c
    holds := if t.holds.any fun c => dieOf c == d then [] else t.holds }

/-- The state in which a die's loss has been taken, before its tasks are settled. -/
def State.bereft (s : State) (d : Nat) : State := (s.fence d).clearDie d

theorem State.tasks_bereft (s : State) (d : Nat) : (s.bereft d).tasks = s.tasks.map (Task.bereft d) := rfl

theorem State.core_bereft (s : State) (d c : Nat) : (s.bereft d).core c = if dieOf c = d then ((keyGet s.cores c).map Core.lost).getD Core.idle else s.core c := by
  have h : keyGet (s.bereft d).cores c = (keyGet s.cores c).map fun k => if dieOf c == d then k.lost else k :=
    keyGet_map_values (g := fun c k => if dieOf c == d then Core.lost k else k) (fun n k => by dsimp only; split <;> rfl) c
  unfold State.core
  rw [h]
  split <;> simp_all

theorem State.core_bereft_here (s : State) {d c : Nat} (h : dieOf c = d) : ((s.bereft d).core c).task = none ∧ ((s.bereft d).core c).phase = .idle := by
  rw [s.core_bereft, if_pos h]
  cases keyGet s.cores c <;> exact ⟨rfl, rfl⟩

/-! ### Promotion (R245, R339) -/

theorem State.tasks_leaveCore (s : State) (c t : Nat) : (s.leaveCore c t).tasks = s.tasks := by
  have ha := (s.abandon_becomes c).tasks
  unfold State.leaveCore
  generalize s.abandon c = u at ha
  dsimp only
  split
  · rfl
  · exact ha

/-- Units that a task has reserved on a die, taken from it. -/
def State.takeReserved (s : State) (e : Nat × Nat) : State := s.modDie e.1 fun d => { d with units := d.units - e.2, reserved := d.reserved - e.2 }

/-- Units brought to a die, less those that are short. -/
def State.bringTo (a : State × Nat) (e : Nat × Nat) : State × Nat :=
  (a.1.modDie e.1 fun d => { d with units := d.units + (e.2 - a.2), reserved := d.reserved + e.2 }, a.2 - e.2)

/-- The units that a task has reserved on dies that are lost. -/
def State.unitsGone (s : State) (t : Task) : Nat := ((t.units.filter fun e => !(s.die e.1).live).map Prod.snd).sum

theorem State.bringUnits_eq (s : State) {t : Task} (h : t.klass = 0) (cores : List Nat) :
    s.bringUnits t cores =
      ((groupUnits cores).foldl State.bringTo (t.units.foldl State.takeReserved { s with pool := s.pool - s.unitsGone t }, s.unitsGone t - s.pool)).1 := by
  unfold State.bringUnits
  rw [h]
  rfl

theorem State.bringUnits_other (s : State) {t : Task} (h : t.klass ≠ 0) (cores : List Nat) : s.bringUnits t cores = s := by
  rw [State.bringUnits, if_pos (by simpa using h)]

theorem State.tasks_bringUnits (s : State) (t : Task) (cores : List Nat) : (s.bringUnits t cores).tasks = s.tasks := by
  by_cases h : t.klass = 0
  · rw [s.bringUnits_eq h]
    refine (foldl_rel (R := fun a b : State × Nat => b.1.tasks = a.1.tasks) (f := State.bringTo) (fun _ => rfl) (fun a b => b.trans a) (fun _ _ => rfl) _ _).trans ?_
    exact State.tasks_foldl (f := State.takeReserved) (fun _ _ => rfl) t.units _
  · rw [s.bringUnits_other h]

theorem State.tasks_promoteCore (s : State) (t : Task) (n beat rank : Nat) : (s.promoteCore t n beat rank).tasks = s.tasks := by
  unfold State.promoteCore
  dsimp only
  split
  · rfl
  · exact (State.catchUp_keeps _ _ _).tasks

/-- The state in which a promotion's task stands on its shadow, but for the task's own record. -/
def State.promoted (s : State) (t : Task) (d beat n : Nat) : State :=
  let u := t.cores.foldl (fun s c => s.leaveCore c t.id) ((s.dropExchanges t.id).alignViews t.casement d)
  let u := (List.range t.cores.length).foldl (fun s r => s.promoteCore t n beat r) (u.bringUnits { t with units := groupUnits t.cores } t.shadow)
  { u with chanEnds := keepErrors s.chanEnds u.chanEnds, mirrors := u.mirrors.filter fun m => m.task != t.id }

theorem State.tasks_promoted (s : State) (t : Task) (d beat n : Nat) : (s.promoted t d beat n).tasks = s.tasks := by
  show ((List.range t.cores.length).foldl (fun (s : State) r => s.promoteCore t n beat r) _).tasks = s.tasks
  rw [State.tasks_foldl fun (s : State) r => s.tasks_promoteCore t n beat r, State.tasks_bringUnits, State.tasks_foldl fun (s : State) c => s.tasks_leaveCore c t.id]
  rfl

/-- A task that runs on what was its shadow. -/
def Task.moved (shadow : List Nat) (start : Nat) (x : Task) : Task :=
  { x with
    st := .running, cores := shadow, shadow := [], unmirrored := true, freed := [], savedCores := [], park := none, counting := true, readyAt := start }

theorem State.task?_promote {s : State} {t x : Task} {n : Nat} (hn : s.promotable t = some n) (hx : s.task? t.id = some x) (d beat : Nat) :
    ∃ start, (s.promote t d beat).task? t.id = some (x.moved t.shadow start) := by
  have heq : ∃ start, s.promote t d beat = (s.promoted t d beat n).modTask t.id (Task.moved t.shadow start) := by
    unfold State.promote
    rw [hn]
    exact ⟨_, rfl⟩
  obtain ⟨start, heq⟩ := heq
  have hid := State.id_of_task? hx
  have hu : (s.promoted t d beat n).task? x.id = some x := by rw [hid, State.task?_of_tasks (s.tasks_promoted t d beat n), hx]
  refine ⟨start, ?_⟩
  rw [heq, ← hid]
  exact State.task?_modTask hu _ fun _ => rfl

/-! ### The tasks of a lost die (R336, R339) -/

/-- One task settled after the loss of a die. -/
def State.settleTask (d beat : Nat) (s : State) (t : Task) : State :=
  if t.cores.any fun c => dieOf c == d then
    (if t.shadow.isEmpty then (s.faultPolicy t.id cMachineCheck true).1 else s.promote t d beat)
  else if t.shadow.any fun c => dieOf c == d then s.modTask t.id fun x => { x with shadow := [], unmirrored := true }
  else s

/-- A state whose tasks have been settled, its stores folded and its minima rescaled. -/
theorem exec_dieLossDeclared_due {s : State} {d : Nat} (hh : s.boot.hingeLost = false) (hd : d < 8) (hl : (s.die d).live = true)
    (hb : (s.die d).lastBeat + 62500 ≤ s.now) :
    exec (.dieLossDeclared d) s = .next (((s.bereft d).settleLoss d (s.die d).lastBeat).foldStores (s.bereft d).stores.length).rescaleAll := by
  rw [exec_dieLossDeclared]
  unfold execDieLossDeclared
  dsimp only
  rw [if_neg (by simp [hh, hd, hl, hb])]
  rfl

theorem State.settleLoss_none {s : State} (h : s.tasks = []) (d beat : Nat) : s.settleLoss d beat = s := by
  unfold State.settleLoss
  rw [h]
  rfl

theorem State.settleLoss_one {s : State} {t : Task} (h : s.tasks = [t]) (hl : t.launched = true) (he : t.st ≠ .ending) (d beat : Nat) :
    s.settleLoss d beat = s.settleTask d beat t := by
  have hf : s.tasks.filter (fun t => t.launched && t.st != .ending) = [t] := by rw [h]; simp [hl, he]
  unfold State.settleLoss
  rw [hf]
  rfl

theorem State.faultPolicy_fails {s : State} {t : Task} (ht : s.task? t.id = some t) (he : t.st ≠ .ending) (code : Nat) :
    (s.faultPolicy t.id code true).1.task? t.id = some (t.failing code) := by
  unfold State.faultPolicy
  rw [ht]
  dsimp only
  rw [if_neg (by simp)]
  refine (State.failTask_spec code ?_ he).1
  split
  · exact ((s.sameWork_lowerStream t).task? t.id).trans ht
  · exact ht

section
variable {s : State} {t : Task} (ht : s.task? t.id = some t) (he : t.st ≠ .ending) (d beat : Nat)
include ht

theorem State.settleTask_fails (he : t.st ≠ .ending) (hh : ∃ c ∈ t.cores, dieOf c = d) (h : t.shadow = [] ∨ s.promotable t = none) :
    (s.settleTask d beat t).task? t.id = some (t.failing cMachineCheck) := by
  have hf := State.faultPolicy_fails ht he cMachineCheck
  unfold State.settleTask
  rw [if_pos (by simpa using hh)]
  obtain h | h := h
  · rwa [if_pos (by simp [h])]
  · split
    · exact hf
    · unfold State.promote
      rwa [h]

theorem State.settleTask_moves (hh : ∃ c ∈ t.cores, dieOf c = d) (hs : t.shadow ≠ []) {n : Nat} (h : s.promotable t = some n) :
    ∃ start, (s.settleTask d beat t).task? t.id = some (t.moved t.shadow start) := by
  unfold State.settleTask
  rw [if_pos (by simpa using hh), if_neg (by simpa using hs)]
  exact State.task?_promote h ht d beat

theorem State.settleTask_stays (hh : ¬ ∃ c ∈ t.cores, dieOf c = d) :
    (s.settleTask d beat t).task? t.id =
      some (if ∃ c ∈ t.shadow, dieOf c = d then { t with shadow := [], unmirrored := true } else t) := by
  unfold State.settleTask
  rw [if_neg (by simpa using hh)]
  by_cases h : ∃ c ∈ t.shadow, dieOf c = d
  · rw [if_pos (by simpa using h), if_pos h]
    exact State.task?_modTask ht _ fun _ => rfl
  · rw [if_neg (by simpa using h), if_neg h]
    exact ht

end

/-! ### Sub-links (R333) -/

/-- The entry and the lanes that go with a failed lane. -/
def lanesLost (table : W64) (lane : Nat) : Nat × List Nat :=
  match (List.range 8).find? fun i => (linkLanes table i).contains lane with
  | some i => (i, linkLanes table i)
  | none => (8, [lane])

theorem mem_lanesLost (table : W64) (lane : Nat) : lane ∈ (lanesLost table lane).2 := by
  unfold lanesLost
  split
  · next i h => simpa using List.find?_some h
  · exact List.mem_singleton_self _

theorem lanesLost_first {table : W64} {lane i : Nat} (hi : i < 8) (h : lane ∈ linkLanes table i) (hj : ∀ j, j < i → lane ∉ linkLanes table j) :
    (lanesLost table lane).2 = linkLanes table i := by
  have hf : (List.range 8).find? (fun i => (linkLanes table i).contains lane) = some i := by
    rw [List.find?_range_eq_some]
    refine ⟨by simpa using h, by simpa using hi, fun j hji => by simpa using hj j hji⟩
  unfold lanesLost
  rw [hf]

theorem exec_sublinkRetire_ready {s : State} {p l : Nat} (hh : s.boot.hingeLost = false) (hp : p < 16) (hl : l < 8) :
    ∃ t, exec (.sublinkRetire p l) s = .next t ∧ t.cores = s.cores ∧ t.mem = s.mem ∧
      t.retiredLanes = (s.retiredLanes ++ (lanesLost (s.sublinks.getD p 0) l).2.map fun l => (p, l)).eraseDups := by
  rw [exec_sublinkRetire]
  unfold execSublinkRetire
  rw [if_neg (by simp [hh, hp, hl])]
  refine ⟨_, rfl, ?_⟩
  obtain ⟨cs, ra, hq⟩ := State.rescaleAll_onlyQuotas _
  rw [hq]
  exact ⟨rfl, rfl, rfl⟩

/-! ### Retirement by firmware (R27, R308) -/

theorem exec_firmwareRetirement_ready {s : State} {u : RetireUnit} (hh : s.boot.hingeLost = false) (hu : RetireUnitOk u = true) (hc : s.unitHot u = false) :
    ∃ cs ra, exec (.firmwareRetirement u) s = .next { s.clearUnit u with casements := cs, refuseAction := ra } := by
  obtain ⟨cs, ra, hq⟩ := (s.clearUnit u).rescaleAll_onlyQuotas
  refine ⟨cs, ra, ?_⟩
  rw [exec_firmwareRetirement, execFirmwareRetirement, if_neg (by simp [hh, hu, hc]), hq]

/-- Settles O56. -/
theorem losses : Obligations.Losses := by
  unfold Obligations.Losses
  refine ⟨fun s d hh hd hlen hl hc hn => ?_, fun s d hh hd hlen hl => ?_, fun s d hh hd hlen hl hb => ?_, fun s => ⟨_, rfl, rfl, rfl, rfl, rfl, rfl⟩,
    fun s p l hh hp hl => ?_, fun s p v hr hp hlen => ?_, fun s n hh => ⟨fun hn => ?_, fun hn hlen hho => ?_, fun hn hlen hho => ?_, fun hn => ?_⟩⟩
  · have hx : exec (.dieHeartbeat d) s = .next (s.modDie d fun y => { y with lastBeat := s.now, nextBeat := s.now + 1250 }) := by
      rw [exec_dieHeartbeat]
      unfold execDieHeartbeat
      dsimp only
      rw [if_neg (by simp [hh, hd, hl, hc, hn])]
    refine ⟨_, hx, ?_⟩
    rw [State.die_modDie hlen]
    exact ⟨rfl, rfl, fun e he => s.die_modDie_other he _, rfl⟩
  · have hx : exec (.clockLockLoss d) s = .next (s.modDie d fun y => { y with clockLost := true }) := by
      rw [exec_clockLockLoss, execClockLockLoss, if_neg (by simp [hh, hd, hl])]
    refine ⟨_, hx, ?_⟩
    rw [State.die_modDie hlen]
    exact ⟨rfl, hl, fun e he => s.die_modDie_other he _, rfl⟩
  · refine ⟨_, exec_dieLossDeclared_due hh hd hl hb, fun hts => ?_, fun v hv hla he => ?_⟩
    · rw [State.settleLoss_none (by rw [State.tasks_bereft, hts]; rfl)]
      have hk := (s.bereft d).foldStores_keeps (s.bereft d).stores.length
      have hdies := (s.bereft d).foldStores_dies (s.bereft d).stores.length
      obtain ⟨cs, ra, hq⟩ := ((s.bereft d).foldStores (s.bereft d).stores.length).rescaleAll_onlyQuotas
      rw [hq]
      have hcore (c : Nat) : State.core { (s.bereft d).foldStores (s.bereft d).stores.length with casements := cs, refuseAction := ra } c = (s.bereft d).core c :=
        State.core_of_cores (s := s.bereft d) hk.cores c
      have hdie (e : Nat) : State.die { (s.bereft d).foldStores (s.bereft d).stores.length with casements := cs, refuseAction := ra } e = (s.bereft d).die e :=
        congrArg (List.getD · e (Die.reset 0)) hdies
      refine ⟨?_, fun c h => ?_, fun c h => ?_, fun i h => ?_, fun e h => ?_⟩
      · rw [hdie]
        exact congrArg Die.live (State.die_modDie (s := { s.bereft d with dies := s.dies }) hlen _)
      · rw [hcore]
        exact s.core_bereft_here h
      · rw [hcore, s.core_bereft, if_neg h]
      · exact (congrArg (List.getD · i false) hk.clusters).trans (s.clusterUp_cleared d i h)
      · rw [hdie]
        exact State.die_modDie_other _ h _
    · intro u hit failed
      have hu : u.tasks = [v.bereft d] := by
        show s.tasks.map (Task.bereft d) = _
        rw [hv]
        rfl
      have ht : u.task? (v.bereft d).id = some (v.bereft d) := by
        rw [State.task?, hu]
        simp
      have hk := (u.settleTask d (s.die d).lastBeat (v.bereft d)).foldStores_keeps u.stores.length
      obtain ⟨cs, ra, hq⟩ := ((u.settleTask d (s.die d).lastBeat (v.bereft d)).foldStores u.stores.length).rescaleAll_onlyQuotas
      have htask : State.task? (((s.bereft d).settleLoss d (s.die d).lastBeat).foldStores (s.bereft d).stores.length).rescaleAll v.id =
          (u.settleTask d (s.die d).lastBeat (v.bereft d)).task? v.id := by
        have hs : (s.bereft d).settleLoss d (s.die d).lastBeat = u.settleTask d (s.die d).lastBeat (v.bereft d) := State.settleLoss_one hu hla he _ _
        rw [hs]
        exact State.task?_of_tasks ((congrArg State.tasks hq).trans hk.tasks) _
      simp only [failed, htask]
      refine ⟨fun h hn => ?_, fun n h hs hn => ?_, fun h => ?_⟩
      · exact ⟨_, State.settleTask_fails ht d _ he h hn, rfl, rfl, rfl⟩
      · obtain ⟨start, hw⟩ := State.settleTask_moves ht d (s.die d).lastBeat h hs hn
        exact ⟨_, hw, rfl, rfl, rfl, rfl⟩
      · have hw := State.settleTask_stays ht d (s.die d).lastBeat h
        by_cases hsh : ∃ c ∈ (v.bereft d).shadow, dieOf c = d
        · rw [if_pos hsh] at hw
          exact ⟨_, hw, rfl, rfl, fun _ => ⟨rfl, rfl⟩, fun hn => absurd hsh fun ⟨c, hc, he⟩ => hn c hc he⟩
        · rw [if_neg hsh] at hw
          exact ⟨_, hw, rfl, rfl, fun h => absurd h hsh, fun _ => ⟨rfl, rfl⟩⟩
  · obtain ⟨t, hx, hcores, hmem, hlanes⟩ := exec_sublinkRetire_ready hh hp hl
    have hin {m : Nat} (h : m ∈ (lanesLost (s.sublinks.getD p 0) l).2) : (p, m) ∈ t.retiredLanes := by
      rw [hlanes, List.mem_eraseDups]
      exact List.mem_append_right _ (List.mem_map.mpr ⟨m, h, rfl⟩)
    refine ⟨t, hx, hin (mem_lanesLost _ l), fun i hi h hj m hm => hin ?_, hcores, hmem⟩
    rwa [lanesLost_first hi h hj]
  · have hx : exec (.sublinkTableWrite p v) s = .next (s.writeLinks p v) := by
      rw [exec_sublinkTableWrite, execSublinkTableWrite, if_neg (Nat.not_le.mpr hp), if_pos hr]
    refine ⟨⟨_, hx⟩, fun h => ⟨_, hx, ?_⟩, fun h => ?_⟩
    · rw [State.writeLinks, if_neg (by rw [h]; exact Bool.false_ne_true)]
      refine ⟨?_, fun r hne => ?_⟩
      · show (s.sublinks.set p _).getD p 0 = _
        simp [List.getD_eq_getElem?_getD, hlen]
      · show (s.sublinks.set p _).getD r 0 = _
        simp [List.getD_eq_getElem?_getD, Ne.symm hne]
    · rw [hx, State.writeLinks, if_pos h]
  · obtain ⟨cs, ra, hx⟩ := exec_firmwareRetirement_ready (u := .cluster n) hh (decide_eq_true hn) rfl
    refine ⟨_, hx, ?_, rfl⟩
    show (s.clusters.set n false).getD n false = false
    by_cases h : n < s.clusters.length <;> simp [List.getD_eq_getElem?_getD, h]
  · obtain ⟨cs, ra, hx⟩ := exec_firmwareRetirement_ready (u := .die n) hh (decide_eq_true hn) (by
      simp only [State.unitHot, List.any_eq_false, List.mem_range]
      intro j hj
      simpa using fun h => hho j hj h)
    refine ⟨_, hx, ?_, fun i h => s.clusterUp_cleared n i h, rfl⟩
    show ((s.dies.modify n fun y => { y with retired := true }).getD n (Die.reset 0)).retired = true
    rw [getD_modify_self hlen]
  · obtain ⟨cs, ra, hx⟩ := exec_firmwareRetirement_ready (u := .stack n) hh (decide_eq_true hn) hho
    refine ⟨_, hx, ?_, rfl⟩
    show ((s.hbm.modify n fun k => { k with live := false, hold := false }).getD n Stack.reset).live = false
    rw [getD_modify_self hlen]
  · obtain ⟨cs, ra, hx⟩ := exec_firmwareRetirement_ready (u := .channel n) hh (decide_eq_true hn) rfl
    refine ⟨_, hx, ?_, rfl⟩
    show ((s.modChannel n fun c => { c with retired := true }).channel n).retired = true
    rw [State.channel_modChannel]

end Sys2Proof.Machine
end

section
/-! PROOFS. Power units move between the dies and the pool, and none is made or lost (R345, R346): O57. -/

namespace Sys2Proof.Machine

theorem foldl_rel_mem {α σ : Type} {R : σ → σ → Prop} (refl : ∀ s, R s s) (trans : ∀ {s t u}, R s t → R t u → R s u) {f : σ → α → σ}
    {l : List α} (h : ∀ s, ∀ a ∈ l, R s (f s a)) (s : σ) : R s (l.foldl f s) := by
  induction l generalizing s with
  | nil => exact refl s
  | cons a l ih => exact trans (h s a List.mem_cons_self) (ih (fun s b hb => h s b (List.mem_cons_of_mem _ hb)) _)

theorem sum_map_modify {α : Type} (w : α → Nat) (f : α → α) (d : α) {l : List α} {n : Nat} (h : n < l.length) :
    ((l.modify n f).map w).sum + w (l.getD n d) = (l.map w).sum + w (f (l.getD n d)) := by
  induction l generalizing n with
  | nil => exact absurd h (Nat.not_lt_zero n)
  | cons a l ih =>
    cases n with
    | zero =>
      simp only [List.modify_zero_cons, List.map_cons, List.sum_cons, List.getD_cons_zero]
      omega
    | succ n =>
      have := ih (n := n) (by simpa using h)
      simp only [List.modify_succ_cons, List.map_cons, List.sum_cons, List.getD_cons_succ]
      omega

/-! ### What the part holds -/

/-- The units that a die holds, and those on their way to it. -/
def Die.power (d : Die) : Nat := d.units + (d.incoming.map fun e => e.2.1).sum

/-- The units of the part. -/
def State.powerTotal (s : State) : Nat := s.pool + (s.dies.map Die.power).sum

/-- A die with other units. -/
def Die.withUnits (n : Nat) (x : Die) : Die := { x with units := n }

theorem Die.power_withUnits (x : Die) (n : Nat) : (x.withUnits n).power + x.units = x.power + n := by
  show n + (x.incoming.map fun e => e.2.1).sum + x.units = x.units + (x.incoming.map fun e => e.2.1).sum + n
  omega

theorem State.powerTotal_modDie (s : State) {d : Nat} (h : d < s.dies.length) (f : Die → Die) :
    (s.modDie d f).powerTotal + (s.die d).power = s.powerTotal + (f (s.die d)).power := by
  have := sum_map_modify Die.power f (Die.reset 0) h
  show s.pool + ((s.dies.modify d f).map Die.power).sum + (s.dies.getD d (Die.reset 0)).power = s.pool + (s.dies.map Die.power).sum + _
  unfold State.die
  omega

/-- No unit is made or lost between two states, and no core, no die and no cycle comes or goes. -/
structure State.KeepsPower (s t : State) : Prop where
  dies : t.dies.length = s.dies.length
  total : t.powerTotal = s.powerTotal
  cores : t.cores = s.cores
  now : t.now = s.now

theorem State.KeepsPower.refl (s : State) : s.KeepsPower s := ⟨rfl, rfl, rfl, rfl⟩

theorem State.KeepsPower.trans {s t u : State} (h : s.KeepsPower t) (g : t.KeepsPower u) : s.KeepsPower u :=
  ⟨g.dies.trans h.dies, g.total.trans h.total, g.cores.trans h.cores, g.now.trans h.now⟩

/-- A fold over spoke dies of a part of nine dies, each step of which makes and loses no unit. -/
theorem State.KeepsPower.foldl {α : Type} {f : State → α → State} {l : List α} (h : ∀ s : State, s.dies.length = 9 → ∀ a ∈ l, s.KeepsPower (f s a)) {s : State}
    (hs : s.dies.length = 9) : s.KeepsPower (l.foldl f s) :=
  foldl_rel_mem (R := fun s t : State => s.dies.length = 9 → s.KeepsPower t) (fun s _ => .refl s)
    (fun a b hs => (a hs).trans (b ((a hs).dies.trans hs))) (fun s a ha hs => h s hs a ha) s hs

theorem State.keepsPower_modDie (s : State) (d : Nat) {f : Die → Die} (hf : ∀ x, (f x).power = x.power) : s.KeepsPower (s.modDie d f) := by
  refine ⟨List.length_modify .., ?_, rfl, rfl⟩
  by_cases h : d < s.dies.length
  · have := s.powerTotal_modDie h f
    rw [hf] at this
    omega
  · rw [State.modDie, List.modify_eq_self (Nat.not_lt.mp h)]

/-! ### The offers (R346) -/

/-- A die to which units are on their way. -/
def Die.awaiting (d n due : Nat) (loan : Bool) (x : Die) : Die :=
  { x with
    incoming := x.incoming ++ [(d, n, due)]
    borrowed := if loan then keySet x.borrowed d ((keyGet x.borrowed d).getD 0 + n) else x.borrowed }

theorem Die.power_awaiting (x : Die) (d n due : Nat) (loan : Bool) : (x.awaiting d n due loan).power = x.power + n := by
  simp [Die.power, Die.awaiting]
  omega

theorem State.keepsPower_sendUnits (s : State) {d e n : Nat} (hd : d < s.dies.length) (he : e < s.dies.length) (hn : n ≤ (s.die d).units) (loan : Bool) :
    s.KeepsPower (s.sendUnits d e n loan) := by
  unfold State.sendUnits
  split
  · exact .refl s
  · let u := s.drawDue.2.modDie d fun x => { x with units := x.units - n }
    have h1 : u.powerTotal + n = s.powerTotal := by
      have := s.drawDue.2.powerTotal_modDie (d := d) hd fun x => { x with units := x.units - n }
      have hp : (s.drawDue.2.die d).power = (s.die d).units + ((s.die d).incoming.map fun e => e.2.1).sum := rfl
      have ht : s.drawDue.2.powerTotal = s.powerTotal := rfl
      have hq : Die.power { s.drawDue.2.die d with units := (s.drawDue.2.die d).units - n } = (s.die d).units - n + ((s.die d).incoming.map fun e => e.2.1).sum := rfl
      rw [hp, ht, hq] at this
      show (s.drawDue.2.modDie d _).powerTotal + n = _
      omega
    have hu : e < u.dies.length := by
      show e < (s.dies.modify d _).length
      rwa [List.length_modify]
    have h2 := u.powerTotal_modDie hu (Die.awaiting d n s.drawDue.1 loan)
    rw [Die.power_awaiting] at h2
    refine ⟨?_, ?_, rfl, rfl⟩
    · show ((s.dies.modify d _).modify e _).length = _
      rw [List.length_modify, List.length_modify]
    · show (u.modDie e (Die.awaiting d n s.drawDue.1 loan)).powerTotal = _
      omega

theorem State.freeUnits_le (s : State) (d : Nat) : s.freeUnits d ≤ (s.die d).units := Nat.sub_le _ _

theorem State.surplus_le (s : State) (d : Nat) : s.surplus d ≤ (s.die d).units := (Nat.sub_le _ _).trans (s.freeUnits_le d)

theorem State.exchanging_lt {s : State} {d : Nat} (h : d ∈ s.exchanging) : d < 8 := by
  simp only [State.exchanging, State.spokes, List.mem_filter, List.mem_range] at h
  exact h.1.1

/-- Whether one die's sideband exchange fails, at a tick. -/
def State.failBand (s : State) (d : Nat) : State := s.draw.2.modDie d fun x => { x with bandFailed := s.draw.1 % 2 == 1 }

theorem State.keepsPower_failBands {s : State} (hs : s.dies.length = 9) : s.KeepsPower s.failBands :=
  State.KeepsPower.foldl (f := State.failBand) (fun s _ d _ =>
    (State.KeepsPower.trans (t := s.draw.2) ⟨rfl, rfl, rfl, rfl⟩ (s.draw.2.keepsPower_modDie d fun _ => rfl))) hs

theorem State.keepsPower_repay {s : State} (hs : s.dies.length = 9) {d : Nat} (hd : d < 8) : s.KeepsPower (s.repay d) := by
  refine State.KeepsPower.foldl (fun s hs e _ => ?_) hs
  dsimp only
  split
  · exact .refl s
  · next h =>
    have he : e.1 ∈ s.exchanging := by
      rw [Bool.or_eq_true, not_or] at h
      simpa using h.2
    have hlt := State.exchanging_lt he
    have hd' : d < s.dies.length := by omega
    have he' : e.1 < s.dies.length := by omega
    refine (s.keepsPower_sendUnits hd' he' ((Nat.min_le_right e.2 _).trans (s.surplus_le d)) false).trans ?_
    exact State.keepsPower_modDie _ d fun _ => rfl

theorem State.keepsPower_borrow {s : State} (hs : s.dies.length = 9) {d : Nat} (hd : d < 8) : s.KeepsPower (s.borrow d) := by
  refine foldl_rel_mem (R := fun a b : State × Nat => a.1.dies.length = 9 → a.1.KeepsPower b.1) (fun a _ => .refl a.1)
    (fun a b hs => (a hs).trans (b ((a hs).dies.trans hs))) (fun a e he hs => ?_) (s, s.lack d) hs
  have hlt := State.exchanging_lt (List.mem_of_mem_filter he)
  exact a.1.keepsPower_sendUnits (by omega) (by omega) ((Nat.min_le_right _ _).trans (a.1.surplus_le e)) true

/-- The part once its dies have repaid and borrowed. -/
def State.traded (s : State) : State :=
  let s := s.failBands
  let s := s.exchanging.foldl State.repay s
  s.exchanging.foldl State.borrow s

theorem State.keepsPower_traded {s : State} (hs : s.dies.length = 9) : s.KeepsPower s.traded := by
  have h1 := State.keepsPower_failBands hs
  have h2 := State.KeepsPower.foldl (f := State.repay) (l := s.failBands.exchanging) (fun s hs d hd => State.keepsPower_repay hs (State.exchanging_lt hd)) (h1.dies.trans hs)
  have h12 := h1.trans h2
  exact h12.trans (State.KeepsPower.foldl (f := State.borrow) (fun s hs d hd => State.keepsPower_borrow hs (State.exchanging_lt hd)) (h12.dies.trans hs))

/-- The part once the next offers are set. -/
def State.nextOffers (s : State) : State := { s with dies := s.dies.map fun d => { d with nextOffer := s.now + 1250 } }

theorem State.powerTotal_nextOffers (s : State) : s.nextOffers.powerTotal = s.powerTotal := by
  show s.pool + ((s.dies.map _).map Die.power).sum = _
  rw [List.map_map]
  rfl

theorem State.nextOffer_nextOffers (s : State) {d : Nat} (h : d < s.dies.length) : (s.nextOffers.die d).nextOffer = s.now + 1250 := by
  show ((s.dies.map _).getD d (Die.reset 0)).nextOffer = _
  rw [List.getD_eq_getElem?_getD, List.getElem?_map, List.getElem?_eq_getElem h]
  rfl

/-! ### The rebalancing (R346) -/

/-- Free units of a die moved to the pool. -/
def State.collect (s : State) (d : Nat) : State :=
  let (v, s) := s.draw
  let n := v % (s.freeUnits d + 1)
  { (s.modDie d fun x => { x with units := x.units - n }) with pool := s.pool + n }

/-- Units of the pool dealt to a die. -/
def State.deal (s : State) (d : Nat) : State :=
  let (v, s) := s.draw
  let n := v % (s.pool + 1)
  { (s.modDie d fun x => { x with units := x.units + n }) with pool := s.pool - n }

theorem State.keepsPower_collect {s : State} {d : Nat} (hd : d < s.dies.length) : s.KeepsPower (s.collect d) := by
  let n := s.draw.1 % (s.draw.2.freeUnits d + 1)
  have hn : n ≤ (s.die d).units := (Nat.le_of_lt_succ (Nat.mod_lt _ (Nat.succ_pos _))).trans (s.draw.2.freeUnits_le d)
  have h := s.powerTotal_modDie hd fun x => x.withUnits (x.units - n)
  have hp := (s.die d).power_withUnits ((s.die d).units - n)
  have ht : (s.collect d).powerTotal = (s.modDie d fun x => x.withUnits (x.units - n)).powerTotal + n := Nat.add_right_comm s.pool n _
  clear_value n
  exact ⟨List.length_modify .., by omega, rfl, rfl⟩

theorem State.keepsPower_deal {s : State} {d : Nat} (hd : d < s.dies.length) : s.KeepsPower (s.deal d) := by
  let n := s.draw.1 % (s.draw.2.pool + 1)
  have hn : n ≤ s.pool := Nat.le_of_lt_succ (Nat.mod_lt _ (Nat.succ_pos _))
  have h := s.powerTotal_modDie hd fun x => x.withUnits (x.units + n)
  have hp := (s.die d).power_withUnits ((s.die d).units + n)
  have ht : (s.deal d).powerTotal = s.pool - n + ((s.modDie d fun x => x.withUnits (x.units + n)).dies.map Die.power).sum := rfl
  have hm : (s.modDie d fun x => x.withUnits (x.units + n)).powerTotal = s.pool + ((s.modDie d fun x => x.withUnits (x.units + n)).dies.map Die.power).sum := rfl
  clear_value n
  exact ⟨List.length_modify .., by omega, rfl, rfl⟩

theorem State.spokes_lt {s : State} {d : Nat} (h : d ∈ s.spokes) : d < 8 := by
  simp only [State.spokes, List.mem_filter, List.mem_range] at h
  exact h.1

/-- The part once the hinge die has moved free units between dies. -/
def State.rebalanced (s : State) : State :=
  let s := s.spokes.foldl State.collect s
  s.spokes.foldl State.deal s

theorem State.keepsPower_rebalanced {s : State} (hs : s.dies.length = 9) : s.KeepsPower s.rebalanced := by
  have h1 := State.KeepsPower.foldl (f := State.collect) (l := s.spokes)
    (fun s hs d hd => State.keepsPower_collect (by have := State.spokes_lt hd; omega)) hs
  exact h1.trans (State.KeepsPower.foldl (f := State.deal) (fun s hs d hd => State.keepsPower_deal (by have := State.spokes_lt hd; omega)) (h1.dies.trans hs))

/-! ### Arrivals, and the units of a lost die (R346) -/

theorem sum_map_filter_add {α : Type} (w : α → Nat) (p : α → Bool) (l : List α) :
    ((l.filter p).map w).sum + ((l.filter fun a => !p a).map w).sum = (l.map w).sum := by
  induction l with
  | nil => rfl
  | cons a l ih => cases h : p a <;> simp [h] <;> omega

/-- A die whose units on their way have arrived. -/
def Die.arrived (now : Nat) (d : Die) : Die :=
  if d.incoming.isEmpty then d
  else { d with
    units := d.units + ((d.incoming.filter fun e => decide (e.2.2 ≤ now)).map fun e => e.2.1).sum
    incoming := d.incoming.filter fun e => !decide (e.2.2 ≤ now) }

theorem Die.power_arrived (now : Nat) (d : Die) : (d.arrived now).power = d.power := by
  unfold Die.arrived
  split
  · rfl
  · have := sum_map_filter_add (fun e : Nat × Nat × Nat => e.2.1) (fun e => decide (e.2.2 ≤ now)) d.incoming
    unfold Die.power
    dsimp only
    omega

theorem State.powerTotal_powerArrivals (s : State) : s.powerArrivals.powerTotal = s.powerTotal := by
  show s.pool + ((s.dies.map (Die.arrived s.now)).map Die.power).sum = s.pool + (s.dies.map Die.power).sum
  rw [List.map_map]
  exact congrArg (fun f => s.pool + (s.dies.map f).sum) (funext (Die.power_arrived s.now))

/-- A die out of service, its units gone. -/
def Die.cleared (y : Die) : Die := { y with live := false, units := 0, used := 0, reserved := 0, borrowed := [], incoming := [] }

theorem State.clearDie_power (s : State) {d : Nat} (hd : d < s.dies.length) :
    (s.clearDie d).powerTotal = s.powerTotal ∧ ((s.clearDie d).die d).units = 0 ∧ ((s.clearDie d).die d).incoming = [] := by
  have hdie : (s.clearDie d).die d = (s.die d).cleared := State.die_modDie (s := { s.clearDie d with dies := s.dies }) hd Die.cleared
  have h := s.powerTotal_modDie hd Die.cleared
  have hc : (s.die d).cleared.power = 0 := rfl
  have ht : (s.clearDie d).powerTotal = (s.modDie d Die.cleared).powerTotal + (s.die d).power := by
    show s.pool + (s.die d).units + ((s.die d).incoming.map fun e => e.2.1).sum + ((s.modDie d Die.cleared).dies.map Die.power).sum =
      s.pool + ((s.modDie d Die.cleared).dies.map Die.power).sum + ((s.die d).units + ((s.die d).incoming.map fun e => e.2.1).sum)
    omega
  rw [hdie]
  exact ⟨by omega, rfl, rfl⟩

/-! ### What a task has reserved (R345) -/

/-- The units of some reservations that stand on live dies. -/
def State.unitsThere (s : State) (l : List (Nat × Nat)) : Nat := ((l.filter fun e => (s.die e.1).live).map Prod.snd).sum

/-- Reservations of different dies, held by those of them that are live. -/
def State.Holds (s : State) (l : List (Nat × Nat)) : Prop :=
  (l.map fun e => e.1).Nodup ∧ ∀ e ∈ l, e.1 < s.dies.length ∧ ((s.die e.1).live = true → e.2 ≤ (s.die e.1).units) ∧ ((s.die e.1).live = false → (s.die e.1).units = 0)

theorem State.takeReserved_power {s : State} {l : List (Nat × Nat)} (h : s.Holds l) :
    (l.foldl State.takeReserved s).powerTotal + s.unitsThere l = s.powerTotal ∧ (l.foldl State.takeReserved s).dies.length = s.dies.length ∧
      (l.foldl State.takeReserved s).cores = s.cores := by
  induction l generalizing s with
  | nil => exact ⟨rfl, rfl, rfl⟩
  | cons e l ih =>
    obtain ⟨hnd, hl⟩ := h
    rw [List.map_cons, List.nodup_cons] at hnd
    obtain ⟨hlt, hlive, hdead⟩ := hl e List.mem_cons_self
    have hother {a : Nat × Nat} (ha : a ∈ l) : (s.takeReserved e).die a.1 = s.die a.1 :=
      s.die_modDie_other (fun he => hnd.1 (List.mem_map.mpr ⟨a, ha, he⟩)) _
    have hlen : (s.takeReserved e).dies.length = s.dies.length := List.length_modify ..
    have hholds : (s.takeReserved e).Holds l := by
      refine ⟨hnd.2, fun a ha => ?_⟩
      rw [hother ha, hlen]
      exact hl a (List.mem_cons_of_mem _ ha)
    obtain ⟨h1, h2, h3⟩ := ih hholds
    have hthere : (s.takeReserved e).unitsThere l = s.unitsThere l := by
      unfold State.unitsThere
      rw [List.filter_congr fun a ha => by rw [hother ha]]
    have hcons : s.unitsThere (e :: l) = (if (s.die e.1).live then e.2 else 0) + s.unitsThere l := by
      unfold State.unitsThere
      cases hv : (s.die e.1).live <;> simp [hv]
    have hp := s.powerTotal_modDie hlt fun d => { d with units := d.units - e.2, reserved := d.reserved - e.2 }
    have hp' : (s.takeReserved e).powerTotal + (s.die e.1).power = s.powerTotal + ((s.die e.1).units - e.2 + ((s.die e.1).incoming.map fun e => e.2.1).sum) := hp
    have hpow : (s.die e.1).power = (s.die e.1).units + ((s.die e.1).incoming.map fun e => e.2.1).sum := rfl
    refine ⟨?_, h2.trans hlen, h3⟩
    rw [List.foldl_cons, hcons]
    cases hv : (s.die e.1).live with
    | true =>
      have := hlive hv
      simp only [if_true]
      omega
    | false =>
      have := hdead hv
      simp only [Bool.false_eq_true, if_false]
      omega

/-- Units brought with none short: none is made but those brought, and the dies hold at least what they are brought. -/
theorem State.bringTo_power {s : State} {l : List (Nat × Nat)} (h : ∀ e ∈ l, e.1 < s.dies.length) :
    let t := (l.foldl State.bringTo (s, 0)).1
    t.powerTotal = s.powerTotal + (l.map Prod.snd).sum ∧ t.cores = s.cores ∧ (∀ d, (s.die d).units ≤ (t.die d).units) ∧
      ∀ e ∈ l, e.2 ≤ (t.die e.1).units := by
  induction l generalizing s with
  | nil => exact ⟨rfl, rfl, fun _ => le_rfl, nofun⟩
  | cons e l ih =>
    let u : State := s.modDie e.1 fun d => { d with units := d.units + (e.2 - 0), reserved := d.reserved + e.2 }
    have hlt := h e List.mem_cons_self
    have hstep : (e :: l).foldl State.bringTo (s, 0) = l.foldl State.bringTo (u, 0) := by
      rw [List.foldl_cons, State.bringTo, Nat.zero_sub]
    have hp : u.powerTotal + (s.die e.1).power = s.powerTotal + ((s.die e.1).units + e.2 + ((s.die e.1).incoming.map fun e => e.2.1).sum) :=
      s.powerTotal_modDie hlt fun d => { d with units := d.units + (e.2 - 0), reserved := d.reserved + e.2 }
    have hpow : (s.die e.1).power = (s.die e.1).units + ((s.die e.1).incoming.map fun e => e.2.1).sum := rfl
    have hhere : (u.die e.1).units = (s.die e.1).units + e.2 := congrArg Die.units (State.die_modDie hlt _)
    obtain ⟨h1, h2, h3, h4⟩ := ih (s := u) fun a ha => by
      show a.1 < (s.dies.modify _ _).length
      rw [List.length_modify]
      exact h a (List.mem_cons_of_mem _ ha)
    rw [hstep]
    refine ⟨?_, h2, fun d => ?_, fun a ha => ?_⟩
    · rw [h1, List.map_cons, List.sum_cons]
      omega
    · refine le_trans ?_ (h3 d)
      by_cases hd : d = e.1
      · rw [hd, hhere]
        exact Nat.le_add_right _ _
      · rw [s.die_modDie_other hd]
    · obtain rfl | ha := List.mem_cons.mp ha
      · have := h3 a.1
        omega
      · exact h4 a ha

theorem groupUnits_lt {cores : List Nat} {e : Nat × Nat} (h : e ∈ groupUnits cores) : e.1 < 8 := by
  obtain ⟨d, hd, he⟩ := List.mem_filterMap.mp h
  dsimp only at he
  split at he
  · cases he
  · cases he
    exact List.mem_range.mp hd

/-- Settles O57. -/
theorem powerUnits : Obligations.PowerUnits := by
  unfold Obligations.PowerUnits
  intro s hh hs total
  refine ⟨fun hn => ?_, fun hn => ?_, ⟨s.powerTotal_powerArrivals, rfl⟩, fun d hd => ?_, fun t cores hk hnd hu hp hsum => ?_⟩
  · have hx : exec .powerOfferTick s = .next s.traded.nextOffers := by
      rw [exec_powerOfferTick, execPowerOfferTick, if_neg (by simp [hh, hn])]
      rfl
    obtain ⟨hd, ht, hc, hw⟩ := State.keepsPower_traded hs
    generalize s.traded = u at hx hd ht hc hw
    refine ⟨_, hx, u.powerTotal_nextOffers.trans ht, fun d hlt => ?_, hc⟩
    rw [u.nextOffer_nextOffers (by omega), hw]
  · have hx : exec .powerRebalance s = .next { s.rebalanced with nextRebalance := s.rebalanced.now + 12500 } := by
      rw [exec_powerRebalance, execPowerRebalance, if_neg (by simp [hh, hn])]
      rfl
    obtain ⟨_, ht, hc, hw⟩ := State.keepsPower_rebalanced hs
    generalize s.rebalanced = u at hx ht hc hw
    exact ⟨_, hx, ht, congrArg (· + 12500) hw, hc⟩
  · obtain ⟨h1, h2, h3⟩ := s.clearDie_power (d := d) (by omega)
    exact ⟨h1, h2, h3, rfl⟩
  · have hgone : s.unitsGone t ≤ s.pool := hp
    have hholds : State.Holds { s with pool := s.pool - s.unitsGone t } t.units := ⟨hnd, fun e he => by
      obtain ⟨h1, h2⟩ := hu e he
      exact ⟨by show e.1 < s.dies.length; omega, h2⟩⟩
    obtain ⟨h1, h2, h3⟩ := State.takeReserved_power hholds
    rw [s.bringUnits_eq hk, Nat.sub_eq_zero_of_le hgone]
    obtain ⟨g1, g2, g3, g4⟩ := State.bringTo_power (l := groupUnits cores) fun e he => by
      rw [h2]
      have := groupUnits_lt he
      show e.1 < s.dies.length
      omega
    refine ⟨?_, g2.trans h3, fun d n hm => g4 (d, n) hm⟩
    have hpart : s.unitsThere t.units + s.unitsGone t = (t.units.map Prod.snd).sum := sum_map_filter_add Prod.snd (fun e => (s.die e.1).live) t.units
    have hpool : State.powerTotal { s with pool := s.pool - s.unitsGone t } + s.unitsGone t = s.powerTotal := by
      show s.pool - s.unitsGone t + (s.dies.map Die.power).sum + s.unitsGone t = s.pool + (s.dies.map Die.power).sum
      omega
    have hsum' : (t.units.map Prod.snd).sum = ((groupUnits cores).map Prod.snd).sum := hsum
    have h1' : _ + s.unitsThere t.units = _ := h1
    refine g1.trans ?_
    show _ = s.powerTotal
    omega

end Sys2Proof.Machine
end

section
/-! PROOFS. A slot of an HBM4E channel serves its request, the counts of its transfers, and thermal holds (R12, R313 to R318): O58. -/

namespace Sys2Proof.Machine

theorem State.casement_field {β : Type} (g : Casement → β) (s : State) (k : Nat) {f : Casement → Casement} (hf : ∀ x, g (f x) = g x) (j : Nat) :
    g ((s.modCasement k f).casement j) = g (s.casement j) := by
  unfold State.casement State.modCasement
  dsimp only
  rw [List.getD_eq_getElem?_getD, List.getElem?_modify, List.getD_eq_getElem?_getD]
  cases s.casements[j]? with
  | none => rfl
  | some x =>
    by_cases h : k = j
    · simp [h, hf]
    · simp [h]

theorem State.channel_modChannel_other (s : State) {n m : Nat} (h : m ≠ n) (f : Channel → Channel) : (s.modChannel n f).channel m = s.channel m :=
  congrArg (Option.getD · Channel.reset) (keyGet_keySet_other s.channels _ h)

/-! ### What serving a request changes beside it (R12) -/

/-- A channel with more requests behind its queue. -/
def Channel.behind (c : Channel) (l : List Nat) : Channel := { c with queue := c.queue ++ l }

/-- Two states that read the same bytes, and between which requests have come, with new numbers. -/
structure State.Fills (s t : State) : Prop where
  now : t.now = s.now
  mem : t.mem = s.mem
  stores : t.stores = s.stores
  lineKeys : t.lineKeys = s.lineKeys
  migration : t.migration = s.migration
  keyValid : ∀ k, (t.casement k).keyValid = (s.casement k).keyValid
  keyGen : ∀ k, (t.casement k).keyGen = (s.casement k).keyGen
  reqs : ∃ l, t.reqs = s.reqs ++ l
  nextId : s.nextId ≤ t.nextId
  channel : ∀ n, ∃ l, t.channel n = (s.channel n).behind l ∧ ∀ i ∈ l, s.nextId ≤ i

theorem Channel.behind_nil (c : Channel) : c = c.behind [] := by
  unfold Channel.behind
  rw [List.append_nil]

theorem Channel.behind_behind (c : Channel) (l m : List Nat) : (c.behind l).behind m = c.behind (l ++ m) := by
  unfold Channel.behind
  rw [List.append_assoc]

theorem State.behind_of_channels {s t : State} (hc : t.channels = s.channels) (n : Nat) : ∃ l, t.channel n = (s.channel n).behind l ∧ ∀ i ∈ l, s.nextId ≤ i := by
  refine ⟨[], ?_, nofun⟩
  unfold State.channel
  rw [hc]
  exact Channel.behind_nil _

theorem State.Fills.refl (s : State) : s.Fills s :=
  ⟨rfl, rfl, rfl, rfl, rfl, fun _ => rfl, fun _ => rfl, ⟨[], (List.append_nil _).symm⟩, le_rfl, State.behind_of_channels rfl⟩

theorem State.Fills.trans {s t u : State} (h : s.Fills t) (g : t.Fills u) : s.Fills u := by
  obtain ⟨l, hl⟩ := h.reqs
  obtain ⟨m, hm⟩ := g.reqs
  refine ⟨g.now.trans h.now, g.mem.trans h.mem, g.stores.trans h.stores, g.lineKeys.trans h.lineKeys, g.migration.trans h.migration,
    fun k => (g.keyValid k).trans (h.keyValid k), fun k => (g.keyGen k).trans (h.keyGen k), ⟨l ++ m, by rw [hm, hl, List.append_assoc]⟩,
    h.nextId.trans g.nextId, fun n => ?_⟩
  obtain ⟨a, ha, hna⟩ := h.channel n
  obtain ⟨b, hb, hnb⟩ := g.channel n
  refine ⟨a ++ b, by rw [hb, ha, Channel.behind_behind], fun i hi => ?_⟩
  obtain hi | hi := List.mem_append.mp hi
  · exact hna i hi
  · exact h.nextId.trans (hnb i hi)

theorem State.fills_modCasement (s : State) (k : Nat) {f : Casement → Casement} (hv : ∀ x, (f x).keyValid = x.keyValid) (hg : ∀ x, (f x).keyGen = x.keyGen) :
    s.Fills (s.modCasement k f) :=
  ⟨rfl, rfl, rfl, rfl, rfl, s.casement_field Casement.keyValid k hv, s.casement_field Casement.keyGen k hg, ⟨[], (List.append_nil _).symm⟩, le_rfl, State.behind_of_channels rfl⟩

theorem State.fills_countBytes (s : State) (k n : Nat) : s.Fills (s.countBytes k n) := s.fills_modCasement k (fun _ => rfl) fun _ => rfl

theorem State.fills_countRead (s : State) (pa key n : Nat) : s.Fills (s.countRead pa key n) := by
  unfold State.countRead
  split
  · exact s.fills_countBytes key n
  · exact .refl s

/-- States that differ in nothing that reading or the queues look at. -/
theorem State.Fills.of_same {s t : State} (hn : t.now = s.now) (hm : t.mem = s.mem) (hs : t.stores = s.stores) (hl : t.lineKeys = s.lineKeys)
    (hg : t.migration = s.migration) (hk : t.casements = s.casements) (hr : t.reqs = s.reqs) (hi : s.nextId ≤ t.nextId) (hc : t.channels = s.channels) : s.Fills t := by
  refine ⟨hn, hm, hs, hl, hg, fun k => ?_, fun k => ?_, ⟨[], by rw [hr, List.append_nil]⟩, hi, State.behind_of_channels hc⟩ <;>
  · unfold State.casement
    rw [hk]

theorem State.fills_markIfHot (s : State) (t : Nat) (hot : Bool) : s.Fills (s.markIfHot t hot) := by
  unfold State.markIfHot
  split
  · unfold State.markHot
    split
    · exact .refl s
    · next x _ =>
      have h : s.Fills (s.modTask t fun y => { y with thermal := true }) := .of_same rfl rfl rfl rfl rfl rfl rfl le_rfl rfl
      exact h.trans (State.fills_modCasement _ x.casement (fun _ => rfl) fun _ => rfl)
  · exact .refl s

theorem State.fills_evictLine (s : State) (b : BufLine) : s.Fills (s.evictLine b) := by
  unfold State.evictLine
  dsimp only
  split
  · exact .of_same rfl rfl rfl rfl rfl rfl rfl le_rfl rfl
  · refine ⟨rfl, rfl, rfl, rfl, rfl, fun _ => rfl, fun _ => rfl, ⟨_, rfl⟩, Nat.le_succ _, fun n => ?_⟩
    by_cases h : n = channelOf (64 * b.line)
    · rw [h, State.channel_modChannel]
      refine ⟨[s.nextId], rfl, fun i hi => ?_⟩
      rw [List.mem_singleton] at hi
      exact hi.ge
    · rw [State.channel_modChannel_other _ h]
      exact ⟨[], Channel.behind_nil (s.channel n), nofun⟩

theorem State.fills_buffer (s : State) (l : List BufLine) : s.Fills { s with buffer := l } := .of_same rfl rfl rfl rfl rfl rfl rfl le_rfl rfl

theorem State.fills_fillBuffer (s : State) (pa key : Nat) (dirty : Bool) : s.Fills (s.fillBuffer pa key dirty) := by
  have h := foldl_rel State.Fills.refl State.Fills.trans State.fills_evictLine (s.buffer.filter fun b => b.line == s.lineOf pa && b.key != key) s
  unfold State.fillBuffer
  dsimp only
  refine h.trans ?_
  generalize (s.buffer.filter fun b => b.line == s.lineOf pa && b.key != key).foldl State.evictLine s = t
  split
  · split
    · exact t.fills_buffer _
    · exact .refl t
  · split
    · exact t.fills_buffer _
    · split
      · exact .refl t
      · have hd : t.Fills t.draw.2 := .of_same rfl rfl rfl rfl rfl rfl rfl le_rfl rfl
        split
        · exact hd
        · next b _ => exact hd.trans ((State.fills_evictLine t.draw.2 b).trans (State.fills_buffer _ _))

theorem State.fills_noteRead (s : State) (c : Nat) (q : SeqId) (die : Option Nat) (addrs : List Nat) : s.Fills (s.noteRead c q die addrs) :=
  .of_same rfl rfl rfl rfl rfl rfl rfl le_rfl rfl

theorem State.Fills.forward {s t : State} (h : s.Fills t) (a : Nat) : t.forward a = s.forward a := by
  unfold State.forward
  rw [h.migration]

theorem State.Fills.byteAt {s t : State} (h : s.Fills t) (die : Option Nat) (a : Nat) : t.byteAt die a = s.byteAt die a := by
  unfold State.byteAt
  rw [h.stores, h.mem]

theorem State.Fills.readByte {s t : State} (h : s.Fills t) (die : Option Nat) (slot a : Nat) : t.readByte die slot a = s.readByte die slot a := by
  have hl (l : Nat) : t.lineTags die l = s.lineTags die l := by
    unfold State.lineTags
    rw [h.stores, h.lineKeys]
  have ha (l : Nat) : t.lineAt die l = s.lineAt die l := by
    unfold State.lineAt
    rw [h.stores, h.lineKeys, h.mem]
  unfold State.readByte
  dsimp only
  rw [h.forward, h.now, h.byteAt, h.keyValid, h.keyGen, hl, ha]

theorem State.Fills.readMem {s t : State} (h : s.Fills t) (die : Option Nat) (slot a n : Nat) : t.readMem die slot a n = s.readMem die slot a n := by
  unfold State.readMem
  exact List.map_congr_left fun b _ => h.readByte die slot b

/-! ### A load served (R200, R313) -/

/-- A state with a load served in it. -/
structure State.Serves (s t : State) (r : Req) (v : W64) : Prop where
  mem : t.mem = s.mem
  done : r ∈ s.reqs → ∃ y ∈ t.reqs, y.id = r.id ∧ ∃ d, s.now < d ∧ y.st = .served v d
  channel : ∀ n, ∃ l, t.channel n = (s.channel n).behind l ∧ ∀ i ∈ l, s.nextId ≤ i

theorem State.landDue_later (s : State) (core pa : Nat) : s.now < (s.landDue core pa).1 ∧ s.Fills (s.landDue core pa).2 := by
  unfold State.landDue
  dsimp only
  split
  · exact ⟨by show s.now < s.now + 1 + _; omega, .of_same rfl rfl rfl rfl rfl rfl rfl le_rfl rfl⟩
  · exact ⟨by show s.now < s.now + 1 + _; omega, .of_same rfl rfl rfl rfl rfl rfl rfl le_rfl rfl⟩

/-- A request of a state that has come about by traffic, with its value. -/
theorem State.Fills.serves {s t : State} (h : s.Fills t) (r : Req) (v : W64) {d : Nat} (hd : s.now < d) : s.Serves (t.setReq { r with st := .served v d }) r v := by
  refine ⟨h.mem, fun hr => ?_, h.channel⟩
  obtain ⟨l, hl⟩ := h.reqs
  refine ⟨{ r with st := .served v d }, List.mem_map.mpr ⟨r, ?_, if_pos (beq_self_eq_true _)⟩, rfl, d, hd, rfl⟩
  rw [hl]
  exact List.mem_append_left _ hr

theorem State.serveMem_load {s : State} {r : Req} {n : Nat} {sx : Bool} (hk : r.kind = .load n sx) (pa key : Nat) :
    s.Serves (s.serveMem r pa key) r (landedValue n sx (s.readMem (some (dieOf r.core)) key pa n)) := by
  let u := if r.orphan then s else s.noteRead r.core r.by_ (some (dieOf r.core)) (span (s.forward pa) n)
  have heq : s.serveMem r pa key = (((u.countRead pa key n).landDue r.core pa).2).setReq
      { r with st := .served (landedValue n sx (s.readMem (some (dieOf r.core)) key pa n)) ((u.countRead pa key n).landDue r.core pa).1 } := by
    obtain ⟨id, core, by_, task, pc, va, kind, rd, sp, sn, release, issued, arrived, st, remote, heldHot, orphan, drained, after⟩ := r
    subst hk
    rfl
  have hu : s.Fills u := by
    unfold u
    split
    · exact .refl s
    · exact s.fills_noteRead _ _ _ _
  have hc := hu.trans (u.fills_countRead pa key n)
  obtain ⟨hd, hl⟩ := (u.countRead pa key n).landDue_later r.core pa
  rw [heq]
  exact (hc.trans hl).serves r _ (by rwa [hc.now] at hd)

theorem State.serveAt_load {s : State} {r : Req} {m : Nat} {sx : Bool} (hk : r.kind = .load m sx) (n pa key : Nat) :
    (s.modChannel n fun c => { c with queue := c.queue.filter fun id => id != r.id }).Serves (s.serveAt n r pa key) r
      (landedValue m sx (s.readMem (some (dieOf r.core)) key pa m)) := by
  let u := s.modChannel n fun c => { c with queue := c.queue.filter fun id => id != r.id }
  let w := ((u.countBytes key 64).markIfHot r.task r.heldHot).fillBuffer pa key (r.kind.access == .store)
  have hw : u.Fills w := (u.fills_countBytes key 64).trans ((State.fills_markIfHot _ _ _).trans (State.fills_fillBuffer _ _ _ _))
  have heq : s.serveAt n r pa key = w.serveMem r pa key := by
    unfold State.serveAt
    dsimp only
    rw [if_neg (by rw [hk]; exact Bool.false_ne_true)]
  have hread : w.readMem (some (dieOf r.core)) key pa m = s.readMem (some (dieOf r.core)) key pa m := hw.readMem _ _ _ _
  obtain ⟨h1, h2, h3⟩ := w.serveMem_load hk pa key
  rw [hread] at h2
  rw [heq]
  refine ⟨h1.trans hw.mem, fun hr => ?_, fun n => ?_⟩
  · obtain ⟨l, hl⟩ := hw.reqs
    obtain ⟨y, hy, hid, d, hd, hst⟩ := h2 (by rw [hl]; exact List.mem_append_left _ hr)
    exact ⟨y, hy, hid, d, by rwa [hw.now] at hd, hst⟩
  · obtain ⟨a, ha, hna⟩ := hw.channel n
    obtain ⟨b, hb, hnb⟩ := h3 n
    refine ⟨a ++ b, by rw [hb, ha, Channel.behind_behind], fun i hi => ?_⟩
    obtain hi | hi := List.mem_append.mp hi
    · exact hna i hi
    · exact hw.nextId.trans (hnb i hi)

/-! ### A slot and its transfer (R313 to R317) -/

/-- A channel whose slot has been used in a cycle. -/
def Channel.slotUsed (now : Nat) (p : Nat × Nat) (c : Channel) : Channel :=
  { c.inFrame now with frameUse := (c.inFrame now).frameUse.modify p.1 (· + 1), rotate := 3 * p.1 + p.2, lastServed := now + 1 }

/-- The state of a transfer: the slot used, the link's counts taken. -/
def State.carried (s : State) (n : Nat) (r : Req) (pa key : Nat) (link : LinkResult) : State :=
  (s.useSlot n (s.groupOf r)).modChannel n fun c => c.noteLink link key (s.lineOf pa * 64)

theorem State.channel_carried (s : State) (n : Nat) (r : Req) (pa key : Nat) (link : LinkResult) :
    (s.carried n r pa key link).channel n = ((s.channel n).slotUsed s.now (s.groupOf r)).noteLink link key (s.lineOf pa * 64) := by
  unfold State.carried
  rw [State.channel_modChannel]
  exact congrArg (Channel.noteLink · link key _) (s.channel_modChannel n (Channel.slotUsed s.now (s.groupOf r)))

section
variable {s : State} {n pa key : Nat} {ch : Option Nat} {r : Req} (hh : s.boot.hingeLost = false) (hn : n < 512) (hu : s.channelUp n = true)
  (hl : (s.channel n).lastServed ≠ s.now + 1) (ho : (s.hbm.getD (n / 32) Stack.reset).hold = false) (hp : s.slotPower (4 + n / 128) = true)
  (hr : s.slotRequest n = some r) (hst : r.st = .queued pa key ch)
include hh hn hu hl ho hp hr hst

theorem exec_hbmSlotService_serves (link : LinkResult) : exec (.hbmSlotService n link) s = .next (s.transfer n r pa key link) := by
  rw [exec_hbmSlotService]
  unfold execHbmSlotService
  dsimp only
  rw [if_neg (by simp [hh, hn]), if_neg (by simp [hu]), if_neg (by rw [ho, Bool.or_false, beq_iff_eq]; exact hl), if_pos hp, hr]
  dsimp only
  rw [hst]

end

theorem State.transfer_carries {s : State} {link : LinkResult} (h : linkFails link = false) (n : Nat) (r : Req) (pa key : Nat) :
    s.transfer n r pa key link = (s.carried n r pa key link).serveAt n r pa key := by
  unfold State.transfer
  rw [h]
  rfl

/-- The channel of a served load: as its transfer has left it, its request gone from the queue. -/
theorem State.transfer_load {s : State} {link : LinkResult} (h : linkFails link = false) {r : Req} {m : Nat} {sx : Bool} (hk : r.kind = .load m sx) (hr : r ∈ s.reqs)
    (n pa key : Nat) :
    let t := s.transfer n r pa key link
    t.mem = s.mem ∧ (∃ y ∈ t.reqs, y.id = r.id ∧ ∃ d, s.now < d ∧ y.st = .served (landedValue m sx (s.readMem (some (dieOf r.core)) key pa m)) d) ∧
      ∃ l, (∀ i ∈ l, s.nextId ≤ i) ∧ t.channel n =
        Channel.behind { (s.carried n r pa key link).channel n with queue := ((s.carried n r pa key link).channel n).queue.filter fun id => id != r.id } l := by
  intro t
  obtain ⟨h1, h2, h3⟩ := State.serveAt_load (s := s.carried n r pa key link) hk n pa key
  have ht : t = (s.carried n r pa key link).serveAt n r pa key := State.transfer_carries h n r pa key
  obtain ⟨l, hl, hi⟩ := h3 n
  rw [State.channel_modChannel] at hl
  rw [ht]
  exact ⟨h1, h2 hr, l, hi, hl⟩

theorem State.dropReq_gone (s : State) (id : Nat) : ∀ y ∈ (s.dropReq id).reqs, y.id ≠ id := by
  intro y hy
  have := (List.mem_filter.mp hy).2
  simpa using this

theorem State.failReq_orphan {s : State} {r : Req} (h : r.orphan = true) (pa : Nat) : s.failReq r pa = (s.dropReq r.id).emitOut (.machineCheck r.core pa) := by
  unfold State.failReq
  dsimp only
  rw [if_pos h]

/-- A channel with some requests out of its queue. -/
def Channel.without (gone : List Nat) (x : Channel) : Channel := { x with queue := x.queue.filter fun i => !gone.contains i }

theorem State.channel_dropReqs (s : State) (p : Req → Bool) (n : Nat) : ∃ l, (s.dropReqs p).channel n = { s.channel n with queue := l } := by
  have h : keyGet (s.dropReqs p).channels n = (keyGet s.channels n).map (Channel.without ((s.reqs.filter p).map Req.id)) :=
    keyGet_map_values (g := fun _ => Channel.without ((s.reqs.filter p).map Req.id)) (fun _ _ => rfl) n
  unfold State.channel
  rw [h]
  cases keyGet s.channels n with
  | none => exact ⟨Channel.reset.queue, rfl⟩
  | some x => exact ⟨_, rfl⟩

/-- A failed read of an abandoned access: the request is gone, firmware is told, and the channel stands as its transfer has left it. -/
theorem State.transfer_orphan {s : State} {link : LinkResult} (h : linkFails link = true) {r : Req} (ho : r.orphan = true) (n pa key : Nat) :
    let t := s.transfer n r pa key link
    t.out = s.out ++ [.machineCheck r.core pa] ∧ (∀ y ∈ t.reqs, y.id ≠ r.id) ∧ ∃ l, t.channel n = { (s.carried n r pa key link).channel n with queue := l } := by
  intro t
  let u := (s.carried n r pa key link).failReq r pa
  have hu : u = ((s.carried n r pa key link).dropReq r.id).emitOut (.machineCheck r.core pa) := State.failReq_orphan ho pa
  have hspec : u.out = s.out ++ [.machineCheck r.core pa] ∧ (∀ y ∈ u.reqs, y.id ≠ r.id) ∧ ∃ l, u.channel n = { (s.carried n r pa key link).channel n with queue := l } := by
    rw [hu]
    exact ⟨rfl, State.dropReq_gone _ r.id, State.channel_dropReqs _ _ n⟩
  have ht : t = if link == .failed then u.rescaleAll else u := by
    show s.transfer n r pa key link = _
    unfold State.transfer
    rw [h]
    rfl
  rw [ht]
  split
  · obtain ⟨cs, ra, hq⟩ := u.rescaleAll_onlyQuotas
    rw [hq]
    exact hspec
  · exact hspec

/-! ### Thermal holds (R318) -/

theorem State.markStack_keeps (s : State) (j : Nat) : (s.markStack j).mem = s.mem ∧ (s.markStack j).hbm = s.hbm := by
  have h := foldl_rel (R := fun s t : State => t.mem = s.mem ∧ t.hbm = s.hbm) (fun _ => ⟨rfl, rfl⟩) (fun a b => ⟨b.1.trans a.1, b.2.trans a.2⟩)
    (f := State.markHot) (fun s t => by
      unfold State.markHot
      split
      · exact ⟨rfl, rfl⟩
      · exact ⟨rfl, rfl⟩) (s.hotTasks j).eraseDups s
  exact h

/-- Settles O58. -/
theorem hbmServes : Obligations.HbmServes := by
  unfold Obligations.HbmServes
  intro s hh
  refine ⟨fun n r pa key ch sz se hn hu hl ho hp hr hst hk hmem => ?_, fun j hj hlen hlive => ?_, fun j hho hd => ?_⟩
  · intro served gone
    have hx := exec_hbmSlotService_serves hh hn hu hl ho hp hr hst
    refine ⟨?_, fun k => ?_, ?_, fun hor => ?_, fun hor => ?_⟩
    · obtain ⟨h1, h2, l, hi, hc⟩ := State.transfer_load (link := .clean) rfl hk hmem n pa key
      refine ⟨_, hx .clean, h2, ?_, fun hid i him => ?_, h1⟩
      · rw [hc, State.channel_carried]
        rfl
      · rw [hc] at him
        obtain him | him := List.mem_append.mp him
        · simpa using (List.mem_filter.mp him).2
        · exact (hid.trans_le (hi i him)).ne'
    · obtain ⟨h1, h2, l, hi, hc⟩ := State.transfer_load (link := .replayed k) rfl hk hmem n pa key
      refine ⟨_, hx _, h2, ?_⟩
      rw [hc, State.channel_carried]
      show satAdd ((s.channel n).inFrame s.now).lcrc _ = _
      unfold Channel.inFrame
      split <;> rfl
    · obtain ⟨h1, h2, l, hi, hc⟩ := State.transfer_load (link := .corrected) rfl hk hmem n pa key
      refine ⟨_, hx _, h2, ?_⟩
      rw [hc, State.channel_carried]
      show satAdd ((s.channel n).inFrame s.now).ace 1 = _
      unfold Channel.inFrame
      split <;> rfl
    · obtain ⟨h1, h2, l, hc⟩ := State.transfer_orphan (s := s) (link := .poisoned) rfl hor n pa key
      refine ⟨_, hx _, ⟨h1, h2⟩, ?_, ?_⟩
      · rw [hc, State.channel_carried]
        show satAdd ((s.channel n).inFrame s.now).aue 1 = _
        unfold Channel.inFrame
        split <;> rfl
      · rw [hc, State.channel_carried]
        rfl
    · obtain ⟨h1, h2, l, hc⟩ := State.transfer_orphan (s := s) (link := .failed) rfl hor n pa key
      refine ⟨_, hx _, ⟨h1, h2⟩, ?_, ?_, ?_⟩
      · rw [hc, State.channel_carried]
        show satAdd ((s.channel n).inFrame s.now).lfail 1 = _
        unfold Channel.inFrame
        split <;> rfl
      · rw [hc, State.channel_carried]
        show satAdd ((s.channel n).inFrame s.now).lcrc 8 = _
        unfold Channel.inFrame
        split <;> rfl
      · rw [hc, State.channel_carried]
        rfl
  · let u : State := { s with hbm := s.hbm.set j { s.hbm.getD j Stack.reset with hold := true, since := s.now } }
    have hx : exec (.thermalHoldEnter j) s = .next (u.markStack j) := by
      rw [exec_thermalHoldEnter]
      unfold execThermalHoldEnter
      dsimp only
      rw [if_neg (by rw [hlive, hh]; simpa using hj)]
    obtain ⟨hm, hb⟩ := u.markStack_keeps j
    refine ⟨_, hx, ?_⟩
    rw [hm, hb]
    refine ⟨?_, ?_, fun i hi => ?_, rfl⟩
    · simp [u, List.getD_eq_getElem?_getD, hlen]
    · simp [u, List.getD_eq_getElem?_getD, hlen]
    · simp [u, List.getD_eq_getElem?_getD, Ne.symm hi]
  · have hx : ∃ cs, exec (.thermalHoldExit j) s =
        .next { s.markStack j with hbm := (s.markStack j).hbm.set j { s.hbm.getD j Stack.reset with hold := false }, channels := cs } := by
      refine ⟨(s.markStack j).channels.map fun e => (e.1, if e.1 / 32 == j then { e.2 with backlog := e.2.queue } else e.2), ?_⟩
      rw [exec_thermalHoldExit]
      unfold execThermalHoldExit
      dsimp only
      rw [if_neg (by rw [hho, hh]; simpa using hd)]
    obtain ⟨cs, hx⟩ := hx
    obtain ⟨hm, hb⟩ := s.markStack_keeps j
    refine ⟨_, hx, ?_, hm⟩
    have hlen : j < s.hbm.length := by
      by_contra h
      rw [List.getD_eq_getElem?_getD, List.getElem?_eq_none (Nat.not_lt.mp h)] at hho
      exact Bool.false_ne_true hho
    show (((s.markStack j).hbm.set j _).getD j Stack.reset).hold = false
    rw [hb]
    simp [List.getD_eq_getElem?_getD, hlen]

end Sys2Proof.Machine
end

section
/-! PROOFS. States that keep memory's canonical form and the boot's registers: the device's own accesses, completions and retirements (log entry 2, R269, R461). -/

namespace Sys2Proof.Machine

/-- Memory keeps its canonical form between two states (log entry 2), and the boot's registers stay. -/
def State.Sound (s t : State) : Prop := (s.mem.wf = true → t.mem.wf = true) ∧ t.boot = s.boot

theorem State.Sound.refl (s : State) : s.Sound s := ⟨id, rfl⟩

theorem State.Sound.trans {s t u : State} (h : s.Sound t) (g : t.Sound u) : s.Sound u := ⟨g.1 ∘ h.1, g.2.trans h.2⟩

/-- States with the same memory and the same boot. -/
theorem State.Sound.of_same {s t : State} (hm : t.mem = s.mem) (hb : t.boot = s.boot) : s.Sound t := ⟨fun h => by rwa [hm], hb⟩

theorem State.Sound.foldl {α : Type} {f : State → α → State} (h : ∀ s a, State.Sound s (f s a)) (l : List α) (s : State) : s.Sound (l.foldl f s) :=
  foldl_rel State.Sound.refl State.Sound.trans h l s

theorem State.Sound.ite {s a b : State} {p : Prop} [Decidable p] (ha : s.Sound a) (hb : s.Sound b) : s.Sound (if p then a else b) := by
  split
  · exact ha
  · exact hb

theorem State.sound_modCasement (s : State) (k : Nat) (f : Casement → Casement) : s.Sound (s.modCasement k f) := .refl s
theorem State.sound_modCore (s : State) (c : Nat) (f : Core → Core) : s.Sound (s.modCore c f) := .refl s
theorem State.sound_modCq (s : State) (q : Nat) (f : ComplQueue → ComplQueue) : s.Sound (s.modCq q f) := .refl s
theorem State.sound_modDie (s : State) (d : Nat) (f : Die → Die) : s.Sound (s.modDie d f) := .refl s
theorem State.sound_modSession (s : State) (n : Nat) (f : Session → Session) : s.Sound (s.modSession n f) := .refl s
theorem State.sound_emitOut (s : State) (o : Output) : s.Sound (s.emitOut o) := .refl s

theorem State.MemSide.sound {s t : State} (h : s.MemSide t) : s.Sound t := ⟨h.wf, by rw [h.kept]; rfl⟩

theorem State.StoreKeeps.sound {s t : State} (h : s.StoreKeeps t) (hw : s.mem.wf = true → t.mem.wf = true) : s.Sound t := ⟨hw, h.boot⟩

theorem State.sound_catchUp (s : State) (d : Nat) (stamp : List Nat) : s.Sound (s.catchUp d stamp) := (s.catchUp_keeps d stamp).sound (s.catchUp_wf d stamp)

theorem State.sound_storeBytes (s : State) (die core : Nat) (q : SeqId) (slot a : Nat) (bs : List W8) : s.Sound (s.storeBytes die core q slot a bs) :=
  (s.storeBytes_keeps ..).sound (s.storeBytes_wf die core q slot a bs)

/-! ### The device's own accesses -/

/-- The state in which an access of the device ends has come about soundly. -/
def Dev.Sound {α : Type} (s : State) : Dev α → Prop
  | .ok t _ => s.Sound t
  | .fault t _ => s.Sound t
  | .wait t => s.Sound t
  | .check t => s.Sound t

theorem Dev.Sound.trans {α : Type} {s t : State} (h : s.Sound t) {d : Dev α} (g : d.Sound t) : d.Sound s := by
  cases d <;> exact State.Sound.trans h g

theorem Dev.Sound.bind {α β : Type} {s : State} {d : Dev α} (h : d.Sound s) {f : State → α → Dev β} (hf : ∀ t a, (f t a).Sound t) : (d.bind f).Sound s := by
  cases d with
  | ok t a => exact (hf t a).trans h
  | fault t x => exact h
  | wait t => exact h
  | check t => exact h

theorem State.sound_markRecord (s : State) (k : Nat) (hot : Bool) : s.Sound (s.markRecord k hot) := by
  unfold State.markRecord
  exact (s.sound_modCasement _ _).ite (.refl s)

theorem State.devTranslate_sound (s : State) (k va : Nat) (acc : Access) : (s.devTranslate k va acc).Sound s := by
  have h := s.translateFor_from k va acc
  unfold State.devTranslate
  split <;> rename_i hx <;> rw [hx] at h
  · exact State.Sound.trans (State.MemSide.sound h) (State.sound_markRecord _ _ _)
  · exact State.Sound.trans (State.MemSide.sound h) (State.sound_emitOut _ _)
  · exact State.MemSide.sound h
  · exact State.MemSide.sound h

theorem State.devTouch_sound (s : State) (k pa key n : Nat) (write : Bool) : (s.devTouch k pa key n write).Sound s := by
  have h := s.touch_from k pa key n write
  unfold State.devTouch
  split <;> rename_i hx <;> rw [hx] at h
  · exact State.MemSide.sound h
  · exact s.sound_markRecord _ _
  · exact State.Sound.trans (State.MemSide.sound h) (State.sound_emitOut _ _)

theorem State.devReach_sound (s : State) (k va n : Nat) (acc : Access) : (s.devReach k va n acc).Sound s :=
  (s.devTranslate_sound k va acc).bind fun t e => (t.devTouch_sound k (e.paOf va) e.key n _).bind fun u _ => .refl u

theorem State.deviceWrite_sound {s t : State} {a : Nat} {bs : List W8} (h : s.deviceWrite a bs = some t) : s.Sound t := by
  unfold State.deviceWrite at h
  dsimp only at h
  have hd := s.devTouch_sound (bits a 51 48) (bits a 47 0) (bits a 51 48) bs.length true
  split at h
  · cases h
    exact .refl s
  · split at h <;> rename_i hx <;> rw [hx] at hd <;> cases h
    · exact State.Sound.trans hd (State.sound_storeBytes _ _ _ _ _ _ _)
    · exact hd
    · exact hd

/-! ### Signal writes and completions (R269, R461) -/

theorem State.sound_report (s : State) (ring : Nat) (entry : List W8) (w : RingWait) : s.Sound (s.report ring entry w) := .of_same rfl rfl

/-- The state in which a signal write ends. -/
def SignalEnd.state : SignalEnd → State
  | .done s => s
  | .stalled s => s
  | .wait s => s

theorem State.signalWrite_sound (s : State) (k va : Nat) (value : W64) (taskId : Nat) (w : RingWait) : s.Sound (s.signalWrite k va value taskId w).state := by
  have h := s.devReach_sound k va 8 .store
  unfold State.signalWrite
  dsimp only
  split <;> rename_i hx <;> rw [hx] at h
  · exact State.Sound.trans h (State.sound_report _ _ _ _)
  · exact State.Sound.trans h (State.sound_report _ _ _ _)
  · exact h
  · exact h
  · exact State.Sound.trans h (State.sound_storeBytes _ _ _ _ _ _ _)

theorem State.sound_flushSignals (q fuel : Nat) (s : State) : s.Sound (s.flushSignals q fuel) := by
  induction fuel generalizing s with
  | zero => exact .refl s
  | succ n ih =>
    unfold State.flushSignals
    split
    · exact .refl s
    split
    · exact .refl s
    rename_i r _
    split
    · exact .refl s
    have h := s.signalWrite_sound r.casement r.sig r.value (fieldLE r.entry 0 4) (.signal q)
    dsimp only
    split <;> rename_i hx <;> rw [hx] at h
    · exact h
    · exact State.Sound.trans h (State.sound_modCq _ _ _)
    · exact State.Sound.trans h (State.Sound.trans (State.sound_modCq _ _ _) (ih _))

theorem State.sound_flushAll (s : State) : s.Sound s.flushAll :=
  .foldl (fun s _ => .ite (State.sound_flushSignals _ _ s) (.refl s)) _ s

theorem State.sound_complete (s : State) (q : Nat) (r : Report) : s.Sound (s.complete q r) :=
  (s.sound_modCq q _).trans (State.sound_flushSignals q _ _)

/-! ### Retirements (R257, R269) -/

theorem State.sound_countTask (s : State) (t : Task) (status : TStatus) : s.Sound (s.countTask t status) := by
  unfold State.countTask
  cases status <;> exact .of_same rfl rfl

theorem State.sound_dropReserve (s : State) (t : Task) : s.Sound (s.dropReserve t) := .foldl (fun s _ => s.sound_modDie _ _) _ s

theorem State.sound_release (s : State) (t : Task) : s.Sound (s.release t) := by
  have h : s.Sound (if t.launched && t.klass = 0 then t.cores.foldl (fun s c => s.modDie (dieOf c) fun d => { d with reserved := d.reserved - 75 }) s else s) :=
    .ite (.foldl (fun s _ => s.sound_modDie _ _) _ s) (.refl s)
  unfold State.release
  dsimp only
  generalize (if t.launched && t.klass = 0 then t.cores.foldl (fun s c => s.modDie (dieOf c) fun d => { d with reserved := d.reserved - 75 }) s else s) = u at h
  split
  · refine State.Sound.trans ?_ (State.sound_modSession _ _ _)
    refine State.Sound.trans ?_ (State.sound_dropReserve _ t)
    exact ⟨h.1, h.2⟩
  · refine State.Sound.trans ?_ (State.sound_dropReserve _ t)
    exact ⟨h.1, h.2⟩

theorem State.sound_maybeDrained (s : State) (k : Nat) : s.Sound (s.maybeDrained k) := by
  unfold State.maybeDrained
  exact .ite (s.sound_modCasement _ _) (.refl s)

theorem State.sound_sendSafe (s : State) (n : Nat) (h p : List W8) : s.Sound (s.sendSafe n h p) := .refl s

theorem State.sound_retireWith (s : State) (t : Task) (status : TStatus) (code : Nat) (chunk : Option (List W8 × List W8)) :
    s.Sound (s.retireWith t status code chunk) := by
  unfold State.retireWith
  dsimp only
  refine State.Sound.trans ?_ (State.sound_maybeDrained _ _)
  refine State.Sound.trans ?_ (State.sound_complete _ _ _)
  have h : s.Sound (((s.countTask t status).gather t.cores).release t) :=
    (s.sound_countTask t status).trans ((State.sound_catchUp _ _ _).trans (State.sound_release _ t))
  generalize ((s.countTask t status).gather t.cores).release t = u at h
  split
  · refine State.Sound.trans ?_ (State.sound_sendSafe _ _ _ _)
    split
    · exact ⟨h.1, h.2⟩
    · exact ⟨h.1, h.2⟩
  · split
    · exact ⟨h.1, h.2⟩
    · exact ⟨h.1, h.2⟩

end Sys2Proof.Machine
end

section
/-! PROOFS. Boot stages, fuses, and warm and cold resets (R20, R311, R341 to R343, R459): O59. -/

namespace Sys2Proof.Machine

/-! ### The stages (R341, R342) -/

theorem Boot.refuses_eq_zero_iff (b : Boot) (images : List (Bool × Nat)) (i : Nat) :
    b.refuses images i = 0 ↔ ∃ svn, images[i]? = some (true, svn) ∧ b.fuse ≤ svn := by
  unfold Boot.refuses
  cases images[i]? with
  | none => simp
  | some x =>
    obtain ⟨ok, svn⟩ := x
    cases ok with
    | false => simp
    | true =>
      by_cases h : svn < b.fuse
      · simp [h]
      · simp [h]
        omega

/-- Whether one of a stage's two images may run. -/
theorem Boot.verify_runs {b : Boot} (h : b.refuses b.images 0 = 0 ∨ b.refuses b.images 1 = 0) : b.verify.stage = 1 ∧ b.verify.failcode = 0 := by
  unfold Boot.verify
  dsimp only
  split
  · exact ⟨rfl, rfl⟩
  · next h0 =>
    rw [if_pos (h.resolve_left h0)]
    exact ⟨rfl, rfl⟩

theorem Boot.verify_stops {b : Boot} (h0 : b.refuses b.images 0 ≠ 0) (h1 : b.refuses b.images 1 ≠ 0) :
    b.verify = { b with failcode := b.refuses b.images 1, nextAt := none } := by
  unfold Boot.verify
  rw [if_neg h0, if_neg h1]

theorem Boot.servicesRefused_eq_zero_iff (b : Boot) : b.servicesRefused = 0 ↔ b.refuses b.services 0 = 0 ∨ b.refuses b.services 1 = 0 := by
  unfold Boot.servicesRefused
  split
  · next h => exact ⟨fun _ => .inl h, fun _ => rfl⟩
  · next h => exact ⟨.inr, fun g => g.resolve_left h⟩

/-- The state in which a boot has reached a stage, before the stage's work. -/
def State.atStage (s : State) (stage : Nat) : State := { s.drawDue.2 with boot := { s.boot with stage := stage, nextAt := some s.drawDue.1 } }

/-- A die that leaves reset. -/
def State.startDie (s : State) (d : Nat) : State :=
  s.draw.2.modDie d fun x =>
    { x with zero := s.now - s.draw.1 % 1000, clockLost := false, lastBeat := s.now, nextBeat := s.now + 1250, nextOffer := s.now + 1250 }

theorem State.startDies_boot (s : State) : s.startDies.boot = s.boot :=
  (State.Sound.foldl (f := State.startDie) (fun s _ => s.draw.2.sound_modDie _ _) (List.range 9) s).2

/-- A stage behind the third leaves the boot's registers and memory but for the stage's number. -/
theorem State.toStage_later (s : State) {n : Nat} (h : 2 < n) (h' : n < 5) :
    (s.toStage (n + 1)).boot.stage = n + 1 ∧ (s.toStage (n + 1)).boot.ready = s.boot.ready ∧ (s.toStage (n + 1)).mem = s.mem := by
  obtain rfl | rfl : n = 3 ∨ n = 4 := by omega
  · exact ⟨rfl, rfl, rfl⟩
  · exact ⟨rfl, rfl, rfl⟩

section
variable {s : State} {n : Nat} (hn : s.boot.nextAt = some n) (hd : n ≤ s.now) (hh : s.boot.hingeLost = false)
include hn hd hh

/-- The stages by their number. -/
theorem exec_bootStage_due (hs : s.boot.stage < 6) :
    (s.boot.stage = 0 → exec .bootStage s = .next { s.drawDue.2 with boot := Boot.verify { s.boot with nextAt := some s.drawDue.1 } }) ∧
      (s.boot.stage = 1 → exec .bootStage s = if s.boot.servicesRefused = 0 then .next (s.toStage 2)
        else .next { s with boot := { s.boot with failcode := s.boot.servicesRefused, nextAt := none } }) ∧
      (s.boot.stage = 2 → exec .bootStage s = if s.boot.trains then .next (s.toStage 3)
        else .next { s with boot := { s.boot with failcode := 3, nextAt := none } }) ∧
      (2 < s.boot.stage → exec .bootStage s = .next (s.toStage (s.boot.stage + 1))) := by
  rw [exec_bootStage]
  unfold execBootStage
  rw [hn]
  dsimp only
  rw [if_neg (by rw [hh]; simp; omega)]
  split
  · next h => exact ⟨fun _ => rfl, fun g => by omega, fun g => by omega, fun g => by omega⟩
  · next h => exact ⟨fun g => by omega, fun _ => rfl, fun g => by omega, fun g => by omega⟩
  · next h => exact ⟨fun g => by omega, fun g => by omega, fun _ => rfl, fun g => by omega⟩
  · next h0 h1 h2 => exact ⟨fun g => absurd g h0, fun g => absurd g h1, fun g => absurd g h2, fun _ => rfl⟩

end

/-! ### A warm reset (R343) -/

/-- Nothing but casements, the die buffers and free values has changed between two states. -/
def State.OnlyScrub (s t : State) : Prop := ∃ cs b f, t = { s with casements := cs, buffer := b, fresh := f }

theorem State.OnlyScrub.refl (s : State) : s.OnlyScrub s := ⟨s.casements, s.buffer, s.fresh, rfl⟩

theorem State.OnlyScrub.trans {s t u : State} (h : s.OnlyScrub t) (g : t.OnlyScrub u) : s.OnlyScrub u := by
  obtain ⟨a, b, c, rfl⟩ := h
  obtain ⟨d, e, f, rfl⟩ := g
  exact ⟨d, e, f, rfl⟩

theorem State.onlyScrub_startScrub (s : State) (k : Nat) : s.OnlyScrub (s.startScrub k) := by
  unfold State.startScrub
  dsimp only
  split
  · exact ⟨_, s.buffer, _, rfl⟩
  · exact ⟨_, s.buffer, _, rfl⟩

theorem State.onlyScrub_eraseCasement (s : State) (k : Nat) : s.OnlyScrub (s.eraseCasement k) :=
  State.OnlyScrub.trans ⟨_, _, _, rfl⟩ (State.onlyScrub_startScrub _ k)

theorem State.onlyScrub_settle (s : State) (k : Nat) :
    s.OnlyScrub (if (((s.maybeDrained k).maybeErase k).casement k).st == .erasing then ((s.maybeDrained k).maybeErase k).startScrub k
      else (s.maybeDrained k).maybeErase k) := by
  have hd : s.OnlyScrub (s.maybeDrained k) := by
    unfold State.maybeDrained
    split
    · exact ⟨_, s.buffer, s.fresh, rfl⟩
    · exact .refl s
  have he : (s.maybeDrained k).OnlyScrub ((s.maybeDrained k).maybeErase k) := by
    unfold State.maybeErase
    dsimp only
    split
    · exact State.onlyScrub_eraseCasement _ k
    · exact .refl _
  generalize (s.maybeDrained k).maybeErase k = u at he ⊢
  split
  · exact (hd.trans he).trans (u.onlyScrub_startScrub k)
  · exact hd.trans he

/-- The part once what a warm reset ends has ended, before its casements are settled. -/
def State.cleared (s : State) : State :=
  let s := s.failAll.settleMemory.dealUnits
  { s.drawDue.2 with
    cur := none, cores := s.cores.map fun (c, k) => (c, k.afterReset)
    hbm := s.hbm.map fun (x : Stack) => { x with hold := false }
    channels := s.channels.map fun (n, x) => (n, { x with queue := [], frameUse := List.replicate 16 0, nextLink := none })
    buffer := [], rescaleDue := false, opening := [], arriving := []
    reqs := [], sent := List.replicate 9 0, chanEnds := [], grants := [], groups := [], chunks := [], mirrors := [], mirrorPool := 0
    queues := s.queues.map fun (q, x) => (q, x.idled)
    rings := s.rings.map fun (x : Ring) => { x with waiting := [], open_ := [] }
    casements := s.casements.map Casement.afterReset
    sessions := s.sessions.map fun (n, x) => (n, { x with isOpen := false })
    tasks := [], streams := [], squall := false, lastServedQueue := 255, migration := none, scrubbed := false
    boot := s.boot.warm s.drawDue.1 }

theorem State.onlyScrub_warmReset (s : State) : s.cleared.OnlyScrub s.warmReset :=
  foldl_rel State.OnlyScrub.refl State.OnlyScrub.trans State.onlyScrub_settle (List.range 16) s.cleared

theorem State.boot_failAll (s : State) : s.failAll.settleMemory.dealUnits.boot = s.boot := by
  have hm : s.failAll.settleMemory.boot = s.failAll.boot :=
    foldl_rel (R := fun s t : State => t.boot = s.boot) (fun _ => rfl) (fun a b => b.trans a) (fun s r => (s.foldBytes_keeps r).boot) s.failAll.stores s.failAll
  have hf : s.failAll.boot = s.boot := (State.Sound.foldl (fun s t => s.sound_retireWith t .failed 0 none) s.tasks s).2
  exact hm.trans hf

theorem State.fuse_cleared (s : State) : s.cleared.boot.ready = false ∧ s.cleared.boot.fuse = s.boot.fuse := by
  have h : s.cleared.boot = s.boot.warm s.failAll.settleMemory.dealUnits.drawDue.1 := congrArg (Boot.warm · _) s.boot_failAll
  rw [h]
  unfold Boot.warm
  split
  · exact ⟨rfl, rfl⟩
  · exact ⟨rfl, rfl⟩

theorem State.queue_cleared (s : State) (q : Nat) : (s.cleared.queue q).st = .idle := by
  have h : keyGet s.cleared.queues q = (keyGet s.failAll.settleMemory.dealUnits.queues q).map Queue.idled :=
    keyGet_map_values (g := fun _ => Queue.idled) (fun _ _ => rfl) q
  unfold State.queue
  rw [h]
  cases keyGet s.failAll.settleMemory.dealUnits.queues q <;> rfl

/-- A session that a reset has closed. -/
def Session.shut (x : Session) : Session := { x with isOpen := false }

theorem State.session_cleared (s : State) (n : Nat) : (s.cleared.session n).isOpen = false := by
  have h : keyGet s.cleared.sessions n = (keyGet s.failAll.settleMemory.dealUnits.sessions n).map Session.shut :=
    keyGet_map_values (g := fun _ => Session.shut) (fun _ _ => rfl) n
  unfold State.session
  rw [h]
  cases keyGet s.failAll.settleMemory.dealUnits.sessions n <;> rfl

theorem State.core_cleared (s : State) (c : Nat) : (s.cleared.core c).task = none ∧ (s.cleared.core c).phase = .idle := by
  have h : keyGet s.cleared.cores c = (keyGet s.failAll.settleMemory.dealUnits.cores c).map Core.afterReset :=
    keyGet_map_values (g := fun _ => Core.afterReset) (fun _ _ => rfl) c
  unfold State.core
  rw [h]
  cases keyGet s.failAll.settleMemory.dealUnits.cores c <;> exact ⟨rfl, rfl⟩

/-! ### A cold reset (R311, R343) -/

/-- A casement after a cold reset: under a new key (R311). -/
def Casement.rekeyed (now : Nat) (e : Casement × Casement) : Casement := { e.1 with keyGen := e.2.keyGen + 1, anchorNext := now + 1250000 }

theorem State.casements_settleMemory (s : State) : s.settleMemory.casements = s.casements :=
  foldl_rel (R := fun s t : State => t.casements = s.casements) (fun _ => rfl) (fun a b => b.trans a) (fun s r => by
    unfold State.foldBytes
    split <;> rfl) s.stores s

theorem State.boot_settleMemory (s : State) : s.settleMemory.boot = s.boot :=
  foldl_rel (R := fun s t : State => t.boot = s.boot) (fun _ => rfl) (fun a b => b.trans a) (fun s r => (s.foldBytes_keeps r).boot) s.stores s

theorem State.casement_coldReset (s : State) {k : Nat} (hk : k < 16) (hl : s.casements.length = 16) :
    s.coldReset.casement k = Casement.rekeyed s.settleMemory.now (Casement.reset, s.casement k) := by
  have hlen : k < s.casements.length := by omega
  have hz : (s.settleMemory.casements)[k]? = some (s.casement k) := by
    rw [s.casements_settleMemory, State.casement, List.getD_eq_getElem?_getD, List.getElem?_eq_getElem hlen]
    rfl
  have hr : (List.replicate 16 Casement.reset)[k]? = some Casement.reset := by
    rw [List.getElem?_replicate, if_pos hk]
  show (((List.replicate 16 Casement.reset).zip s.settleMemory.casements).map (Casement.rekeyed s.settleMemory.now)).getD k Casement.reset = _
  rw [List.getD_eq_getElem?_getD, List.getElem?_map, (List.getElem?_zip_eq_some (z := (Casement.reset, s.casement k))).mpr ⟨hr, hz⟩]
  rfl

/-- Settles O59. -/
theorem bootAndResets : Obligations.BootAndResets := by
  unfold Obligations.BootAndResets
  intro s b usable serves
  have hus (i : Nat) : usable i ↔ b.refuses b.images i = 0 := (Boot.refuses_eq_zero_iff b b.images i).symm
  have hse (i : Nat) : serves i ↔ b.refuses b.services i = 0 := (Boot.refuses_eq_zero_iff b b.services i).symm
  simp only [hus, hse]
  refine ⟨fun n hn hd hh => ⟨fun hs => ?_, fun hs => ?_, fun hs => ?_, fun hs ht => ?_, fun hs ht => ?_, fun hs => ?_⟩, fun v => ⟨fun h => ?_, fun h => ?_⟩, fun hh => ?_, fun hh => ?_, ?_⟩
  · refine ⟨_, (exec_bootStage_due hn hd hh (hs.trans_lt (by omega))).1 hs, fun h => Boot.verify_runs h, fun h0 h1 => ?_⟩
    have hv := Boot.verify_stops (b := { s.boot with nextAt := some s.drawDue.1 }) h0 h1
    exact ⟨(congrArg Boot.stage hv).trans hs, fun h => h1 ((congrArg Boot.failcode hv).symm.trans h), congrArg Boot.nextAt hv⟩
  · have hx := (exec_bootStage_due hn hd hh (hs.trans_lt (by omega))).2.1 hs
    split at hx
    · next h =>
      have h' := b.servicesRefused_eq_zero_iff.mp h
      exact ⟨_, hx, rfl, rfl, fun _ => ⟨rfl, rfl⟩, fun h0 h1 => (h'.elim h0 h1).elim⟩
    · next h => exact ⟨_, hx, rfl, rfl, fun h' => absurd (b.servicesRefused_eq_zero_iff.mpr h') h, fun _ _ => ⟨hs, h, rfl⟩⟩
  · have hlt : 2 < b.stage ∧ b.stage < 5 := by
      have : b.stage = 3 ∨ b.stage = 4 := by simpa using hs
      omega
    have hx := (exec_bootStage_due hn hd hh (hlt.2.trans (by omega))).2.2.2 hlt.1
    obtain ⟨h1, h2, h3⟩ := s.toStage_later hlt.1 hlt.2
    exact ⟨_, hx, h1, h2, h3⟩
  · have hx := (exec_bootStage_due hn hd hh (hs.trans_lt (by omega))).2.2.1 hs
    rw [if_pos ht] at hx
    exact ⟨_, hx, congrArg Boot.stage (s.atStage 3).startDies_boot⟩
  · have hx := (exec_bootStage_due hn hd hh (hs.trans_lt (by omega))).2.2.1 hs
    rw [if_neg (by rw [show s.boot.trains = false from ht]; exact Bool.false_ne_true)] at hx
    exact ⟨_, hx, rfl, rfl, hs⟩
  · have hs' : s.boot.stage = 5 := hs
    have hx := (exec_bootStage_due hn hd hh (by omega)).2.2.2 (by omega)
    rw [hs'] at hx
    exact ⟨_, hx, rfl, rfl, rfl⟩
  · obtain ⟨hr, hv, hf, hm⟩ := h
    rw [exec_fuseAdvance]
    unfold execFuseAdvance
    dsimp only
    rw [if_pos (by simpa [b] using ⟨⟨⟨hr, hv⟩, hf⟩, hm⟩)]
  · rw [exec_fuseAdvance]
    unfold execFuseAdvance
    dsimp only
    rw [if_neg]
    intro hc
    simp only [Bool.and_eq_true, decide_eq_true_eq] at hc
    obtain ⟨⟨⟨hr, hv⟩, hf⟩, hm⟩ := hc
    rcases h with h | h | h | h
    · exact Bool.false_ne_true (h.symm.trans hr)
    · exact h hv
    · exact absurd hf (Nat.not_le.mpr h)
    · exact absurd hm (Nat.not_le.mpr h)
  · rw [exec_warmReset, execWarmReset, if_pos hh]
  · have hx : exec .warmReset s = .next s.warmReset := by
      rw [exec_warmReset, execWarmReset, if_neg (by rw [show s.boot.hingeLost = false from hh]; exact Bool.false_ne_true)]
    obtain ⟨cs, bu, fr, hw⟩ := s.onlyScrub_warmReset
    rw [hw] at hx
    obtain ⟨hr, hf⟩ := s.fuse_cleared
    exact ⟨_, hx, rfl, rfl, rfl, hr, hf, s.queue_cleared, s.session_cleared, s.core_cleared⟩
  · have hfuse : s.settleMemory.boot.fuse = b.fuse := congrArg Boot.fuse s.boot_settleMemory
    have himages : s.settleMemory.boot.images = b.images := congrArg Boot.images s.boot_settleMemory
    refine ⟨_, rfl, rfl, rfl, rfl, rfl, rfl, hfuse, himages, fun _ => rfl, fun _ => rfl, fun k hk hl => ?_⟩
    rw [s.casement_coldReset hk hl]
    exact ⟨rfl, rfl, rfl⟩

end Sys2Proof.Machine
end

section
/-! PROOFS. The host's accesses, atomics and register writes, and the migration of a page (R222, R223, R295, R301, R320, R321, R343, R460): O60. -/

namespace Sys2Proof.Machine

/-! ### Memory read back after many writes -/

theorem Cells.get_writeAll_of {l : List (Nat × W8)} {a : Nat} {v : W8} (hl : ∀ b ∈ l, b.1 = a → b.2 = v) {m : Cells} (h : m.get a = v ∨ ∃ b ∈ l, b.1 = a) :
    (m.writeAll l).get a = v := by
  induction l generalizing m with
  | nil => exact h.resolve_right nofun
  | cons b l ih =>
    obtain ⟨x, w⟩ := b
    rw [Cells.writeAll]
    refine ih (fun b hb => hl b (List.mem_cons_of_mem _ hb)) ?_
    by_cases hx : a = x
    · left
      rw [hx, Cells.get_set_same]
      exact hl (x, w) List.mem_cons_self hx.symm
    · rw [Cells.get_set_other w hx]
      refine h.imp id fun ⟨b, hb, hba⟩ => ?_
      obtain rfl | hb := List.mem_cons.mp hb
      · exact absurd hba.symm hx
      · exact ⟨b, hb, hba⟩

theorem Cells.get_filter (p : Nat → Bool) (m : Cells) (a : Nat) : Cells.get (m.filter fun e => p e.1) a = if p a then m.get a else 0 := by
  induction m with
  | nil => simp [Cells.get]
  | cons e m ih =>
    obtain ⟨x, b⟩ := e
    by_cases hx : x = a
    · subst hx
      cases hp : p x
      · rw [hp] at ih
        rw [List.filter_cons_of_neg (by simp [hp]), ih]
        rfl
      · rw [List.filter_cons_of_pos (p := fun e : Nat × W8 => p e.1) hp]
        simp [Cells.get]
    · cases hp : p x
      · rw [List.filter_cons_of_neg (by simp [hp]), ih]
        simp [Cells.get, hx]
      · rw [List.filter_cons_of_pos (p := fun e : Nat × W8 => p e.1) hp]
        simp [Cells.get, hx, ih]

theorem Cells.get_of_mem {m : Cells} (h : m.wf = true) {a : Nat} {b : W8} (hm : (a, b) ∈ m) : m.get a = b := by
  induction m with
  | nil => cases hm
  | cons e m ih =>
    obtain ⟨x, c⟩ := e
    obtain ⟨_, hx, hw⟩ := Cells.wf_cons.mp h
    obtain hm | hm := List.mem_cons.mp hm
    · cases hm
      simp [Cells.get]
    · have := hx _ hm
      rw [Cells.get, if_neg (Nat.ne_of_lt this), ih hw hm]

theorem Cells.mem_of_get {m : Cells} {a : Nat} (h : m.get a ≠ 0) : (a, m.get a) ∈ m := by
  induction m with
  | nil => exact absurd rfl h
  | cons e m ih =>
    obtain ⟨x, c⟩ := e
    by_cases hx : x = a
    · simp [Cells.get, hx]
    · rw [Cells.get, if_neg hx] at h ⊢
      exact List.mem_cons_of_mem _ (ih h)

/-- What a page's move leaves of memory: the new page holds what the old one held, and the rest stands (R223). -/
theorem State.get_copyPage {s : State} (h : s.MemOk) (o n size : Nat) :
    (∀ i, i < size → (s.copyPage o n size).mem.get (n + i) = s.mem.get (o + i)) ∧
      ∀ b, (b < n ∨ n + size ≤ b) → (s.copyPage o n size).mem.get b = s.mem.get b := by
  let within (base a : Nat) : Bool := decide (base ≤ a) && decide (a < base + size)
  have hin (base a : Nat) : within base a = true ↔ base ≤ a ∧ a < base + size := by simp [within]
  let moved : List (Nat × W8) := (s.mem.filter fun e => within o e.1).map fun e => (e.1 - o + n, e.2)
  have hmem : (s.copyPage o n size).mem = Cells.writeAll (s.mem.filter fun e => !within n e.1) moved := rfl
  have hmoved {b : Nat × W8} (hb : b ∈ moved) : ∃ j, j < size ∧ b.1 = n + j ∧ (o + j, b.2) ∈ s.mem := by
    obtain ⟨e, he, rfl⟩ := List.mem_map.mp hb
    obtain ⟨hm, hw⟩ := List.mem_filter.mp he
    have := (hin o e.1).mp hw
    refine ⟨e.1 - o, by omega, Nat.add_comm _ _, ?_⟩
    rwa [Nat.add_sub_cancel' this.1]
  rw [hmem]
  refine ⟨fun i hi => Cells.get_writeAll_of (fun b hb hbn => ?_) ?_, fun b hb => ?_⟩
  · obtain ⟨j, _, hj, hm⟩ := hmoved hb
    have hji : j = i := by omega
    exact (Cells.get_of_mem h (hji ▸ hm)).symm
  · by_cases hz : s.mem.get (o + i) = 0
    · left
      rw [Cells.get_filter (fun a => !within n a), hz, if_neg (by simpa using (hin n (n + i)).mpr ⟨by omega, by omega⟩)]
    · right
      refine ⟨(n + i, s.mem.get (o + i)), List.mem_map.mpr ⟨(o + i, s.mem.get (o + i)), List.mem_filter.mpr ⟨Cells.mem_of_get hz, ?_⟩, ?_⟩, rfl⟩
      · exact (hin o (o + i)).mpr ⟨by omega, by omega⟩
      · exact Prod.ext (by show o + i - o + n = n + i; omega) rfl
  · rw [Cells.get_writeAll_outside (fun e he => ?_), Cells.get_filter (fun a => !within n a), if_pos]
    · have : ¬ within n b = true := fun hw => by
        have := (hin n b).mp hw
        omega
      simpa using this
    · obtain ⟨j, hj, he1, _⟩ := hmoved he
      omega

/-! ### The lines of an access -/

theorem mem_lineSpan {pa n a : Nat} (h : a ∈ lineSpan pa n) : pa ≤ a ∧ a < pa + n := by
  unfold lineSpan at h
  split at h
  · cases h
  · obtain ⟨i, hi, rfl⟩ := List.mem_map.mp h
    have := List.mem_range.mp hi
    omega

theorem lineSpan_cons {pa n : Nat} (h : 0 < n) : ∃ l, lineSpan pa n = pa :: l := by
  unfold lineSpan
  rw [if_neg (Nat.ne_of_gt h), List.range_succ_eq_map, List.map_cons]
  exact ⟨_, congrArg (· :: _) (by omega)⟩

theorem regionOf_eq_host_iff (a : Nat) : regionOf a = .host ↔ 0x800000000000 ≤ a ∧ a < 0xF00000000000 := by
  unfold regionOf
  split_ifs <;> simp <;> omega

theorem regionOf_eq_hingeSram_iff (a : Nat) : regionOf a = .hingeSram ↔ 0x10000000000 ≤ a ∧ a < 0x10004000000 := by
  unfold regionOf
  split_ifs <;> simp <;> omega

theorem regionOf_between {a b c : Nat} (h : regionOf a = .host ∨ regionOf a = .hingeSram) (hc : regionOf c = regionOf a) (hab : a ≤ b) (hbc : b ≤ c) :
    regionOf b = regionOf a := by
  rcases h with h | h <;> rw [h] at hc ⊢
  · rw [regionOf_eq_host_iff] at h hc ⊢
    omega
  · rw [regionOf_eq_hingeSram_iff] at h hc ⊢
    omega

theorem State.touchLines_plain {base s : State} {k key : Nat} {write : Bool} {l : List Nat}
    (h : ∀ a ∈ l, regionOf (s.forward a) ≠ .window ∧ regionOf (s.forward a) ≠ .hbm) : State.touchLines base s k key write l = .ok s := by
  induction l with
  | nil => rfl
  | cons a l ih =>
    obtain ⟨hw, hh⟩ := h a List.mem_cons_self
    rw [State.touchLines, State.touchFrom]
    dsimp only
    rw [if_neg (by simpa using hw), if_pos (by simpa using hh)]
    exact ih fun b hb => h b (List.mem_cons_of_mem _ hb)

theorem State.touch_plain {s : State} {a n : Nat} (hm : s.migration = none) (hr : regionOf a = .host ∨ regionOf a = .hingeSram)
    (hp : regionOf (a + n - 1) = regionOf a) (k key : Nat) (write : Bool) : s.touch k a key n write = .ok s := by
  refine State.touchLines_plain fun b hb => ?_
  have hf : s.forward b = b := by unfold State.forward; rw [hm]
  obtain ⟨h1, h2⟩ := mem_lineSpan hb
  rw [hf, regionOf_between hr hp h1 (by omega)]
  rcases hr with h | h <;> rw [h] <;> decide

theorem State.touch_dead {s : State} {a n : Nat} (hn : 0 < n) (hd : s.dead a = true) (k key : Nat) (write : Bool) : s.touch k a key n write = .check s a := by
  obtain ⟨l, hl⟩ := lineSpan_cons (pa := a) hn
  unfold State.dead at hd
  obtain ⟨hh, hr⟩ := Bool.and_eq_true_iff.mp hd
  rw [State.touch, hl, State.touchLines, State.touchFrom]
  dsimp only
  rw [beq_iff_eq] at hh
  rw [hh, if_neg (by decide), if_neg (by decide), if_pos hr]

/-! ### Accesses to memory (R222, R320) -/

theorem bits_low48 (pa : Nat) : bits pa 47 0 = pa % 2 ^ 48 := by simp [bits]

theorem bits_key {pa : Nat} (h : pa < 2 ^ 52) : bits pa 51 48 = pa / 2 ^ 48 := by
  simp only [bits]
  omega

theorem State.hostStalls_eq_false {s : State} {pa : Nat} {op : HostOp} (hl : hostAtomic op = true → s.locked (bits pa 47 0) = false)
    (ht : ∀ hot, s.hostTouch pa op ≠ .wait hot) : s.hostStalls pa op = false := by
  have hm : (match s.hostTouch pa op with
      | .wait _ => true
      | _ => false) = false := by
    split
    · next hot h => exact absurd h (ht hot)
    · rfl
  have ha : (hostAtomic op && s.locked (bits pa 47 0)) = false := by
    cases h : hostAtomic op
    · rfl
    · exact hl h
  have hor := Bool.or_eq_false_iff.mpr ⟨ha, hm⟩
  cases op with
  | bar => rfl
  | _ => exact hor

section
variable {s : State} {pa : Nat} {op : HostOp} (hpa : pa < 2 ^ 52) (hh : s.boot.hingeLost = false) (hr : s.boot.ready = true) (hs : hostShaped op pa = true)
  (hl : hostAtomic op = true → s.locked (bits pa 47 0) = false) (ht : ∀ hot, s.hostTouch pa op ≠ .wait hot)
include hpa hh hr hs hl ht

/-- An access that is not kept waiting, by where its bytes are and whether its function reaches them. -/
theorem State.hostMemory_ready (fn : HostFn) (sec : Bool) :
    s.hostMemory fn sec pa op =
      if regionOf (bits pa 47 0) == .unmapped || regionOf (bits pa 47 0 + hostSize op - 1) != regionOf (bits pa 47 0) then .fault .physicalHole
      else if !s.reachesMemory fn sec pa then .next (s.hostDiscard op)
      else
        match s.hostTouch pa op with
        | .ok s => .next (s.hostPerform (bits pa 51 48) (bits pa 47 0) op)
        | .check s at_ => .next (s.emitOut (.machineCheck noCore at_))
        | .wait _ => .refused .eventNotEnabled := by
  unfold State.hostMemory
  dsimp only
  exact if_neg (by rw [hs, hh, hr, State.hostStalls_eq_false hl ht, decide_eq_false (Nat.not_le.mpr hpa)]; decide)

variable (hu : regionOf (bits pa 47 0) ≠ .unmapped) (hp : regionOf (bits pa 47 0 + hostSize op - 1) = regionOf (bits pa 47 0))
include hu hp

theorem State.hostMemory_performs (sec : Bool) {u : State} (h : s.hostTouch pa op = .ok u) :
    s.hostMemory .pf sec pa op = .next (u.hostPerform (bits pa 51 48) (bits pa 47 0) op) := by
  rw [State.hostMemory_ready hpa hh hr hs hl ht, if_neg (by simp [hu, hp]), if_neg (by exact Bool.false_ne_true), h]

theorem State.hostMemory_checks (sec : Bool) {u : State} {at_ : Nat} (h : s.hostTouch pa op = .check u at_) :
    s.hostMemory .pf sec pa op = .next (u.emitOut (.machineCheck noCore at_)) := by
  rw [State.hostMemory_ready hpa hh hr hs hl ht, if_neg (by simp [hu, hp]), if_neg (by exact Bool.false_ne_true), h]

theorem State.hostMemory_discards (sec : Bool) {fn : HostFn} (h : s.reachesMemory fn sec pa = false) : s.hostMemory fn sec pa op = .next (s.hostDiscard op) := by
  rw [State.hostMemory_ready hpa hh hr hs hl ht, if_neg (by simp [hu, hp]), if_pos (by rw [h]; rfl)]

end

theorem hostShaped_bytes {op : HostOp} (ha : hostAtomic op = false) (h0 : 0 < hostSize op) (h1 : hostSize op ≤ 4096) (pa : Nat) : hostShaped op pa = true := by
  unfold hostShaped
  rw [ha]
  simp
  omega

theorem hostShaped_atomic {op : HostOp} (ha : hostAtomic op = true) (h : hostSize op = 4 ∨ hostSize op = 8) {pa : Nat} (hp : pa % hostSize op = 0) : hostShaped op pa = true := by
  unfold hostShaped
  rw [ha]
  simpa [hp] using h

/-- An access to a key slot that is not its function's reaches nothing of HBM4E (R301). -/
theorem State.reachesMemory_other {s : State} {pa k : Nat} (sec : Bool) (hr : regionOf (bits pa 47 0) = .hbm) (hk : bits pa 51 48 ≠ k) :
    s.reachesMemory (.vf k) sec pa = false := by
  unfold State.reachesMemory
  rw [hr]
  simp [hk]

/-! ### Registers (R321) -/

theorem exec_registerWrite_aligned (s : State) (fn : HostFn) (sec : Bool) {off : Nat} (h : off % 8 = 0) (hl : off < 0x2000000) (x : W64) :
    exec (.registerWrite fn sec off x) s = .next (s.hostWrite fn sec off x.toNat true) := by
  rw [exec_registerWrite, execRegisterWrite, if_neg (by simp; omega), if_pos h]

theorem inBlock_eq_false {off base size : Nat} (h : off < base ∨ base + size ≤ off) : inBlock off base size = false := by
  unfold inBlock
  rw [Bool.and_eq_false_iff, decide_eq_false_iff_not, decide_eq_false_iff_not]
  omega

/-- A virtual function's write of the module's own registers is discarded. -/
theorem State.hostWrite_module (s : State) (k : Nat) (sec low : Bool) {off : Nat} (h1 : 0x70000 ≤ off) (h2 : off < 0x84000) (v : Nat) :
    s.hostWrite (.vf k) sec off v low = s := by
  unfold State.hostWrite
  rw [if_neg (by omega), inBlock_eq_false (by omega), inBlock_eq_false (by omega), inBlock_eq_false (by omega), inBlock_eq_false (by omega),
    inBlock_eq_false (base := 0x60000) (by omega), inBlock_eq_false (base := 0x1000000) (by omega)]
  simp only [fnIsPf, Bool.false_eq_true, if_false, ite_self]

/-- Settles O60. -/
theorem hostPort : Obligations.HostPort := by
  unfold Obligations.HostPort
  intro s sec pa n bs v e hpa hh hr a slot plain waits
  have ha : bits pa 47 0 = a := bits_low48 pa
  have hslot : bits pa 51 48 = slot := bits_key hpa
  have hread (k : Nat) : s.hostTouch pa (.read k) = s.touch slot a slot k false := by rw [← ha, ← hslot]; rfl
  have hwrite (l : List W8) : s.hostTouch pa (.write l) = s.touch slot a slot l.length true := by rw [← ha, ← hslot]; rfl
  have reads {u : State} (h0 : 0 < n) (h1 : n ≤ 4096) (hp : plain n) (ht : s.touch slot a slot n false = .ok u) :
      exec (.hostAccess .pf sec pa (.read n)) s = .next (u.emitOut (.hostReply (u.readMem none slot a n))) := by
    rw [← hread] at ht
    have h := State.hostMemory_performs hpa hh hr (hostShaped_bytes (op := .read n) rfl h0 h1 pa) nofun (fun hot h => by rw [ht] at h; cases h)
      (by rw [ha]; exact hp.1) (by rw [ha]; exact hp.2) sec ht
    rw [exec_hostAccess]
    rw [ha, hslot] at h
    exact h
  have writes {u : State} (h0 : 0 < bs.length) (h1 : bs.length ≤ 4096) (hp : plain bs.length) (ht : s.touch slot a slot bs.length true = .ok u) :
      exec (.hostAccess .pf sec pa (.write bs)) s = .next (u.storeBytes 8 2304 .ct slot a bs) := by
    rw [← hwrite] at ht
    have h := State.hostMemory_performs hpa hh hr (hostShaped_bytes (op := .write bs) rfl h0 h1 pa) nofun (fun hot h => by rw [ht] at h; cases h)
      (by rw [ha]; exact hp.1) (by rw [ha]; exact hp.2) sec ht
    rw [exec_hostAccess]
    rw [ha, hslot] at h
    exact h
  refine ⟨fun h0 h1 hp hreg hm => ⟨reads h0 h1 hp (State.touch_plain hm hreg hp.2 _ _ _), fun hb => ?_⟩, fun u h0 h1 hp ht => reads h0 h1 hp ht,
    fun u h0 h1 hp ht => writes h0 h1 hp ht, fun u hn hal hp hl ht => ?_, fun k h0 h1 hp hreg hk => ⟨fun hw => ?_, fun hw hb => ?_⟩,
    fun h0 h1 hreg hlast hd => ?_, fun h0 h1 hreg hw => ?_, fun fn h0 h1 hlen => ?_, fun o p sz hm hsz ho hp hlo hlp => ?_,
    fun m hm hok hsw hleft hdue hho hhn hheld => ?_, fun m hm hsw => ?_, fun fn x off h1 h2 => exec_registerWrite_aligned s fn sec h1 h2 x,
    fun x hx => ?_, fun k x => ?_, fun k off x h1 h2 h3 => ?_, fun x => ?_⟩
  · subst hb
    exact writes h0 h1 hp (State.touch_plain hm hreg hp.2 _ _ _)
  · intro old done
    have atomic {op : HostOp} (hat : hostAtomic op = true) (hsize : hostSize op = n) (htouch : s.hostTouch pa op = s.touch (bits pa 51 48) (bits pa 47 0) (bits pa 51 48) n true)
        (hx : exec (.hostAccess .pf sec pa op) s = s.hostMemory .pf sec pa op) :
        exec (.hostAccess .pf sec pa op) s = .next (u.hostPerform slot a op) := by
      have ht' : s.hostTouch pa op = .ok u := by rw [htouch, ha, hslot, ht]
      have h := State.hostMemory_performs hpa hh hr (hostShaped_atomic hat (hsize ▸ hn) (hsize ▸ hal)) (fun _ => by rw [ha]; exact hl)
        (fun hot h => by rw [ht'] at h; cases h) (by rw [ha]; exact hp.1) (by rw [ha, hsize]; exact hp.2) sec ht'
      rw [hx, h, ha, hslot]
    exact ⟨atomic rfl rfl rfl rfl, atomic rfl rfl rfl rfl, atomic rfl rfl rfl rfl⟩
  · have ht : ∀ hot, s.hostTouch pa (.read n) ≠ .wait hot := fun hot h => hw ⟨hot, by rw [← hread, h]⟩
    rw [exec_hostAccess]
    exact State.hostMemory_discards hpa hh hr (hostShaped_bytes (op := .read n) rfl h0 h1 pa) nofun ht (by rw [ha]; exact hp.1) (by rw [ha]; exact hp.2) sec
      (State.reachesMemory_other sec (by rw [ha]; exact hreg) (by rw [hslot]; exact hk))
  · subst hb
    have ht : ∀ hot, s.hostTouch pa (.write bs) ≠ .wait hot := fun hot h => hw ⟨hot, by rw [← hwrite, h]⟩
    rw [exec_hostAccess]
    exact State.hostMemory_discards hpa hh hr (hostShaped_bytes (op := .write bs) rfl h0 h1 pa) nofun ht (by rw [ha]; exact hp.1) (by rw [ha]; exact hp.2) sec
      (State.reachesMemory_other sec (by rw [ha]; exact hreg) (by rw [hslot]; exact hk))
  · have ht : s.hostTouch pa (.read n) = .check s a := by rw [hread, State.touch_dead h0 hd]
    rw [exec_hostAccess]
    exact State.hostMemory_checks hpa hh hr (hostShaped_bytes (op := .read n) rfl h0 h1 pa) nofun (fun hot h => by rw [ht] at h; cases h)
      (by rw [ha, hreg]; decide) (by rw [ha, hreg]; exact hlast) sec ht
  · have ht : ∀ hot, s.hostTouch pa (.read n) ≠ .wait hot := fun hot h => hw ⟨hot, by rw [← hread, h]⟩
    rw [exec_hostAccess]
    refine (State.hostMemory_ready hpa hh hr (hostShaped_bytes (op := .read n) rfl h0 h1 pa) nofun ht .pf sec).trans ?_
    rw [if_pos (by rw [ha, hreg]; rfl)]
  · have hx : exec (.hostAccess fn sec pa (.bar n)) s = .next (s.hostBar fn sec pa n) := by
      rw [exec_hostAccess]
      unfold execHostAccess
      dsimp only
      rw [if_neg (by simp; omega)]
    refine ⟨_, hx, rfl, rfl, ?_⟩
    show s.out ++ [Output.hostReply ((span pa n).map (s.barByte fn sec))] = _
    rw [span, List.map_map]
    rfl
  · have hbits {x : Nat} (h : x < 0x10000000000) : bits x 47 0 = x ∧ bits x 51 48 = 0 ∧ regionOf x = .hbm := by
      refine ⟨by rw [bits_low48]; omega, by rw [bits_key (by omega)]; omega, if_pos h⟩
    obtain ⟨o1, o2, o3⟩ := hbits hlo
    obtain ⟨p1, p2, p3⟩ := hbits hlp
    have hsize : (sz == 4096 || sz == 2 ^ 21 || sz == 2 ^ 30) = true := by
      simp only [List.mem_cons, List.not_mem_nil, or_false] at hsz
      simpa [or_assoc] using hsz
    have hx : exec (.migrationStart o p sz) s = .next { s.drawDue.2 with
        migration := some { old := o, new_ := p, size := sz, switched := false, due := s.drawDue.1, left := sz / 64, held := [] } } := by
      rw [exec_migrationStart]
      unfold execMigrationStart
      dsimp only
      rw [o1, o2, p1, p2, o3, p3, hsize, hr, hm, ho, hp]
      rfl
    exact ⟨_, _, hx, rfl, rfl, rfl, rfl, rfl, s.drawDue_later, rfl, rfl⟩
  · have hx : exec .migrationSwitch s = .next { s.copyPage m.old m.new_ m.size with migration := some { m with switched := true, held := [] } } := by
      rw [exec_migrationSwitch]
      unfold execMigrationSwitch
      rw [hm]
      dsimp only
      rw [hsw, hleft, hh, hho, hhn, hheld, decide_eq_false (Nat.not_lt.mpr hdue)]
      rfl
    obtain ⟨h1, h2⟩ := State.get_copyPage hok m.old m.new_ m.size
    refine ⟨_, hx, ?_, h1, h2⟩
    show some { m with switched := true, held := [] } = _
    rw [hheld]
  · rw [exec_migrationRelease]
    unfold execMigrationRelease
    rw [hm]
    dsimp only
    rw [hsw, hr]
    rfl
  · rw [exec_registerWrite_aligned s .pf sec (by decide) (by decide)]
    unfold State.hostWrite
    rw [hx]
    rfl
  · rw [exec_registerWrite_aligned s (.vf k) sec (by decide) (by decide)]
    rfl
  · rw [exec_registerWrite_aligned s (.vf k) sec h1 (by omega), State.hostWrite_module s k sec true h2 h3]
  · refine ⟨_, exec_registerWrite_aligned s .pf sec (by decide) (by decide) x, ?_⟩
    have hw : s.hostWrite .pf sec 0x70000 x.toNat true = { s with fleet := { s.fleet with ptpdom := BitVec.ofNat 8 x.toNat } } := by
      unfold State.hostWrite
      rw [hr]
      rfl
    rw [hw]
    exact ⟨BitVec.ofNat_toNat _ x, rfl, rfl⟩

end Sys2Proof.Machine
end

section
/-! PROOFS. What a state leads to is in canonical form if it is: the forms in which the model's functions give states (log entry 2). -/

namespace Sys2Proof.Machine

/-- `State.MemOk` as a structure, so that a lemma about a function is applied by the function's name alone. -/
structure State.Canonical (s : State) : Prop where
  wf : s.mem.wf = true

/-- A state with the same memory. -/
theorem State.Canonical.same {s t : State} (h : s.Canonical) (e : t.mem = s.mem) : t.Canonical := ⟨by rw [e]; exact h.wf⟩

theorem State.Canonical.sound {s t : State} (h : s.Canonical) (g : s.Sound t) : t.Canonical := ⟨g.1 h.wf⟩

theorem State.Canonical.memSide {s t : State} (h : s.Canonical) (g : s.MemSide t) : t.Canonical := ⟨g.wf h.wf⟩

theorem State.Canonical.foldl {α : Type} {f : State → α → State} {l : List α} {s : State}
    (hf : ∀ t a, t.Canonical → (f t a).Canonical) (h : s.Canonical) : (l.foldl f s).Canonical :=
  List.foldlRecOn l f h fun t ht a _ => hf t a ht

theorem State.Canonical.foldl_fst {α β : Type} {f : State × α → β → State × α} {l : List β} {x : State × α}
    (hf : ∀ x b, x.1.Canonical → (f x b).1.Canonical)
    (h : x.1.Canonical) : (l.foldl f x).1.Canonical :=
  List.foldlRecOn l f h fun x hx b _ => hf x b hx

theorem State.Canonical.foldl_snd {α β : Type} {f : α × State → β → α × State} {l : List β} {x : α × State}
    (hf : ∀ x b, x.2.Canonical → (f x b).2.Canonical)
    (h : x.2.Canonical) : (l.foldl f x).2.Canonical :=
  List.foldlRecOn l f h fun x hx b _ => hf x b hx

theorem State.Canonical.of_snd {α : Type} {x : α × State} (h : x.2.Canonical) {t : State} {a : α} (e : x = (a, t)) : t.Canonical := by
  rw [e] at h
  exact h

theorem State.Canonical.of_done {x : SignalEnd} (h : x.state.Canonical) {t : State} (e : x = .done t) : t.Canonical := by
  rw [e] at h
  exact h

theorem State.Canonical.of_stalled {x : SignalEnd} (h : x.state.Canonical) {t : State} (e : x = .stalled t) : t.Canonical := by
  rw [e] at h
  exact h

theorem State.Canonical.of_wait {x : SignalEnd} (h : x.state.Canonical) {t : State} (e : x = .wait t) : t.Canonical := by
  rw [e] at h
  exact h

/-- The state of a step that goes on. -/
def OutcomeOk : Host.Outcome State Fault Refusal → Prop
  | .next t => t.Canonical
  | _ => True

/-- The state in which a word's effect leaves the part, if it takes effect or is held. -/
def Iss.Canonical : Iss → Prop
  | .ok t _ _ _ => t.Canonical
  | .hold t => t.Canonical
  | .trap .. => True

/-- The state in which lines have been accessed. -/
def Touch.Canonical : Touch → Prop
  | .ok t => t.Canonical
  | .wait _ => True
  | .check t _ => t.Canonical

/-- The state in which an access of the device ends. -/
def Dev.Canonical {α : Type} : Dev α → Prop
  | .ok t _ => t.Canonical
  | .fault t _ => t.Canonical
  | .wait t => t.Canonical
  | .check t => t.Canonical

/-- The state in which a walk for a core ends. -/
def WalkEnd.Canonical : WalkEnd → Prop
  | .ok t _ _ => t.Canonical
  | .fault t _ _ => t.Canonical
  | .stall t _ _ => t.Canonical
  | .wait t _ => t.Canonical
  | .check t _ => t.Canonical

/-- The state, if there is one. -/
def SomeOk : Option State → Prop
  | some t => t.Canonical
  | none => True

theorem SomeOk.map {o : Option State} {f : State → State} (h : SomeOk o) (hf : ∀ t, t.Canonical → (f t).Canonical) : SomeOk (o.map f) := by
  cases o with
  | none => trivial
  | some t => exact hf t h

/-- The state in which a walk ends, whether it succeeds or fails. -/
def WalkOk {ε α : Type} : Except (State × ε) (State × α) → Prop
  | .ok p => p.1.Canonical
  | .error e => e.1.Canonical

/-- The state in which a read of a bank ends, whether it is made or not. -/
def ReadOk {α : Type} : Except State (State × α) → Prop
  | .ok p => p.1.Canonical
  | .error t => t.Canonical

/-- The state in which a save's writes end, whether they are made or not. -/
def SaveOk {ε : Type} : Except (State × ε) State → Prop
  | .ok t => t.Canonical
  | .error e => e.1.Canonical

theorem Iss.Canonical.of_ok {x : Iss}
    (h : x.Canonical) {t : State} {lat : Option Nat} {next extra : Nat} (e : x = .ok t lat next extra) : t.Canonical := by
  rw [e] at h
  exact h

theorem Iss.Canonical.of_hold {x : Iss} (h : x.Canonical) {t : State} (e : x = .hold t) : t.Canonical := by
  rw [e] at h
  exact h

theorem Touch.Canonical.of_ok {x : Touch} (h : x.Canonical) {t : State} (e : x = .ok t) : t.Canonical := by
  rw [e] at h
  exact h

theorem Touch.Canonical.of_check {x : Touch} (h : x.Canonical) {t : State} {a : Nat} (e : x = .check t a) : t.Canonical := by
  rw [e] at h
  exact h

theorem Dev.Canonical.of_ok {α : Type} {x : Dev α} (h : x.Canonical) {t : State} {a : α} (e : x = .ok t a) : t.Canonical := by
  rw [e] at h
  exact h

theorem Dev.Canonical.of_fault {α : Type} {x : Dev α} (h : x.Canonical) {t : State} {a : XFault} (e : x = .fault t a) : t.Canonical := by
  rw [e] at h
  exact h

theorem Dev.Canonical.of_wait {α : Type} {x : Dev α} (h : x.Canonical) {t : State} (e : x = .wait t) : t.Canonical := by
  rw [e] at h
  exact h

theorem Dev.Canonical.of_check {α : Type} {x : Dev α} (h : x.Canonical) {t : State} (e : x = .check t) : t.Canonical := by
  rw [e] at h
  exact h

theorem WalkEnd.Canonical.of_ok {x : WalkEnd} (h : x.Canonical) {t : State} {a b : Nat} (e : x = .ok t a b) : t.Canonical := by
  rw [e] at h
  exact h

theorem WalkEnd.Canonical.of_fault {x : WalkEnd} (h : x.Canonical) {t : State} {a b : Nat} (e : x = .fault t a b) : t.Canonical := by
  rw [e] at h
  exact h

theorem WalkEnd.Canonical.of_stall {x : WalkEnd} (h : x.Canonical) {t : State} {a b : Nat} (e : x = .stall t a b) : t.Canonical := by
  rw [e] at h
  exact h

theorem WalkEnd.Canonical.of_wait {x : WalkEnd} (h : x.Canonical) {t : State} {hot : Bool} (e : x = .wait t hot) : t.Canonical := by
  rw [e] at h
  exact h

theorem WalkEnd.Canonical.of_check {x : WalkEnd} (h : x.Canonical) {t : State} {a : Nat} (e : x = .check t a) : t.Canonical := by
  rw [e] at h
  exact h

theorem SomeOk.of_some {x : Option State} (h : SomeOk x) {t : State} (e : x = some t) : t.Canonical := by
  rw [e] at h
  exact h

theorem WalkOk.of_ok {ε α : Type} {x : Except (State × ε) (State × α)} (h : WalkOk x) {t : State} {a : α} (e : x = .ok (t, a)) : t.Canonical := by
  rw [e] at h
  exact h

theorem WalkOk.of_error {ε α : Type} {x : Except (State × ε) (State × α)} (h : WalkOk x) {t : State} {a : ε} (e : x = .error (t, a)) : t.Canonical := by
  rw [e] at h
  exact h

theorem ReadOk.of_ok {α : Type} {x : Except State (State × α)} (h : ReadOk x) {t : State} {a : α} (e : x = .ok (t, a)) : t.Canonical := by
  rw [e] at h
  exact h

theorem ReadOk.of_error {α : Type} {x : Except State (State × α)} (h : ReadOk x) {t : State} (e : x = .error t) : t.Canonical := by
  rw [e] at h
  exact h

theorem SaveOk.of_ok {ε : Type} {x : Except (State × ε) State} (h : SaveOk x) {t : State} (e : x = .ok t) : t.Canonical := by
  rw [e] at h
  exact h

theorem SaveOk.of_error {ε : Type} {x : Except (State × ε) State} (h : SaveOk x) {t : State} {a : ε} (e : x = .error (t, a)) : t.Canonical := by
  rw [e] at h
  exact h

theorem OutcomeOk.of_next {o : Host.Outcome State Fault Refusal} (h : OutcomeOk o) {t : State} (e : o = .next t) : t.Canonical := by
  rw [e] at h
  exact h

theorem OutcomeOk.of_eq {o p : Host.Outcome State Fault Refusal} (e : o = p) (h : OutcomeOk p) : OutcomeOk o := e ▸ h

theorem WalkOk.saveOk {ε α : Type} {x : Except (State × ε) (State × α)} (h : WalkOk x) : SaveOk (x.map Prod.fst) := by
  cases x <;> exact h

theorem WalkFrom.canonical {s : State} (h : s.Canonical) {α : Type} {x : Except (State × XFault) (State × α)} (g : WalkFrom s x) : WalkOk x := by
  cases x with
  | ok p => exact h.memSide g
  | error e => exact h.memSide g

theorem Touch.From.canonical {s : State} (h : s.Canonical) {x : Touch} (g : x.From s) : x.Canonical := by
  cases x with
  | ok t => exact h.memSide g
  | wait _ => trivial
  | check t a => exact h.memSide g

theorem Dev.Sound.canonical {s : State} (h : s.Canonical) {α : Type} {x : Dev α} (g : x.Sound s) : x.Canonical := by
  cases x <;> exact h.sound g

theorem Dev.Canonical.bind {α β : Type} {d : Dev α} (h : d.Canonical) {f : State → α → Dev β}
    (hf : ∀ t a, t.Canonical → (f t a).Canonical) : (d.bind f).Canonical := by
  cases d with
  | ok t a => exact hf t a h
  | fault t x => exact h
  | wait t => exact h
  | check t => exact h

section
variable {s : State}

/-! ### Walks and accesses to memory -/

theorem State.Canonical.touch {k pa key n : Nat} {write : Bool} (h : s.Canonical) : (s.touch k pa key n write).Canonical :=
  (State.touch_from ..).canonical h

theorem State.Canonical.translate {c va : Nat} {acc : Access} (h : s.Canonical) : WalkOk (s.translate c va acc) :=
  (State.translate_from ..).canonical h

theorem State.Canonical.translateFor {k va : Nat} {acc : Access} (h : s.Canonical) : WalkOk (s.translateFor k va acc) :=
  (State.translateFor_from ..).canonical h

theorem State.Canonical.translatePinned {c va : Nat} {acc : Access} (h : s.Canonical) : WalkOk (s.translatePinned c va acc) :=
  (State.translatePinned_from ..).canonical h

theorem State.Canonical.fillBuffer {pa key : Nat} {dirty : Bool} (h : s.Canonical) : (s.fillBuffer pa key dirty).Canonical :=
  h.memSide (State.memSide_fillBuffer ..)

/-! ### Stores and the device's own accesses -/

theorem State.Canonical.foldBytes {r : StoreRec} (h : s.Canonical) : (s.foldBytes r).Canonical := ⟨State.foldBytes_wf _ _ h.wf⟩

theorem State.Canonical.foldStores {n : Nat} (h : s.Canonical) : (s.foldStores n).Canonical := ⟨State.foldStores_wf _ _ h.wf⟩

theorem State.Canonical.catchUp {d : Nat} {stamp : List Nat} (h : s.Canonical) : (s.catchUp d stamp).Canonical := ⟨State.catchUp_wf _ _ _ h.wf⟩

theorem State.Canonical.performStoreOf {task die core : Nat} {q : SeqId} {slot : Nat} {bs : List (Nat × W8)} (h : s.Canonical) :
    (s.performStoreOf task die core q slot bs).Canonical := ⟨State.performStoreOf_wf _ _ _ _ _ _ _ h.wf⟩

theorem State.Canonical.storeBytes {die core : Nat} {q : SeqId} {slot a : Nat} {bs : List W8} (h : s.Canonical) : (s.storeBytes die core q slot a bs).Canonical :=
  ⟨State.storeBytes_wf _ _ _ _ _ _ _ h.wf⟩

theorem State.Canonical.copyPage {o n size : Nat} (h : s.Canonical) : (s.copyPage o n size).Canonical := ⟨State.copyPage_wf _ _ _ _ h.wf⟩

theorem State.Canonical.devTranslate {k va : Nat} {acc : Access} (h : s.Canonical) : (s.devTranslate k va acc).Canonical :=
  (State.devTranslate_sound ..).canonical h

theorem State.Canonical.devTouch {k pa key n : Nat} {write : Bool} (h : s.Canonical) : (s.devTouch k pa key n write).Canonical :=
  (State.devTouch_sound ..).canonical h

theorem State.Canonical.devReach {k va n : Nat} {acc : Access} (h : s.Canonical) : (s.devReach k va n acc).Canonical :=
  (State.devReach_sound ..).canonical h

theorem State.Canonical.deviceWrite {a : Nat} {bs : List W8} (h : s.Canonical) : SomeOk (s.deviceWrite a bs) := by
  cases e : s.deviceWrite a bs with
  | none => trivial
  | some t => exact h.sound (State.deviceWrite_sound e)

theorem State.Canonical.signalWrite {k va : Nat} {value : W64} {taskId : Nat} {w : RingWait}
    (h : s.Canonical) : (s.signalWrite k va value taskId w).state.Canonical :=
  h.sound (State.signalWrite_sound ..)

theorem State.Canonical.flushSignals {q fuel : Nat} (h : s.Canonical) : (s.flushSignals q fuel).Canonical := h.sound (State.sound_flushSignals ..)

theorem State.Canonical.flushAll (h : s.Canonical) : s.flushAll.Canonical := h.sound s.sound_flushAll

theorem State.Canonical.complete {q : Nat} {r : Report} (h : s.Canonical) : (s.complete q r).Canonical := h.sound (State.sound_complete ..)

theorem State.Canonical.retireWith {t : Task} {status : TStatus} {code : Nat} {chunk : Option (List W8 × List W8)} (h : s.Canonical) :
    (s.retireWith t status code chunk).Canonical := h.sound (State.sound_retireWith ..)

end

end Sys2Proof.Machine
end

section
/-! PROOFS. Every step keeps memory in its canonical form (log entry 2). Each of the model's functions over the state, in the model's order, gives a
canonical state for one; the cases are the branches of its definition, and in each the functions called are named in the order in which they are applied
(`h.abandon.modCore`: a state abandoned, then changed at a core). Only the lemmas on `foldBytes`, `copyPage` and `settleMemory` speak of memory itself. -/

namespace Sys2Proof.Machine

section
variable {s : State}

/-! ### Cores, queues, dies and tasks -/

theorem State.Canonical.setCore {c : Nat} {k : Core} (h : s.Canonical) : (s.setCore c k).Canonical := h.same rfl

theorem State.Canonical.modCore {c : Nat} {f : Core → Core} (h : s.Canonical) : (s.modCore c f).Canonical := by
  unfold State.modCore
  exact h.setCore

theorem State.Canonical.modTask {t : Nat} {f : Task → Task} (h : s.Canonical) : (s.modTask t f).Canonical := h.same rfl

theorem State.Canonical.modCasement {k : Nat} {f : Casement → Casement} (h : s.Canonical) : (s.modCasement k f).Canonical := h.same rfl

theorem State.Canonical.modDie {d : Nat} {f : Die → Die} (h : s.Canonical) : (s.modDie d f).Canonical := h.same rfl

theorem State.Canonical.modQueue {q : Nat} {f : Queue → Queue} (h : s.Canonical) : (s.modQueue q f).Canonical := h.same rfl

theorem State.Canonical.modCq {q : Nat} {f : ComplQueue → ComplQueue} (h : s.Canonical) : (s.modCq q f).Canonical := h.same rfl

theorem State.Canonical.modSession {n : Nat} {f : Session → Session} (h : s.Canonical) : (s.modSession n f).Canonical := h.same rfl

theorem State.Canonical.modChannel {n : Nat} {f : Channel → Channel} (h : s.Canonical) : (s.modChannel n f).Canonical := h.same rfl

theorem State.Canonical.newId (h : s.Canonical) : (s.newId).2.Canonical := h.same rfl

theorem State.Canonical.draw (h : s.Canonical) : (s.draw).2.Canonical := h.same rfl

theorem State.Canonical.drawDue (h : s.Canonical) : (s.drawDue).2.Canonical := by
  unfold State.drawDue
  dsimp only
  exact h.draw

theorem State.Canonical.emitOut {o : Output} (h : s.Canonical) : (s.emitOut o).Canonical := h.same rfl

theorem State.Canonical.addAct {c due issued : Nat} {q : SeqId} {pc : Nat} {p : Pay} (h : s.Canonical) :
    (s.addAct c due issued q pc p).Canonical := by
  unfold State.addAct
  dsimp only
  exact h.newId.modCore

/-! ### Memory -/

theorem State.Canonical.applyOn {d id : Nat} (h : s.Canonical) : (s.applyOn d id).Canonical := by
  unfold State.applyOn
  dsimp only
  split
  · exact h
  exact .modDie (h.same rfl)

theorem State.Canonical.notifyLines {bs : List (Nat × W8)} (h : s.Canonical) : (s.notifyLines bs).Canonical := h.same rfl

theorem State.Canonical.countBytes {k n : Nat} (h : s.Canonical) : (s.countBytes k n).Canonical := by
  unfold State.countBytes
  dsimp only
  exact h.modCasement

theorem State.Canonical.drawSlot {die : Nat} (h : s.Canonical) : (s.drawSlot die).Canonical := by
  unfold State.drawSlot
  exact h.modDie

theorem State.Canonical.carryKept {n : Nat} (h : s.Canonical) : (s.carryKept n).Canonical := by
  unfold State.carryKept
  dsimp only
  split
  · exact h
  split
  · exact h.modChannel
  split
  · exact h
  exact h.drawSlot.modChannel

theorem State.Canonical.carryAll (h : s.Canonical) : (s.carryAll).Canonical := by
  unfold State.carryAll
  exact .foldl (fun _ _ ht => ht.carryKept) h

/-! ### Restarts, faults and reports -/

theorem State.Canonical.report {ring : Nat} {entry : List W8} {w : RingWait} (h : s.Canonical) : (s.report ring entry w).Canonical := h.same rfl

theorem State.Canonical.reportAccess {ring addr va core kind code : Nat} {w : RingWait} (h : s.Canonical) :
    (s.reportAccess ring addr va core kind code w).Canonical := by
  unfold State.reportAccess
  dsimp only
  exact h.report

theorem State.Canonical.modEndOf {task rank ch : Nat} {f : ChanEnd → ChanEnd} (h : s.Canonical) : (s.modEndOf task rank ch f).Canonical := h.same rfl

theorem State.Canonical.modEnd {core ch : Nat} {f : ChanEnd → ChanEnd} (h : s.Canonical) : (s.modEnd core ch f).Canonical := by
  unfold State.modEnd
  split
  · exact h.modEndOf
  exact h

theorem State.Canonical.unreserve {core : Nat} {hd : HeldKind} (h : s.Canonical) : (s.unreserve core hd).Canonical := by
  unfold State.unreserve
  split
  · exact h.modEnd
  · exact h.modQueue
  exact h

theorem State.Canonical.unreserveAct {core : Nat} {a : Act} (h : s.Canonical) : (s.unreserveAct core a).Canonical := by
  unfold State.unreserveAct
  split
  · exact h.modQueue
  · exact h.modEnd
  · exact h.modEnd
  exact h

theorem State.Canonical.takeUnits {c n : Nat} (h : s.Canonical) : SomeOk (s.takeUnits c n) := by
  unfold State.takeUnits
  split
  · exact h
  split
  · exact h.modDie
  trivial

theorem State.Canonical.giveUnits {c n : Nat} (h : s.Canonical) : (s.giveUnits c n).Canonical := by
  unfold State.giveUnits
  split
  · exact h
  exact h.modDie

theorem State.Canonical.returnUnits {c : Nat} (h : s.Canonical) : (s.returnUnits c).Canonical := by
  unfold State.returnUnits
  dsimp only
  exact h.giveUnits.modCore

theorem State.Canonical.dropReqs {p : Req → Bool} (h : s.Canonical) : (s.dropReqs p).Canonical := h.same rfl

theorem State.Canonical.closeWaits {c : Nat} (h : s.Canonical) : (s.closeWaits c).Canonical := h.same rfl

theorem State.Canonical.abandon {c : Nat} (h : s.Canonical) : (s.abandon c).Canonical := by
  unfold State.abandon
  dsimp only
  refine .modCore (.closeWaits (.returnUnits (State.Canonical.same (State.Canonical.dropReqs ?_) (by dsimp only))))
  exact .foldl (fun _ _ ht => ht.unreserveAct) (.foldl (fun _ _ ht => ht.unreserve) h)

theorem State.Canonical.markHot {t : Nat} (h : s.Canonical) : (s.markHot t).Canonical := by
  unfold State.markHot
  dsimp only
  split
  · exact h
  exact h.modTask.modCasement

theorem State.Canonical.lowerStream {t : Task} (h : s.Canonical) : (s.lowerStream t).Canonical := h.same rfl

theorem State.Canonical.stopCore {c t : Nat} (h : s.Canonical) : (s.stopCore c t).Canonical := by
  unfold State.stopCore
  dsimp only
  split
  · exact h
  exact h.abandon.modCore

theorem State.Canonical.failTask {t code : Nat} (h : s.Canonical) : (s.failTask t code).Canonical := by
  unfold State.failTask
  dsimp only
  split
  · exact h
  split
  · exact h
  exact .modTask (.foldl (fun _ _ hu => hu.stopCore) h)

theorem State.Canonical.faultPolicy {t code : Nat} {atOnce : Bool} (h : s.Canonical) : (s.faultPolicy t code atOnce).1.Canonical := by
  unfold State.faultPolicy
  dsimp only
  split
  · exact h
  split
  · exact h.modTask
  refine .failTask ?_
  split
  · exact h.lowerStream
  exact h

theorem State.Canonical.machineCheck {c t pa : Nat} (h : s.Canonical) : (s.machineCheck c t pa).Canonical := by
  unfold State.machineCheck
  exact h.emitOut.faultPolicy

theorem State.Canonical.noteDoubleTrap {c code : Nat} (h : s.Canonical) : (s.noteDoubleTrap c code).Canonical := by
  unfold State.noteDoubleTrap
  exact h.modCore.emitOut

theorem State.Canonical.doubleTrapEnds {t : Task} (h : s.Canonical) : (s.doubleTrapEnds t).Canonical := by
  unfold State.doubleTrapEnds
  refine .failTask ?_
  split
  · exact h.lowerStream
  exact h

theorem State.Canonical.doubleTrap {c code : Nat} (h : s.Canonical) : (s.doubleTrap c code).Canonical := by
  unfold State.doubleTrap
  dsimp only
  split
  · exact h.noteDoubleTrap
  exact h.noteDoubleTrap.doubleTrapEnds

theorem State.Canonical.reportS2 {c va kind : Nat} {f : XFault} (h : s.Canonical) : (s.reportS2 c va kind f).Canonical := by
  unfold State.reportS2
  split
  · exact h.reportAccess
  exact h

theorem State.Canonical.markIfHot {t : Nat} {hot : Bool} (h : s.Canonical) : (s.markIfHot t hot).Canonical := by
  unfold State.markIfHot
  split
  · exact h.markHot
  exact h

theorem State.Canonical.entryHolds {c : Nat} {hot : Bool} (h : s.Canonical) : (s.entryHolds c hot).Canonical := by
  unfold State.entryHolds
  exact h.modCore.markIfHot

theorem State.Canonical.entryFault {c va kind : Nat} {f : XFault} (h : s.Canonical) : (s.entryFault c va kind f).Canonical := by
  unfold State.entryFault
  split
  · exact h.reportAccess
  · exact h.entryHolds
  exact h.reportS2.doubleTrap

theorem State.Canonical.handlerStart {c : Nat} (h : s.Canonical) : (s.handlerStart c).Canonical := by
  have hu : (s.modCore c fun k => { k with entryHot := false }).Canonical := h.modCore
  unfold State.handlerStart
  generalize (s.modCore c fun k => { k with entryHot := false }) = u at hu ⊢
  dsimp only
  have hs : SaveOk (match locate c ((u.core c).tsp - 8).toNat 8 with
      | .own _ _ => .ok u
      | .remote _ _ _ => .ok u
      | _ => (u.translatePinned c ((u.core c).tsp - 8).toNat .store).map Prod.fst) := by
    split
    · exact hu
    · exact hu
    exact hu.translatePinned.saveOk
  split
  · next t _ e =>
      have ht : t.Canonical := hs.of_error e
      exact ht.entryFault
  next t e =>
    have ht : t.Canonical := hs.of_ok e
    have hw : WalkOk (if untranslated (u.core c).tvec.toNat then .error (t, .perm) else t.translate c (u.core c).tvec.toNat .fetch) := by
      split
      · exact ht
      exact ht.translate
    split
    · next v _ e =>
        have hv : v.Canonical := hw.of_error e
        exact hv.entryFault
    next v _ _ e =>
      have hv : v.Canonical := hw.of_ok e
      split
      · next w _ e =>
          have hw : w.Canonical := hv.touch.of_check e
          exact hw.doubleTrap
      · exact hv.entryHolds
      · next w e =>
          have hw : w.Canonical := hv.touch.of_ok e
          exact hw.modCore

theorem State.Canonical.enterHandler {c : Nat} (h : s.Canonical) : (s.enterHandler c).Canonical := by
  unfold State.enterHandler
  exact h.modCore.handlerStart

theorem State.Canonical.beginSave {c kind tiles : Nat} {park : Bool} (h : s.Canonical) : (s.beginSave c kind tiles park).Canonical := by
  unfold State.beginSave
  dsimp only
  exact h.drawDue.modCore

theorem State.Canonical.park {c tiles : Nat} {f : FaultRec} (h : s.Canonical) : (s.park c tiles f).Canonical := by
  unfold State.park
  dsimp only
  split
  · exact h
  refine .modTask (.foldl (fun t _ ht => ?_) h)
  split
  · refine .beginSave ?_
    split
    · exact ht
    exact ht.abandon
  exact ht

theorem State.Canonical.countSoft {c : Nat} (h : s.Canonical) : (s.countSoft c).Canonical := by
  unfold State.countSoft
  dsimp only
  exact h.modCore.modCasement

theorem State.Canonical.repair {c : Nat} {t : Task} (h : s.Canonical) : (s.repair c t).Canonical := by
  unfold State.repair
  dsimp only
  split
  · exact h.abandon.modCore.countSoft
  exact h.abandon.modCore.countSoft.emitOut.faultPolicy

theorem State.Canonical.deliver {c : Nat} {f : FaultRec} (h : s.Canonical) : (s.deliver c f).Canonical := by
  unfold State.deliver
  dsimp only
  split
  · exact h.modCore
  split
  · split
    · exact h.doubleTrap
    split
    · exact h.modCore.abandon.machineCheck
    exact h.modCore.abandon.faultPolicy
  split
  · exact h.repair
  split
  · exact h.modCore.abandon.machineCheck
  split
  · exact h.modCore.abandon.faultPolicy
  split
  · exact h.modCore.abandon.enterHandler
  split
  · exact h.modCore.abandon.park
  exact h.modCore.abandon.faultPolicy

theorem State.Canonical.settle {c : Nat} (h : s.Canonical) : (s.settle c).Canonical := by
  unfold State.settle
  split
  · exact h
  exact h.modCore.deliver

theorem State.Canonical.settleNow {c : Nat} {f : FaultRec} (h : s.Canonical) : (s.settleNow c f).Canonical := by
  unfold State.settleNow
  exact h.modCore.settle

theorem State.Canonical.raise {c : Nat} {f : FaultRec} (h : s.Canonical) : (s.raise c f).Canonical := by
  unfold State.raise
  dsimp only
  split
  · exact h.modCore.settle
  exact h.modCore

theorem State.Canonical.returnToRestart {c : Nat} (h : s.Canonical) : (s.returnToRestart c).Canonical := by
  unfold State.returnToRestart
  dsimp only
  exact h.dropReqs.modCore

theorem State.Canonical.returnTo {c pc : Nat} (h : s.Canonical) : (s.returnTo c pc).Canonical := by
  unfold State.returnTo
  dsimp only
  exact h.modCore

/-! ### Words at their issue -/

theorem State.Canonical.held {x : Ctx} (h : s.Canonical) : (x.held s).Canonical := by
  unfold Ctx.held
  split
  · exact h.raise
  exact h.modCore

theorem State.Canonical.issued {x : Ctx} {hd : Hdr} {lat : Option Nat} {next extra : Nat} (h : s.Canonical) :
    (x.issued hd s lat next extra).Canonical := by
  unfold Ctx.issued
  dsimp only
  split
  · split
    · exact h.modCore.addAct
    exact h.modCore
  exact h.modCore

theorem State.Canonical.ctxTaken {x : Ctx} {hd : Hdr} (h : s.Canonical) : (x.taken s hd).Canonical := by
  unfold Ctx.taken
  exact h.modCore

theorem State.Canonical.issueAt {hd : Hdr} {gate : Ctx → Gate} {body : Ctx → State → Iss} (h : s.Canonical) (hb : ∀ x, (body x s).Canonical) :
    OutcomeOk (Machine.issueAt hd gate body s) := by
  unfold Machine.issueAt
  dsimp only
  split
  · trivial
  · next x _ =>
      split
      · exact h.raise
      split
      · exact h.raise
      split
      · exact h.raise
      split
      · exact h.held
      split
      · next t _ _ _ e =>
          have ht : t.Canonical := (hb x).of_ok e
          exact ht.issued
      · next t e =>
          have ht : t.Canonical := (hb x).of_hold e
          exact ht.held
      exact h.ctxTaken.raise

theorem State.Canonical.issue {hd : Hdr} {gate : Gate} {body : Ctx → State → Iss} (h : s.Canonical) (hb : ∀ x, (body x s).Canonical) :
    OutcomeOk (Machine.issue hd gate body s) := h.issueAt hb

theorem State.Canonical.go {x : Ctx} {lat : Nat} (h : s.Canonical) : (x.go s lat).Canonical := by
  unfold Ctx.go
  exact h

theorem State.Canonical.land {x : Ctx} {r : BitVec 5} {v : W64} {lat : Nat} (h : s.Canonical) : (x.land s r v lat).Canonical := by
  unfold Ctx.land
  split
  · exact h
  exact h.addAct

theorem State.Canonical.goes {x : Ctx} {tgt : Nat} (h : s.Canonical) : (x.goes s tgt).Canonical := by
  unfold Ctx.goes
  split
  · exact h.modCore
  exact h

theorem State.Canonical.jump {x : Ctx} {taken : Bool} {tgt : Nat} (h : s.Canonical) : (x.jump s taken tgt).Canonical := by
  unfold Ctx.jump
  split
  · exact h.goes
  exact h

/-! ### Loads, stores and atomics -/

theorem State.Canonical.walkDue {c va : Nat} {acc : Access} (h : s.Canonical) : (s.walkDue c va acc).2.Canonical := by
  unfold State.walkDue
  dsimp only
  split
  · exact h
  exact h.drawDue

theorem State.Canonical.putReq {r : Req} (h : s.Canonical) : (s.putReq r).Canonical := by
  unfold State.putReq
  split <;> exact h.same rfl

theorem State.Canonical.enqueue {r : Req} {pa key : Nat} (h : s.Canonical) : (s.enqueue r pa key).Canonical := by
  unfold State.enqueue
  dsimp only
  split
  · exact h.putReq.markIfHot.modChannel
  exact h.drawDue.putReq

theorem State.Canonical.engineReq {c task pc va issued : Nat} {q : SeqId} {kind : ReqKind} {pa key : Nat} {release drained : Bool} (h : s.Canonical) :
    (s.engineReq c task pc va issued q kind pa key release drained).Canonical := by
  unfold State.engineReq
  dsimp only
  exact h.newId.enqueue

theorem State.Canonical.send {x : Ctx} {hd : Hdr} {va : Nat} {kind : ReqKind} {rd : Nat} {acquire release : Bool} (h : s.Canonical) :
    (x.send s hd va kind rd acquire release).Canonical := by
  unfold Ctx.send
  dsimp only
  refine .modCore ?_
  split
  · exact h.newId.walkDue.same (by dsimp only)
  · exact h.newId.drawDue.same (by dsimp only)
  exact h.same rfl

theorem State.Canonical.loadWord {hd : Hdr} {d a : BitVec 5} {n : BitVec 6} {size : Nat} {sext aq : Bool} (h : s.Canonical) :
    OutcomeOk (loadWord hd d a n size sext aq s) := by
  unfold Machine.loadWord
  dsimp only
  refine h.issueAt fun x => ?_
  split
  · trivial
  split
  · trivial
  split
  · trivial
  · trivial
  · change State.Canonical _
    split
    · exact h.addAct.modCore
    exact h.addAct
  · split
    · trivial
    exact h.send
  exact h.send

theorem State.Canonical.startEnd {c : Nat} {e : CopyEnd} {acc : Access} (h : s.Canonical) : (s.startEnd c e acc).2.Canonical := by
  unfold State.startEnd
  dsimp only
  split
  · exact h.walkDue
  exact h

theorem State.Canonical.startCopy {c : Nat} {cp : Copy} (h : s.Canonical) : (s.startCopy c cp).2.Canonical := by
  unfold State.startCopy
  dsimp only
  exact .foldl_snd (fun _ _ hx => .foldl_snd (fun _ _ hy => hy.startEnd) (.foldl_snd (fun _ _ hy => hy.startEnd) hx)) h

theorem State.Canonical.takeEntry {c : Nat} {a : Act} {kind : HeldKind} (h : s.Canonical) : (s.takeEntry c a kind).Canonical := by
  unfold State.takeEntry
  dsimp only
  split
  · exact h.modCore
  split
  · exact h.unreserve.raise
  refine .modCore (.newId ?_)
  split
  · exact h.walkDue
  · exact h.startCopy
  exact h

theorem State.Canonical.noteBuffer {c : Nat} {q : SeqId} {d : Nat} (h : s.Canonical) : (s.noteBuffer c q d).Canonical := by
  unfold State.noteBuffer
  dsimp only
  exact h.modCore

theorem State.Canonical.stampBuffer {d c : Nat} {q : SeqId} (h : s.Canonical) : (s.stampBuffer d c q).Canonical := by
  unfold State.stampBuffer
  dsimp only
  exact h.modCore

theorem State.Canonical.storeWord {hd : Hdr} {v a : BitVec 5} {n : BitVec 6} {size : Nat} {rl : Bool} (h : s.Canonical) :
    OutcomeOk (storeWord hd v a n size rl s) := by
  unfold Machine.storeWord
  dsimp only
  refine h.issueAt fun x => ?_
  split
  · trivial
  split
  · trivial
  split
  · trivial
  · trivial
  · trivial
  · split
    · exact h
    exact h.addAct
  · split
    · trivial
    split
    · exact h.send
    exact h.addAct.go
  split
  · exact h.send
  exact h.addAct.go

theorem State.Canonical.amocWord {hd : Hdr} {a b d : BitVec 5} {z : Bool} {op : Nat} (h : s.Canonical) : OutcomeOk (amocWord hd a b d z op s) := by
  unfold Machine.amocWord
  dsimp only
  refine h.issue fun x => ?_
  split
  · split
    · trivial
    split
    · trivial
    · trivial
    · split
      · trivial
      exact h.send
    trivial
  split
  · trivial
  split
  · trivial
  · trivial
  · split
    · trivial
    exact h.send
  trivial

/-! ### The control and status registers -/

theorem State.Canonical.execCsrr {hd : Hdr} {d : BitVec 5} {c : BitVec 9} (h : s.Canonical) : OutcomeOk (execCsrr hd d c s) := by
  unfold Machine.execCsrr
  dsimp only
  refine h.issueAt fun x => ?_
  split
  · exact h.addAct.go
  exact h.land.go

theorem State.Canonical.execCsrw {hd : Hdr} {a : BitVec 5} {c : BitVec 9} (h : s.Canonical) : OutcomeOk (execCsrw hd a c s) := by
  unfold Machine.execCsrw
  refine h.issueAt fun x => ?_
  split
  · trivial
  split
  · trivial
  exact h.addAct.go

theorem State.Canonical.execMsel {hd : Hdr} {m : BitVec 5} (h : s.Canonical) : OutcomeOk (execMsel hd m s) := by
  unfold Machine.execMsel
  exact h.issue fun _ => h.addAct.go

/-! ### Ports and records -/

theorem State.Canonical.execPcfg {hd : Hdr} {g a : BitVec 5} (h : s.Canonical) : OutcomeOk (execPcfg hd g a s) := by
  unfold Machine.execPcfg
  dsimp only
  refine h.issue fun x => ?_
  split
  · trivial
  split
  · exact h
  exact h.modCore.addAct.go

theorem State.Canonical.execPrwd {hd : Hdr} {g : BitVec 5} (h : s.Canonical) : OutcomeOk (execPrwd hd g s) := by
  unfold Machine.execPrwd
  dsimp only
  refine h.issue fun x => ?_
  split
  · trivial
  split
  · exact h
  exact h.modCore.addAct.go

theorem State.Canonical.execShld {hd : Hdr} {x a : BitVec 5} (h : s.Canonical) : OutcomeOk (execShld hd x a s) := by
  unfold Machine.execShld
  dsimp only
  refine h.issueAt fun x => ?_
  split
  · trivial
  exact h.addAct.go

/-! ### Copies and arrival words -/

theorem State.Canonical.arvWord {hd : Hdr} {timed : Bool} {a b : BitVec 5} {width : Nat} {body : Ctx → State → Iss} (h : s.Canonical)
    (hb : ∀ x, (body x s).Canonical) : OutcomeOk (Machine.arvWord hd timed a b width body s) := by
  unfold Machine.arvWord
  refine h.issue fun x => ?_
  split
  · trivial
  split
  · trivial
  exact hb x

theorem State.Canonical.execArm {hd : Hdr} {a b : BitVec 5} (h : s.Canonical) : OutcomeOk (execArm hd a b s) := by
  unfold Machine.execArm
  exact h.arvWord fun _ => h.addAct.go

theorem State.Canonical.execArrv {hd : Hdr} {a b : BitVec 5} (h : s.Canonical) : OutcomeOk (execArrv hd a b s) := by
  unfold Machine.execArrv
  exact h.arvWord fun _ => h.addAct.go

theorem State.Canonical.awaitBody {a b : BitVec 5} {x : Ctx} (h : s.Canonical) : (awaitBody a b x s).Canonical := by
  unfold Machine.awaitBody
  dsimp only
  split
  · trivial
  split
  · exact h.go
  exact h

theorem State.Canonical.execAwait {hd : Hdr} {a b : BitVec 5} (h : s.Canonical) : OutcomeOk (execAwait hd a b s) := by
  unfold Machine.execAwait
  exact h.arvWord fun _ => h.awaitBody

theorem State.Canonical.execAwaitX {hd : Hdr} {a b : BitVec 5} (h : s.Canonical) : OutcomeOk (execAwaitX hd a b s) := by
  unfold Machine.execAwaitX
  exact h.arvWord fun _ => h.awaitBody

theorem State.Canonical.execCpy {hd : Hdr} {a : BitVec 5} (h : s.Canonical) : OutcomeOk (execCpy hd a s) := by
  unfold Machine.execCpy
  dsimp only
  refine h.issue fun x => ?_
  split
  · trivial
  split
  · trivial
  split
  · split
    · trivial
    exact h
  split
  · trivial
  split
  · trivial
  split
  · trivial
  split
  · exact h.modCore.newId.addAct.go
  split
  · exact h
  exact h.modCore.newId.startCopy.drawDue.modCore.go

theorem State.Canonical.takeAcks {c : Nat} {cp : Copy} (h : s.Canonical) : (s.takeAcks c cp).Canonical := by
  unfold State.takeAcks
  dsimp only
  exact h.modCore

theorem State.Canonical.readPiece {c : Nat} {cp : Copy} {b : Beat} {e : CopyEnd} {len : Nat} (h : s.Canonical) :
    (s.readPiece c cp b e len).Canonical := by
  unfold State.readPiece
  dsimp only
  split
  · exact h.modCore.drawDue.modCore
  · exact h.drawDue.modCore.engineReq
  exact h

theorem State.Canonical.writeBeat {c : Nat} {cp : Copy} {b : Beat} (h : s.Canonical) : (s.writeBeat c cp b).Canonical := by
  unfold State.writeBeat
  dsimp only
  split
  · exact h.drawDue.modCore.engineReq
  refine .modCore (.foldl (fun t _ ht => ?_) h.drawDue)
  split
  · split
    · exact ht.modCore.modCore
    exact ht.modCore
  exact ht

theorem State.Canonical.copyServed {c id : Nat} {f : Copy → Copy} (h : s.Canonical) : (s.copyServed c id f).Canonical := by
  unfold State.copyServed
  split
  · exact h.modCore
  exact h

theorem State.Canonical.execCopyBeat {core id : Nat} (h : s.Canonical) : OutcomeOk (execCopyBeat core id s) := by
  unfold Machine.execCopyBeat
  dsimp only
  split
  · trivial
  split
  · trivial
  split
  · exact h.takeAcks
  split
  · exact h.draw
  split
  · change State.Canonical _
    split
    · exact h.draw.modCore.machineCheck
    exact h.draw.modCore.raise
  split
  · exact h.draw.readPiece
  exact h.draw.writeBeat

/-! ### Channels, chunks, mirrors and submissions -/

theorem State.Canonical.execXgrant {hd : Hdr} {a b : BitVec 5} {k : BitVec 2} (h : s.Canonical) : OutcomeOk (execXgrant hd a b k s) := by
  unfold Machine.execXgrant
  dsimp only
  refine h.issue fun x => ?_
  split
  · trivial
  exact h.modEnd.addAct.go

theorem State.Canonical.execXsend {hd : Hdr} {a b : BitVec 5} {k : BitVec 2} (h : s.Canonical) : OutcomeOk (execXsend hd a b k s) := by
  unfold Machine.execXsend
  dsimp only
  refine h.issue fun x => ?_
  split
  · trivial
  split
  · trivial
  split
  · exact h.modEnd.addAct.go
  split
  · exact h
  trivial

theorem State.Canonical.execXstat {hd : Hdr} {a d : BitVec 5} (h : s.Canonical) : OutcomeOk (execXstat hd a d s) := by
  unfold Machine.execXstat
  dsimp only
  refine h.issue fun x => ?_
  split
  · trivial
  split
  · trivial
  exact h.land.go

theorem State.Canonical.actRead {c : Nat} {a : Act} {isA : Bool} {off n : Nat} (h : s.Canonical) : ReadOk (s.actRead c a isA off n) := by
  unfold State.actRead
  dsimp only
  split
  · change State.Canonical _
    split
    · exact h.setCore.raise
    exact h.setCore
  exact h.setCore

theorem State.Canonical.grantRead {c : Nat} {a : Act} {ch slot sb : Nat} (h : s.Canonical) : (s.grantRead c a ch slot sb).Canonical := by
  unfold State.grantRead
  dsimp only
  split
  · next e => exact h.actRead.of_error e
  · next t _ e =>
      have ht : t.Canonical := h.actRead.of_ok e
      split
      · exact ht.modCore.modEnd.raise
      split
      · exact ht.modCore
      exact .modEnd (ht.same rfl)

theorem State.Canonical.sendRead {c : Nat} {a : Act} {ch slot sb : Nat} (h : s.Canonical) : (s.sendRead c a ch slot sb).Canonical := by
  unfold State.sendRead
  dsimp only
  split
  · next e => exact h.actRead.of_error e
  · next t _ e =>
      have ht : t.Canonical := h.actRead.of_ok e
      split
      · exact ht.modCore.unreserve.raise
      split
      · exact ht.modCore.unreserve.raise
      exact ht.modCore.takeEntry

theorem State.Canonical.execGrantArrival {id : Nat} (h : s.Canonical) : OutcomeOk (execGrantArrival id s) := by
  unfold Machine.execGrantArrival
  split
  · trivial
  split
  · trivial
  exact .modEndOf (h.same rfl)

theorem State.Canonical.readGroups (h : s.Canonical) : (s.readGroups).Canonical := by
  unfold State.readGroups
  dsimp only
  refine .foldl (fun t _ ht => ?_) h
  split
  · exact ht
  split
  · exact .modCore (ht.same rfl)
  exact ht.same rfl

theorem State.Canonical.pushSend {c : Nat} {hd : Held} {ch slot off bytes : Nat} (h : s.Canonical) :
    (s.pushSend c hd ch slot off bytes).Canonical := by
  unfold State.pushSend
  dsimp only
  split
  · exact h.modCore
  exact .readGroups (.modCore (.modEndOf (h.same rfl)))

theorem State.Canonical.execTransomGroupLands {id : Nat} (h : s.Canonical) : OutcomeOk (execTransomGroupLands id s) := by
  unfold Machine.execTransomGroupLands
  dsimp only
  split
  · trivial
  split
  · trivial
  split
  · trivial
  split
  · change State.Canonical _
    split
    · exact .modEndOf (h.same rfl)
    exact h.same rfl
  split
  · split
    · exact .modEndOf (h.same rfl)
    exact .modCore (.modEndOf (h.same rfl))
  split
  · exact h.same rfl
  exact .modCore (h.same rfl)

theorem State.Canonical.execEmit {hd : Hdr} {a b : BitVec 5} (h : s.Canonical) : OutcomeOk (execEmit hd a b s) := by
  unfold Machine.execEmit
  dsimp only
  refine h.issue fun x => ?_
  split
  · trivial
  split
  · trivial
  exact h.addAct.go

theorem State.Canonical.emitRead {c : Nat} {a : Act} {session sb : Nat} (h : s.Canonical) : (s.emitRead c a session sb).Canonical := by
  unfold State.emitRead
  dsimp only
  split
  · next e => exact h.actRead.of_error e
  · next t _ e =>
      have ht : t.Canonical := h.actRead.of_ok e
      split
      · exact ht.modCore.raise
      exact ht.modCore.takeEntry

theorem State.Canonical.execMirr {hd : Hdr} {a b : BitVec 5} (h : s.Canonical) : OutcomeOk (execMirr hd a b s) := by
  unfold Machine.execMirr
  dsimp only
  refine h.issue fun x => ?_
  split
  · trivial
  split
  · trivial
  split
  · split
    · trivial
    exact h.modCore.addAct.go
  split
  · trivial
  exact h.modCore.addAct.go

theorem State.Canonical.execTsub {hd : Hdr} {a b : BitVec 5} (h : s.Canonical) : OutcomeOk (execTsub hd a b s) := by
  unfold Machine.execTsub
  dsimp only
  refine h.issue fun x => ?_
  split
  · trivial
  split
  · trivial
  split
  · trivial
  split
  · exact h
  exact h.modQueue.addAct.go

theorem State.Canonical.recordRead {c : Nat} {a : Act} {q sb : Nat} (h : s.Canonical) : (s.recordRead c a q sb).Canonical := by
  unfold State.recordRead
  dsimp only
  split
  · next e => exact h.actRead.of_error e
  · next t _ e =>
      have ht : t.Canonical := h.actRead.of_ok e
      split
      · exact ht.modCore.takeEntry.addAct
      exact ht.modCore.takeEntry

theorem State.Canonical.recordRest {c : Nat} {a : Act} {entry sb : Nat} (h : s.Canonical) : (s.recordRest c a entry sb).Canonical := by
  unfold State.recordRest
  dsimp only
  split
  · next e => exact h.actRead.of_error e
  · next t _ e =>
      have ht : t.Canonical := h.actRead.of_ok e
      exact ht.modCore

theorem State.Canonical.execQctl {hd : Hdr} {a b : BitVec 5} (h : s.Canonical) : OutcomeOk (execQctl hd a b s) := by
  unfold Machine.execQctl
  dsimp only
  refine h.issue fun x => ?_
  split
  · trivial
  split
  · trivial
  exact h.addAct.go

/-! ### Held effects -/

theorem State.Canonical.drainStore {c : Nat} {hd : Held} {va : Nat} {bytes : List Host.Cell} {pa key : Nat} (h : s.Canonical) :
    (s.drainStore c hd va bytes pa key).Canonical := by
  unfold State.drainStore
  dsimp only
  split
  · exact h.modCore.machineCheck
  split
  · exact h.modCore.engineReq
  exact h.modCore.performStoreOf

theorem State.Canonical.drainRemote {c : Nat} {hd : Held} {d : Nat} {isA : Bool} {bytes : List Host.Cell} (h : s.Canonical) :
    (s.drainRemote c hd d isA bytes).Canonical := by
  unfold State.drainRemote
  dsimp only
  exact h.modCore.stampBuffer.modCore

theorem State.Canonical.drainSpill {c : Nat} {hd : Held} {va : Nat} {bytes : List W8} {xl : List XlState} (h : s.Canonical) :
    (s.drainSpill c hd va bytes xl).Canonical := by
  unfold State.drainSpill
  dsimp only
  split
  · exact h.modCore.machineCheck
  refine .foldl (fun t _ ht => ?_) h.modCore
  split
  · split
    · exact ht.engineReq
    exact ht.performStoreOf
  exact ht

theorem State.Canonical.sendEmit {c : Nat} {hd : Held} {session : Nat} {header payload : List W8} (h : s.Canonical) :
    (s.sendEmit c hd session header payload).Canonical := by
  unfold State.sendEmit
  dsimp only
  exact .modCore (h.same rfl)

theorem State.Canonical.drainEmit {c : Nat} {hd : Held} {session : Nat} {header : List W8} {payload : Nat} {got : List W8} (h : s.Canonical) :
    (s.drainEmit c hd session header payload got).Canonical := by
  unfold State.drainEmit
  dsimp only
  split
  · exact h.modCore.sendEmit
  exact h.modCore.drawDue.modCore

theorem State.Canonical.noteMirr {task rank seq : Nat} (h : s.Canonical) : (s.noteMirr task rank seq).Canonical := by
  unfold State.noteMirr
  dsimp only
  split
  · exact h.modTask.modCore
  exact h.modTask

theorem State.Canonical.drainMirror {c : Nat} {hd : Held} {area seq : Nat} {img : Cells} (h : s.Canonical) :
    (s.drainMirror c hd area seq img).Canonical := by
  unfold State.drainMirror
  dsimp only
  split
  · exact h.modCore
  exact .noteMirr (h.same rfl)

theorem State.Canonical.submitFails {c : Nat} {hd : Held} {addr : Nat} (h : s.Canonical) : (s.submitFails c hd addr).Canonical := by
  unfold State.submitFails
  exact h.unreserve.modCore.machineCheck

theorem State.Canonical.drainSubmit {c : Nat} {hd : Held} {q : Nat} {record : List W8} (h : s.Canonical) :
    (s.drainSubmit c hd q record).Canonical := by
  unfold State.drainSubmit
  dsimp only
  split
  · next t _ e =>
      have ht : t.Canonical := h.translateFor.of_error e
      exact ht.modCore.markIfHot
  · next t _ _ e =>
      have ht : t.Canonical := h.translateFor.of_error e
      split
      · exact ht.reportAccess.submitFails
      exact ht.modCore.reportAccess
  · next t _ e =>
      have ht : t.Canonical := h.translateFor.of_error e
      exact ht.submitFails
  · next t _ _ _ _ e3 =>
      have ht : t.Canonical := h.translateFor.of_error e3
      exact ht.submitFails
  · next t _ e =>
      have ht : t.Canonical := h.translateFor.of_ok e
      split
      · exact ht.reportS2.submitFails
      split
      · exact ht.modCore.markIfHot
      · next u _ e2 =>
          have hu : u.Canonical := ht.touch.of_check e2
          exact hu.submitFails
      · next u e2 =>
          have hu : u.Canonical := ht.touch.of_ok e2
          exact hu.performStoreOf.modQueue.modCore

theorem State.Canonical.drainCopy {c : Nat} {hd : Held} {cp : Copy} (h : s.Canonical) : (s.drainCopy c hd cp).Canonical := by
  unfold State.drainCopy
  dsimp only
  exact h.drawDue.modCore

theorem State.Canonical.drain {c : Nat} {hd : Held} (h : s.Canonical) : (s.drain c hd).Canonical := by
  unfold State.drain
  split
  · exact h.drainStore
  · exact h
  · exact h.drainRemote
  · exact h.drainCopy
  · exact h.pushSend
  · exact h.drainEmit
  · exact h.drainMirror
  · exact h.drainSubmit
  exact h.drainSpill

theorem State.Canonical.execHeldEffectDrain {core id : Nat} (h : s.Canonical) : OutcomeOk (execHeldEffectDrain core id s) := by
  unfold Machine.execHeldEffectDrain
  split
  · trivial
  split
  · exact h.drain
  trivial

theorem State.Canonical.execMirrorAreaComplete {core area : Nat} (h : s.Canonical) : OutcomeOk (execMirrorAreaComplete core area s) := by
  unfold Machine.execMirrorAreaComplete
  split
  · trivial
  exact h.same rfl

/-! ### The matrix engine -/

theorem State.Canonical.execMma {hd : Hdr} {c a b : BitVec 5} {z f r : Bool} (h : s.Canonical) : OutcomeOk (execMma hd c a b z f r s) := by
  unfold Machine.execMma
  dsimp only
  refine h.issue fun x => ?_
  split
  · exact h
  split
  · trivial
  exact h.modCore.go

theorem State.Canonical.startMatrix {c : Nat} (h : s.Canonical) : SomeOk (s.startMatrix c) := by
  unfold State.startMatrix
  dsimp only
  split
  · trivial
  split
  · trivial
  exact h.takeUnits.map fun _ ht => ht.modCore

theorem State.Canonical.execMmaStep {core : Nat} (h : s.Canonical) : OutcomeOk (execMmaStep core s) := by
  unfold Machine.execMmaStep
  dsimp only
  split
  · trivial
  split
  · trivial
  split
  · split
    · exact h.setCore.raise
    exact h.setCore
  exact h.setCore

theorem State.Canonical.execMmaComplete {core : Nat} (h : s.Canonical) : OutcomeOk (execMmaComplete core s) := by
  unfold Machine.execMmaComplete
  split
  · split
    · split
      · trivial
      exact h.giveUnits.modCore
    trivial
  trivial

/-! ### The lookup engine -/

theorem State.Canonical.pushLookup {x : Ctx} {kind : LookupKind} (h : s.Canonical) : (x.pushLookup s kind).Canonical := by
  unfold Ctx.pushLookup
  dsimp only
  exact h.newId.modCore.go

theorem State.Canonical.execLmma {hd : Hdr} {c q w : BitVec 5} {z f : Bool} (h : s.Canonical) : OutcomeOk (execLmma hd c q w z f s) := by
  unfold Machine.execLmma
  dsimp only
  refine h.issue fun x => ?_
  split
  · exact h
  split
  · trivial
  exact h.pushLookup

theorem State.Canonical.execLmmaLookup {core : Nat} (h : s.Canonical) : OutcomeOk (execLmmaLookup core s) := by
  unfold Machine.execLmmaLookup
  dsimp only
  split
  · trivial
  split
  · split
    · trivial
    split
    · exact h.setCore.raise
    split
    · split
      · exact h.setCore.raise
      exact h.setCore
    split
    · exact h.setCore.raise
    exact h.setCore
  trivial

theorem State.Canonical.execLmmaComplete {core : Nat} (h : s.Canonical) : OutcomeOk (execLmmaComplete core s) := by
  unfold Machine.execLmmaComplete
  dsimp only
  split
  · split
    · exact h.giveUnits.modCore
    trivial
  trivial

theorem State.Canonical.tbuildWord {hd : Hdr} {mode : Nat} {q a : BitVec 5} (h : s.Canonical) : OutcomeOk (tbuildWord hd mode q a s) := by
  unfold Machine.tbuildWord
  dsimp only
  refine h.issue fun x => ?_
  split
  · exact h
  split
  · trivial
  exact h.pushLookup

theorem State.Canonical.tbuildRow {c : Nat} {a : Act} {i : Nat} (h : s.Canonical) : (s.tbuildRow c a i).Canonical := by
  unfold State.tbuildRow
  dsimp only
  split
  · exact h.setCore
  split
  · split
    · split
      · exact h.setCore.raise
      exact h.setCore
    split
    · exact h.setCore
    exact h.setCore.addAct
  exact h.setCore

theorem State.Canonical.execTbuildComplete {core : Nat} (h : s.Canonical) : OutcomeOk (execTbuildComplete core s) := by
  unfold Machine.execTbuildComplete
  dsimp only
  split
  · split
    · exact h.giveUnits.modCore
    trivial
  trivial

theorem State.Canonical.execTinv {hd : Hdr} {q : BitVec 5} (h : s.Canonical) : OutcomeOk (execTinv hd q s) := by
  unfold Machine.execTinv
  refine h.issue fun x => ?_
  split
  · exact h
  exact h.pushLookup

theorem State.Canonical.execTinvComplete {core : Nat} (h : s.Canonical) : OutcomeOk (execTinvComplete core s) := by
  unfold Machine.execTinvComplete
  dsimp only
  split
  · split
    · exact h.setCore
    trivial
  trivial

theorem State.Canonical.spillWord {hd : Hdr} {fill : Bool} {q a : BitVec 5} (h : s.Canonical) : OutcomeOk (spillWord hd fill q a s) := by
  unfold Machine.spillWord
  dsimp only
  refine h.issueAt fun x => ?_
  split
  · exact h
  split
  · trivial
  exact h.pushLookup

/-- The conflict is named first: the kernel does not evaluate the banks of the beat's address, of which only the start of a table's area is a number. -/
theorem State.Canonical.spillBeat {c : Nat} {a : Act} {i : Nat} (h : s.Canonical) : (s.spillBeat c a i).Canonical := by
  obtain ⟨conflict, hc⟩ : ∃ f, (s.core c).bankConflict s.now true = f := ⟨_, rfl⟩
  unfold State.spillBeat
  extract_lets k late
  rw [show k.bankConflict s.now true = conflict from hc]
  dsimp only
  split
  · exact h.setCore
  split
  · split
    · split
      · exact h.setCore.raise
      exact h.setCore
    split
    · exact h.setCore
    exact h.setCore.addAct
  exact h.setCore

theorem State.Canonical.fillBeat {c : Nat} {a : Act} {i : Nat} (h : s.Canonical) : (s.fillBeat c a i).Canonical := by
  obtain ⟨conflict, hc⟩ : ∃ f, (s.core c).bankConflict s.now true = f := ⟨_, rfl⟩
  unfold State.fillBeat
  extract_lets k late
  rw [show k.bankConflict s.now true = conflict from hc]
  dsimp only
  split
  · exact h.setCore
  split
  · split
    · split
      · exact h.setCore.raise
      exact h.setCore
    split
    · exact h.setCore.raise
    split
    · exact h.setCore
    exact h.setCore.addAct
  exact h.setCore

theorem State.Canonical.execTspillComplete {core : Nat} (h : s.Canonical) : OutcomeOk (execTspillComplete core s) := by
  unfold Machine.execTspillComplete
  dsimp only
  split
  · split
    · exact h.setCore
    trivial
  trivial

theorem State.Canonical.fillLine {c id off : Nat} {bytes : List W8} (h : s.Canonical) : (s.fillLine c id off bytes).Canonical := by
  unfold State.fillLine
  dsimp only
  split
  · exact h
  exact h.drawDue.modCore

theorem State.Canonical.execTfillComplete {core : Nat} (h : s.Canonical) : OutcomeOk (execTfillComplete core s) := by
  unfold Machine.execTfillComplete
  dsimp only
  split
  · split
    · split
      · split
        · exact h.setCore.raise
        exact h.setCore
      split
      · exact h.setCore.raise
      exact h.setCore
    trivial
  trivial

theorem State.Canonical.startPages {c va n : Nat} {acc : Access} (h : s.Canonical) : (s.startPages c va n acc).2.Canonical := by
  unfold State.startPages
  dsimp only
  exact .foldl_snd (fun _ _ hx => hx.walkDue) h

theorem State.Canonical.startLmma {c : Nat} {m : LookupCmd} {z : Bool} {q w : Nat} {rc rw : BitVec 512} (h : s.Canonical) :
    (s.startLmma c m z q w rc rw).Canonical := by
  unfold State.startLmma
  dsimp only
  split
  · exact h.raise
  split
  · exact h.setCore
  exact h

theorem State.Canonical.startTbuild {c : Nat} {m : LookupCmd} {q : Nat} {r : BitVec 512} (h : s.Canonical) : (s.startTbuild c m q r).Canonical := by
  unfold State.startTbuild
  dsimp only
  exact h.modCore.addAct

theorem State.Canonical.startSpill {c : Nat} {m : LookupCmd} {q sa : Nat} (h : s.Canonical) : (s.startSpill c m q sa).Canonical := by
  unfold State.startSpill
  extract_lets k t bytes
  split
  · exact h.setCore.addAct
  split
  next u e =>
    have hu : u.Canonical := h.startPages.of_snd e
    exact hu.modCore.takeEntry

theorem State.Canonical.startFill {c : Nat} {m : LookupCmd} {sa : Nat} (h : s.Canonical) : (s.startFill c m sa).Canonical := by
  unfold State.startFill
  split
  · exact h.addAct
  split
  next u e =>
    have hu : u.Canonical := h.startPages.of_snd e
    exact hu.modCore

theorem State.Canonical.startLookup {c : Nat} (h : s.Canonical) : SomeOk (s.startLookup c) := by
  unfold State.startLookup
  dsimp only
  split
  · trivial
  split
  · trivial
  refine h.takeUnits.map fun t ht => ?_
  split
  · exact ht.modCore.startLmma
  · exact ht.modCore.startTbuild
  · exact ht.modCore.modCore
  · exact ht.modCore.startSpill
  · exact ht.modCore.startFill

theorem State.Canonical.execCbld {hd : Hdr} {a : BitVec 5} (h : s.Canonical) : OutcomeOk (execCbld hd a s) := by
  unfold Machine.execCbld
  dsimp only
  refine h.issue fun x => ?_
  split
  · trivial
  split
  · trivial
  exact h.addAct.go

/-! ### Walks, requests and fetches -/

theorem State.Canonical.walkNow {c va : Nat} {acc : Access} {kind : Nat} {amoc : Option Nat} (h : s.Canonical) :
    (s.walkNow c va acc kind amoc).Canonical := by
  unfold State.walkNow
  dsimp only
  split
  · exact h
  split
  · next e1 => exact h.translate.of_error e1
  · next t _ _ e1 =>
      have ht : t.Canonical := h.translate.of_error e1
      exact ht.reportS2
  · next e1 => exact h.translate.of_error e1
  · next t _ _ e1 =>
      have ht : t.Canonical := h.translate.of_error e1
      split <;> exact ht
  · next e1 => exact h.translate.of_error e1
  · next e1 => exact h.translate.of_error e1
  · next t _ _ e1 =>
      have ht : t.Canonical := h.translate.of_ok e1
      split <;> split <;> exact ht

theorem State.Canonical.lateFault {c task : Nat} {committed : Bool} {f : FaultRec} (h : s.Canonical) :
    (s.lateFault c task committed f).Canonical := by
  unfold State.lateFault
  split
  · exact h.machineCheck
  exact h.raise

theorem State.Canonical.memoryFails {c task : Nat} {committed : Bool} {q : SeqId} {issued pc kind pa : Nat} (h : s.Canonical) :
    (s.memoryFails c task committed q issued pc kind pa).Canonical := by
  unfold State.memoryFails
  split
  · exact h.raise
  split
  · exact h.emitOut
  exact h.machineCheck

theorem State.Canonical.walkReq {r : Req} (h : s.Canonical) : (s.walkReq r).Canonical := by
  unfold State.walkReq
  dsimp only
  split
  · next t _ _ e =>
      have ht : t.Canonical := h.walkNow.of_fault e
      exact .lateFault (ht.same rfl)
  · next t _ _ e =>
      have ht : t.Canonical := h.walkNow.of_stall e
      exact .reportAccess (ht.same rfl)
  · next t _ e =>
      have ht : t.Canonical := h.walkNow.of_wait e
      exact .markIfHot (ht.same rfl)
  · next t _ e =>
      have ht : t.Canonical := h.walkNow.of_check e
      exact .memoryFails (ht.same rfl)
  · next t _ _ e =>
      have ht : t.Canonical := h.walkNow.of_ok e
      split
      · exact ht.enqueue
      exact ht.same rfl

theorem State.Canonical.walkKept {c task va : Nat} {acc : Access} {kind : Nat} {w : RingWait} (h : s.Canonical) :
    (s.walkKept c task va acc kind w).s.Canonical := by
  unfold State.walkKept
  split
  · next e => exact h.walkNow.of_ok e
  · next e => exact h.walkNow.of_fault e
  · next t _ _ e =>
      have ht : t.Canonical := h.walkNow.of_stall e
      exact ht.reportAccess
  · next t _ e =>
      have ht : t.Canonical := h.walkNow.of_wait e
      exact ht.markIfHot
  · next e => exact h.walkNow.of_check e

theorem State.Canonical.walkCopy {c : Nat} {cp : Copy} {w : RingWait} (h : s.Canonical) : (s.walkCopy c cp w).1.Canonical := by
  unfold State.walkCopy
  dsimp only
  split
  · exact h
  exact h.walkKept

theorem State.Canonical.walkHeld {c : Nat} {hd : Held} (h : s.Canonical) : (s.walkHeld c hd).Canonical := by
  unfold State.walkHeld
  dsimp only
  split
  · split
    · exact h.walkKept.modCore
    split <;> exact h.walkKept.modCore.lateFault
  · split
    · exact h.walkCopy.modCore
    split <;> exact h.walkCopy.modCore.lateFault
  · split
    · exact h.walkKept.modCore
    split <;> exact h.walkKept.modCore.lateFault
  exact h

theorem State.Canonical.walkFill {c : Nat} {m : LookupCmd} {sa : Nat} (h : s.Canonical) : (s.walkFill c m sa).Canonical := by
  unfold State.walkFill
  dsimp only
  split
  · exact h.walkKept.modCore
  exact h.walkKept.modCore.raise

theorem State.Canonical.askFill {c : Nat} {m : LookupCmd} {sa : Nat} (h : s.Canonical) : (s.askFill c m sa).Canonical := by
  unfold State.askFill
  dsimp only
  split
  · split
    · exact h.raise
    split
    · exact h
    exact h.modCore.engineReq
  exact h

theorem State.Canonical.execTranslationWalk {id : Nat} (h : s.Canonical) : OutcomeOk (execTranslationWalk id s) := by
  unfold Machine.execTranslationWalk
  dsimp only
  split
  · trivial
  · exact h.walkReq
  · exact h.walkHeld
  · exact h.walkFill
  split
  · exact h.walkCopy.modCore
  split
  · exact h.walkCopy.modCore.modCore.lateFault
  exact h.walkCopy.modCore.lateFault

theorem State.Canonical.setReq {r : Req} (h : s.Canonical) : (s.setReq r).Canonical := h.same rfl

theorem State.Canonical.dropReq {id : Nat} (h : s.Canonical) : (s.dropReq id).Canonical := by
  unfold State.dropReq
  exact h.dropReqs

theorem State.Canonical.noteRead {c : Nat} {q : SeqId} {die : Option Nat} {addrs : List Nat} (h : s.Canonical) :
    (s.noteRead c q die addrs).Canonical := by
  unfold State.noteRead
  dsimp only
  exact h.modCore

theorem State.Canonical.landDue {core pa : Nat} (h : s.Canonical) : (s.landDue core pa).2.Canonical := by
  unfold State.landDue
  dsimp only
  split
  · exact h.drawDue
  exact h.draw

theorem State.Canonical.countRead {pa key n : Nat} (h : s.Canonical) : (s.countRead pa key n).Canonical := by
  unfold State.countRead
  split
  · exact h.countBytes
  exact h

theorem State.Canonical.holdAmoc {r : Req} {pa key : Nat} (h : s.Canonical) : (s.holdAmoc r pa key).Canonical := by
  unfold State.holdAmoc
  dsimp only
  exact .setReq (h.same rfl)

theorem State.Canonical.serveMem {r : Req} {pa key : Nat} (h : s.Canonical) : (s.serveMem r pa key).Canonical := by
  unfold State.serveMem
  dsimp only
  split
  · refine .setReq (.landDue (.countRead ?_))
    split
    · exact h
    exact h.noteRead
  · exact h.dropReq.performStoreOf
  · split
    · exact h.holdAmoc
    refine .setReq (.landDue (.performStoreOf (.countRead ?_)))
    split
    · exact h
    exact h.noteRead
  · exact h.dropReq.countRead.copyServed
  · exact h.dropReq.performStoreOf.copyServed
  · exact h.dropReq.countRead.fillLine
  exact h.dropReq

theorem State.Canonical.serveRemote {r : Req} {d : Nat} {isA : Bool} {off : Nat} (h : s.Canonical) : (s.serveRemote r d isA off).Canonical := by
  unfold State.serveRemote
  dsimp only
  split
  · exact h.setReq
  split
  · exact h.modCore.dropReq.stampBuffer.modCore
  · refine .setReq (.drawDue ?_)
    split
    · exact h.modCore
    exact h.modCore.noteBuffer
  exact h.modCore

theorem State.Canonical.serveNear {r : Req} (h : s.Canonical) : (s.serveNear r).Canonical := by
  unfold State.serveNear
  dsimp only
  split
  · split
    · exact h
    split
    · exact h.serveRemote
    split
    · split
      · exact h.drawDue.setReq
      exact h.dropReq
    exact h.serveMem
  exact h

theorem State.Canonical.serveHit {r : Req} (h : s.Canonical) : (s.serveHit r).Canonical := by
  unfold State.serveHit
  dsimp only
  split
  · split
    · exact h
    refine .serveMem ?_
    split
    · exact h.modChannel.fillBuffer
    exact h.modChannel
  exact h

theorem State.Canonical.serveStore {id : Nat} (h : s.Canonical) : SomeOk (s.serveStore id) := by
  unfold State.serveStore
  split
  · split
    · exact h.serveNear
    trivial
  trivial

theorem State.Canonical.serveAllNear (h : s.Canonical) : (s.serveAllNear).Canonical := by
  unfold State.serveAllNear
  refine .foldl (fun t _ ht => ?_) h
  split
  · split
    · exact ht
    exact ht.serveNear.serveHit
  exact ht

theorem State.Canonical.landReq {r : Req} {v : W64} (h : s.Canonical) : (s.landReq r v).Canonical := by
  unfold State.landReq
  dsimp only
  split
  · exact h.dropReq
  exact h.dropReq.modCore

theorem State.Canonical.execLoadValueLands {id : Nat} (h : s.Canonical) : OutcomeOk (execLoadValueLands id s) := by
  unfold Machine.execLoadValueLands
  split
  · trivial
  exact h.landReq

theorem State.Canonical.execAmocOldValueLands {id : Nat} (h : s.Canonical) : OutcomeOk (execAmocOldValueLands id s) := by
  unfold Machine.execAmocOldValueLands
  split
  · trivial
  exact h.landReq

theorem State.Canonical.execRemoteStoreApply {die id : Nat} (h : s.Canonical) : OutcomeOk (execRemoteStoreApply die id s) := by
  unfold Machine.execRemoteStoreApply
  dsimp only
  split
  · trivial
  split
  · trivial
  exact h.applyOn.foldStores

theorem State.Canonical.setFetched {c : Nat} {q : SeqId} {f : Machine.Fetched} (h : s.Canonical) : (s.setFetched c q f).Canonical := by
  unfold State.setFetched
  exact h.modCore

theorem State.Canonical.modFetch {c : Nat} {q : SeqId} {addr : Nat} {f : FetchReq → FetchReq} (h : s.Canonical) :
    (s.modFetch c q addr f).Canonical := by
  unfold State.modFetch
  exact h.modCore

theorem State.Canonical.endFetch {core : Nat} {q : SeqId} {addr : Nat} (h : s.Canonical) : (s.endFetch core q addr).Canonical := by
  unfold State.endFetch
  dsimp only
  split
  · exact h.setFetched
  split
  · exact h.setFetched
  split
  · next t _ _ e2 =>
      have ht : t.Canonical := h.walkNow.of_fault e2
      exact ht.setFetched
  · next t _ e2 =>
      have ht : t.Canonical := h.walkNow.of_check e2
      exact ht.setFetched
  · next t _ e2 =>
      have ht : t.Canonical := h.walkNow.of_wait e2
      exact ht.modFetch.markIfHot
  · next t _ _ e2 =>
      have ht : t.Canonical := h.walkNow.of_stall e2
      split
      · exact ht.setFetched
      exact ht.modFetch.reportAccess
  · next t _ _ e2 =>
      have ht : t.Canonical := h.walkNow.of_ok e2
      split
      · next u _ e3 =>
          have hu : u.Canonical := ht.touch.of_check e3
          exact hu.setFetched
      · exact ht.modFetch.markIfHot
      · next u e3 =>
          have hu : u.Canonical := ht.touch.of_ok e3
          exact hu.setFetched

theorem State.Canonical.execInstructionFetchComplete {core : Nat} {q : SeqId} {addr : Nat} (h : s.Canonical) :
    OutcomeOk (execInstructionFetchComplete core q addr s) := by
  unfold Machine.execInstructionFetchComplete
  split
  · trivial
  split
  · trivial
  exact h.endFetch

theorem State.Canonical.fetchAssured {core : Nat} {q : SeqId} (h : s.Canonical) : (s.fetchAssured core q).Canonical := by
  unfold State.fetchAssured
  dsimp only
  refine .foldl (fun t _ ht => ?_) h
  split
  · exact ht
  split
  · exact ht.endFetch
  exact ht

/-! ### Saves -/

theorem State.Canonical.writeBlock {c va : Nat} {img : Cells} {l : List Nat} {s : State} (h : s.Canonical) : SaveOk (s.writeBlock c va img l) := by
  induction l generalizing s with
  | nil => exact h
  | cons i l ih =>
    unfold State.writeBlock
    dsimp only
    split
    · exact h
    split
    · next t _ e => exact (h.translate.of_error e : t.Canonical)
    · next t _ e => exact (h.translate.of_error e : t.Canonical)
    · next t _ _ _ e => exact (h.translate.of_error e : t.Canonical)
    · next t _ _ e =>
        have ht : t.Canonical := h.translate.of_ok e
        split
        · exact ht
        · next u _ e => exact (ht.touch.of_check e : u.Canonical)
        · next u e =>
            have hu : u.Canonical := ht.touch.of_ok e
            exact ih hu.storeBytes

theorem State.Canonical.trySave {c : Nat} (h : s.Canonical) : SaveOk (s.trySave c) := by
  unfold State.trySave
  dsimp only
  split
  · exact h
  exact h.writeBlock

theorem State.Canonical.markSaves (h : s.Canonical) : (s.markSaves).Canonical := by
  unfold State.markSaves
  dsimp only
  refine .foldl (fun t _ ht => ?_) h
  split
  · split
    · exact ht.markHot
    exact ht
  exact ht

theorem State.Canonical.parkReport {t : Nat} (h : s.Canonical) : (s.parkReport t).Canonical := by
  unfold State.parkReport
  dsimp only
  split
  · exact h
  split
  · exact h
  split
  · exact h
  split
  · exact h
  exact h.modTask.report

theorem State.Canonical.execSaveComplete {core : Nat} (h : s.Canonical) : OutcomeOk (execSaveComplete core s) := by
  unfold Machine.execSaveComplete
  dsimp only
  split
  · trivial
  split
  · trivial
  split
  · next t _ e2 =>
      have ht : t.Canonical := h.trySave.of_error e2
      exact ht.machineCheck
  · trivial
  · next t e2 =>
      have ht : t.Canonical := h.trySave.of_ok e2
      exact ht.modTask.modCore.parkReport

theorem State.Canonical.cancelSave {c : Nat} (h : s.Canonical) : (s.cancelSave c).Canonical := by
  unfold State.cancelSave
  exact h.modCore

theorem State.Canonical.saveAreaError {k : Nat} (h : s.Canonical) : (s.saveAreaError k).Canonical := h.same rfl

theorem State.Canonical.execSaveFault {core : Nat} (h : s.Canonical) : OutcomeOk (execSaveFault core s) := by
  unfold Machine.execSaveFault
  dsimp only
  split
  · trivial
  split
  · trivial
  split
  · next t _ _ e2 =>
      have ht : t.Canonical := h.trySave.of_error e2
      split
      · change State.Canonical _
        refine .faultPolicy (.modTask ?_)
        split
        · refine .saveAreaError (.foldl (fun u _ hu => ?_) ht.report)
          split
          · exact hu
          split
          · exact hu.cancelSave
          exact hu.modCore
        refine .foldl (fun u _ hu => ?_) ht.report
        split
        · exact hu
        split
        · exact hu.cancelSave
        exact hu.modCore
      change State.Canonical _
      refine .modTask ?_
      split
      · refine .saveAreaError (.foldl (fun u _ hu => ?_) ht.report)
        split
        · exact hu
        split
        · exact hu.cancelSave
        exact hu.modCore
      refine .foldl (fun u _ hu => ?_) ht.report
      split
      · exact hu
      split
      · exact hu.cancelSave
      exact hu.modCore
  trivial

theorem State.Canonical.execPreemptRequest {core : Nat} (h : s.Canonical) : OutcomeOk (execPreemptRequest core s) := by
  unfold Machine.execPreemptRequest
  dsimp only
  split
  · trivial
  split
  · trivial
  split
  · split
    · trivial
    exact h.abandon.beginSave
  · exact h.abandon.beginSave
  · exact h.abandon.beginSave
  · exact h.abandon.beginSave
  · trivial
  · trivial
  trivial

/-! ### Regions and barriers -/

theorem State.Canonical.grantPower {c : Nat} (h : s.Canonical) : (s.grantPower c).Canonical := by
  unfold State.grantPower
  dsimp only
  split
  · exact h
  split
  · exact h
  · next t e1 =>
      have ht : t.Canonical := h.takeUnits.of_some e1
      exact ht.modCore

theorem State.Canonical.alignmentFault {c code : Nat} (h : s.Canonical) : (s.alignmentFault c code).Canonical := by
  unfold State.alignmentFault
  dsimp only
  exact h.modCore.raise

theorem State.Canonical.execRegionAlignment {core : Nat} (h : s.Canonical) : OutcomeOk (execRegionAlignment core s) := by
  unfold Machine.execRegionAlignment
  dsimp only
  split
  · trivial
  split
  · split
    · exact h.alignmentFault
    split
    · exact h.alignmentFault
    split
    · exact h.setCore
    split
    · exact h.setCore
    trivial
  split
  · exact h.alignmentFault
  split
  · exact h.alignmentFault
  split
  · exact h.setCore
  split
  · exact h.setCore
  trivial

theorem State.Canonical.applyRealign {k d : Nat} {v : W64} (h : s.Canonical) : (s.applyRealign k d v).Canonical := by
  unfold State.applyRealign
  exact h.modCasement

theorem State.Canonical.releaseHeld {c : Nat} (h : s.Canonical) : (s.releaseHeld c).Canonical := by
  unfold State.releaseHeld
  dsimp only
  refine .modCore (List.foldlRecOn (motive := fun acc : List Held × State × Nat × Bool => acc.2.1.Canonical) _ _ h fun acc ha x _ => ?_)
  split
  · exact ha
  exact ha.drawDue

theorem State.Canonical.commit {c : Nat} {map_ : List (Nat × Nat × Nat)} (h : s.Canonical) : (s.commit c map_).Canonical := by
  unfold State.commit
  dsimp only
  split
  · split
    · split
      · split
        · exact h.applyRealign.returnUnits.modCore.modCore.releaseHeld.beginSave
        exact h.applyRealign.returnUnits.modCore.modCore.releaseHeld
      split
      · exact h.applyRealign.returnUnits.modCore.modCore.releaseHeld.beginSave
      exact h.applyRealign.returnUnits.modCore.modCore.releaseHeld
    split
    · split
      · exact h.returnUnits.modCore.modCore.releaseHeld.beginSave
      exact h.returnUnits.modCore.modCore.releaseHeld
    split
    · exact h.returnUnits.modCore.modCore.releaseHeld.beginSave
    exact h.returnUnits.modCore.modCore.releaseHeld
  refine .releaseHeld (.modCore (.modCore (.returnUnits ?_)))
  split
  · exact h.applyRealign
  exact h

theorem State.Canonical.execClosingAlignment {core : Nat} (h : s.Canonical) : OutcomeOk (execClosingAlignment core s) := by
  unfold Machine.execClosingAlignment
  dsimp only
  split
  · trivial
  split
  · trivial
  split
  · split
    · trivial
    exact h.raise
  split
  · trivial
  split
  · exact h.settleNow
  split
  · split
    · exact h.settleNow
    exact h.commit
  split
  · exact h.settleNow
  exact h.commit

theorem State.Canonical.execBudgetExceeded {core : Nat} (h : s.Canonical) : OutcomeOk (execBudgetExceeded core s) := by
  unfold Machine.execBudgetExceeded
  dsimp only
  split
  · trivial
  exact h.raise

theorem State.Canonical.trapBudget {t : Task} (h : s.Canonical) : (s.trapBudget t).Canonical := h.same rfl

theorem State.Canonical.execTaskBudgetExpiry {task : Nat} (h : s.Canonical) : OutcomeOk (execTaskBudgetExpiry task s) := by
  unfold Machine.execTaskBudgetExpiry
  dsimp only
  split
  · trivial
  split
  · trivial
  split
  · exact h.trapBudget.faultPolicy
  exact .doubleTrapEnds (.foldl (fun _ _ ht => ht.noteDoubleTrap) h.trapBudget)

theorem State.Canonical.execSoftErrorReexec {core : Nat} {site : SoftSite} (h : s.Canonical) : OutcomeOk (execSoftErrorReexec core site s) := by
  unfold Machine.execSoftErrorReexec
  dsimp only
  split
  · trivial
  split
  · exact h.raise
  · exact h.raise
  · exact h.countSoft
  exact h.draw.raise

theorem State.Canonical.writeAnchor {k : Nat} (h : s.Canonical) : (s.writeAnchor k).Canonical := by
  unfold State.writeAnchor
  exact h.modCasement

theorem State.Canonical.execRealignVisible {casement die : Nat} (h : s.Canonical) : OutcomeOk (execRealignVisible casement die s) := by
  unfold Machine.execRealignVisible
  dsimp only
  split
  · trivial
  change State.Canonical _
  split
  · exact h.modCasement.writeAnchor
  exact h.modCasement

theorem State.Canonical.passSteps {done : List (Nat × Nat)} (h : s.Canonical) : (s.passSteps done).Canonical := by
  unfold State.passSteps
  dsimp only
  exact .foldl (fun _ _ ht => ht.modCore) (.foldl (fun _ _ ht => ht.catchUp) h)

theorem State.Canonical.passFences (h : s.Canonical) : (s.passFences).Canonical := by
  unfold State.passFences
  dsimp only
  refine .foldl (fun t _ ht => .foldl (fun u _ hu => ?_) ht) h
  split
  · split
    · exact hu.modCore
    exact hu
  exact hu

/-! ### Quotas -/

theorem State.Canonical.endRefusal (h : s.Canonical) : (s.endRefusal).Canonical := by
  unfold State.endRefusal
  split
  · exact h
  exact h.same rfl

theorem State.Canonical.writeQuota {k : Nat} {f : QuotaField} {value : Nat} (h : s.Canonical) : (s.writeQuota k f value).Canonical := by
  unfold State.writeQuota
  dsimp only
  split
  · exact h.modCasement
  exact h.modCasement.modCasement.endRefusal

theorem State.Canonical.execQuotaWrite {casement : Nat} {field : QuotaField} {value : Nat} (h : s.Canonical) :
    OutcomeOk (execQuotaWrite casement field value s) := by
  unfold Machine.execQuotaWrite
  split
  · trivial
  change State.Canonical _
  split
  · exact h.writeQuota
  exact h

theorem State.Canonical.rescaleOne {fields : List Nat} {unit avail : Nat} {into back : Nat → Nat} (h : s.Canonical) :
    (s.rescaleOne fields unit avail into back).Canonical := by
  obtain ⟨_, _, e⟩ := s.rescaleOne_onlyQuotas fields unit avail into back
  exact e ▸ h.same rfl

theorem State.Canonical.rescaleAll (h : s.Canonical) : (s.rescaleAll).Canonical := by
  unfold State.rescaleAll
  dsimp only
  exact h.rescaleOne.rescaleOne.rescaleOne.rescaleOne

/-! ### Usage records -/

theorem State.Canonical.closeWindow {k fend : Nat} {closed : Bool} (h : s.Canonical) : (s.closeWindow k fend closed).Canonical := by
  unfold State.closeWindow
  dsimp only
  exact h.draw.draw.modCasement

theorem State.Canonical.execUsageWindowClose {casement : Nat} (h : s.Canonical) : OutcomeOk (execUsageWindowClose casement s) := by
  unfold Machine.execUsageWindowClose
  dsimp only
  split
  · trivial
  exact h.closeWindow

theorem State.Canonical.execUsageRecordComplete {casement : Nat} (h : s.Canonical) : OutcomeOk (execUsageRecordComplete casement s) := by
  unfold Machine.execUsageRecordComplete
  split
  · trivial
  split
  · trivial
  exact h.modCasement

/-! ### Completions and signals -/

theorem State.Canonical.markRecord {k : Nat} {hot : Bool} (h : s.Canonical) : (s.markRecord k hot).Canonical := by
  unfold State.markRecord
  dsimp only
  split
  · exact h.modCasement
  exact h

theorem State.Canonical.markEntries (h : s.Canonical) : (s.markEntries).Canonical := by
  unfold State.markEntries
  exact .foldl (fun _ _ ht => ht.markRecord) h

theorem State.Canonical.execCompletionEntryWrite {cq : Nat} (h : s.Canonical) : OutcomeOk (execCompletionEntryWrite cq s) := by
  unfold Machine.execCompletionEntryWrite
  dsimp only
  split
  · trivial
  split
  · trivial
  split
  · trivial
  · next t e2 =>
      have ht : t.Canonical := h.deviceWrite.of_some e2
      exact ht.modCq

theorem State.Canonical.execCqInterrupt {cq : Nat} (h : s.Canonical) : OutcomeOk (execCqInterrupt cq s) := by
  unfold Machine.execCqInterrupt
  dsimp only
  split
  · trivial
  exact h.emitOut.modCq

theorem State.Canonical.execFaultEntryWrite {ring : Nat} (h : s.Canonical) : OutcomeOk (execFaultEntryWrite ring s) := by
  unfold Machine.execFaultEntryWrite
  dsimp only
  split
  · trivial
  split
  · trivial
  split
  · trivial
  · next t e2 =>
      have ht : t.Canonical := h.deviceWrite.of_some e2
      exact .emitOut (ht.same rfl)

/-! ### Task queues -/

theorem State.Canonical.pinned {k va len : Nat} {acc : Access} {fuel : Nat} {s : State} (h : s.Canonical) :
    (s.pinned k va len acc fuel).Canonical := by
  induction fuel generalizing s va len with
  | zero => exact h
  | succ n ih =>
    unfold State.pinned
    dsimp only
    split
    · exact h
    split
    · next t _ e => exact (h.devTranslate.of_fault e : t.Canonical)
    · next t e => exact (h.devTranslate.of_check e : t.Canonical)
    · next t e => exact (h.devTranslate.of_wait e : t.Canonical)
    · next t _ e =>
        have ht : t.Canonical := h.devTranslate.of_ok e
        split
        · exact ht
        exact ih ht

theorem State.Canonical.rangePinned {k va len : Nat} {acc : Access} (h : s.Canonical) : (s.rangePinned k va len acc).Canonical := by
  unfold State.rangePinned
  exact h.pinned

theorem State.Canonical.queueStart {q : Nat} (h : s.Canonical) : (s.queueStart q).Canonical := by
  unfold State.queueStart
  dsimp only
  split
  · split
    · next t e1 =>
        have ht : t.Canonical := h.rangePinned.of_wait e1
        exact ht.modQueue
    · next t e1 =>
        have ht : t.Canonical := h.rangePinned.of_ok e1
        exact ht.modQueue
    · next t e1 =>
        have ht : t.Canonical := h.rangePinned.of_ok e1
        exact ht.modQueue
    · next t _ e1 =>
        have ht : t.Canonical := h.rangePinned.of_fault e1
        exact ht.modQueue
    · next t e1 =>
        have ht : t.Canonical := h.rangePinned.of_check e1
        exact ht.modQueue
  · split
    · next t e1 =>
        have ht : t.Canonical := h.rangePinned.of_wait e1
        exact ht.modQueue
    · next t e1 =>
        have ht : t.Canonical := h.rangePinned.of_ok e1
        exact ht.modQueue
    · next t e1 =>
        have ht : t.Canonical := h.rangePinned.of_ok e1
        exact ht.modQueue
    · next t _ e1 =>
        have ht : t.Canonical := h.rangePinned.of_fault e1
        exact ht.modQueue
    · next t e1 =>
        have ht : t.Canonical := h.rangePinned.of_check e1
        exact ht.modQueue
  · split
    · next t e1 =>
        have ht : t.Canonical := h.rangePinned.of_wait e1
        exact ht.modQueue
    · next t e1 =>
        have ht : t.Canonical := h.rangePinned.of_ok e1
        exact ht.modQueue
    · next t e1 =>
        have ht : t.Canonical := h.rangePinned.of_ok e1
        exact ht.modQueue
    · next t _ e1 =>
        have ht : t.Canonical := h.rangePinned.of_fault e1
        exact ht.modQueue
    · next t e1 =>
        have ht : t.Canonical := h.rangePinned.of_check e1
        exact ht.modQueue
  · exact h
  exact h

theorem State.Canonical.queueStop {q : Nat} (h : s.Canonical) : (s.queueStop q).Canonical := by
  unfold State.queueStop
  exact h.modQueue

theorem State.Canonical.queueSetrd {q : Nat} {index : W32} (h : s.Canonical) : (s.queueSetrd q index).Canonical := by
  unfold State.queueSetrd
  split
  · exact h.modQueue
  · exact h.modQueue
  exact h

theorem State.Canonical.queueCommand {q code : Nat} {index : W32} (h : s.Canonical) : (s.queueCommand q code index).Canonical := by
  unfold State.queueCommand
  split
  · exact h.queueStart
  · exact h.queueStop
  · exact h.queueSetrd
  exact h

theorem State.Canonical.runCommands {q : Nat} {cmds : List (Nat × W32)} (h : s.Canonical) : (s.runCommands q cmds).Canonical := by
  unfold State.runCommands
  refine .foldl (fun t _ ht => ?_) h
  split
  · exact ht.queueCommand
  exact ht.modQueue

theorem State.Canonical.takeCommands {q : Nat} (h : s.Canonical) : (s.takeCommands q).Canonical := by
  unfold State.takeCommands
  dsimp only
  split
  · exact h
  exact h.modQueue.runCommands

theorem State.Canonical.execStart {queue : Nat} (h : s.Canonical) : OutcomeOk (execStart queue s) := by
  unfold Machine.execStart
  split
  · trivial
  change State.Canonical _
  split
  · exact h.queueStart
  exact h

theorem State.Canonical.execStop {queue : Nat} (h : s.Canonical) : OutcomeOk (execStop queue s) := by
  unfold Machine.execStop
  split
  · trivial
  change State.Canonical _
  split
  · exact h.queueStop
  exact h

theorem State.Canonical.execSetrd {queue : Nat} {index : W32} (h : s.Canonical) : OutcomeOk (execSetrd queue index s) := by
  unfold Machine.execSetrd
  split
  · trivial
  change State.Canonical _
  split
  · exact h.queueSetrd
  exact h

theorem State.Canonical.writeQwr {fn : HostFn} {q : Nat} {value : W32} (h : s.Canonical) : (s.writeQwr fn q value).Canonical := by
  unfold State.writeQwr
  dsimp only
  split
  · exact h
  exact h.modQueue

theorem State.Canonical.execQwrWrite {fn : HostFn} {queue : Nat} {value : W32} (h : s.Canonical) : OutcomeOk (execQwrWrite fn queue value s) := by
  unfold Machine.execQwrWrite
  split
  · trivial
  change State.Canonical _
  split
  · exact h.writeQwr
  exact h

theorem State.Canonical.giveSlots (h : s.Canonical) : (s.giveSlots).Canonical := by
  unfold State.giveSlots
  dsimp only
  exact .foldl (fun _ _ ht => ht.same rfl) h

theorem State.Canonical.advanceQueue {q : Nat} (h : s.Canonical) : (s.advanceQueue q).Canonical := by
  unfold State.advanceQueue
  dsimp only
  exact h.drawDue.modQueue

theorem State.Canonical.acquireRead {slot pa n : Nat} (h : s.Canonical) : (s.acquireRead slot pa n).1.Canonical := by
  unfold State.acquireRead
  dsimp only
  exact h.catchUp

theorem State.Canonical.evalWait {q : Nat} {tell : Bool} (h : s.Canonical) : (s.evalWait q tell).Canonical := by
  unfold State.evalWait
  dsimp only
  split
  · exact h
  split
  · next t _ _ e1 =>
      have ht : t.Canonical := h.devReach.of_fault e1
      refine .modQueue ?_
      split
      · exact ht.report
      exact ht
  · next t e1 =>
      have ht : t.Canonical := h.devReach.of_fault e1
      refine .modQueue ?_
      split
      · exact ht.report
      exact ht
  · next t _ _ _ e3 =>
      have ht : t.Canonical := h.devReach.of_fault e3
      refine .modQueue ?_
      split
      · exact ht.report
      exact ht
  · next t e1 =>
      have ht : t.Canonical := h.devReach.of_check e1
      exact ht.modQueue
  · next t e1 =>
      have ht : t.Canonical := h.devReach.of_wait e1
      exact ht.modQueue
  · next t _ e1 =>
      have ht : t.Canonical := h.devReach.of_ok e1
      split
      · exact ht.acquireRead.modQueue.advanceQueue
      exact ht.acquireRead.modQueue.modQueue

theorem State.Canonical.execWaitRecheck {queue : Nat} (h : s.Canonical) : OutcomeOk (execWaitRecheck queue s) := by
  unfold Machine.execWaitRecheck
  dsimp only
  split
  · exact h.evalWait
  trivial

theorem State.Canonical.execWaitFaultTimeout {queue : Nat} (h : s.Canonical) : OutcomeOk (execWaitFaultTimeout queue s) := by
  unfold Machine.execWaitFaultTimeout
  dsimp only
  split
  · exact h.modQueue
  trivial

theorem State.Canonical.markWrite {q : Nat} {r : List W8} (h : s.Canonical) : (s.markWrite q r).Canonical := by
  unfold State.markWrite
  split
  · next t e =>
      have ht : t.Canonical := h.signalWrite.of_wait e
      exact ht.modQueue
  · next t e =>
      have ht : t.Canonical := h.signalWrite.of_stalled e
      exact ht.modQueue
  · next t e =>
      have ht : t.Canonical := h.signalWrite.of_done e
      exact ht.advanceQueue

theorem State.Canonical.execMarkRecord {queue : Nat} (h : s.Canonical) : OutcomeOk (execMarkRecord queue s) := by
  unfold Machine.execMarkRecord
  dsimp only
  split
  · trivial
  split
  · trivial
  exact h.markWrite

/-! ### Casements -/

theorem State.Canonical.allotWays {k : Nat} (h : s.Canonical) : (s.allotWays k).Canonical := by
  unfold State.allotWays
  dsimp only
  exact .foldl (fun _ _ ht => ht.same rfl) h

theorem State.Canonical.refuseCommand {k : Nat} (h : s.Canonical) : (s.refuseCommand k).Canonical := by
  unfold State.refuseCommand
  exact h.modCasement

theorem State.Canonical.createCasement {k : Nat} (h : s.Canonical) : (s.createCasement k).Canonical := by
  unfold State.createCasement
  dsimp only
  exact h.modCasement.allotWays

theorem State.Canonical.create {k : Nat} (h : s.Canonical) : (s.create k).Canonical := by
  unfold State.create
  split
  · exact h.refuseCommand
  exact h.createCasement

theorem State.Canonical.stopQueues {k : Nat} (h : s.Canonical) : (s.stopQueues k).Canonical := by
  unfold State.stopQueues
  exact .foldl (fun _ _ ht => ht.queueStop) h

theorem State.Canonical.closeSessions {k : Nat} (h : s.Canonical) : (s.closeSessions k).Canonical := h.same rfl

theorem State.Canonical.maybeDrained {k : Nat} (h : s.Canonical) : (s.maybeDrained k).Canonical := by
  unfold State.maybeDrained
  split
  · exact h.modCasement
  exact h

theorem State.Canonical.drainCasement {k : Nat} (h : s.Canonical) : (s.drainCasement k).Canonical := by
  unfold State.drainCasement
  split
  · exact h.refuseCommand
  exact h.modCasement.stopQueues.maybeDrained

theorem State.Canonical.resumeCasement {k : Nat} (h : s.Canonical) : (s.resumeCasement k).Canonical := by
  unfold State.resumeCasement
  split
  · exact h.refuseCommand
  exact h.modCasement

theorem State.Canonical.clearSaveErr {k : Nat} (h : s.Canonical) : (s.clearSaveErr k).Canonical := by
  unfold State.clearSaveErr
  split
  · exact h.refuseCommand
  exact h.modCasement

theorem State.Canonical.scrubEnd {k : Nat} (h : s.Canonical) : (s.scrubEnd k).Canonical := by
  unfold State.scrubEnd
  exact h.modCasement

theorem State.Canonical.startScrub {k : Nat} (h : s.Canonical) : (s.startScrub k).Canonical := by
  unfold State.startScrub
  dsimp only
  split
  · exact h.drawDue.modCasement.scrubEnd
  exact h.drawDue.modCasement

theorem State.Canonical.eraseCasement {k : Nat} (h : s.Canonical) : (s.eraseCasement k).Canonical := by
  unfold State.eraseCasement
  dsimp only
  exact .startScrub (.closeWindow (h.same rfl))

theorem State.Canonical.maybeErase {k : Nat} (h : s.Canonical) : (s.maybeErase k).Canonical := by
  unfold State.maybeErase
  dsimp only
  split
  · exact h.eraseCasement
  exact h

theorem State.Canonical.teardown {k : Nat} (h : s.Canonical) : (s.teardown k).Canonical := by
  unfold State.teardown
  dsimp only
  split
  · exact h.refuseCommand
  · exact h.refuseCommand
  · exact h.refuseCommand
  exact .maybeErase (.stopQueues (.closeSessions (.foldl (fun _ _ ht => ht.failTask) h.modCasement)))

theorem State.Canonical.casementCommand {k code : Nat} (h : s.Canonical) : (s.casementCommand k code).Canonical := by
  unfold State.casementCommand
  split
  · exact h.create
  · exact h.teardown
  · exact h.drainCasement
  · exact h.resumeCasement
  · exact h.clearSaveErr
  exact h.refuseCommand

theorem State.Canonical.managerCommand {k : Nat} {t : State} (h : s.Canonical) (ht : t.Canonical) : OutcomeOk (s.managerCommand k t) := by
  unfold State.managerCommand
  split
  · trivial
  change State.Canonical _
  split
  · exact ht
  exact h

theorem State.Canonical.execCreate {casement : Nat} (h : s.Canonical) : OutcomeOk (Machine.execCreate casement s) := h.managerCommand h.create

theorem State.Canonical.execTeardown {casement : Nat} (h : s.Canonical) : OutcomeOk (Machine.execTeardown casement s) := h.managerCommand h.teardown

theorem State.Canonical.execDrain {casement : Nat} (h : s.Canonical) : OutcomeOk (Machine.execDrain casement s) := h.managerCommand h.drainCasement

theorem State.Canonical.execResume {casement : Nat} (h : s.Canonical) : OutcomeOk (Machine.execResume casement s) := h.managerCommand h.resumeCasement

theorem State.Canonical.execClrsave {casement : Nat} (h : s.Canonical) : OutcomeOk (Machine.execClrsave casement s) := h.managerCommand h.clearSaveErr

theorem State.Canonical.scrubNext {k : Nat} (h : s.Canonical) : (s.scrubNext k).Canonical := by
  unfold State.scrubNext
  dsimp only
  split
  · exact h.drawDue.modCasement.scrubEnd
  exact h.drawDue.modCasement

theorem State.Canonical.execScrubUnitDone {casement : Nat} (h : s.Canonical) : OutcomeOk (execScrubUnitDone casement s) := by
  unfold Machine.execScrubUnitDone
  dsimp only
  split
  · trivial
  split
  · exact h.modCore.scrubNext
  split
  · exact .scrubNext (h.same rfl)
  trivial

/-! ### Retirement -/

theorem State.Canonical.takeWaiting {c : Nat} (h : s.Canonical) : (s.takeWaiting c).Canonical := by
  unfold State.takeWaiting
  split
  · split
    · exact h.modCore
    exact h
  exact h

theorem State.Canonical.execTrackerEntryFree {core task : Nat} (h : s.Canonical) : OutcomeOk (execTrackerEntryFree core task s) := by
  unfold Machine.execTrackerEntryFree
  dsimp only
  split
  · trivial
  exact h.modCore.modTask.takeWaiting.maybeErase

theorem State.Canonical.readVa {k va len fuel : Nat} {s : State} (h : s.Canonical) : (s.readVa k va len fuel).Canonical := by
  induction fuel generalizing s va len with
  | zero => exact h
  | succ n ih =>
    unfold State.readVa
    dsimp only
    split
    · exact h
    exact h.devReach.bind fun _ _ ht => (ih ht.acquireRead).bind fun _ _ hu => hu

theorem State.Canonical.readRange {k va len : Nat} (h : s.Canonical) : (s.readRange k va len).Canonical := by
  unfold State.readRange
  exact h.readVa

theorem State.Canonical.sendChunk {session : Nat} {header payload : List W8} (h : s.Canonical) : (s.sendChunk session header payload).Canonical := by
  unfold State.sendChunk
  dsimp only
  exact h.emitOut.countBytes

theorem State.Canonical.safeChunk {k session : Nat} (h : s.Canonical) : (s.safeChunk k session).Canonical := by
  unfold State.safeChunk
  dsimp only
  split
  · exact h
  exact h.readRange.bind fun _ _ ht => ht.readRange.bind fun _ _ hu => hu

theorem State.Canonical.retire {t : Task} {status : TStatus} {code : Nat} (h : s.Canonical) : (s.retire t status code).Canonical := by
  unfold State.retire
  split
  · exact h.retireWith
  split
  · next e1 => exact h.safeChunk.of_wait e1
  · next u _ e1 =>
      have hu : u.Canonical := h.safeChunk.of_ok e1
      exact hu.retireWith
  · next u _ e1 =>
      have hu : u.Canonical := h.safeChunk.of_fault e1
      exact hu.retireWith
  · next u e1 =>
      have hu : u.Canonical := h.safeChunk.of_check e1
      exact hu.retireWith

/-! ### Admission -/

theorem State.Canonical.reportRefused {t : Task} (h : s.Canonical) : (s.reportRefused t).Canonical := by
  unfold State.reportRefused
  exact h.complete

theorem State.Canonical.readTask {q : Nat} {record : List W8} (h : s.Canonical) : (s.readTask q record).Canonical := by
  have taken : ∀ {t : State}, t.Canonical → State.Canonical { (t.advanceQueue q) with taskNo := t.taskNo + 1 } :=
    fun ht => ht.advanceQueue.same (by dsimp only)
  unfold State.readTask
  dsimp only
  split
  · exact (taken h).reportRefused
  split
  · next t e =>
      have ht : t.Canonical := h.readRange.of_wait e
      exact ht.modQueue
  · next t _ e =>
      have ht : t.Canonical := h.readRange.of_fault e
      exact (taken ht).reportRefused
  · next t e =>
      have ht : t.Canonical := h.readRange.of_check e
      exact (taken ht).reportRefused
  · next t _ e =>
      have ht : t.Canonical := h.readRange.of_ok e
      split
      · exact (taken ht).reportRefused
      split
      · exact (taken ht).modSession.same (by dsimp only)
      exact (taken ht).same (by dsimp only)

theorem State.Canonical.takeRecord {q : Nat} {record : List W8} (h : s.Canonical) : (s.takeRecord q record).Canonical := by
  unfold State.takeRecord
  dsimp only
  split
  · exact h.drawDue.modQueue
  · exact h.readTask
  · split
    · exact h.modQueue
    exact h.modQueue.evalWait
  · exact h.modQueue
  exact h.modQueue

theorem State.Canonical.execQueueRecordRead {queue : Nat} (h : s.Canonical) : OutcomeOk (execQueueRecordRead queue s) := by
  unfold Machine.execQueueRecordRead
  dsimp only
  split
  · trivial
  split
  · next t _ e1 =>
      have ht : t.Canonical := h.devReach.of_fault e1
      exact ht.modQueue
  · next t e1 =>
      have ht : t.Canonical := h.devReach.of_check e1
      exact ht.modQueue
  · next t e1 =>
      have ht : t.Canonical := h.devReach.of_wait e1
      exact ht.modQueue
  · next t _ e1 =>
      have ht : t.Canonical := h.devReach.of_ok e1
      split
      · trivial
      exact ht.acquireRead.takeRecord

theorem State.Canonical.allPinned {k : Nat} {l : List (Nat × Nat)} {s : State} (h : s.Canonical) : (s.allPinned k l).Canonical := by
  induction l generalizing s with
  | nil => exact h
  | cons r l ih =>
    refine h.rangePinned.bind fun t a ht => ?_
    split
    · exact ih ht
    exact ht

theorem State.Canonical.admissionCheck {t : Task} (h : s.Canonical) : (s.admissionCheck t).Canonical := by
  unfold State.admissionCheck
  dsimp only
  split
  · exact h
  split
  · exact h
  split
  · exact h
  refine Dev.Canonical.bind ?_ fun u bs hu => ?_
  · split
    · exact h
    exact h.readRange
  split
  · exact hu
  split
  · exact hu.allPinned.bind fun _ _ hv => hv
  exact hu

theorem State.Canonical.admitTask {t : Task} {window : Nat} (h : s.Canonical) : (s.admitTask t window).Canonical := by
  unfold State.admitTask
  dsimp only
  exact .modCasement (State.Canonical.same (.foldl (fun _ _ hu => hu.modDie) h.modTask) (by dsimp only))

theorem State.Canonical.tryAdmit {t : Task} {scope : Option (List (Nat × Nat))} (h : s.Canonical) : (s.tryAdmit t scope).1.Canonical := by
  unfold State.tryAdmit
  dsimp only
  split
  · exact h.retire
  split
  · exact h
  split
  · exact h.retire
  split
  · exact h.same rfl
  split
  · next u e4 =>
      have hu : u.Canonical := h.admissionCheck.of_ok e4
      exact hu.retire
  · next u _ e4 =>
      have hu : u.Canonical := h.admissionCheck.of_fault e4
      exact hu.retire
  · next u e4 =>
      have hu : u.Canonical := h.admissionCheck.of_check e4
      exact hu.retire
  · next e4 => exact h.admissionCheck.of_wait e4
  · next u _ e4 =>
      have hu : u.Canonical := h.admissionCheck.of_ok e4
      split
      · exact hu
      exact hu.admitTask

theorem State.Canonical.admitAll (h : s.Canonical) : (s.admitAll).1.Canonical := by
  unfold State.admitAll
  refine .foldl_fst (fun x b hx => ?_) h
  split
  · exact hx.tryAdmit
  exact hx

theorem State.Canonical.watchStreams (h : s.Canonical) : (s.watchStreams).Canonical := h.same rfl

theorem State.Canonical.restore {x : Stream} (h : s.Canonical) : (s.restore x).Canonical := h.same rfl

theorem State.Canonical.shedOrRestore {scope : Option (List (Nat × Nat))} (h : s.Canonical) : (s.shedOrRestore scope).Canonical := by
  unfold State.shedOrRestore
  dsimp only
  split
  · split
    · exact h.watchStreams.lowerStream.same (by dsimp only)
    exact h.watchStreams.same (by dsimp only)
  split
  · split
    · exact h.watchStreams.restore.same (by dsimp only)
    exact h.watchStreams.same (by dsimp only)
  exact h.watchStreams.same (by dsimp only)

/-! ### The epilogue -/

theorem State.Canonical.askBias {c : Nat} (h : s.Canonical) : (s.askBias c).Canonical := by
  unfold State.askBias
  dsimp only
  split
  · exact h
  split
  · exact h
  exact .foldl (fun _ _ ht => ht.draw.addAct) h

theorem State.Canonical.execEpi {hd : Hdr} {a : BitVec 5} (h : s.Canonical) : OutcomeOk (execEpi hd a s) := by
  unfold Machine.execEpi
  dsimp only
  refine h.issue fun x => ?_
  split
  · exact h
  split
  · trivial
  split
  · trivial
  refine State.Canonical.go ?_
  split
  · exact h.modCore.askBias
  exact h.modCore

theorem State.Canonical.nextEpi {c low : Nat} {e : EpiCmd} (h : s.Canonical) : (s.nextEpi c low e).Canonical := by
  unfold State.nextEpi
  dsimp only
  split
  · exact h.drawDue.modCore
  exact h.drawDue.modCore.addAct

theorem State.Canonical.startEpi {c : Nat} (h : s.Canonical) : SomeOk (s.startEpi c) := by
  unfold State.startEpi
  dsimp only
  split
  · trivial
  split
  · trivial
  exact h.modCore.addAct

theorem State.Canonical.biasBeat {c : Nat} {a : Act} {off n : Nat} (h : s.Canonical) : (s.biasBeat c a off n).Canonical := by
  unfold State.biasBeat
  dsimp only
  split
  · exact h.setCore
  split
  · exact h.setCore
  split <;> exact h.setCore

theorem State.Canonical.epiBeat {c : Nat} {a : Act} (h : s.Canonical) : (s.epiBeat c a).Canonical := by
  unfold State.epiBeat
  dsimp only
  split
  · exact h.setCore
  split
  · split
    · exact h.setCore
    split
    · exact h.setCore.nextEpi
    split <;> exact h.setCore.nextEpi
  · split
    · exact h.setCore
    split
    · exact h.setCore
    exact h.setCore.nextEpi
  exact h.setCore

theorem State.Canonical.execEpiComplete {core : Nat} (h : s.Canonical) : OutcomeOk (execEpiComplete core s) := by
  unfold Machine.execEpiComplete
  dsimp only
  split
  · trivial
  split
  · trivial
  exact h.setCore.askBias

/-! ### Scalar words -/

theorem State.Canonical.scalarR {hd : Hdr} {d a b : BitVec 5} {lat : Nat} {f : W64 → W64 → W64} (h : s.Canonical) :
    OutcomeOk (scalarR hd d a b lat f s) := by
  unfold Machine.scalarR
  exact h.issue fun _ => h.land.go

theorem State.Canonical.scalarI {hd : Hdr} {d a : BitVec 5} {f : W64 → W64} (h : s.Canonical) : OutcomeOk (scalarI hd d a f s) := by
  unfold Machine.scalarI
  exact h.issue fun _ => h.land.go

theorem State.Canonical.scalarLit {hd : Hdr} {d : BitVec 5} {f : W64 → W64} (h : s.Canonical) : OutcomeOk (scalarLit hd d f s) := by
  unfold Machine.scalarLit
  exact h.issue fun _ => h.land

theorem State.Canonical.scalarBits {hd : Hdr} {d a : BitVec 5} {w : BitVec 2} {f : Nat → Nat → Nat} (h : s.Canonical) :
    OutcomeOk (scalarBits hd d a w f s) := by
  unfold Machine.scalarBits
  exact h.scalarI

theorem State.Canonical.execLi {hd : Hdr} {d : BitVec 5} {k : BitVec 14} (h : s.Canonical) : OutcomeOk (execLi hd d k s) := by
  unfold Machine.execLi
  exact h.issue fun _ => h.land.go

/-! ### Tile words -/

theorem State.Canonical.raisesAt {c : Nat} {a : Act} {due : Nat} {st : Status} (h : s.Canonical) : (s.raisesAt c a due st).Canonical := by
  unfold State.raisesAt
  split
  · exact h
  exact h.addAct

theorem State.Canonical.rowOut {c : Nat} {a : Act} {job : TileJob} {i due : Nat} {vals : Row} {sts : List Status} (h : s.Canonical) :
    (s.rowOut c a job i due vals sts).Canonical := by
  unfold State.rowOut
  dsimp only
  split
  · exact h.addAct
  exact h.addAct.raisesAt

theorem State.Canonical.rowDone {c : Nat} {a : Act} {job : TileJob} {i : Nat} {x y : Row} {stIn : List Status} (h : s.Canonical) :
    (s.rowDone c a job i x y stIn).Canonical := by
  unfold State.rowDone
  dsimp only
  split
  · exact h.addAct
  · exact h.raisesAt.addAct
  · exact .foldl (fun _ _ ht => ht.addAct) h.raisesAt
  · exact h.addAct.raisesAt.addAct.rowOut
  split
  · split
    · exact h
    exact .foldl (fun _ _ ht => ht.rowOut) h
  exact h.rowOut

theorem State.Canonical.readRow {c : Nat} {a : Act} {job : TileJob} {i : Nat} (h : s.Canonical) : (s.readRow c a job i).Canonical := by
  unfold State.readRow
  dsimp only
  split
  · exact h.modCore.raise
  · exact h.setCore
  split
  · exact h.setCore.rowDone
  exact h.setCore.rowDone.addAct

theorem State.Canonical.tileWord {hd : Hdr} {fn : TileFn} {d : Nat} {a b : Option Nat} {m : Bool} {tiles : List Nat} {uses : List (BitVec 5)}
    {ok : Ctx → Bool} {scalar : Ctx → W64} (h : s.Canonical) :
    OutcomeOk (tileWord hd fn d a b m tiles uses ok scalar s) := by
  unfold Machine.tileWord
  dsimp only
  refine h.issueAt fun x => ?_
  split
  · split
    · trivial
    split
    · exact h
    exact h.modCore.addAct.go
  · split
    · trivial
    split
    · exact h
    exact h.modCore.addAct.go
  split
  · trivial
  split
  · exact h
  exact h.modCore.addAct.go

theorem State.Canonical.tileBinary {hd : Hdr} {fn : TileFn} {d a b : BitVec 5} {m : Bool} (h : s.Canonical) :
    OutcomeOk (tileBinary hd fn d a b m s) := by
  unfold Machine.tileBinary
  exact h.tileWord

theorem State.Canonical.tileUnary {hd : Hdr} {fn : TileFn} {d a : BitVec 5} {m ok : Bool} (h : s.Canonical) :
    OutcomeOk (tileUnary hd fn d a m ok s) := by
  unfold Machine.tileUnary
  exact h.tileWord

theorem State.Canonical.tileCompare {hd : Hdr} {c : CmpOp} {d a b : BitVec 5} {m : Bool} (h : s.Canonical) :
    OutcomeOk (tileCompare hd c d a b m s) := by
  unfold Machine.tileCompare
  exact h.tileWord

theorem State.Canonical.tileFused {hd : Hdr} {fn : TileFn} {d a b : BitVec 5} {m : Bool} (h : s.Canonical) :
    OutcomeOk (tileFused hd fn d a b m s) := by
  unfold Machine.tileFused
  exact h.tileWord

/-! ### The scatter engine -/

theorem State.Canonical.saccWord {hd : Hdr} {op : RedOp} {d x v : BitVec 5} (h : s.Canonical) : OutcomeOk (saccWord hd op d x v s) := by
  unfold Machine.saccWord
  dsimp only
  refine h.issue fun x => ?_
  split
  · trivial
  split
  · exact h
  split
  · trivial
  split
  · trivial
  exact h.newId.modCore.addAct.go

theorem State.Canonical.saccPop {c : Nat} {a : Act} {cmd ix vl i : Nat} {gotX gotV : Option (Row × List Status)} (h : s.Canonical) :
    (s.saccPop c a cmd ix vl i gotX gotV).Canonical := by
  unfold State.saccPop
  dsimp only
  split
  · exact h.setCore
  split
  · exact h.setCore.raise
  · exact h.setCore
  split
  · exact h.setCore.addAct
  exact h.setCore

theorem State.Canonical.startSacc {c : Nat} (h : s.Canonical) : SomeOk (s.startSacc c) := by
  unfold State.startSacc
  dsimp only
  split
  · trivial
  split
  · trivial
  exact h.drawDue.modCore

theorem State.Canonical.execSaccUpdate {core : Nat} (h : s.Canonical) : OutcomeOk (execSaccUpdate core s) := by
  unfold Machine.execSaccUpdate
  dsimp only
  split
  · trivial
  split
  · trivial
  split
  · exact h.setCore
  split
  · trivial
  split
  · exact h.drawDue.setCore
  split
  · split
    · exact h.drawDue.setCore.raise
    split
    · exact h.drawDue.setCore
    exact .setCore (h.same rfl)
  split
  · exact h.drawDue.setCore.raise
  split
  · exact h.drawDue.setCore
  exact .setCore (h.same rfl)

/-! ### System words -/

theorem State.Canonical.execNop {hd : Hdr} (h : s.Canonical) : OutcomeOk (execNop hd s) := by
  unfold Machine.execNop
  exact h.issue fun _ => h.go

theorem State.Canonical.execIdle {hd : Hdr} {n : BitVec 14} (h : s.Canonical) : OutcomeOk (execIdle hd n s) := by
  unfold Machine.execIdle
  exact h.issue fun _ => h

theorem State.Canonical.execTrap {hd : Hdr} {a : BitVec 5} (h : s.Canonical) : OutcomeOk (execTrap hd a s) := by
  unfold Machine.execTrap
  refine h.issue fun x => ?_
  trivial

theorem State.Canonical.execBrk {hd : Hdr} (h : s.Canonical) : OutcomeOk (execBrk hd s) := by
  unfold Machine.execBrk
  refine h.issue fun x => ?_
  trivial

theorem State.Canonical.execEret {_h : Hdr} (h : s.Canonical) : OutcomeOk (execEret _h s) := by
  unfold Machine.execEret
  dsimp only
  exact h.issueAt fun _ => h.returnToRestart

theorem State.Canonical.execEretSa {_h : Hdr} {a : BitVec 5} (h : s.Canonical) : OutcomeOk (execEretSa _h a s) := by
  unfold Machine.execEretSa
  dsimp only
  refine h.issueAt fun x => ?_
  split
  · trivial
  exact h.returnTo

theorem State.Canonical.fenceWord {hd : Hdr} {kind : Nat} {scope : BitVec 3} (h : s.Canonical) : OutcomeOk (fenceWord hd kind scope s) := by
  unfold Machine.fenceWord
  dsimp only
  exact h.issue fun _ => h.modCore

theorem State.Canonical.execXfence {hd : Hdr} (h : s.Canonical) : OutcomeOk (execXfence hd s) := by
  unfold Machine.execXfence
  exact h.issue fun _ => h.addAct

theorem State.Canonical.execStep {hd : Hdr} {l : BitVec 5} (h : s.Canonical) : OutcomeOk (execStep hd l s) := by
  unfold Machine.execStep
  dsimp only
  refine h.issue fun x => ?_
  split
  · exact h
  exact h.modCore

theorem State.Canonical.execRealign {hd : Hdr} {a : BitVec 5} (h : s.Canonical) : OutcomeOk (execRealign hd a s) := by
  unfold Machine.execRealign
  dsimp only
  exact h.issue fun _ => h.modCore.go

theorem State.Canonical.execRcmt {hd : Hdr} {a b : BitVec 5} (h : s.Canonical) : OutcomeOk (execRcmt hd a b s) := by
  unfold Machine.execRcmt
  dsimp only
  exact h.issueAt fun _ => h.modCore

theorem State.Canonical.rgnWord {hd : Hdr} {b st m : BitVec 5} {timed : Bool} (h : s.Canonical) : OutcomeOk (rgnWord hd b st m timed s) := by
  unfold Machine.rgnWord
  dsimp only
  exact h.issueAt fun _ => h.modCore

theorem State.Canonical.execTail {_h : Hdr} (h : s.Canonical) : OutcomeOk (execTail _h s) := by
  unfold Machine.execTail
  dsimp only
  refine h.issue fun x => ?_
  split
  · exact h
  exact h.modCore

/-! ### What lands at a fixed cycle -/

theorem State.Canonical.loadBank {c : Nat} {a : Act} {q : SeqId} {r : Nat} {isA : Bool} {off size : Nat} {sext aq sp sn : Bool} (h : s.Canonical) :
    (s.loadBank c a q r isA off size sext aq sp sn).Canonical := by
  unfold State.loadBank
  dsimp only
  split
  · next e => exact h.actRead.of_error e
  · next t _ e =>
      have ht : t.Canonical := h.actRead.of_ok e
      refine .addAct (.noteBuffer ?_)
      split
      · refine .addAct ?_
        split
        · exact ht.modCore.addAct.addAct
        exact ht.modCore.addAct
      split
      · exact ht.modCore.addAct.addAct
      exact ht.modCore.addAct

theorem State.Canonical.storeBank {c : Nat} {a : Act} {q : SeqId} {isA : Bool} {off : Nat} {bytes : List W8} {sp sn : Bool} (h : s.Canonical) :
    (s.storeBank c a q isA off bytes sp sn).Canonical := by
  unfold State.storeBank
  split
  · next e => exact h.actRead.of_error e
  · next t _ e =>
      have ht : t.Canonical := h.actRead.of_ok e
      exact ht.modCore

theorem State.Canonical.paramRead {c : Nat} {a : Act} {port sa : Nat} (h : s.Canonical) : (s.paramRead c a port sa).Canonical := by
  unfold State.paramRead
  dsimp only
  split
  · next e => exact h.actRead.of_error e
  · next t _ e =>
      have ht : t.Canonical := h.actRead.of_ok e
      split
      · exact ht.modCore.raise
      exact ht.modCore.addAct

theorem State.Canonical.shapeRead {c : Nat} {a : Act} {n sa : Nat} (h : s.Canonical) : (s.shapeRead c a n sa).Canonical := by
  unfold State.shapeRead
  dsimp only
  split
  · next e => exact h.actRead.of_error e
  · next t _ e =>
      have ht : t.Canonical := h.actRead.of_ok e
      split
      · exact ht.modCore.raise
      exact ht.modCore.addAct

theorem State.Canonical.codebookRead {c : Nat} {a : Act} {sa : Nat} (h : s.Canonical) : (s.codebookRead c a sa).Canonical := by
  unfold State.codebookRead
  split
  · next e => exact h.actRead.of_error e
  · next t _ e =>
      have ht : t.Canonical := h.actRead.of_ok e
      exact ht.modCore.addAct

theorem State.Canonical.landPush {c : Nat} {a : Act} {port : Nat} {lanes : W64} {vals : Row} {st : Status} (h : s.Canonical) :
    (s.landPush c a port lanes vals st).Canonical := by
  unfold State.landPush
  dsimp only
  split
  · exact h.setCore
  · exact h.setCore.raise
  exact h.newId.drawDue.setCore

theorem State.Canonical.perform {c : Nat} {a : Act} (h : s.Canonical) : (s.perform c a).Canonical := by
  unfold State.perform
  dsimp only
  split
  · exact h.modCore
  · exact h.modCore
  · exact h.modCore
  · exact h.loadBank
  · exact h.modCore
  · exact h.modCore
  · exact h.storeBank
  · exact h.modCore.takeEntry
  · exact h.readRow
  · exact h.modCore
  · exact h.modCore
  · exact h.landPush
  · exact h.modCore
  · exact h.paramRead
  · exact h.modCore
  · exact h.modCore
  · exact h.shapeRead
  · exact h.modCore
  · exact h.codebookRead
  · exact h.modCore
  · exact h.modCore
  · exact h.modCore
  · exact h.grantRead
  · exact h.sendRead
  · exact h.emitRead
  · exact h.recordRead
  · exact h.recordRest
  · split <;> exact h.modCore
  · exact h.saccPop
  · exact h.tbuildRow
  · exact h.spillBeat
  · exact h.fillBeat
  · exact h.epiBeat
  · exact h.biasBeat
  exact h.modCore.modQueue

theorem State.Canonical.execResultLands {core id : Nat} (h : s.Canonical) : OutcomeOk (execResultLands core id s) := by
  unfold Machine.execResultLands
  split
  · trivial
  split
  · trivial
  exact h.perform.modCore

theorem State.Canonical.dropTranslations {core scope : Nat} {gone : TlbEntry → Bool} (h : s.Canonical) :
    (s.dropTranslations core scope gone).Canonical := h.same rfl

theorem State.Canonical.tlbi {core kind : Nat} (h : s.Canonical) : OutcomeOk (s.tlbi core kind) := by
  unfold State.tlbi
  dsimp only
  split
  · trivial
  split
  · trivial
  exact h.dropTranslations.modCore

theorem State.Canonical.startEngine {core : Nat} {u : EngineUnit} (h : s.Canonical) : SomeOk (s.startEngine core u) := by
  unfold State.startEngine
  split
  · exact h.startMatrix
  · exact h.startLookup
  · exact h.startEpi
  exact h.startSacc

theorem State.Canonical.execEngineCommandStart {core : Nat} {u : EngineUnit} (h : s.Canonical) : OutcomeOk (execEngineCommandStart core u s) := by
  unfold Machine.execEngineCommandStart
  split
  · trivial
  · next e => exact h.startEngine.of_some e

theorem State.Canonical.execPortDrain {core port : Nat} (h : s.Canonical) : OutcomeOk (execPortDrain core port s) := by
  unfold Machine.execPortDrain
  split
  · trivial
  split
  · trivial
  exact h.modCore

/-! ### Launches and decisions -/

theorem State.Canonical.drawStarts {n : Nat} (h : s.Canonical) : (s.drawStarts n).1.Canonical := by
  unfold State.drawStarts
  dsimp only
  exact .foldl_fst (fun _ _ hx => hx.drawDue) h

theorem State.Canonical.bringUnits {t : Task} {cores : List Nat} (h : s.Canonical) : (s.bringUnits t cores).Canonical := by
  unfold State.bringUnits
  dsimp only
  split
  · exact h
  refine .foldl_fst (fun _ _ hx => hx.modDie) ?_
  exact .foldl (fun _ _ hu => hu.modDie) (h.same rfl)

theorem State.Canonical.launch {t : Task} {cores : List Nat} (h : s.Canonical) : (s.launch t cores).Canonical := by
  unfold State.launch
  dsimp only
  exact .modTask (State.Canonical.same (.foldl (fun _ _ hu => hu.catchUp.modCore) h.bringUnits.drawStarts) (by dsimp only))

theorem State.Canonical.pagesOf {k : Nat} {l : List Nat} {s : State} (h : s.Canonical) : (s.pagesOf k l).Canonical := by
  induction l generalizing s with
  | nil => exact h
  | cons va l ih => exact h.devReach.bind fun _ _ ht => (ih ht).bind fun _ _ hu => hu

theorem State.Canonical.blockPages {t : Task} {rank : Nat} (h : s.Canonical) : (s.blockPages t rank).Canonical := by
  unfold State.blockPages
  dsimp only
  exact h.pagesOf.bind fun _ _ hu => hu.pagesOf.bind fun _ _ hv => hv

theorem State.Canonical.allBlocks {t : Task} {l : List SavedCore} {s : State} (h : s.Canonical) : (s.allBlocks t l).Canonical := by
  induction l generalizing s with
  | nil => exact h
  | cons x l ih => exact h.blockPages.bind fun _ _ ht => (ih ht).bind fun _ _ hu => hu

theorem State.Canonical.resume {t : Task} (h : s.Canonical) : (s.resume t).Canonical := by
  unfold State.resume
  dsimp only
  split
  · next e => exact h.allBlocks.of_fault e
  · next e => exact h.allBlocks.of_wait e
  · next u e =>
      have hu : u.Canonical := h.allBlocks.of_check e
      exact hu.faultPolicy
  · next u _ e =>
      have hu : u.Canonical := h.allBlocks.of_ok e
      exact .modTask (.foldl (fun _ _ hv => hv.catchUp.modCore) hu.drawStarts)

theorem State.Canonical.sendPreempt {v : Task} {bound : Nat} (h : s.Canonical) : (s.sendPreempt v bound).Canonical := by
  unfold State.sendPreempt
  dsimp only
  refine .foldl (fun t _ ht => ?_) h.drawDue
  split
  · exact ht.modCore
  exact ht

theorem State.Canonical.preemptFor {t : Task} (h : s.Canonical) : (s.preemptFor t).Canonical := by
  unfold State.preemptFor
  dsimp only
  split
  · exact h
  split
  · exact h
  exact .modTask (.foldl (fun _ _ hu => hu.sendPreempt) h)

theorem State.Canonical.checkHolds (h : s.Canonical) : (s.checkHolds).Canonical := h.same rfl

theorem State.Canonical.tryLaunch {t : Task} {first : Bool} (h : s.Canonical) : (s.tryLaunch t first).1.Canonical := by
  unfold State.tryLaunch
  dsimp only
  split
  · exact h
  split
  · split
    · exact h.preemptFor
    exact h
  split
  · exact .retire (h.same rfl)
  split
  · exact .resume (h.same rfl)
  split
  · exact .faultPolicy (h.same rfl)
  exact .launch (h.same rfl)

theorem State.Canonical.launchAll (h : s.Canonical) : (s.launchAll).Canonical := by
  unfold State.launchAll
  refine .foldl_fst (fun x b hx => ?_) h
  split
  · exact hx.tryLaunch
  exact hx

theorem State.Canonical.markSaved (h : s.Canonical) : (s.markSaved).Canonical := h.same rfl

theorem State.Canonical.retireAll (h : s.Canonical) : (s.retireAll).Canonical := by
  unfold State.retireAll
  exact .foldl (fun _ _ ht => ht.retire) h

theorem State.Canonical.takeAllCommands (h : s.Canonical) : (s.takeAllCommands).Canonical := by
  unfold State.takeAllCommands
  dsimp only
  exact .foldl (fun _ _ ht => ht.allotWays) (State.Canonical.same (.foldl (fun _ _ ht => ht.takeCommands) h) (by dsimp only))

theorem State.Canonical.decision (h : s.Canonical) : (s.decision).Canonical := by
  unfold State.decision
  dsimp only
  exact h.takeAllCommands.markSaved.checkHolds.retireAll.admitAll.shedOrRestore.launchAll.same (by dsimp only)

theorem State.Canonical.execDispatchDecision (h : s.Canonical) : OutcomeOk (execDispatchDecision s) := by
  unfold Machine.execDispatchDecision
  split
  · trivial
  exact h.decision

/-! ### HBM4E -/

theorem State.Canonical.orderQueues (h : s.Canonical) : (s.orderQueues).Canonical := h.same rfl

theorem State.Canonical.endCopy {c id : Nat} (h : s.Canonical) : (s.endCopy c id).Canonical := by
  unfold State.endCopy
  dsimp only
  exact h.dropReqs.modCore

theorem State.Canonical.failReq {r : Req} {pa : Nat} (h : s.Canonical) : (s.failReq r pa).Canonical := by
  unfold State.failReq
  dsimp only
  split
  · exact h.dropReq.emitOut
  split
  · exact h.dropReq.endCopy.memoryFails
  · exact h.dropReq.endCopy.memoryFails
  exact h.dropReq.memoryFails

theorem State.Canonical.serveAt {n : Nat} {r : Req} {pa key : Nat} (h : s.Canonical) : (s.serveAt n r pa key).Canonical := by
  unfold State.serveAt
  dsimp only
  refine .serveMem ?_
  split
  · exact h.modChannel.countBytes.markIfHot
  exact h.modChannel.countBytes.markIfHot.fillBuffer

theorem State.Canonical.useSlot {n : Nat} {p : Nat × Nat} (h : s.Canonical) : (s.useSlot n p).Canonical := by
  unfold State.useSlot
  dsimp only
  exact h.modChannel.drawSlot

theorem State.Canonical.transfer {n : Nat} {r : Req} {pa key : Nat} {link : LinkResult} (h : s.Canonical) :
    (s.transfer n r pa key link).Canonical := by
  unfold State.transfer
  dsimp only
  split
  · exact h.useSlot.modChannel.serveAt
  split
  · exact h.useSlot.modChannel.failReq.rescaleAll
  exact h.useSlot.modChannel.failReq

theorem State.Canonical.execHbmSlotService {channel : Nat} {link : LinkResult} (h : s.Canonical) : OutcomeOk (execHbmSlotService channel link s) := by
  unfold Machine.execHbmSlotService
  dsimp only
  split
  · trivial
  split
  · split
    · trivial
    split
    · exact h.failReq
    trivial
  split
  · trivial
  split
  · split
    · trivial
    exact h.modChannel
  split
  · exact h.transfer
  trivial

theorem State.Canonical.markStack {stack : Nat} (h : s.Canonical) : (s.markStack stack).Canonical := by
  unfold State.markStack
  dsimp only
  exact State.Canonical.same (.foldl (fun _ _ ht => ht.markHot) h) (by dsimp only)

theorem State.Canonical.execThermalHoldEnter {stack : Nat} (h : s.Canonical) : OutcomeOk (execThermalHoldEnter stack s) := by
  unfold Machine.execThermalHoldEnter
  dsimp only
  split
  · trivial
  exact .markStack (h.same rfl)

theorem State.Canonical.execThermalHoldExit {stack : Nat} (h : s.Canonical) : OutcomeOk (execThermalHoldExit stack s) := by
  unfold Machine.execThermalHoldExit
  dsimp only
  split
  · trivial
  exact h.markStack.same (by dsimp only)

/-! ### Power units -/

theorem State.Canonical.failBands (h : s.Canonical) : (s.failBands).Canonical := by
  unfold State.failBands
  dsimp only
  exact .foldl (fun _ _ ht => ht.draw.modDie) h

theorem State.Canonical.sendUnits {d e n : Nat} {loan : Bool} (h : s.Canonical) : (s.sendUnits d e n loan).Canonical := by
  unfold State.sendUnits
  dsimp only
  split
  · exact h
  exact h.drawDue.modDie.modDie

theorem State.Canonical.repay {d : Nat} (h : s.Canonical) : (s.repay d).Canonical := by
  unfold State.repay
  dsimp only
  refine .foldl (fun t _ ht => ?_) h
  split
  · exact ht
  exact ht.sendUnits.modDie

theorem State.Canonical.borrow {d : Nat} (h : s.Canonical) : (s.borrow d).Canonical := by
  unfold State.borrow
  dsimp only
  exact .foldl_fst (fun _ _ hx => hx.sendUnits) h

theorem State.Canonical.execPowerOfferTick (h : s.Canonical) : OutcomeOk (execPowerOfferTick s) := by
  unfold Machine.execPowerOfferTick
  dsimp only
  split
  · trivial
  exact State.Canonical.same (.foldl (fun _ _ ht => ht.borrow) (.foldl (fun _ _ ht => ht.repay) h.failBands)) (by dsimp only)

theorem State.Canonical.execPowerRebalance (h : s.Canonical) : OutcomeOk (Machine.execPowerRebalance s) := by
  unfold Machine.execPowerRebalance
  dsimp only
  split
  · trivial
  change State.Canonical _
  refine State.Canonical.same (.foldl ?_ (.foldl ?_ h)) (by dsimp only)
  · exact fun _ _ ht => ht.same rfl
  · exact fun _ _ ht => ht.same rfl

theorem State.Canonical.powerArrivals (h : s.Canonical) : (s.powerArrivals).Canonical := h.same rfl

/-! ### Answers, invalidations and migration -/

theorem State.Canonical.signalAnswer {q : Nat} {f : Report → Report} (h : s.Canonical) : (s.signalAnswer q f).Canonical := by
  unfold State.signalAnswer
  dsimp only
  exact h.modCq.flushSignals

theorem State.Canonical.retryWait {w : RingWait} (h : s.Canonical) : (s.retryWait w).Canonical := by
  unfold State.retryWait
  dsimp only
  split
  · exact h
  · exact h.same rfl
  · exact h.modCore
  · exact h.modCore
  · exact h.modCore
  · exact h.modCore
  · split
    · exact h.evalWait
    exact h
  · split
    · split
      · exact h.modQueue.markWrite
      exact h
    exact h
  · exact h.signalAnswer
  · exact h.modTask
  split
  · exact h.handlerStart
  exact h

theorem State.Canonical.abortAccess {c task : Nat} {committed : Bool} {q : SeqId} {pc va kind : Nat} (h : s.Canonical) :
    (s.abortAccess c task committed q pc va kind).Canonical := by
  unfold State.abortAccess
  dsimp only
  exact h.lateFault

theorem State.Canonical.abortWait {w : RingWait} (h : s.Canonical) : (s.abortWait w).Canonical := by
  unfold State.abortWait
  split
  · exact h
  · split
    · split
      · exact h.dropReq.abortAccess
      exact h
    exact h
  · split
    · split
      · exact h
      split
      · exact h.submitFails
      split
      · exact h.modCore.abortAccess
      exact h.abortAccess
    exact h
  · split
    · split
      · exact h
      split
      · exact h.modCore.abortAccess
      exact h.abortAccess
    exact h
  · split
    · exact h.abortAccess
    exact h
  · split
    · exact h.setFetched
    exact h
  · split
    · exact h.modQueue
    exact h
  · split
    · exact h.advanceQueue
    exact h
  · exact h.signalAnswer
  · split
    · exact h.failTask
    exact h
  split
  · exact h.doubleTrap
  exact h

theorem State.Canonical.takeAnswer {ring index : Nat} (h : s.Canonical) {t : State} {w : RingWait} (e : s.takeAnswer ring index = some (t, w)) :
    t.Canonical := by
  unfold State.takeAnswer at e
  obtain ⟨o, -, he⟩ := Option.map_eq_some_iff.mp e
  injection he with ht _
  exact ht ▸ h.same rfl

theorem State.Canonical.execRetry {ring index : Nat} (h : s.Canonical) : OutcomeOk (execRetry ring index s) := by
  unfold Machine.execRetry
  split
  · trivial
  split
  · exact h
  · next t _ e1 =>
      have ht : t.Canonical := h.takeAnswer e1
      change State.Canonical _
      split
      · exact ht.retryWait
      exact h

theorem State.Canonical.execAbort {ring index : Nat} (h : s.Canonical) : OutcomeOk (execAbort ring index s) := by
  unfold Machine.execAbort
  split
  · trivial
  split
  · exact h
  · next t _ e1 =>
      have ht : t.Canonical := h.takeAnswer e1
      change State.Canonical _
      split
      · exact ht.abortWait
      exact h

theorem State.Canonical.dropAll {gone : TlbEntry → Bool} (h : s.Canonical) : (s.dropAll gone).Canonical := h.same rfl

theorem State.Canonical.htlbi {k : Nat} {page : Option Nat} (h : s.Canonical) : (s.htlbi k page).Canonical := by
  unfold State.htlbi
  dsimp only
  exact h.drawDue.modCasement

theorem State.Canonical.s2inv {k : Nat} {ipa : Option Nat} (h : s.Canonical) : (s.s2inv k ipa).Canonical := by
  unfold State.s2inv
  dsimp only
  exact h.drawDue.modCasement

theorem State.Canonical.execHtlbiCasement {casement : Nat} (h : s.Canonical) :
    OutcomeOk (Machine.execHtlbiCasement casement s) := h.managerCommand h.htlbi

theorem State.Canonical.execHtlbiPage {casement va : Nat} (h : s.Canonical) :
    OutcomeOk (Machine.execHtlbiPage casement va s) := h.managerCommand h.htlbi

theorem State.Canonical.execS2invAll {casement : Nat} (h : s.Canonical) : OutcomeOk (Machine.execS2invAll casement s) := h.managerCommand h.s2inv

theorem State.Canonical.execS2invIpa {casement ipa : Nat} (h : s.Canonical) : OutcomeOk (Machine.execS2invIpa casement ipa s) := by
  unfold Machine.execS2invIpa
  split
  · trivial
  exact h.managerCommand h.s2inv

theorem State.Canonical.endInvalidation {k : Nat} (h : s.Canonical) : (s.endInvalidation k).Canonical := by
  unfold State.endInvalidation
  dsimp only
  refine .foldl (fun t _ ht => ?_) (.foldl (fun t _ ht => ?_) h)
  · split
    · exact ht
    exact ht.dropAll.modCasement
  · split
    · exact ht
    exact ht.dropAll.modCasement

theorem State.Canonical.endInvalidations (h : s.Canonical) : (s.endInvalidations).Canonical := by
  unfold State.endInvalidations
  exact .foldl (fun _ _ ht => ht.endInvalidation) h

theorem State.Canonical.execMigrationStart {oldPa newPa size : Nat} (h : s.Canonical) : OutcomeOk (execMigrationStart oldPa newPa size s) := by
  unfold Machine.execMigrationStart
  dsimp only
  split
  · exact h
  exact h.same rfl

theorem State.Canonical.applyHeldWrite {r : StoreRec} {o n : Nat} (h : s.Canonical) : (s.applyHeldWrite r o n).Canonical := by
  unfold State.applyHeldWrite
  dsimp only
  split
  · split
    · split
      · exact h.serveMem
      exact h
    exact h
  exact .foldStores (.countBytes (.notifyLines (.modDie (h.same rfl))))

theorem State.Canonical.carryPage (h : s.Canonical) : (s.carryPage).Canonical := by
  unfold State.carryPage
  dsimp only
  split
  · exact h
  split
  · exact h
  split
  · exact h
  split
  · exact h
  exact h.drawSlot.drawSlot.same (by dsimp only)

theorem State.Canonical.execMigrationSwitch (h : s.Canonical) : OutcomeOk (execMigrationSwitch s) := by
  unfold Machine.execMigrationSwitch
  dsimp only
  split
  · trivial
  split
  · trivial
  exact .foldl (fun _ _ ht => ht.applyHeldWrite) (h.copyPage.same (by dsimp only))

theorem State.Canonical.execMigrationRelease (h : s.Canonical) : OutcomeOk (execMigrationRelease s) := by
  unfold Machine.execMigrationRelease
  split
  · exact h
  change State.Canonical _
  split
  · exact h.same rfl
  exact h

/-! ### The endpoint -/

theorem State.Canonical.sessionPinned {x : Session} (h : s.Canonical) : (s.sessionPinned x).Canonical := by
  unfold State.sessionPinned
  refine h.rangePinned.bind fun t a ht => ?_
  split
  · exact ht
  split
  · exact ht
  exact ht.readRange.bind fun _ _ hu => hu.rangePinned

theorem State.Canonical.openSession {n : Nat} (h : s.Canonical) : (s.openSession n).Canonical := by
  unfold State.openSession
  dsimp only
  split
  · exact h
  split
  · next t e1 =>
      have ht : t.Canonical := h.sessionPinned.of_ok e1
      exact .modSession (ht.same rfl)
  · next e1 => exact h.sessionPinned.of_ok e1
  · next e1 => exact h.sessionPinned.of_fault e1
  · next e1 => exact h.sessionPinned.of_check e1
  · next t e1 =>
      have ht : t.Canonical := h.sessionPinned.of_wait e1
      exact ht.same rfl

theorem State.Canonical.openWaiting (h : s.Canonical) : (s.openWaiting).Canonical := by
  unfold State.openWaiting
  exact .foldl (fun _ _ ht => ht.openSession) (h.same rfl)

theorem State.Canonical.execSessionOpen {session : Nat} (h : s.Canonical) : OutcomeOk (execSessionOpen session s) := by
  unfold Machine.execSessionOpen
  split
  · trivial
  change State.Canonical _
  split
  · exact h.openSession
  exact h

theorem State.Canonical.execSessionClose {session : Nat} (h : s.Canonical) : OutcomeOk (execSessionClose session s) := by
  unfold Machine.execSessionClose
  split
  · trivial
  change State.Canonical _
  split
  · exact h.modSession
  exact h

theorem State.Canonical.reachPieces {k : Nat} {l : List (Nat × Nat)} {s : State} (h : s.Canonical) : (s.reachPieces k l).Canonical := by
  induction l generalizing s with
  | nil => exact h
  | cons r l ih =>
    unfold State.reachPieces
    split
    · next t e => exact (h.devTranslate.of_wait e : t.Canonical)
    · next t e => exact (h.devTranslate.of_check e : t.Canonical)
    · next t _ e => exact (h.devTranslate.of_fault e : t.Canonical)
    · next t _ e =>
        have ht : t.Canonical := h.devTranslate.of_ok e
        split
        · exact ht
        exact ht.devTouch.bind fun _ _ hu => (ih hu).bind fun _ _ hv => hv

theorem State.Canonical.landMessage {bytes : List W8} {pieces : List (Nat × Nat × Nat)} (h : s.Canonical) :
    (s.landMessage bytes pieces).Canonical := by
  unfold State.landMessage
  exact .foldl_fst (fun _ _ hx => hx.storeBytes) h

theorem State.Canonical.countIngress {k bytes : Nat} (h : s.Canonical) : (s.countIngress k bytes).Canonical := by
  unfold State.countIngress
  exact h.modCasement

theorem State.Canonical.ingress {n : Nat} {payload : List W8} (h : s.Canonical) : (s.ingress n payload).Canonical := by
  unfold State.ingress
  dsimp only
  split
  · exact h.modSession
  split
  · next e1 => exact h.reachPieces.of_wait e1
  · next t e1 =>
      have ht : t.Canonical := h.reachPieces.of_check e1
      exact ht.modSession
  · next t _ e1 =>
      have ht : t.Canonical := h.reachPieces.of_fault e1
      exact ht.modSession
  · next t _ _ e1 =>
      have ht : t.Canonical := h.reachPieces.of_ok e1
      exact ht.report.modSession
  · next t _ e1 =>
      have ht : t.Canonical := h.reachPieces.of_ok e1
      exact ht.landMessage.countIngress.modSession.countBytes

theorem State.Canonical.arrive {n : Nat} {payload : List W8} (h : s.Canonical) : (s.arrive n payload).Canonical := by
  unfold State.arrive
  dsimp only
  split
  · exact h
  split
  · exact h.same rfl
  split
  · next e2 => exact h.ingress.of_ok e2
  · next t e2 =>
      have ht : t.Canonical := h.ingress.of_wait e2
      exact ht.same rfl
  · next e2 => exact h.ingress.of_fault e2
  · next e2 => exact h.ingress.of_check e2

theorem State.Canonical.landWaiting (h : s.Canonical) : (s.landWaiting).Canonical := by
  unfold State.landWaiting
  exact .foldl (fun _ _ ht => ht.arrive) (h.same rfl)

theorem State.Canonical.execSessionIngress {session : Nat} {head : SesHead} {payload : List W8} (h : s.Canonical) :
    OutcomeOk (execSessionIngress session head payload s) := by
  unfold Machine.execSessionIngress
  dsimp only
  split
  · exact h
  split
  · exact h.emitOut
  split
  · exact h
  exact h.arrive

theorem State.Canonical.execChunkAtEndpoint {id : Nat} (h : s.Canonical) : OutcomeOk (execChunkAtEndpoint id s) := by
  unfold Machine.execChunkAtEndpoint
  dsimp only
  split
  · trivial
  split
  · trivial
  split
  · exact h.same rfl
  split
  · exact .modSession (h.same rfl)
  exact .modSession (.sendChunk (h.same rfl))

theorem State.Canonical.writeLinks {port : Nat} {value : W64} (h : s.Canonical) : (s.writeLinks port value).Canonical := by
  unfold State.writeLinks
  dsimp only
  split
  · exact h
  exact h.same rfl

theorem State.Canonical.execSublinkTableWrite {port : Nat} {value : W64} (h : s.Canonical) : OutcomeOk (execSublinkTableWrite port value s) := by
  unfold Machine.execSublinkTableWrite
  split
  · trivial
  change State.Canonical _
  split
  · exact h.writeLinks
  exact h

theorem State.Canonical.execSublinkRetire {port lane : Nat} (h : s.Canonical) : OutcomeOk (execSublinkRetire port lane s) := by
  unfold Machine.execSublinkRetire
  dsimp only
  split
  · trivial
  exact .rescaleAll (h.same rfl)

theorem State.Canonical.execPtpSync {grandmaster : Nat} (h : s.Canonical) : OutcomeOk (execPtpSync grandmaster s) := by
  unfold Machine.execPtpSync
  dsimp only
  split
  · trivial
  split
  · exact .foldl (fun _ _ ht => ht.writeAnchor) (h.same rfl)
  exact h.same rfl

theorem State.Canonical.execHoldover (h : s.Canonical) : OutcomeOk (execHoldover s) := by
  unfold Machine.execHoldover
  dsimp only
  split
  · trivial
  exact h.same rfl

theorem State.Canonical.execPtpPortRebind (h : s.Canonical) : OutcomeOk (execPtpPortRebind s) := by
  unfold Machine.execPtpPortRebind
  dsimp only
  split
  · trivial
  exact h.same rfl

theorem State.Canonical.execEthernetPortStateChange {port : Nat} {up : Bool} (h : s.Canonical) :
    OutcomeOk (execEthernetPortStateChange port up s) := by
  unfold Machine.execEthernetPortStateChange
  dsimp only
  split
  · trivial
  change State.Canonical _
  split
  · exact h.same rfl
  exact .rescaleAll (h.same rfl)

theorem State.Canonical.execFleetAnchorRewrite {casement : Nat} (h : s.Canonical) : OutcomeOk (execFleetAnchorRewrite casement s) := by
  unfold Machine.execFleetAnchorRewrite
  split
  · trivial
  exact h.writeAnchor

/-! ### Losses -/

theorem State.Canonical.execDieHeartbeat {die : Nat} (h : s.Canonical) : OutcomeOk (execDieHeartbeat die s) := by
  unfold Machine.execDieHeartbeat
  dsimp only
  split
  · trivial
  exact h.modDie

theorem State.Canonical.execClockLockLoss {die : Nat} (h : s.Canonical) : OutcomeOk (execClockLockLoss die s) := by
  unfold Machine.execClockLockLoss
  split
  · trivial
  exact h.modDie

theorem State.Canonical.execHingeClockLoss (h : s.Canonical) : OutcomeOk (execHingeClockLoss s) := by
  unfold Machine.execHingeClockLoss
  dsimp only
  exact .emitOut (h.same rfl)

theorem State.Canonical.fence {d : Nat} (h : s.Canonical) : (s.fence d).Canonical := h.same rfl

theorem State.Canonical.clearDie {d : Nat} (h : s.Canonical) : (s.clearDie d).Canonical := by
  unfold State.clearDie
  dsimp only
  exact .modDie (h.same rfl)

theorem State.Canonical.retireDie {d : Nat} (h : s.Canonical) : (s.retireDie d).Canonical := by
  unfold State.retireDie
  dsimp only
  exact .modDie (h.same rfl)

theorem State.Canonical.dropExchanges {t : Nat} (h : s.Canonical) : (s.dropExchanges t).Canonical := h.same rfl

theorem State.Canonical.leaveCore {c t : Nat} (h : s.Canonical) : (s.leaveCore c t).Canonical := by
  unfold State.leaveCore
  dsimp only
  split
  · exact h.modCore
  exact h.abandon.modCore.modCore

theorem State.Canonical.promoteCore {t : Task} {n beat rank : Nat} (h : s.Canonical) : (s.promoteCore t n beat rank).Canonical := by
  unfold State.promoteCore
  dsimp only
  split
  · exact h
  exact h.drawDue.catchUp.modCore.same (by dsimp only)

theorem State.Canonical.alignViews {k d : Nat} (h : s.Canonical) : (s.alignViews k d).Canonical := by
  unfold State.alignViews
  dsimp only
  exact h.modCasement

theorem State.Canonical.promote {t : Task} {d beat : Nat} (h : s.Canonical) : (s.promote t d beat).Canonical := by
  unfold State.promote
  dsimp only
  split
  · exact h.faultPolicy
  refine .modTask (State.Canonical.same (.foldl (fun _ _ hu => hu.promoteCore) (.bringUnits ?_)) (by dsimp only))
  exact .foldl (fun _ _ hu => hu.leaveCore) h.dropExchanges.alignViews

theorem State.Canonical.settleLoss {d beat : Nat} (h : s.Canonical) : (s.settleLoss d beat).Canonical := by
  unfold State.settleLoss
  refine .foldl (fun t _ ht => ?_) h
  split
  · split
    · exact ht.faultPolicy
    exact ht.promote
  split
  · exact ht.modTask
  exact ht

theorem State.Canonical.execDieLossDeclared {die : Nat} (h : s.Canonical) : OutcomeOk (execDieLossDeclared die s) := by
  unfold Machine.execDieLossDeclared
  dsimp only
  split
  · trivial
  exact h.fence.clearDie.settleLoss.foldStores.rescaleAll

theorem State.Canonical.clearUnit {a : RetireUnit} (h : s.Canonical) : (s.clearUnit a).Canonical := by
  unfold State.clearUnit
  split
  · exact h.same rfl
  · exact h.retireDie
  · exact h.same rfl
  exact h.modChannel

theorem State.Canonical.execFirmwareRetirement {unit : RetireUnit} (h : s.Canonical) : OutcomeOk (execFirmwareRetirement unit s) := by
  unfold Machine.execFirmwareRetirement
  split
  · trivial
  exact h.clearUnit.rescaleAll

/-! ### Boot and resets -/

theorem State.Canonical.startDies (h : s.Canonical) : (s.startDies).Canonical := by
  unfold State.startDies
  dsimp only
  exact .foldl (fun _ _ ht => ht.draw.modDie) h

theorem State.Canonical.alignAllViews (h : s.Canonical) : (s.alignAllViews).Canonical := h.same rfl

theorem State.Canonical.stageWork {stage : Nat} (h : s.Canonical) : (s.stageWork stage).Canonical := by
  unfold State.stageWork
  dsimp only
  split
  · exact h.startDies
  · exact h.same rfl
  · exact h.alignAllViews.same (by dsimp only)
  · exact h.same rfl
  exact h

theorem State.Canonical.toStage {stage : Nat} (h : s.Canonical) : (s.toStage stage).Canonical := by
  unfold State.toStage
  dsimp only
  exact .stageWork (h.same rfl)

theorem State.Canonical.execBootStage (h : s.Canonical) : OutcomeOk (execBootStage s) := by
  unfold Machine.execBootStage
  dsimp only
  split
  · trivial
  split
  · trivial
  split
  · exact h.same rfl
  · split
    · exact h.toStage
    exact h.same rfl
  · split
    · exact h.toStage
    exact h.same rfl
  exact h.toStage

theorem State.Canonical.execFuseAdvance {svn : Nat} (h : s.Canonical) : OutcomeOk (execFuseAdvance svn s) := by
  unfold Machine.execFuseAdvance
  dsimp only
  split
  · exact h.same rfl
  exact h

theorem State.Canonical.settleMemory (h : s.Canonical) : (s.settleMemory).Canonical := by
  unfold State.settleMemory
  dsimp only
  exact State.Canonical.same (.foldl (fun _ _ ht => ht.foldBytes) h) (by dsimp only)

theorem State.Canonical.dealUnits (h : s.Canonical) : (s.dealUnits).Canonical := h.same rfl

theorem State.Canonical.failAll (h : s.Canonical) : (s.failAll).Canonical := by
  unfold State.failAll
  exact .foldl (fun _ _ ht => ht.retireWith) h

theorem State.Canonical.warmReset (h : s.Canonical) : (s.warmReset).Canonical := by
  unfold State.warmReset
  dsimp only
  refine .foldl (fun t _ ht => ?_) (h.failAll.settleMemory.dealUnits.drawDue.same (by dsimp only))
  split
  · exact ht.maybeDrained.maybeErase.startScrub
  exact ht.maybeDrained.maybeErase

theorem State.Canonical.execWarmReset (h : s.Canonical) : OutcomeOk (execWarmReset s) := by
  unfold Machine.execWarmReset
  split
  · exact h
  exact h.warmReset

theorem State.Canonical.coldReset (h : s.Canonical) : (s.coldReset).Canonical := by
  unfold State.coldReset
  dsimp only
  exact h.settleMemory.same (by dsimp only)

theorem State.Canonical.execVfFlr {vf : Nat} (h : s.Canonical) : OutcomeOk (execVfFlr vf s) := by
  unfold Machine.execVfFlr
  split
  · trivial
  change State.Canonical _
  split
  · exact h.stopQueues
  exact h

/-! ### Control -/

theorem State.Canonical.branchWord {w : Nat} {hd : Hdr} {uses : List (BitVec 5)} {k : BitVec w} {taken : Ctx → Bool} (h : s.Canonical) :
    OutcomeOk (branchWord hd uses k taken s) := by
  unfold Machine.branchWord
  exact h.issue fun _ => h.jump

theorem State.Canonical.execLoop {hd : Hdr} {a : BitVec 5} {k : BitVec 14} (h : s.Canonical) : OutcomeOk (execLoop hd a k s) := by
  unfold Machine.execLoop
  dsimp only
  exact h.issue fun _ => h.land.jump

theorem State.Canonical.execJal {hd : Hdr} {k : BitVec 19} (h : s.Canonical) : OutcomeOk (execJal hd k s) := by
  unfold Machine.execJal
  dsimp only
  exact h.issue fun _ => h.modCore.land.jump

theorem State.Canonical.execJr {hd : Hdr} {a : BitVec 5} (h : s.Canonical) : OutcomeOk (execJr hd a s) := by
  unfold Machine.execJr
  dsimp only
  refine h.issue fun x => ?_
  split
  · trivial
  exact h.jump

theorem State.Canonical.execBstat {hd : Hdr} {a b : BitVec 5} {k : BitVec 9} (h : s.Canonical) : OutcomeOk (execBstat hd a b k s) := by
  unfold Machine.execBstat
  dsimp only
  refine h.issue fun x => ?_
  split
  · exact h.jump
  split
  · trivial
  split
  · trivial
  split
  · split
    · trivial
    exact h
  exact h.modCore.jump

/-! ### The host port -/

theorem State.Canonical.hostPerform {slot pa : Nat} {op : HostOp} (h : s.Canonical) : (s.hostPerform slot pa op).Canonical := by
  unfold State.hostPerform
  dsimp only
  split
  · exact h.emitOut
  · exact h.storeBytes
  exact h.emitOut.storeBytes

theorem State.Canonical.hostDiscard {op : HostOp} (h : s.Canonical) : (s.hostDiscard op).Canonical := by
  unfold State.hostDiscard
  split
  · exact h
  exact h.emitOut

theorem State.Canonical.hostTouch {pa : Nat} {op : HostOp} (h : s.Canonical) : (s.hostTouch pa op).Canonical := by
  unfold State.hostTouch
  dsimp only
  exact h.touch

theorem State.Canonical.hostMemory {fn : HostFn} {secure : Bool} {pa : Nat} {access : HostOp} (h : s.Canonical) :
    OutcomeOk (s.hostMemory fn secure pa access) := by
  unfold State.hostMemory
  dsimp only
  split
  · trivial
  split
  · trivial
  split
  · exact h.hostDiscard
  split
  · next t e3 =>
      have ht : t.Canonical := h.hostTouch.of_ok e3
      exact ht.hostPerform
  · next t _ e3 =>
      have ht : t.Canonical := h.hostTouch.of_check e3
      exact ht.emitOut
  trivial

theorem State.Canonical.hostBar {fn : HostFn} {secure : Bool} {off n : Nat} (h : s.Canonical) : (s.hostBar fn secure off n).Canonical := by
  unfold State.hostBar
  dsimp only
  exact .emitOut (h.same rfl)

theorem State.Canonical.execHostAccess {fn : HostFn} {secure : Bool} {pa : Nat} {access : HostOp} (h : s.Canonical) :
    OutcomeOk (execHostAccess fn secure pa access s) := by
  unfold Machine.execHostAccess
  split
  · split
    · trivial
    exact h.hostBar
  exact h.hostMemory

theorem State.Canonical.writeQueueReg {fn : HostFn} {q r v : Nat} {low : Bool} (h : s.Canonical) : (s.writeQueueReg fn q r v low).Canonical := by
  unfold State.writeQueueReg
  dsimp only
  split
  · exact h
  split
  · split
    · exact h.modQueue
    exact h
  · split
    · refine .modQueue ?_
      split
      · exact h.modQueue
      exact h
    split
    · exact h.modQueue
    exact h
  · exact h.writeQwr
  · split
    · exact h.modQueue
    exact h
  exact h

theorem State.Canonical.writeCqReg {c r v : Nat} (h : s.Canonical) : (s.writeCqReg c r v).Canonical := by
  unfold State.writeCqReg
  split
  · exact h.modCq
  · exact h.modCq
  · exact h.modCq
  exact h

theorem State.Canonical.writeRingReg {i r v : Nat} {low : Bool} (h : s.Canonical) : (s.writeRingReg i r v low).Canonical := by
  unfold State.writeRingReg
  dsimp only
  split
  · exact h.same rfl
  · exact h.same rfl
  · exact h.same rfl
  · split
    · exact h
    split
    · exact h
    · next t _ e1 =>
        have ht : t.Canonical := h.takeAnswer e1
        split
        · exact ht.abortWait
        exact ht.retryWait
  exact h

theorem State.Canonical.writeTranslationReg {fn : HostFn} {k r v : Nat} {low : Bool} (h : s.Canonical) :
    (s.writeTranslationReg fn k r v low).Canonical := by
  unfold State.writeTranslationReg
  split
  · exact h
  split
  · exact h.modCasement
  · split
    · exact h.modCasement
    exact h
  · split
    · exact h
    split
    · exact h.htlbi
    split
    · exact h.htlbi
    exact h
  · split
    · exact h
    split
    · exact h.s2inv
    split
    · exact h.s2inv
    exact h
  exact h

theorem State.Canonical.writeQuotas {k : Nat} {fs : List (QuotaField × Nat)} (h : s.Canonical) : (s.writeQuotas k fs).Canonical := by
  unfold State.writeQuotas
  dsimp only
  split
  · exact h.modCasement
  exact h.modCasement.modCasement.endRefusal

theorem State.Canonical.writeCasementReg {k r v : Nat} {low : Bool} (h : s.Canonical) : (s.writeCasementReg k r v low).Canonical := by
  unfold State.writeCasementReg
  dsimp only
  split
  · exact h.modCasement
  · split
    · exact h
    split
    · exact h.refuseCommand
    exact h.casementCommand
  split
  · exact h
  exact h.writeQuotas

theorem State.Canonical.writeEndpointReg {r v : Nat} (h : s.Canonical) : (s.writeEndpointReg r v).Canonical := by
  unfold State.writeEndpointReg
  dsimp only
  split
  · exact h.same rfl
  split
  · exact h.writeLinks
  exact h

theorem State.Canonical.writeChannelReg {n r v : Nat} {low : Bool} (h : s.Canonical) : (s.writeChannelReg n r v low).Canonical := by
  unfold State.writeChannelReg
  dsimp only
  split
  · exact h.modChannel
  · exact h.modChannel
  exact h

theorem State.Canonical.writeSessionReg {fn : HostFn} {n r v : Nat} (h : s.Canonical) : (s.writeSessionReg fn n r v).Canonical := by
  unfold State.writeSessionReg
  dsimp only
  split
  · exact h
  split
  · split
    · exact h.modSession
    exact h
  split
  · split
    · exact h.modSession.openSession
    exact h.modSession
  · exact h.modSession
  · exact h.modSession
  · exact h.modSession
  · exact h.modSession
  · exact h.modSession
  · exact h.modSession
  exact h

theorem State.Canonical.hostWrite {fn : HostFn} {secure : Bool} {off v : Nat} {low : Bool} (h : s.Canonical) :
    (s.hostWrite fn secure off v low).Canonical := by
  unfold State.hostWrite
  split
  · split
    · exact h
    split
    · exact h.warmReset
    split
    · exact h.coldReset
    exact h
  split
  · exact h
  split
  · exact h.writeQueueReg
  split
  · split
    · exact h.writeCqReg
    exact h
  split
  · exact h.writeRingReg
  split
  · exact h.writeTranslationReg
  split
  · split
    · exact h.writeCasementReg
    exact h
  split
  · split
    · exact h.writeEndpointReg
    exact h
  split
  · split
    · exact h.writeChannelReg
    exact h
  split
  · exact h.writeSessionReg
  exact h

theorem State.Canonical.execRegisterWrite {fn : HostFn} {secure : Bool} {offset : Nat} {value : W64} (h : s.Canonical) :
    OutcomeOk (execRegisterWrite fn secure offset value s) := by
  unfold Machine.execRegisterWrite
  dsimp only
  split
  · trivial
  split <;> exact h.hostWrite

/-! ### The instructions -/

theorem State.Canonical.exec {i : Instr} (h : s.Canonical) : OutcomeOk (Machine.exec i s) := by
  cases i with
  | nop => exact .of_eq (exec_nop ..) h.execNop
  | trap => exact .of_eq (exec_trap ..) h.execTrap
  | eret => exact .of_eq (exec_eret ..) h.execEret
  | eretSa => exact .of_eq (exec_eretSa ..) h.execEretSa
  | brk => exact .of_eq (exec_brk ..) h.execBrk
  | fenceFull => exact .of_eq (exec_fenceFull ..) h.fenceWord
  | fenceAcq => exact .of_eq (exec_fenceAcq ..) h.fenceWord
  | fenceRel => exact .of_eq (exec_fenceRel ..) h.fenceWord
  | xfence => exact .of_eq (exec_xfence ..) h.execXfence
  | step => exact .of_eq (exec_step ..) h.execStep
  | realign => exact .of_eq (exec_realign ..) h.execRealign
  | rcmt => exact .of_eq (exec_rcmt ..) h.execRcmt
  | tail => exact .of_eq (exec_tail ..) h.execTail
  | msel => exact .of_eq (exec_msel ..) h.execMsel
  | idle => exact .of_eq (exec_idle ..) h.execIdle
  | rgnT => exact .of_eq (exec_rgnT ..) h.rgnWord
  | rgn => exact .of_eq (exec_rgn ..) h.rgnWord
  | csrr => exact .of_eq (exec_csrr ..) h.execCsrr
  | csrw => exact .of_eq (exec_csrw ..) h.execCsrw
  | add => exact .of_eq (exec_add ..) h.scalarR
  | sub => exact .of_eq (exec_sub ..) h.scalarR
  | and => exact .of_eq (exec_and ..) h.scalarR
  | or => exact .of_eq (exec_or ..) h.scalarR
  | xor => exact .of_eq (exec_xor ..) h.scalarR
  | shl => exact .of_eq (exec_shl ..) h.scalarR
  | shr => exact .of_eq (exec_shr ..) h.scalarR
  | sra => exact .of_eq (exec_sra ..) h.scalarR
  | slt => exact .of_eq (exec_slt ..) h.scalarR
  | sltu => exact .of_eq (exec_sltu ..) h.scalarR
  | min => exact .of_eq (exec_min ..) h.scalarR
  | max => exact .of_eq (exec_max ..) h.scalarR
  | minu => exact .of_eq (exec_minu ..) h.scalarR
  | maxu => exact .of_eq (exec_maxu ..) h.scalarR
  | mul => exact .of_eq (exec_mul ..) h.scalarR
  | mulh => exact .of_eq (exec_mulh ..) h.scalarR
  | mulhu => exact .of_eq (exec_mulhu ..) h.scalarR
  | div => exact .of_eq (exec_div ..) h.scalarR
  | divu => exact .of_eq (exec_divu ..) h.scalarR
  | rem => exact .of_eq (exec_rem ..) h.scalarR
  | remu => exact .of_eq (exec_remu ..) h.scalarR
  | clz => exact .of_eq (exec_clz ..) h.scalarBits
  | ffs => exact .of_eq (exec_ffs ..) h.scalarBits
  | popc => exact .of_eq (exec_popc ..) h.scalarBits
  | addi => exact .of_eq (exec_addi ..) h.scalarI
  | andi => exact .of_eq (exec_andi ..) h.scalarI
  | ori => exact .of_eq (exec_ori ..) h.scalarI
  | xori => exact .of_eq (exec_xori ..) h.scalarI
  | slti => exact .of_eq (exec_slti ..) h.scalarI
  | shli => exact .of_eq (exec_shli ..) h.scalarI
  | shri => exact .of_eq (exec_shri ..) h.scalarI
  | srai => exact .of_eq (exec_srai ..) h.scalarI
  | li => exact .of_eq (exec_li ..) h.execLi
  | lit => exact .of_eq (exec_lit ..) h.scalarLit
  | lith => exact .of_eq (exec_lith ..) h.scalarLit
  | ldB => exact .of_eq (exec_ldB ..) h.loadWord
  | ldBu => exact .of_eq (exec_ldBu ..) h.loadWord
  | ldH => exact .of_eq (exec_ldH ..) h.loadWord
  | ldHu => exact .of_eq (exec_ldHu ..) h.loadWord
  | ldW => exact .of_eq (exec_ldW ..) h.loadWord
  | ldWu => exact .of_eq (exec_ldWu ..) h.loadWord
  | ldD => exact .of_eq (exec_ldD ..) h.loadWord
  | ldDAq => exact .of_eq (exec_ldDAq ..) h.loadWord
  | stB => exact .of_eq (exec_stB ..) h.storeWord
  | stH => exact .of_eq (exec_stH ..) h.storeWord
  | stW => exact .of_eq (exec_stW ..) h.storeWord
  | stD => exact .of_eq (exec_stD ..) h.storeWord
  | stWRl => exact .of_eq (exec_stWRl ..) h.storeWord
  | stDRl => exact .of_eq (exec_stDRl ..) h.storeWord
  | amocAdd => exact .of_eq (exec_amocAdd ..) h.amocWord
  | amocAnd => exact .of_eq (exec_amocAnd ..) h.amocWord
  | amocOr => exact .of_eq (exec_amocOr ..) h.amocWord
  | amocXor => exact .of_eq (exec_amocXor ..) h.amocWord
  | amocXchg => exact .of_eq (exec_amocXchg ..) h.amocWord
  | amocMax => exact .of_eq (exec_amocMax ..) h.amocWord
  | amocMin => exact .of_eq (exec_amocMin ..) h.amocWord
  | amocCas => exact .of_eq (exec_amocCas ..) h.amocWord
  | beq => exact .of_eq (exec_beq ..) h.branchWord
  | bne => exact .of_eq (exec_bne ..) h.branchWord
  | blt => exact .of_eq (exec_blt ..) h.branchWord
  | bge => exact .of_eq (exec_bge ..) h.branchWord
  | bltu => exact .of_eq (exec_bltu ..) h.branchWord
  | bgeu => exact .of_eq (exec_bgeu ..) h.branchWord
  | beqz => exact .of_eq (exec_beqz ..) h.branchWord
  | bnez => exact .of_eq (exec_bnez ..) h.branchWord
  | loop => exact .of_eq (exec_loop ..) h.execLoop
  | jmp => exact .of_eq (exec_jmp ..) h.branchWord
  | jal => exact .of_eq (exec_jal ..) h.execJal
  | jr => exact .of_eq (exec_jr ..) h.execJr
  | bstat => exact .of_eq (exec_bstat ..) h.execBstat
  | vadd => exact .of_eq (exec_vadd ..) h.tileBinary
  | vsub => exact .of_eq (exec_vsub ..) h.tileBinary
  | vmul => exact .of_eq (exec_vmul ..) h.tileBinary
  | vmin => exact .of_eq (exec_vmin ..) h.tileBinary
  | vmax => exact .of_eq (exec_vmax ..) h.tileBinary
  | vabsd => exact .of_eq (exec_vabsd ..) h.tileBinary
  | vmov => exact .of_eq (exec_vmov ..) h.tileUnary
  | vsel => exact .of_eq (exec_vsel ..) h.tileBinary
  | vfma => exact .of_eq (exec_vfma ..) h.tileFused
  | vfms => exact .of_eq (exec_vfms ..) h.tileFused
  | vfnma => exact .of_eq (exec_vfnma ..) h.tileFused
  | viadd => exact .of_eq (exec_viadd ..) h.tileBinary
  | visub => exact .of_eq (exec_visub ..) h.tileBinary
  | vimul => exact .of_eq (exec_vimul ..) h.tileBinary
  | vimin => exact .of_eq (exec_vimin ..) h.tileBinary
  | vimax => exact .of_eq (exec_vimax ..) h.tileBinary
  | vand => exact .of_eq (exec_vand ..) h.tileBinary
  | vor => exact .of_eq (exec_vor ..) h.tileBinary
  | vxor => exact .of_eq (exec_vxor ..) h.tileBinary
  | vshl => exact .of_eq (exec_vshl ..) h.tileBinary
  | vshr => exact .of_eq (exec_vshr ..) h.tileBinary
  | vsra => exact .of_eq (exec_vsra ..) h.tileBinary
  | vclz => exact .of_eq (exec_vclz ..) h.tileUnary
  | vffs => exact .of_eq (exec_vffs ..) h.tileUnary
  | vpopc => exact .of_eq (exec_vpopc ..) h.tileUnary
  | vcmpFeq => exact .of_eq (exec_vcmpFeq ..) h.tileCompare
  | vcmpFlt => exact .of_eq (exec_vcmpFlt ..) h.tileCompare
  | vcmpFle => exact .of_eq (exec_vcmpFle ..) h.tileCompare
  | vcmpFun => exact .of_eq (exec_vcmpFun ..) h.tileCompare
  | vcmpIeq => exact .of_eq (exec_vcmpIeq ..) h.tileCompare
  | vcmpIlt => exact .of_eq (exec_vcmpIlt ..) h.tileCompare
  | vcmpIltu => exact .of_eq (exec_vcmpIltu ..) h.tileCompare
  | vcvtNar => exact .of_eq (exec_vcvtNar ..) h.tileUnary
  | vcvtWid => exact .of_eq (exec_vcvtWid ..) h.tileUnary
  | vsfnExp2 => exact .of_eq (exec_vsfnExp2 ..) h.tileUnary
  | vsfnLog2 => exact .of_eq (exec_vsfnLog2 ..) h.tileUnary
  | vsfnRcp => exact .of_eq (exec_vsfnRcp ..) h.tileUnary
  | vsfnRsqrt => exact .of_eq (exec_vsfnRsqrt ..) h.tileUnary
  | vsfnSqrt => exact .of_eq (exec_vsfnSqrt ..) h.tileUnary
  | vsfnTanh => exact .of_eq (exec_vsfnTanh ..) h.tileUnary
  | vsfnSigm => exact .of_eq (exec_vsfnSigm ..) h.tileUnary
  | vsfnSilu => exact .of_eq (exec_vsfnSilu ..) h.tileUnary
  | vrotr => exact .of_eq (exec_vrotr ..) h.tileUnary
  | vrotrHi => exact .of_eq (exec_vrotrHi ..) h.tileUnary
  | vrotc => exact .of_eq (exec_vrotc ..) h.tileUnary
  | vbcr => exact .of_eq (exec_vbcr ..) h.tileUnary
  | vbcrHi => exact .of_eq (exec_vbcrHi ..) h.tileUnary
  | vbcc => exact .of_eq (exec_vbcc ..) h.tileWord
  | vredrAdd => exact .of_eq (exec_vredrAdd ..) h.tileUnary
  | vredrMax => exact .of_eq (exec_vredrMax ..) h.tileUnary
  | vredrMin => exact .of_eq (exec_vredrMin ..) h.tileUnary
  | vredrIadd => exact .of_eq (exec_vredrIadd ..) h.tileUnary
  | vredcAdd => exact .of_eq (exec_vredcAdd ..) h.tileUnary
  | vredcMax => exact .of_eq (exec_vredcMax ..) h.tileUnary
  | vredcMin => exact .of_eq (exec_vredcMin ..) h.tileUnary
  | vredcIadd => exact .of_eq (exec_vredcIadd ..) h.tileUnary
  | vbcs => exact .of_eq (exec_vbcs ..) h.tileWord
  | vext => exact .of_eq (exec_vext ..) h.tileWord
  | vextHi => exact .of_eq (exec_vextHi ..) h.tileWord
  | vrand => exact .of_eq (exec_vrand ..) h.tileWord
  | osmx => exact .of_eq (exec_osmx ..) h.tileWord
  | osmf => exact .of_eq (exec_osmf ..) h.tileWord
  | pcfg => exact .of_eq (exec_pcfg ..) h.execPcfg
  | prwd => exact .of_eq (exec_prwd ..) h.execPrwd
  | shld => exact .of_eq (exec_shld ..) h.execShld
  | mma => exact .of_eq (exec_mma ..) h.execMma
  | lmma => exact .of_eq (exec_lmma ..) h.execLmma
  | tbuildZ => exact .of_eq (exec_tbuildZ ..) h.tbuildWord
  | tbuildC => exact .of_eq (exec_tbuildC ..) h.tbuildWord
  | tbuildC2 => exact .of_eq (exec_tbuildC2 ..) h.tbuildWord
  | tinv => exact .of_eq (exec_tinv ..) h.execTinv
  | tspill => exact .of_eq (exec_tspill ..) h.spillWord
  | tfill => exact .of_eq (exec_tfill ..) h.spillWord
  | cbld => exact .of_eq (exec_cbld ..) h.execCbld
  | epi => exact .of_eq (exec_epi ..) h.execEpi
  | cpy => exact .of_eq (exec_cpy ..) h.execCpy
  | saccFadd => exact .of_eq (exec_saccFadd ..) h.saccWord
  | saccFmax => exact .of_eq (exec_saccFmax ..) h.saccWord
  | saccFmin => exact .of_eq (exec_saccFmin ..) h.saccWord
  | saccIadd => exact .of_eq (exec_saccIadd ..) h.saccWord
  | arm => exact .of_eq (exec_arm ..) h.execArm
  | await => exact .of_eq (exec_await ..) h.execAwait
  | arrv => exact .of_eq (exec_arrv ..) h.execArrv
  | awaitX => exact .of_eq (exec_awaitX ..) h.execAwaitX
  | xgrant => exact .of_eq (exec_xgrant ..) h.execXgrant
  | xsend => exact .of_eq (exec_xsend ..) h.execXsend
  | xstat => exact .of_eq (exec_xstat ..) h.execXstat
  | emit => exact .of_eq (exec_emit ..) h.execEmit
  | mirr => exact .of_eq (exec_mirr ..) h.execMirr
  | tsub => exact .of_eq (exec_tsub ..) h.execTsub
  | qctl => exact .of_eq (exec_qctl ..) h.execQctl
  | tlbiCasement => exact .of_eq (exec_tlbiCasement ..) h.tlbi
  | tlbiPage => exact .of_eq (exec_tlbiPage ..) h.tlbi
  | resultLands => exact .of_eq (exec_resultLands ..) h.execResultLands
  | loadValueLands => exact .of_eq (exec_loadValueLands ..) h.execLoadValueLands
  | amocOldValueLands => exact .of_eq (exec_amocOldValueLands ..) h.execAmocOldValueLands
  | regionAlignment => exact .of_eq (exec_regionAlignment ..) h.execRegionAlignment
  | closingAlignment => exact .of_eq (exec_closingAlignment ..) h.execClosingAlignment
  | realignVisible => exact .of_eq (exec_realignVisible ..) h.execRealignVisible
  | budgetExceeded => exact .of_eq (exec_budgetExceeded ..) h.execBudgetExceeded
  | taskBudgetExpiry => exact .of_eq (exec_taskBudgetExpiry ..) h.execTaskBudgetExpiry
  | softErrorReexec => exact .of_eq (exec_softErrorReexec ..) h.execSoftErrorReexec
  | dispatchDecision => exact .of_eq (exec_dispatchDecision ..) h.execDispatchDecision
  | queueRecordRead => exact .of_eq (exec_queueRecordRead ..) h.execQueueRecordRead
  | waitRecheck => exact .of_eq (exec_waitRecheck ..) h.execWaitRecheck
  | markRecord => exact .of_eq (exec_markRecord ..) h.execMarkRecord
  | waitFaultTimeout => exact .of_eq (exec_waitFaultTimeout ..) h.execWaitFaultTimeout
  | preemptRequest => exact .of_eq (exec_preemptRequest ..) h.execPreemptRequest
  | saveComplete => exact .of_eq (exec_saveComplete ..) h.execSaveComplete
  | saveFault => exact .of_eq (exec_saveFault ..) h.execSaveFault
  | completionEntryWrite => exact .of_eq (exec_completionEntryWrite ..) h.execCompletionEntryWrite
  | cqInterrupt => exact .of_eq (exec_cqInterrupt ..) h.execCqInterrupt
  | trackerEntryFree => exact .of_eq (exec_trackerEntryFree ..) h.execTrackerEntryFree
  | heldEffectDrain => exact .of_eq (exec_heldEffectDrain ..) h.execHeldEffectDrain
  | copyBeat => exact .of_eq (exec_copyBeat ..) h.execCopyBeat
  | portDrain => exact .of_eq (exec_portDrain ..) h.execPortDrain
  | engineCommandStart => exact .of_eq (exec_engineCommandStart ..) h.execEngineCommandStart
  | mmaStep => exact .of_eq (exec_mmaStep ..) h.execMmaStep
  | mmaComplete => exact .of_eq (exec_mmaComplete ..) h.execMmaComplete
  | lmmaLookup => exact .of_eq (exec_lmmaLookup ..) h.execLmmaLookup
  | lmmaComplete => exact .of_eq (exec_lmmaComplete ..) h.execLmmaComplete
  | tbuildComplete => exact .of_eq (exec_tbuildComplete ..) h.execTbuildComplete
  | epiComplete => exact .of_eq (exec_epiComplete ..) h.execEpiComplete
  | saccUpdate => exact .of_eq (exec_saccUpdate ..) h.execSaccUpdate
  | tinvComplete => exact .of_eq (exec_tinvComplete ..) h.execTinvComplete
  | tspillComplete => exact .of_eq (exec_tspillComplete ..) h.execTspillComplete
  | tfillComplete => exact .of_eq (exec_tfillComplete ..) h.execTfillComplete
  | grantArrival => exact .of_eq (exec_grantArrival ..) h.execGrantArrival
  | transomGroupLands => exact .of_eq (exec_transomGroupLands ..) h.execTransomGroupLands
  | mirrorAreaComplete => exact .of_eq (exec_mirrorAreaComplete ..) h.execMirrorAreaComplete
  | chunkAtEndpoint => exact .of_eq (exec_chunkAtEndpoint ..) h.execChunkAtEndpoint
  | translationWalk => exact .of_eq (exec_translationWalk ..) h.execTranslationWalk
  | remoteStoreApply => exact .of_eq (exec_remoteStoreApply ..) h.execRemoteStoreApply
  | migrationSwitch => exact .of_eq (exec_migrationSwitch ..) h.execMigrationSwitch
  | fleetAnchorRewrite => exact .of_eq (exec_fleetAnchorRewrite ..) h.execFleetAnchorRewrite
  | ptpSync => exact .of_eq (exec_ptpSync ..) h.execPtpSync
  | holdover => exact .of_eq (exec_holdover ..) h.execHoldover
  | ptpPortRebind => exact .of_eq (exec_ptpPortRebind ..) h.execPtpPortRebind
  | sessionIngress => exact .of_eq (exec_sessionIngress ..) h.execSessionIngress
  | dieHeartbeat => exact .of_eq (exec_dieHeartbeat ..) h.execDieHeartbeat
  | dieLossDeclared => exact .of_eq (exec_dieLossDeclared ..) h.execDieLossDeclared
  | clockLockLoss => exact .of_eq (exec_clockLockLoss ..) h.execClockLockLoss
  | hingeClockLoss => exact .of_eq (exec_hingeClockLoss ..) h.execHingeClockLoss
  | powerOfferTick => exact .of_eq (exec_powerOfferTick ..) h.execPowerOfferTick
  | powerRebalance => exact .of_eq (exec_powerRebalance ..) h.execPowerRebalance
  | thermalHoldEnter => exact .of_eq (exec_thermalHoldEnter ..) h.execThermalHoldEnter
  | thermalHoldExit => exact .of_eq (exec_thermalHoldExit ..) h.execThermalHoldExit
  | hbmSlotService => exact .of_eq (exec_hbmSlotService ..) h.execHbmSlotService
  | usageWindowClose => exact .of_eq (exec_usageWindowClose ..) h.execUsageWindowClose
  | usageRecordComplete => exact .of_eq (exec_usageRecordComplete ..) h.execUsageRecordComplete
  | scrubUnitDone => exact .of_eq (exec_scrubUnitDone ..) h.execScrubUnitDone
  | bootStage => exact .of_eq (exec_bootStage ..) h.execBootStage
  | vfFlr => exact .of_eq (exec_vfFlr ..) h.execVfFlr
  | faultEntryWrite => exact .of_eq (exec_faultEntryWrite ..) h.execFaultEntryWrite
  | hostAccess => exact .of_eq (exec_hostAccess ..) h.execHostAccess
  | sublinkRetire => exact .of_eq (exec_sublinkRetire ..) h.execSublinkRetire
  | start => exact .of_eq (exec_start ..) h.execStart
  | stop => exact .of_eq (exec_stop ..) h.execStop
  | setrd => exact .of_eq (exec_setrd ..) h.execSetrd
  | qwrWrite => exact .of_eq (exec_qwrWrite ..) h.execQwrWrite
  | create => exact .of_eq (exec_create ..) h.execCreate
  | teardown => exact .of_eq (exec_teardown ..) h.execTeardown
  | drain => exact .of_eq (exec_drain ..) h.execDrain
  | resume => exact .of_eq (exec_resume ..) h.execResume
  | clrsave => exact .of_eq (exec_clrsave ..) h.execClrsave
  | quotaWrite => exact .of_eq (exec_quotaWrite ..) h.execQuotaWrite
  | warmReset => exact .of_eq (exec_warmReset ..) h.execWarmReset
  | coldReset => exact .of_eq (exec_coldReset ..) h.coldReset
  | retry => exact .of_eq (exec_retry ..) h.execRetry
  | abort => exact .of_eq (exec_abort ..) h.execAbort
  | htlbiCasement => exact .of_eq (exec_htlbiCasement ..) h.execHtlbiCasement
  | htlbiPage => exact .of_eq (exec_htlbiPage ..) h.execHtlbiPage
  | s2invAll => exact .of_eq (exec_s2invAll ..) h.execS2invAll
  | s2invIpa => exact .of_eq (exec_s2invIpa ..) h.execS2invIpa
  | sessionOpen => exact .of_eq (exec_sessionOpen ..) h.execSessionOpen
  | sessionClose => exact .of_eq (exec_sessionClose ..) h.execSessionClose
  | sublinkTableWrite => exact .of_eq (exec_sublinkTableWrite ..) h.execSublinkTableWrite
  | migrationStart => exact .of_eq (exec_migrationStart ..) h.execMigrationStart
  | migrationRelease => exact .of_eq (exec_migrationRelease ..) h.execMigrationRelease
  | fuseAdvance => exact .of_eq (exec_fuseAdvance ..) h.execFuseAdvance
  | registerWrite => exact .of_eq (exec_registerWrite ..) h.execRegisterWrite
  | instructionFetchComplete => exact .of_eq (exec_instructionFetchComplete ..) h.execInstructionFetchComplete
  | ethernetPortStateChange => exact .of_eq (exec_ethernetPortStateChange ..) h.execEthernetPortStateChange
  | firmwareRetirement => exact .of_eq (exec_firmwareRetirement ..) h.execFirmwareRetirement

/-! ### Moves and inputs -/

theorem State.Canonical.settleCycle {c : Nat} (h : s.Canonical) : (s.settleCycle c).Canonical := by
  unfold State.settleCycle
  exact h.modCore.settle

theorem State.Canonical.moveRun {m : Move} (h : s.Canonical) : SomeOk (m.run s) := by
  unfold Move.run
  split
  · split
    · next e => exact h.exec.of_next e
    trivial
  · exact h.same rfl
  · exact h.settleCycle
  exact h.serveStore

theorem State.Canonical.runWord {c : Nat} {q : SeqId} (h : s.Canonical) : OutcomeOk (s.runWord c q) := by
  unfold State.runWord
  dsimp only
  split
  · exact h.same rfl
  split
  · exact .held (h.same rfl)
  split
  · exact .held (h.same rfl)
  split
  · exact .raise (h.same rfl)
  split
  · split
    · exact .held (h.same rfl)
    split
    · exact .raise (h.same rfl)
    split
    · exact .raise (h.same rfl)
    split
    · next t e0 =>
        have ht : t.Canonical := h.exec.of_next e0
        exact ht.same rfl
    · trivial
    trivial
  split
  · exact .held (h.same rfl)
  split
  · exact .raise (h.same rfl)
  split
  · next t e7 =>
      have ht : t.Canonical := h.exec.of_next e7
      exact ht.same rfl
  · trivial
  trivial

theorem State.Canonical.takeInput (h : s.Canonical) {o : Host.Outcome State Fault Refusal} (e : s.takeInput = some o) : OutcomeOk o := by
  unfold State.takeInput at e
  split at e
  · cases e
  next i _ =>
    have hi : State.Canonical { s with inputs := s.inputs.erase i } := h.same rfl
    dsimp only at e
    split at e
    · cases e
      exact hi
    split at e
    · next t ht =>
        cases e
        have ho : OutcomeOk (.next t) := ht ▸ hi.exec (i := i.2)
        exact ho
    · cases e
      trivial
    · cases e
      exact hi

theorem State.Canonical.fetchCore {c : Nat} (h : s.Canonical) : (s.fetchCore c).Canonical := by
  unfold State.fetchCore
  dsimp only
  refine .foldl (fun t _ ht => ?_) h
  split
  · exact ht
  exact ht.drawDue.modCore.fetchAssured

theorem State.Canonical.endCores (h : s.Canonical) : (s.endCores).Canonical := by
  unfold State.endCores
  exact .foldl (fun _ _ ht => ht.grantPower.fetchCore) h

theorem State.Canonical.countBudgets (h : s.Canonical) : (s.countBudgets).Canonical := h.same rfl

theorem State.Canonical.countCycles (h : s.Canonical) : (s.countCycles).Canonical := by
  unfold State.countCycles
  dsimp only
  refine .foldl (fun t _ ht => ?_) h
  split
  · split
    · exact ht.modCasement
    exact ht
  exact ht

theorem State.Canonical.askFills (h : s.Canonical) : (s.askFills).Canonical := by
  unfold State.askFills
  dsimp only
  refine .foldl (fun t _ ht => ?_) h
  split
  · split
    · split
      · exact ht.askFill
      exact ht
    exact ht
  exact ht

theorem State.Canonical.retryEntries (h : s.Canonical) : (s.retryEntries).Canonical := by
  unfold State.retryEntries
  dsimp only
  refine .foldl (fun t _ ht => ?_) h
  split
  · exact ht.handlerStart
  exact ht

theorem State.Canonical.rescaleIfDue (h : s.Canonical) : (s.rescaleIfDue).Canonical := by
  unfold State.rescaleIfDue
  split
  · exact .rescaleAll (h.same rfl)
  exact h

theorem State.Canonical.retryWaits (h : s.Canonical) : (s.retryWaits).Canonical := by
  unfold State.retryWaits
  split
  · exact h
  exact h.carryAll.carryPage.markEntries.orderQueues.rescaleIfDue.retryEntries.flushAll.openWaiting.landWaiting

theorem State.Canonical.settleFaults (h : s.Canonical) : (s.settleFaults).Canonical := by
  unfold State.settleFaults
  dsimp only
  refine .foldl (fun t _ ht => ?_) h
  split
  · exact ht
  exact ht.settle

theorem State.Canonical.tick (h : s.Canonical) : s.tick.Canonical := by
  have hu := h.serveAllNear.askFills.settleFaults.markSaves.countBudgets.countCycles.endCores
  unfold State.tick
  dsimp only
  refine State.Canonical.same (.retryWaits (.giveSlots (.powerArrivals (.endInvalidations (.passFences (.passSteps (.readGroups ?_))))))) (by dsimp only)
  exact hu.same rfl

theorem State.Canonical.tickLost (h : s.Canonical) : (s.tickLost).Canonical := h.same rfl

/-! ### The step -/

theorem State.Canonical.step (h : s.Canonical) : OutcomeOk (Machine.step s) := by
  unfold Machine.step
  split
  · exact h.runWord
  split
  · next o e => exact h.takeInput e
  split
  · exact h.tickLost
  split
  · next t e =>
      obtain ⟨p, _, hp⟩ := List.exists_of_findSome?_eq_some e
      have ht : t.Canonical := (h.moveRun (m := p.move)).of_some hp
      exact ht
  exact h.tick

end

/-- Settles O35. -/
theorem memoryStaysCanonical : Obligations.MemoryStaysCanonical := by
  unfold Obligations.MemoryStaysCanonical
  intro s t hs ht
  exact ((State.Canonical.step ⟨hs⟩).of_next ht).wf

end Sys2Proof.Machine
end
